-- ==== Sys2Proof/Word.lean ====
section
/-! DEFINITION. The word types of the Steip H960: a byte, and the 64-bit register word (R6). -/
namespace Sys2Proof

/-- A byte of HBM, Loft or a packet. -/
abbrev Byte := BitVec 8

/-- A control-window register, a command word, a lane of a scalar register: 64 bits, little-endian (R6). -/
abbrev Word := BitVec 64

end Sys2Proof
end

