-- ==== Sys2Proof/Syntax.lean ====
section
/-! DEFINITION. The commands of the block: one constructor per row of spec/opcode_table.json, with the
row's operands. What only physics or another party can decide (an error in a stored symbol, a
residue upset, a measured temperature, the bytes of a reply) is an operand too. -/
namespace Sys2Proof

/-- Truss number (Table 00-3). -/
abbrev Truss := Fin 16
/-- Rafter array within a truss (04). -/
abbrev ArrayNo := Fin 4
/-- Lath engine within a truss (05). -/
abbrev LathNo := Fin 2
/-- Compute tile, holding trusses 4t to 4t + 3 (R390). -/
abbrev Tile := Fin 4
/-- Context number (10). -/
abbrev Ctx := Fin 64
/-- Course lane (08). -/
abbrev LaneNo := Fin 4
/-- Collective engine (12). -/
abbrev ColNo := Fin 2
/-- Ring dimension x, y, z (R343). -/
abbrev Dim := Fin 3
/-- Brutera link (Table 12-1). -/
abbrev LinkNo := Fin 48
/-- Ethernet port (R454). -/
abbrev PortNo := Fin 2
/-- Replica group (13). -/
abbrev GroupNo := Fin 8

/-- The outcome of the code of R13 on one word read. -/
inductive EccErr where
  | clean
  | corrected
  | uncorrectable
  deriving DecidableEq, Repr

/-- What a check of a datapath met (R120, R155, R220, R387): nothing; an upset that the one retry
cured; an upset that stayed. `site` is the lane, row or step concerned and `kind` the KIND of the
unit's error register. -/
inductive Upset where
  | none
  | retryPassed (site kind : Nat)
  | retryFailed (site kind : Nat)
  deriving DecidableEq, Repr

/-- A register of a Lath bank. -/
inductive LathReg where
  | vec (n : Fin 32)
  | scalar (n : Fin 16)
  | mask (n : Fin 8)
  deriving DecidableEq, Repr

/-- What a Lath instruction met: nothing; a register whose code corrected it or failed, the latter in a lane (R132); a
residue or parity upset (R154, R155). -/
inductive LathUpset where
  | none
  | regCorrected (r : LathReg)
  | regUncorrectable (r : LathReg) (lane : Nat)
  | retryPassed (lane : Nat) (parity : Bool)
  | retryFailed (lane : Nat) (parity : Bool)
  deriving DecidableEq, Repr

/-- A wrong sum of one pairwise add of a collective (R377): the chunk of this member's share of the reduction, or its 4 KiB
block for integers; the place in the list of the first member of the right-hand operand; the element; and by how much it is
off. -/
structure AddErr where
  unit : Nat
  right : Nat
  elem : Nat
  off : Int
  deriving DecidableEq, Repr

/-- A wrong partial sum in the 129 × 129 cells (R118, R119): the streamed row of the entry (128: the checksum row), the
column (128: the checksum column), the K-block, and by how much it is off. -/
structure CellErr where
  row : Nat
  col : Nat
  kblk : Nat
  delta : Int
  deriving DecidableEq, Repr

/-- What goes wrong in one computation of an entry: partial sums, and an element (row, column) that fails its residue check
or the code of the bank or drain buffer (R119). -/
structure AbftRun where
  errs : List CellErr
  code : Option (Nat × Nat)
  deriving DecidableEq, Repr

/-- Which way a clock control moves a truss clock (R445). -/
inductive ClockDir where
  | up
  | down
  deriving DecidableEq, Repr

/-- An engine that takes tasks (R272, Table 10-3). -/
inductive Engine where
  | hod (t : Truss)
  | raf (t : Truss) (a : ArrayNo)
  | lth (t : Truss) (e : LathNo)
  | tht (t : Truss)
  | atn (t : Truss)
  | col (e : ColNo)
  deriving DecidableEq, Repr

/-- A packet of the Brutera links (Table 12-3), with its payload; LEN is the payload's length, and in a read
request the length asked for. -/
structure Packet where
  vc : Nat
  cls : Nat
  kind : Nat
  len : Nat
  src : Nat
  dst : Nat
  addr : Word
  ctx : Nat
  tenant : Nat
  rtag : Nat
  chk : Word
  racc : Word
  fseq : Nat
  tgid : Nat
  gen : Nat
  payload : List Byte
  /-- The issuing unit that a flow is named by (R345); no field of the header is shown for it -/
  unit : Nat := 0
  /-- The checksums of all contributions, which travel with a partial (R377); no field of the header is shown for it -/
  sum : Nat := 0
  /-- Where it came into this device: span and class, none for this device's own (the model's note for R347) -/
  via : Option (Nat × Nat) := none
  deriving DecidableEq, Repr

/-- One received flit as its receiver sees it (R348, R350): its link sequence number, whether its CRC
held after the corrections of its mode, the corrections made, the acknowledgement (the next number that its
sender expects, and whether it asks for replay from there) and the credit returns of its trailer, its
virtual channel and class, and the packet that it completes, if any. -/
structure Flit where
  seq : Nat
  crcOk : Bool
  corrected : Bool
  ack : Nat
  replay : Bool
  credits : List (Nat × Nat)
  vc : Nat
  cls : Nat
  packet : Option Packet
  deriving DecidableEq, Repr

/-- How a link's training ended (R350 to R357). -/
inductive TrainResult where
  | up (half : Bool) (version : Nat) (depths : List Nat) (peer : Nat)
  | noLanes
  | noCommonVersion
  | gap
  deriving DecidableEq, Repr

/-- One delta batch for one owner (R180 to R183): its source, table, generation, round, sources of the
round, batch number, tag, whether its task waits for the round, and its folded records by physical row: `put` an
image or `add` deltas. -/
inductive RowUpdate where
  | add (row : Nat) (deltas : List Int)
  | put (row : Nat) (image : List Byte)
  deriving DecidableEq, Repr

structure DeltaBatch where
  source : Nat
  tgid : Nat
  tenant : Nat
  gen : Nat
  round : Nat
  nsrc : Nat
  seq : Nat
  rtag : Nat
  dfence : Bool
  wait : Bool
  rows : List RowUpdate
  deriving DecidableEq, Repr

/-- A near-memory operation (Table 11-4). -/
inductive NmaOp where
  | add32 (v : BitVec 32)
  | add64 (v : Word)
  | fadd32 (v : BitVec 32)
  | vadd32 (mask : BitVec 32) (v : List Byte)
  | vadd64 (mask : BitVec 32) (v : List Byte)
  | vfadd32 (mask : BitVec 32) (v : List Byte)
  | vaddU8S (mask : BitVec 32) (v : List Int)
  | vaddU4S (mask : BitVec 32) (v : List Int)
  | vaddS8S (mask : BitVec 32) (v : List Int)
  | put (mask : BitVec 32) (v : List Byte)
  deriving DecidableEq, Repr

/-- What a memory request is for (Table 11-3); `walk` is a Purlin root or page-table entry, and `soffitDemand` a
demand miss on behalf of any of the reads of P0. -/
inductive MemUse where
  | thatchRow | walk | attentionPage | soffitDemand
  | hodRead | ridgeRead | soffitPrefetch | rdmaRead
  | hodWrite | kvAppend | rdmaWrite | collectiveNma
  | scrub | digestBuild | deltaApply | soffitPreload | frameConvert | laneSweep
  deriving DecidableEq, Repr

/-- What the code of a sector finds in one burst (R328): symbols in error on these lanes, or data returned from the
wrong row or column. -/
inductive SectorErr where
  | lanes (bad : List Nat)
  | misplaced
  deriving DecidableEq, Repr

/-- The state of the paths a memory access crosses (R332); `failed` names the path. -/
inductive OnChip where
  | clean
  | corrected
  | resent
  | failed (path : Nat)
  deriving DecidableEq, Repr

/-- The header of a management request: source (address and port), MAGIC, VER, SEQ and LEN (Table 16-3), and the
port it came in on. -/
structure MgmtHdr where
  src : Nat
  magic : Nat
  ver : Nat
  seq : Nat
  len : Nat
  port : PortNo
  deriving DecidableEq, Repr

/-- The way a control-window access came in: RDMA on a queue pair with an rkey (R459), or a management request
(R461). -/
inductive Source where
  | rdma (qpn : Nat) (rkey : BitVec 32)
  | mgmt (h : MgmtHdr)
  deriving DecidableEq, Repr

/-- Who asks for a Flashing command (R428, R429): the mailbox, whose registers hold it, or a
management FLS request with its TAG and arguments (Table 16-4). `nvOk` says whether a write of the
non-volatile store that the command makes succeeds (Table 15-5, cause 0x0A). -/
inductive FlsReq where
  | mailbox (nvOk : Bool)
  | mgmt (h : MgmtHdr) (tag : Byte) (a0 a1 a2 a3 : Word) (nvOk : Bool)
  deriving DecidableEq, Repr

/-- What the hardware finds while Stage Batten runs (R440, R441): reference clocks and rails, which
device-image banks verify, channels failing training or test, rings whose loopback training fails,
and the fresh rkeys (R459). -/
structure BattenFindings where
  clocksOk : Bool
  railsOk : Bool
  failedChannels : List Nat
  failedRings : List Nat
  rkeyControl : BitVec 32
  rkeyMemory : BitVec 32
  deriving DecidableEq, Repr

/-- Which reference clock (R448). -/
inductive RefClk where
  | core
  | link
  | net
  deriving DecidableEq, Repr

/-- The parameters of QP_CREATE (Table 16-4). -/
structure QpParams where
  port : PortNo
  role : Nat
  ip : Nat
  remoteQpn : Nat
  psn : Nat
  mtu : Nat
  retries : Nat
  rnrRetries : Nat
  timeout : Nat
  deriving DecidableEq, Repr

/-- A request of the RoCEv2 transport, as far as R457 and R458 distinguish them. -/
inductive RoceKind where
  | send
  | rdmaWrite
  | rdmaRead
  | atomic
  | immediate
  | sendInvalidate
  | otherTransport
  deriving DecidableEq, Repr

/-- A push of the head of an array's drain buffer, the element of it (row, column) that fails the code of the buffer or its
residue check, and whether its replay passes (R17, R119). -/
structure TilePush where
  array : ArrayNo
  code : Option (Nat × Nat × Bool)
  deriving DecidableEq, Repr

/-- One half of an array's rows (R100). -/
structure HalfArray where
  array : ArrayNo
  half : Fin 2
  deriving DecidableEq, Repr

/-- What goes wrong in the computation of an entry, and in its replay (R118 to R120). -/
structure AbftRuns where
  first : AbftRun
  again : AbftRun
  deriving DecidableEq, Repr

/-- What an HBM access is for (Table 11-3), and the task that issued it when one did. -/
structure MemUser where
  use : MemUse
  job : Option Nat
  deriving DecidableEq, Repr

/-- How far the sweep of a channel has come (R336). -/
structure SweepAt where
  chan : Nat
  mib : Nat
  deriving DecidableEq, Repr

/-- A request's tag in a notice, and the link that the notice came in on (R361). -/
structure LinkTag where
  link : LinkNo
  rtag : Nat
  deriving DecidableEq, Repr

/-- A request's tag in an answer that it could not be carried, and whether a link went down under it (R362). -/
structure LostTag where
  rtag : Nat
  lost : Bool
  deriving DecidableEq, Repr

/-- A join that waits for its links, and whether a neighbour has announced version 1.1 (R366). -/
structure TrainWait where
  dim : Dim
  old : Bool
  deriving DecidableEq, Repr

/-- A join that a neighbour answered with BUSY, and when (R366). -/
structure BusyAnswer where
  dim : Dim
  busyAt : Nat
  deriving DecidableEq, Repr

/-- Wrong sums of the adds that a collective makes here, and of their repetition (R377). -/
structure AddRuns where
  first : List AddErr
  again : List AddErr
  deriving DecidableEq, Repr

/-- The command of a collective, and what goes wrong in its adds. -/
structure ColRun where
  job : Nat
  adds : AddRuns
  deriving DecidableEq, Repr

/-- The commands: one constructor per row of spec/opcode_table.json, in the table's order. Operand
`j` names a command in hand by its number, `b` a command buffer in progress, `v` the 64-bit value
of a register write. -/
inductive Instr where
  -- control window (00)
  | regWrite (src : Source) (off : Nat) (vs : List Word)
  | misalignedAccess (src : Source) (write : Bool) (off len : Nat)
  | unassignedOffsetAccess (src : Source) (write : Bool) (off : Nat)
  | flsMirrorWrite (src : Source) (off : Nat) (v : Word)
  -- power and temperature (15)
  | powerControlStep (t : Truss) (dir : ClockDir) (watts : Nat)
  | thermThrottle (tile : Tile) (celsius : Nat)
  | thermRestore (tile : Tile) (celsius : Nat)
  | thermalTrip (celsius : Nat)
  -- Loft, finished-tile queues and the Soffit cache (01)
  | loftPatrol (t : Truss) (word : Nat) (err : EccErr)
  | tileEntryPush (t : Truss) (x : TilePush)
  | soffitFill (t : Truss) (mshr : Nat)
  | sofWayLockWrite (t : Truss) (v : Word)
  | sofPreloadGo (t : Truss) (v : Word)
  | sofPreloadLine (t : Truss)
  | sofDisable (t : Truss) (v : Word)
  | sofEnable (t : Truss) (v : Word)
  | sofInvAll (t : Truss)
  | sofInvUnlocked (t : Truss)
  | sofInvDone (t : Truss)
  -- Hod engine (02, 03, 09)
  | hodXfer (t : Truss)
  | hodTile (t : Truss) (u : Upset)
  | hodReadReply (rtag : Nat) (data : List Byte)
  | hodRemoteWriteAck (rtag : Nat)
  | hodRemoteTimeout (t : Truss)
  -- Rafter arrays (04)
  | rafTask (t : Truss) (a : ArrayNo)
  | rafSload (t : Truss) (a : ArrayNo)
  | rafSloadDone (t : Truss) (a : ArrayNo)
  | rafMx128 (t : Truss) (a : ArrayNo) (bubbles : Nat)
  | rafMx64p (t : Truss) (h : HalfArray) (bubbles : Nat)
  | rafMx256k (t : Truss) (a : ArrayNo) (bubbles : Nat)
  | rafMt128 (t : Truss) (a : ArrayNo) (bubbles : Nat)
  | rafNop (t : Truss) (a : ArrayNo)
  | rafEnd (t : Truss) (a : ArrayNo)
  | rafEntryReady (t : Truss) (a : ArrayNo) (u : AbftRuns)
  | ballastMismatch (t : Truss) (a : ArrayNo) (col : Option Nat)
  | rafBallastWindow (t : Truss) (a : ArrayNo)
  | rafRampDownStep (t : Truss) (a : ArrayNo)
  | rafRampUpStep (t : Truss) (a : ArrayNo)
  -- Lath vector engine (05)
  | lthTask (t : Truss) (e : LathNo)
  | lthNop (t : Truss) (e : LathNo) (u : LathUpset)
  | lthEnd (t : Truss) (e : LathNo) (u : LathUpset)
  | lthBr (t : Truss) (e : LathNo) (u : LathUpset)
  | lthFsig (t : Truss) (e : LathNo) (u : LathUpset)
  | lthSadd (t : Truss) (e : LathNo) (u : LathUpset)
  | lthSsub (t : Truss) (e : LathNo) (u : LathUpset)
  | lthSshl (t : Truss) (e : LathNo) (u : LathUpset)
  | lthSld (t : Truss) (e : LathNo) (u : LathUpset)
  | lthSst (t : Truss) (e : LathNo) (u : LathUpset)
  | lthVext (t : Truss) (e : LathNo) (u : LathUpset)
  | lthVbcast (t : Truss) (e : LathNo) (u : LathUpset)
  | lthAdd (t : Truss) (e : LathNo) (u : LathUpset)
  | lthSub (t : Truss) (e : LathNo) (u : LathUpset)
  | lthAdds (t : Truss) (e : LathNo) (u : LathUpset)
  | lthSubs (t : Truss) (e : LathNo) (u : LathUpset)
  | lthMul (t : Truss) (e : LathNo) (u : LathUpset)
  | lthMulh (t : Truss) (e : LathNo) (u : LathUpset)
  | lthMadd (t : Truss) (e : LathNo) (u : LathUpset)
  | lthAbs (t : Truss) (e : LathNo) (u : LathUpset)
  | lthMin (t : Truss) (e : LathNo) (u : LathUpset)
  | lthMax (t : Truss) (e : LathNo) (u : LathUpset)
  | lthAnd (t : Truss) (e : LathNo) (u : LathUpset)
  | lthOr (t : Truss) (e : LathNo) (u : LathUpset)
  | lthXor (t : Truss) (e : LathNo) (u : LathUpset)
  | lthShl (t : Truss) (e : LathNo) (u : LathUpset)
  | lthShr (t : Truss) (e : LathNo) (u : LathUpset)
  | lthSra (t : Truss) (e : LathNo) (u : LathUpset)
  | lthSrar (t : Truss) (e : LathNo) (u : LathUpset)
  | lthCmp (t : Truss) (e : LathNo) (u : LathUpset)
  | lthSel (t : Truss) (e : LathNo) (u : LathUpset)
  | lthMov (t : Truss) (e : LathNo) (u : LathUpset)
  | lthLimm (t : Truss) (e : LathNo) (u : LathUpset)
  | lthLimmh (t : Truss) (e : LathNo) (u : LathUpset)
  | lthMand (t : Truss) (e : LathNo) (u : LathUpset)
  | lthMor (t : Truss) (e : LathNo) (u : LathUpset)
  | lthMnot (t : Truss) (e : LathNo) (u : LathUpset)
  | lthCvt (t : Truss) (e : LathNo) (u : LathUpset)
  | lthXadd (t : Truss) (e : LathNo) (u : LathUpset)
  | lthXcvt (t : Truss) (e : LathNo) (u : LathUpset)
  | lthXrsum (t : Truss) (e : LathNo) (u : LathUpset)
  | lthResc (t : Truss) (e : LathNo) (u : LathUpset)
  | lthReq (t : Truss) (e : LathNo) (u : LathUpset)
  | lthLdrr (t : Truss) (e : LathNo) (u : LathUpset)
  | lthRsum (t : Truss) (e : LathNo) (u : LathUpset)
  | lthRmin (t : Truss) (e : LathNo) (u : LathUpset)
  | lthRmax (t : Truss) (e : LathNo) (u : LathUpset)
  | lthTbl (t : Truss) (e : LathNo) (u : LathUpset)
  | lthExp2 (t : Truss) (e : LathNo) (u : LathUpset)
  | lthRcp (t : Truss) (e : LathNo) (u : LathUpset)
  | lthRsqrt (t : Truss) (e : LathNo) (u : LathUpset)
  | lthLd (t : Truss) (e : LathNo) (u : LathUpset)
  | lthSt (t : Truss) (e : LathNo) (u : LathUpset)
  | lthLdsc (t : Truss) (e : LathNo) (u : LathUpset)
  | lthStsc (t : Truss) (e : LathNo) (u : LathUpset)
  | lthTqpop (t : Truss) (e : LathNo) (u : LathUpset)
  | lthTqhdr (t : Truss) (e : LathNo) (u : LathUpset)
  | lthTqTimeout (t : Truss) (e : LathNo)
  | lthLdtbl (t : Truss) (e : LathNo) (u : LathUpset)
  | lthFadd (t : Truss) (e : LathNo) (u : LathUpset)
  | lthFsub (t : Truss) (e : LathNo) (u : LathUpset)
  | lthFmul (t : Truss) (e : LathNo) (u : LathUpset)
  | lthFfma (t : Truss) (e : LathNo) (u : LathUpset)
  | lthFdiv (t : Truss) (e : LathNo) (u : LathUpset)
  | lthFsqrt (t : Truss) (e : LathNo) (u : LathUpset)
  | lthFmin (t : Truss) (e : LathNo) (u : LathUpset)
  | lthFmax (t : Truss) (e : LathNo) (u : LathUpset)
  | lthFcmp (t : Truss) (e : LathNo) (u : LathUpset)
  | lthFcvt (t : Truss) (e : LathNo) (u : LathUpset)
  -- Thatch engine and embedding tables (06)
  | thtTask (t : Truss)
  | thtRowArrive (t : Truss) (rtag : Nat) (u : Upset)
  | thtRemoteReply (rtag : Nat) (data : List Byte)
  | thtRemoteRowRequest (p : Packet)
  | thtRemoteTimeout (t : Truss)
  | thtDeltaTask (t : Truss)
  | deltaBatch (b : DeltaBatch)
  | endOfRoundMarker (source tgid gen round nsrc : Nat)
  | roundApply (table : Nat) (slotB : Bool)
  | deltaBatchAck (rtag : Nat) (status cause : Nat)
  | desc (j : Nat)
  | openSlot (j : Nat)
  | sealSlot (j : Nat)
  | publish (j : Nat)
  | dropSlot (j : Nat)
  | rebuild (j : Nat)
  | closeRound (j : Nat)
  | digestBuildDone (table : Nat) (slotB : Bool)
  | slotRelease (table : Nat) (slotB : Bool)
  -- attention engine and paged KV cache (07)
  | atnTask (t : Truss)
  | atnPageStep (t : Truss) (u : Upset)
  | atnAppendRow (t : Truss) (u : Upset)
  | atnCombineStep (t : Truss) (u : Upset)
  | kvAppend (j : Nat)
  | truncate (j : Nat)
  | relocate (j : Nat)
  | fork (j : Nat)
  | kvEditApply (j : Nat)
  | kvEditTimeout (j : Nat)
  -- Course builder and deadline monitor (08)
  | requestArrival (client : Nat) (record : List Byte)
  | courseLay (lane : LaneNo)
  | courseOutcomeApply (lane : LaneNo)
  | resultWriteDone (ticket : Nat) (ok : Bool)
  | entryRelease (e : Nat)
  | attach (j : Nat)
  | detach (j : Nat)
  | detachComplete (client : Nat)
  | model (j : Nat)
  | park (j : Nat)
  | unpark (j : Nat)
  | courseRelease (j : Nat)
  | cancel (j : Nat)
  | poolAdd (j : Nat)
  -- submission, command processing and completion (09)
  | eaveRingWrite (qpn : Nat) (rkey : BitVec 32) (addr : Nat) (data : List Byte)
  | eaveDoorbell (v : Word)
  | eavePoll
  | eaveAccept
  | staleDoorbell
  | eaveCfgWrite (v : Word)
  | eaveExpectWrite (v : Word)
  | entryStart (entry : Nat)
  | entryComplete (entry : Nat)
  | cmdNop (j : Nat)
  | exec (j : Nat)
  | launch (j : Nat)
  | graphSeal (j : Nat)
  | graphPatch (j : Nat)
  | graphDrop (j : Nat)
  | cmdWait (b : Nat)
  | cmdSignal (b : Nat)
  | fenceSet (j : Nat)
  | barrier (b : Nat)
  | loop (b : Nat)
  | endloop (b : Nat)
  | ifCmd (b : Nat)
  | elseCmd (b : Nat)
  | endif (b : Nat)
  | sofPreload (j : Nat)
  | shingleAhead (eng : Engine)
  | gutWriteFail (c : Ctx) (n : Nat)
  | gutConsWrite (c : Ctx) (v : Word)
  | gutRearm (c : Ctx) (v : Word)
  | gutQuotaWrite (c : Ctx) (v : Word)
  | ridgeFenceSelWrite (v : Word)
  -- contexts, pre-emption and address translation (10)
  | ctxCreate (j : Nat)
  | ctxDestroy (j : Nat)
  | destroyProceed (c : Ctx)
  | ctxSet (j : Nat)
  | ctxGrant (j : Nat)
  | grantComplete (j : Nat)
  | ctxRelease (j : Nat)
  | releaseComplete (c : Ctx) (t : Truss)
  | engineTaskStart (eng : Engine)
  | enginePreempt (eng : Engine)
  | xltAnswer (v : Word)
  | xltResend (reqid : Nat)
  | xltRingWriteFail
  | xltReqConsWrite (v : Word)
  | xltReqCfgWrite (v : Word)
  | xltReqidReclaim (reqid : Nat)
  | xltMap (j : Nat)
  | xltUnmap (j : Nat)
  | xltFlush (j : Nat)
  | xltUnmapComplete (j : Nat)
  -- HBM memory system (11)
  | memReadRequest (addr : Nat) (u : MemUser) (ctx : Ctx) (err : SectorErr) (path : OnChip)
  | memWriteRequest (addr : Nat) (data : List Byte) (u : MemUser) (ctx : Ctx) (path : OnChip)
  | nmaOp (ops : List (Nat × NmaOp)) (u : MemUser) (ctx : Ctx)
  | memAge (req : Nat)
  | maintAnnounce
  | maintSlot (failing : List Nat)
  | maintHoldEnd
  | laneSweepDone (p : SweepAt)
  | scrub (addr : Nat) (errs : List SectorErr)
  | memPcRetrain (v : Word)
  | memPcRepair (v : Word)
  | memPcRetire (v : Word)
  | memMaintWrite (v : Word)
  | mapSlotWrite (m : Fin 2) (reg : Fin 9) (v : Word)
  | frameConvert (v : Word)
  | frameConvertDone
  -- Brutera links, rings and collectives (12)
  | linkFlitRx (l : LinkNo) (flit : Flit)
  | linkHeartbeat (l : LinkNo)
  | linkHbTimeout (l : LinkNo)
  | linkDown (l : LinkNo) (cause : Nat)
  | linkTrained (l : LinkNo) (res : TrainResult)
  | hodReadRequest (p : Packet)
  | hodRemoteWrite (p : Packet)
  | heldNotice (x : LinkTag)
  | unreachable (x : LostTag)
  | spliceJoin (d : Dim)
  | spliceLeave (d : Dim)
  | joinRequest (d : Dim) (plus : Bool)
  | joinHeld (d : Dim) (plus : Bool)
  | bypassOpenDone (d : Dim)
  | joinTrainTimeout (x : TrainWait)
  | joinRetry (x : BusyAnswer)
  | membershipUpdate (d : Dim) (members : Word)
  | colTask (e : ColNo) (x : ColRun)
  | colDataRx (e : ColNo) (p : Packet) (u : AddRuns)
  | colTimeout (e : ColNo) (colid : Nat)
  | colAbortRx (e : ColNo) (p : Packet)
  -- resilience (13)
  | quarantineApply (t : Truss)
  | quarantineForce (t : Truss)
  | test (v : Word)
  | testForce (v : Word)
  | relax (v : Word)
  | unquarantine (v : Word)
  | trussTestDone (t : Truss) (pass : Bool) (funit micros : Nat)
  | repWregNWrite (v : Word)
  | weightScanDone (region : Nat)
  | repCfgWrite (g : GroupNo) (v : Word)
  | replicaResolve (g : GroupNo)
  | rejoin (g : GroupNo)
  | fltLogConsWrite (v : Word)
  | flashingRestart (watchdog : Bool)
  | flashingRestartDone
  | tarpDrop
  -- counters and metering (14)
  | meterTick
  | meterPeriodic
  | meterSnapshot
  | mtrRingConsWrite (v : Word)
  | meterAudit
  -- Flashing commands (15)
  | status (r : FlsReq)
  | trussImage (r : FlsReq)
  | imageStage (r : FlsReq)
  | imageSelect (r : FlsReq)
  | fwStage (r : FlsReq)
  | fwActivate (r : FlsReq)
  | keyEnroll (r : FlsReq)
  | keyRevoke (r : FlsReq)
  | svnCommit (r : FlsReq)
  | plimit (r : FlsReq)
  | setDevnum (r : FlsReq)
  | start (r : FlsReq)
  | restart (r : FlsReq)
  | subscribe (r : FlsReq)
  | ownerOnly (r : FlsReq)
  | nonce (r : FlsReq) (fresh : BitVec 32)
  -- resets, stages and clocks (15, 16)
  | powerGood (resetLate : Bool)
  | deviceReset (pwrgd resetL : Bool)
  | stageTarp (fwAok fwBok : Bool)
  | stageBatten (f : BattenFindings)
  | stageThatched (failing : List Nat)
  | coreRefclkLoss
  | linkRefclkLoss
  | netRefclkLoss
  -- network ports and management (16)
  | spdmRequest (h : MgmtHdr) (request : List Byte)
  | rocePacket (p : PortNo) (qpn : Nat) (kind : RoceKind)
  | rdmaMemoryRead (qpn : Nat) (rkey : BitVec 32) (addr len : Nat)
  | rdmaMemoryWrite (qpn : Nat) (rkey : BitVec 32) (addr : Nat) (data : List Byte)
  | ecnCeRx (qpn : Nat)
  | cnpRx (qpn : Nat)
  | rateRecovery (qpn : Nat)
  | portDown (p : PortNo)
  | mgmtRead (h : MgmtHdr) (off count : Nat)
  | mgmtWrite (h : MgmtHdr) (off count : Nat) (values : List Word)
  | stageData (h : MgmtHdr) (off : Nat) (data : List Byte)
  | qpCreate (h : MgmtHdr) (q : QpParams) (psn : Nat)
  | qpDestroy (h : MgmtHdr) (qpn : Nat)
  | netCfg (h : MgmtHdr) (p : PortNo) (ipv4 ipv6 vlan : Nat) (pfc : Option Nat)
  | regRead (qpn : Nat) (rkey : BitVec 32) (off count : Nat)
  | remoteRefusal (rtag status cause : Nat)
  | heldNoticeSent (source rtag : Nat)
  | joinNoAnswer (d : Dim)
  | portUp (p : PortNo) (phy : Nat)
  | refclkRestored (c : RefClk)
  | clockRelocked (t : Truss)
  | analogCurrentLimiter (past : Bool)
  deriving DecidableEq, Repr

end Sys2Proof
end

