-- ==== Sys2Proof/Decode.lean ====
section
/-! DEFINITION. The table's rows give no bits (every row's "fields" is empty), so no word spells a
command. -/
namespace Sys2Proof

/-- The command that a word of the table's bits spells: none, since no row gives bits. -/
def decodeTableWord (_nbits _w : Nat) : Option Instr := none

end Sys2Proof
end

