-- ==== Sys2Proof/Config.lean ====
section
/-! DEFINITION. What an implementation fixes and the manual leaves open: free values, constants without
a body, applied to what they depend on. Nothing can be proved of their values. -/
namespace Sys2Proof.Config

/-- A value that the manual leaves open, one for each place it arises (State's counter `free`). -/
opaque freeNat : Nat → Nat

/-- SHA-512 (R430), a function the manual names and does not define. -/
opaque sha512 : List Byte → List Byte

/-- RSASSA-PSS verification with an RSA-4096 key (R430, RFC 8017): modulus, exponent, message, signature. -/
opaque rsaPssOk : List Byte → List Byte → List Byte → List Byte → Bool

/-- RSASSA-PSS verification of a key record (R431) by the owner key whose hash is given: hash, message, signature. -/
opaque ownerSigOk : List Byte → List Byte → List Byte → Bool

/-- The bytes of the boot ROM (Table 15-3). -/
opaque romImage : List Byte

/-- The SPDM 1.2 response (R433) to a request, by the measured objects of Table 15-3 and the place among the
device's open values (nonces, signatures). -/
opaque spdmResponse : List Byte → List (Nat × List Byte) → Nat → List Byte

/-- Security version and major version of a firmware object, whose layout the manual does not give (R432, R438). -/
opaque fwSvn : List Byte → Nat
opaque fwMajor : List Byte → Nat
/-- What bits [7:0] of FWVER (Table 13-8) hold for a firmware object: only its major version is described. -/
opaque fwMinor : List Byte → Nat

/-! Section contents of an Aisor image are produced by the Aisor toolchain (R434); what an image asks
for is a function of its bytes and the truss. -/
opaque imgStageGr : List Byte → Nat → Nat
opaque imgSoffitGr : List Byte → Nat → Nat
opaque imgShareGr : List Byte → Nat → Nat
opaque imgWaysLog2 : List Byte → Nat → Nat
opaque imgPoolLog2 : List Byte → Nat → Nat
opaque imgRafCaps : List Byte → Nat → Nat
opaque imgHodCaps : List Byte → Nat → Nat
/-- Arrays of a truss, by bit, that feed the other Lath engine than the default (01). -/
opaque imgCrossed : List Byte → Nat → Nat
/-- Seed of HBM map slot 0 (R320) -/
opaque imgMapSeed : List Byte → Nat
/-- Torus sizes DX, DY, DZ (R343), by dimension -/
opaque imgTorus : List Byte → Nat → Nat
/-- The hash of R345 over source, destination, virtual channel and issuing unit (log entry 30). -/
opaque flowHash : Nat → Nat → Nat → Nat → Nat
/-- The conversion that IMM[3:0] of FCVT selects (R151), by its four bits (log entry 40). -/
opaque fcvtSelect : Nat → Nat
/-- How a delta batch is laid out in packets and staging (R181, R182): source, round, SEQ and its records' bytes
(log entry 53). -/
opaque deltaBytes : Nat → Nat → Nat → List Byte → List Byte
/-- Which block in each COL_CTRL.SAMPLE goes to the shadow path (R377): its place, taken modulo SAMPLE. -/
opaque samplePhase : Nat
/-- The 32-bit shape digest of a collective (R371): OP, ELEM, N and the group record's bytes. -/
opaque shapeDigest : Nat → Nat → Nat → List Byte → Nat
/-- The management address of the neighbour on a ring's side, by 2 × dimension + (0 for +, 1 for −), as a device image gives
it: where in the image is not stated (R366). -/
opaque imgNeighbour : List Byte → Nat → Nat
/-- Role of a span (Table 12-13) -/
opaque imgSpanRole : List Byte → Nat → Nat
/-- Physical layer that the image names for a port (R455), if any -/
opaque imgPortPhy : List Byte → Nat → Option Nat

/-- Core voltage set point of a tile in mV that Batten sets before any raise (R441, Table 16-7). -/
opaque vcoreBase : Nat → Nat
/-- Energy coefficient in fJ of an event class on a truss (16 for no truss), held in fuses (R420). -/
opaque energyCoeff : Nat → Nat → Nat
/-- Leakage and clock energy of one µs in fJ, from the partition's estimate (R420), by the count of µs. -/
opaque leakage : Nat → Nat
/-- Measured package energy of one µs in µJ (R420), by the count of µs. -/
opaque energyMeasured : Nat → Nat

end Sys2Proof.Config
end

