-- ==== Sys2Proof/Machine/Units.lean ====
section
/-! DEFINITION. The plain data of the units that State holds: engines, queues, tables and what they
have in hand. Widths that the manual gives as fields are stated in the field's comment; registers
that software reads are words of Machine/RegTable.lean. -/
namespace Sys2Proof.Machine

open Sys2Proof

/-- Sparse data by number; an absent key holds the default its reader names. Sorted by key. -/
abbrev Tbl (α : Type) := List (Nat × α)

/-- Bytes by address in one canonical form (Ops.lean: `Memory.wf`); an unlisted byte reads 0. -/
abbrev Memory := List Host.Cell

/-- A command: four little-endian 64-bit words (R269). -/
structure Cmd where
  c0 : Word
  c1 : Word
  c2 : Word
  c3 : Word
  deriving DecidableEq, Repr, Inhabited

/-- An exponent-tracked value (A, X) (02, "Exponent-tracked results"): A signed 64-bit, X signed 16-bit. -/
structure Tracked where
  a : Int
  x : Int
  deriving DecidableEq, Repr, Inhabited

/-- What a task reports in the notes of its completion record (R69, R90, Table 09-11, layout A of
Table 09-12). Counts grow without bound here; R287 saturates them when the record is formed. -/
structure Report where
  notes : BitVec 32
  sat : Nat
  drl : Nat
  missLo : Nat
  missHi : Nat
  nfIndex : Option Nat
  skipped : Nat
  deriving DecidableEq, Repr, Inhabited

/-- How a task or command ended: its status code (Table 09-9) and, for a failure, the detail words
of layout B or C (Table 09-12). -/
structure Ending where
  status : Nat
  d0 : Word
  d1 : Word
  deriving DecidableEq, Repr, Inhabited

/-! ### Rafter arrays (04) -/

/-- A stationary set with its shape tag (SHAPE of Table 04-3), sizes, exponents and source (R95). `vals` holds the
multiplier values, zero points subtracted (R74), and `exps` the block exponents, both by column (MX) or vector
(MT.128): the values along K, and one exponent for each block along K or, under sharing across columns or vectors,
the one of its group. -/
structure RafSet where
  shape : Nat
  krows : Nat
  ncols : Nat
  wfmt : Nat
  wshare : Nat
  blk : Nat
  wnbp : Nat
  vals : List (List Int)
  exps : List (List Nat)
  ctx : Nat
  source : List Word
  deriving DecidableEq, Repr, Inhabited

/-- One aligned accumulator of an output element (R51) with the exponent Y of its row (R53, step 1):
G, the sticky bit, and Y. -/
structure AccCell where
  g : Int
  s : Bool
  y : Int
  deriving DecidableEq, Repr, Inhabited

/-- A finished-tile entry (R110), 8 rows of 128 values with 128 column exponents (R53). -/
structure TileEntry where
  array : Nat
  ctx : Nat
  tag : Nat
  half : Nat
  seq : Nat
  rowmask : BitVec 8
  last : Bool
  empty : Bool
  rows : List (List Int)
  xs : List Int
  popped : Nat
  deriving DecidableEq, Repr, Inhabited

/-- One operand's elements along K with its exponents: how it shares, its block size (R45, R72). -/
structure Side where
  vals : List Int
  exps : List Nat
  share : Nat
  b : Nat
  deriving DecidableEq, Repr, Inhabited

/-- An entry in the cells (R110): its header, where its result goes (ACM and bank entry, R105), its first output row, the
streamed rows (vectors for MT.128) that it takes, the index of the first of them, those that are in, the set they met,
and its instruction, for a replay (R120). -/
structure PendEntry where
  hdr : TileEntry
  acm : Nat
  bankEntry : Nat
  firstRow : Nat
  want : Nat
  row0 : Nat
  xs : List Side
  set : RafSet
  w : List Word
  deriving DecidableEq, Repr, Inhabited

/-- One bank entry: 8 rows of 128 values with one exponent per column ("Accumulation in the bank"). -/
structure BankEntry where
  rows : List (List Int)
  xs : List Int
  deriving DecidableEq, Repr, Inhabited

/-- One Rafter array. -/
structure RafArray where
  /-- Active sets, by half (0 for the whole array) (R95) -/
  active : Tbl RafSet
  /-- Valid shadow sets, by half (R95) -/
  shadow : Tbl RafSet
  /-- The set an SLOAD is loading, by half (R95, R97) -/
  loading : Tbl RafSet
  /-- Entries whose rows are in the cells, oldest first (R110) -/
  inflight : List PendEntry
  /-- Narrowed entries in the drain buffer, oldest first (R112) -/
  drain : List TileEntry
  /-- Accumulator stores: key 16 × slot + entry (R105, R107) -/
  bank : Tbl BankEntry
  /-- Held as the odd array of an MX.256K pair (R101) -/
  fused : Bool
  /-- Duty in sixteenths (R124) -/
  duty : Nat
  rampDown : Bool
  rampUp : Bool
  /-- Step lengths of the running ramp in ns (04, under Table 04-13) -/
  downStep : Nat
  upStep : Nat
  /-- Counter value of the last valid row and of the last duty change (R122, R124) -/
  lastRow : Nat
  lastStep : Nat
  /-- Counter value up to which ballast rows are counted (R122) -/
  filled : Nat
  /-- A ballast mismatch was met, and the active set is loaded again before the next valid row (R123) -/
  reload : Bool
  /-- The ballast generator (R122), 32 bits -/
  lfsr : BitVec 32
  /-- RAF_CTRL as the present instruction found it (Table 04-11) -/
  ctrl : Option Word
  deriving DecidableEq, Repr, Inhabited

/-! ### Lath engines (05) -/

/-- A table slot (R147): X0, SH and 256 entries of base and slope. -/
structure LthTable where
  x0 : BitVec 32
  sh : Nat
  entries : List (BitVec 32 × BitVec 32)
  deriving DecidableEq, Repr, Inhabited

/-- One bank of a Lath engine (Table 05-1). -/
structure LthBank where
  /-- V0–V31, 128 lanes of 32 bits -/
  v : Tbl (List (BitVec 32))
  /-- MK1–MK7, 128 bits (MK0 reads all ones) -/
  mask : Tbl (BitVec 128)
  /-- S1–S15, 64 bits (S0 reads zero) -/
  sr : Tbl Word
  /-- Table slots 0–3 -/
  tbl : Tbl LthTable
  /-- IEEE sticky flags: invalid, division by zero, overflow, underflow, inexact -/
  flags : BitVec 5
  /-- Program counter, 16 bits -/
  pc : BitVec 16
  deriving DecidableEq, Repr, Inhabited

/-- One Lath engine. -/
structure LthEngine where
  bank : Tbl LthBank
  /-- Finished-tile queue, head first, at most 8 (R17) -/
  queue : List TileEntry
  /-- Context owning the queue (R137) -/
  qowner : Option Nat
  /-- The owner's consumer has just been pre-empted with entries queued: the next task taken need not be it (R137) -/
  qpass : Bool
  /-- WAIT of LTH_STATUS -/
  wait : Nat
  deriving DecidableEq, Repr, Inhabited

/-! ### Soffit cache (01) -/

/-- A line in a way of a set: its line number (address ÷ 128) (R21) and its data. -/
structure SofLine where
  set : Nat
  way : Nat
  line : Nat
  data : List Byte
  deriving DecidableEq, Repr, Inhabited

/-- A miss register (R29): its line, class, the requests merged into it, whether it will not install (R31, R33, R34),
and whether an invalidation has passed, so that it accepts no merges (R31). -/
structure SofMiss where
  id : Nat
  line : Nat
  cls : Nat
  /-- The context whose way mask rules the fill (R25) -/
  ctx : Nat
  waiters : List Nat
  prefetch : Bool
  noInstall : Bool
  passed : Bool
  /-- What the read brings, none when it fails (R330); it is ordered at the controller when it is issued -/
  data : Option (List Byte)
  deriving DecidableEq, Repr, Inhabited

/-- A row read in flight (R165, R171): its tag, command, place in the look-up (bag, position, sub-table),
local physical address, its lines: waiting (none), failed (some none) or read, its context, and the request
of a remote device that it serves (R172), if it does. -/
structure RowReq where
  tag : Nat
  job : Nat
  truss : Nat
  bag : Nat
  pos : Nat
  sub : Nat
  addr : Nat
  len : Nat
  lines : List (Nat × Option (Option (List Byte)))
  ctx : Nat
  /-- Virtual address of the row -/
  va : Nat
  serve : Option Packet
  deriving DecidableEq, Repr, Inhabited

/-- A running preload (R26): the runs of lines still to read (first line and count), ways, the command
that started it, if one did (R270), the virtual address of its next line, and the account that pays. -/
structure SofPreload where
  runs : List (Nat × Nat)
  ways : BitVec 16
  job : Option Nat
  vaddr : Nat
  acct : Nat
  deriving DecidableEq, Repr, Inhabited

/-- One Soffit slice. -/
structure Soffit where
  /-- Ways and sets of the geometry (Table 01-9); 0 ways when the size is 0 -/
  ways : Nat
  sets : Nat
  lines : List SofLine
  /-- Pseudo-LRU tree bits by set (R23): bit i is node i -/
  lru : Tbl (BitVec 16)
  misses : List SofMiss
  /-- Requests waiting for a free miss register or for the fill of a full one: waiter, line, context, account and,
  for a free register, the counter value since when (R29) -/
  missWait : List (Nat × Nat × Nat × Nat × Option Nat)
  enabled : Bool
  /-- Writing ENABLE to 0 waits for fills in flight (R33) -/
  disabling : Bool
  /-- 0 none, 1 INV_ALL, 2 INV_UNLOCKED running (R34) -/
  inv : Nat
  invNeeded : Bool
  staleRisk : Bool
  /-- ENABLE = 1 written while INV_BUSY (R35) -/
  deferredEnable : Bool
  preload : Option SofPreload
  /-- PRELOAD_DONE (R28) -/
  preloadDone : Nat
  nextMiss : Nat
  deriving DecidableEq, Repr, Inhabited

/-- The Loft split and share slots of one truss (Tables 01-3, 01-7, 01-8). -/
structure ShareSlot where
  valid : Bool
  ctx : Nat
  base : Nat
  size : Nat
  /-- The grant has completed (R298) -/
  ready : Bool
  deriving DecidableEq, Repr, Inhabited

/-- One truss: configuration and state outside its engines. -/
structure TrussSt where
  /-- STATE of TRS_STATUS -/
  state : Nat
  poolLog2 : Nat
  stageGr : Nat
  soffitGr : Nat
  shareGr : Nat
  slots : Tbl ShareSlot
  /-- Image-enabled shapes, RAF_CAPS bits per array (Table 04-10) -/
  rafCaps : BitVec 8
  /-- HOD_CAPS (Table 02-9) -/
  hodCaps : BitVec 8
  /-- Arrays that the image routes to the Lath engine that is not theirs by default (01, "Finished-tile queues") -/
  crossed : BitVec 4
  /-- RELEASEs that wait: context, FORCE and the command that asked, if one did (R298) -/
  releasing : List (Nat × Bool × Option Nat)
  deriving DecidableEq, Repr, Inhabited

/-! ### Work in hand: entries, commands, buffers, graphs (09) -/

/-- One row that an index of a look-up names: sub-table, physical row, whether it has been asked for, and its bytes
once it has come (R162, R171). -/
structure ThtRow where
  sub : Nat
  row : Nat
  asked : Bool
  data : Option (List Byte)
  deriving DecidableEq, Repr, Inhabited

/-- A non-skipped index of a bag: its position, weight and rows (R167). -/
structure ThtItem where
  pos : Nat
  weight : Int
  rows : List ThtRow
  deriving DecidableEq, Repr, Inhabited

/-- An open bag: its number and its items in position order. -/
structure ThtBag where
  bag : Nat
  items : List ThtItem
  deriving DecidableEq, Repr, Inhabited

/-- A segment of an attention task (R205). -/
structure AtnSeg where
  segno : Nat
  seq : Nat
  start : Nat
  first : Nat
  nrow : Nat
  deriving DecidableEq, Repr, Inhabited

/-- A compute instruction that the sequencer has decoded and whose rows are not all in (R98): its index in the list, its
words, whether its first row is in, the streamed rows that are in, and the rows of its segments (R113). -/
structure RafStream where
  idx : Nat
  w : List Word
  begun : Bool
  row : Nat
  seg : Nat
  deriving DecidableEq, Repr, Inhabited

/-- The sequencer of an array (R98): index of the next instruction to decode, compute instructions under way, SLOADs
decoded that wait to begin (index and words, R97), and whether END is decoded. -/
structure RafSeq where
  pc : Nat
  streams : List RafStream
  loads : List (Nat × List Word)
  ended : Bool
  deriving DecidableEq, Repr, Inhabited

/-- What an engine keeps for a task (Table 10-3). -/
inductive Run where
  | none
  /-- Hod: the descriptor's words, the next row (or group of rows, or tile) and piece, the tolerances at the
  start, remote bytes fetched for the present tile, by address, the stores still to be made of a unit of more than 4 KiB
  (base word, distance, bytes), and whether such a unit is done again after a pre-emption -/
  | hod (w : List Word) (row piece : Nat) (tolS8 tolS4 : Nat) (fetched : List (Nat × List Byte))
      (left : List (Nat × Int × List Byte)) (again : Bool)
  /-- Rafter: list pointer, pair, the sequencer, and the SLOADs to repeat on resume: active set or shadow, half, words -/
  | raf (ptr : Word) (pair : Bool) (seq : RafSeq) (saved : List (Bool × Nat × List Word))
  /-- Lath: program pointer, length, tolerances, since when it waits -/
  | lth (ptr : Word) (len : Nat) (tolS8 tolS4 : Nat) (waitFrom : Option Nat)
  /-- Thatch look-up: descriptor words, table and slot bound, generation, next bag to open, open bags -/
  | tht (w : List Word) (table : Nat) (slotB : Bool) (gen next : Nat) (bags : List ThtBag)
  /-- Thatch delta task: its batches are sent, and acknowledgements are awaited -/
  | delta (w : List Word)
  /-- Attention: descriptor words, roots held by sequence (R196), segments, and the place reached: segment, group of
  rows and heads (or row), page of the range -/
  | atn (w : List Word) (roots : List (Nat × List Word)) (segs : List AtnSeg) (seg grp page : Nat)
  /-- Collective: key in the engine's list -/
  | col (colid : Nat)
  deriving DecidableEq, Repr, Inhabited

/-- Where a command in hand stands (R271, R272, R301, R304). -/
inductive JobState where
  | issued
  | ready
  | running
  | preempted
  | yielded
  | waiting
  | done
  deriving DecidableEq, Repr, Inhabited

/-- A command in hand: issued by a ring entry or by a buffer of it. -/
structure Job where
  id : Nat
  entry : Nat
  /-- The buffer that issued it, if one did, and its index there -/
  buf : Option Nat
  index : Nat
  ctx : Nat
  cmd : Cmd
  state : JobState
  engine : Option Engine
  /-- Readiness for the order of R272: a place in the order of becoming ready -/
  readyAt : Nat
  /-- Counter value since when it waits for a translation (CTX_XLT_WAIT_NS) -/
  waitFrom : Option Nat
  /-- Counter value at which it took its engine (ENGINE_US, Table 14-3) -/
  since : Nat
  preemptReq : Bool
  forced : Bool
  preloaded : Bool
  run : Run
  report : Report
  ending : Option Ending
  deriving DecidableEq, Repr, Inhabited

/-- Where an entry of the entry store stands (R265). -/
inductive EntryState where
  | accepted
  | started
  | completed
  deriving DecidableEq, Repr, Inhabited

/-- An entry in the entry store (Table 09-2), or a course launch of a lane (R282). -/
structure Entry where
  id : Nat
  stamp : Nat
  ctx : Nat
  tag : Nat
  wen : Bool
  wctx : Nat
  widx : Nat
  wval : Word
  sen : Bool
  sigok : Bool
  sidx : Nat
  sval : Word
  conc : Bool
  cmd : Cmd
  state : EntryState
  lane : Option Nat
  /-- The entry accepted before it in its context (R265) -/
  prev : Option Nat
  /-- Ended without running (R263, R268, R288, R300) -/
  ending : Option Ending
  deriving DecidableEq, Repr, Inhabited

/-- A count loop open in a buffer: index of its LOOP and passes left (R277). -/
structure Frame where
  start : Nat
  left : Nat
  deriving DecidableEq, Repr, Inhabited

/-- A command buffer or launch in progress (R275 to R283). -/
structure Buf where
  id : Nat
  entry : Nat
  job : Nat
  ctx : Nat
  parent : Option Nat
  cmds : List Cmd
  pc : Nat
  frames : List Frame
  /-- Launch record of a graph run (R281) -/
  slots : Option (List Word)
  /-- Graph number and key of the version that a launch is bound to -/
  graph : Option (Nat × Nat)
  /-- An EXEC issued by the buffer whose own buffer has not issued everything yet -/
  inner : Option Nat
  /-- Has issued everything, or issues nothing further (R278) -/
  finished : Bool
  /-- The WAIT at its place has been accepted and stands (R268, R299) -/
  stands : Bool
  deriving DecidableEq, Repr, Inhabited

/-- One version of a stored graph (R280). -/
structure GraphVer where
  /-- Tells the versions of a number apart that exist at once -/
  key : Nat
  version : Nat
  cmds : List Cmd
  defaults : List Word
  deriving DecidableEq, Repr, Inhabited

/-- A stored graph (R280): owner, key of the current version (0: number dropped) and the versions kept. -/
structure Graph where
  owner : Nat
  current : Nat
  vers : List GraphVer
  deriving DecidableEq, Repr, Inhabited

/-- A completion or event record (Table 09-10): its words less the phase bits. -/
structure GutRec where
  w0 : Word
  w1 : Word
  w2 : Word
  w3 : Word
  isEvent : Bool
  /-- Sent before, and counted then (R290, R293) -/
  again : Bool
  deriving DecidableEq, Repr, Inhabited

/-- A context's Gutter ring (R286 to R292). -/
structure Gutter where
  /-- Records produced (ISSUED) and written (WRITTEN), counted from context creation -/
  issued : Nat
  written : Nat
  held : List GutRec
  /-- Records sent and not yet consumed by the host, with their numbers, oldest first -/
  sent : List (Nat × GutRec)
  blocked : Bool
  redirected : Bool
  deriving DecidableEq, Repr, Inhabited

/-- The Eave ring's doorbell state (R259, R260). -/
structure Eave where
  target : Option Nat
  /-- Counter value at which the target was set -/
  since : Nat
  door : Nat
  stale : Bool
  stall : Bool
  stallFrom : Nat
  lastPoll : Nat
  /-- A read of the expected slot follows a doorbell write or an acceptance (R259) -/
  due : Bool
  /-- EN = 1 written before Thatched (R443) -/
  heldEnable : Bool
  deriving DecidableEq, Repr, Inhabited

/-! ### Contexts and translation (10) -/

/-- One context (R294 to R300). -/
structure Context where
  /-- STATE: 0 absent, 1 live, 2 destroying -/
  state : Nat
  prio : Nat
  lenLimit : Nat
  tenant : Nat
  fmask : Word
  /-- The DESTROY in progress: its command, FORCE, and the step of R300 reached -/
  destroy : Option (Nat × Bool × Nat)
  /-- The last entry accepted for it (R265) -/
  lastEntry : Option Nat
  deriving DecidableEq, Repr, Inhabited

/-- A translation (R307): context, virtual page base, size code, physical base, stores permitted. -/
structure Xlation where
  ctx : Nat
  va : Nat
  size : Nat
  pa : Nat
  wr : Bool
  deriving DecidableEq, Repr, Inhabited

/-- An outstanding translation request (R309 to R315). -/
structure XReq where
  reqid : Nat
  ctx : Nat
  va : Nat
  write : Bool
  truss : Nat
  kind : Nat
  time : Nat
  merged : Nat
  resends : Nat
  /-- Waiting commands, their trusses, faulting addresses, and whether each needs to store -/
  waiters : List (Nat × Nat × Nat × Bool)
  /-- Written to the host ring, and when its interval started (R313) -/
  sent : Bool
  since : Nat
  resent : Bool
  withdrawn : Bool
  destroyed : Bool
  deriving DecidableEq, Repr, Inhabited

/-- An access in flight that goes on with the translations it has (R308): the preload of a truss for a command, or
the read of a row. -/
inductive Pin where
  | preload (t job : Nat)
  | row (tag : Nat)
  deriving DecidableEq, Repr

/-- The translation unit. -/
structure Xlt where
  /-- First-level caches by truss, most recently used first, at most 512 -/
  l1 : Tbl (List Xlation)
  /-- Second-level sets, most recently used first, at most 4 -/
  l2 : Tbl (List Xlation)
  reqs : List XReq
  /-- Request records written to the host ring -/
  prod : Nat
  /-- Requests held for want of a ring slot, oldest first -/
  ringHeld : List Nat
  blocked : Bool
  /-- Accesses in flight that each waiting UNMAP or FLUSH found using what it removed (R308, R315) -/
  pins : List (Nat × Pin)
  /-- Misses waiting for a free REQID: context, and command, truss, address, store; and the time of the miss (R312) -/
  full : List ((Nat × Nat × Nat × Nat × Bool) × Nat)
  deriving DecidableEq, Repr, Inhabited

/-! ### HBM (11) -/

/-- One pseudo-channel (Table 11-12). -/
structure Chan where
  retired : Bool
  /-- Marked lanes, first marked first (R331) -/
  marks : List Nat
  spareUsed : Bool
  /-- The lane steered onto the spare (R336) -/
  steered : Option Nat
  sweeping : Bool
  /-- Sweep progress in MiB -/
  sweep : Nat
  fails : Nat
  held : Bool
  /-- Corrections of the last 1 ms, oldest first: lane and time (R331) -/
  corr : List (Nat × Nat)
  deriving DecidableEq, Repr, Inhabited

/-- What a request asks of a controller: a read of one sector, a write, near-memory operations at their addresses, a
burst of the scrub with what its four sectors meet. -/
inductive MemWork where
  | read (err : SectorErr)
  | write (data : List Byte)
  | near (ops : List (Nat × NmaOp))
  | scrub (errs : List SectorErr)
  deriving DecidableEq, Repr, Inhabited

/-- A request waiting at a controller (R324, R335). -/
structure MemReq where
  id : Nat
  addr : Nat
  work : MemWork
  /-- Class 0 to 3, as ageing has raised it -/
  cls : Nat
  ctx : Nat
  /-- The task that issued it, when one did -/
  job : Option Nat
  since : Nat
  deriving DecidableEq, Repr, Inhabited

/-- A map slot (R320): SEED, the excluded channels as a 512-bit mask, VALID. -/
structure MapSlot where
  seed : Nat
  excl : Nat
  valid : Bool
  deriving DecidableEq, Repr, Inhabited

/-- The HBM memory system. -/
structure Hbm where
  slot0 : MapSlot
  slot1 : MapSlot
  /-- Contents by local physical address -/
  mem : Memory
  /-- Uncorrectable sectors, by sector number (address ÷ 32) (R330) -/
  bad : List Nat
  /-- Sectors written since the lane repair of their channel, while its sweep runs: they use the spare (R336) -/
  rewritten : List Nat
  chans : Tbl Chan
  /-- Frames following map slot 1 (R320, R339) -/
  onMap1 : List Nat
  /-- The frame being zeroed (R339) -/
  converting : Option Nat
  /-- Work queued for the next maintenance slot: channel, operation, lane (R334) -/
  queued : List (Nat × Nat × Nat)
  /-- Slot spacing in force and the first slot it may use, in ns (R334) -/
  spacing : Nat
  firstSlot : Nat
  /-- New spacings and the first slot each governs, earliest first, while an older one still holds (R334) -/
  nextSpacings : List (Nat × Nat)
  /-- Slots announced and not yet held, counter values (R335) -/
  announced : List Nat
  lastSlot : Nat
  waiting : List MemReq
  nextReq : Nat
  deriving DecidableEq, Repr, Inhabited

/-! ### Thatch tables (06) -/

/-- A batch in staging (R182). -/
structure Round where
  number : Nat
  /-- NSRC of the round's first batch (R183), 0 before it -/
  nsrc : Nat
  /-- NSRC of the round's first marker: it counts while the round has no batch (R182) -/
  said : Nat
  markers : List Nat
  batches : List DeltaBatch
  closed : Bool
  /-- Row updates of the round already made, in the order of R182 -/
  made : Nat
  /-- Batches, by source and SEQ, with an update not made because its sector is uncorrectable (R327) -/
  spoilt : List (Nat × Nat)
  /-- Where each staged batch lies in the staging area: source, SEQ, offset, length (R182) -/
  places : List (Nat × Nat × Nat × Nat)
  deriving DecidableEq, Repr, Inhabited

/-- One version slot (R175). -/
structure VSlot where
  /-- 0 EMPTY, 1 LOADING, 2 STANDBY, 3 CURRENT, 4 RETIRING -/
  state : Nat
  gen : Nat
  digest : Word
  applied : Nat
  /-- Checkpoint digest and round (R402) -/
  cpDigest : Word
  cpRound : Nat
  rounds : List Round
  /-- SEAL (1) or REBUILD (2) in progress and its command (R176, R186) -/
  build : Option (Nat × Nat)
  /-- Batches of applied rounds: source, round, SEQ, by which a duplicate is known (R356) -/
  seen : List (Nat × Nat × Nat)
  deriving DecidableEq, Repr, Inhabited

/-- One table (R158): its descriptor words, its owner list as read at DESC, its slots. -/
structure Table where
  desc : List Word
  owners : List Nat
  valid : Bool
  a : VSlot
  b : VSlot
  /-- The five other status words as the last read of THT_TSTAT found them (R189) -/
  snap : Option (List Word)
  deriving DecidableEq, Repr, Inhabited

/-- A remote request in flight: its tag, command, truss, device, limit, and what it is for (R360, R361). The limit
runs from when the request leaves the device. -/
structure Remote where
  rtag : Nat
  job : Nat
  truss : Nat
  device : Nat
  /-- 0 row, 1 Hod read, 2 Hod write, 3 delta batch -/
  kind : Nat
  /-- Limit in ns (R361) -/
  limit : Nat
  /-- When the limit ends, once the request has left -/
  deadline : Option Nat
  graced : Bool
  bag : Nat
  pos : Nat
  sub : Nat
  addr : Nat
  len : Nat
  deriving DecidableEq, Repr, Inhabited

/-! ### Attention (07) -/

/-- Look-aside buffer entry (R197). -/
structure LabEntry where
  seq : Nat
  page : Nat
  pte : Word
  deriving DecidableEq, Repr, Inhabited

/-- The running pair of one row and head (R210). -/
structure RowState where
  row : Nat
  head : Nat
  l : Tracked
  acc : List Tracked
  any : Bool
  deriving DecidableEq, Repr, Inhabited

/-- One attention engine with its walker. -/
structure AtnEngine where
  lab : List LabEntry
  /-- Slot stores (R221): the running pairs of a task, under 4 × its number + share slot -/
  store : Tbl (List RowState)
  /-- Sequences under edit that hold the task at its start (R202) -/
  held : List Nat
  deriving DecidableEq, Repr, Inhabited

/-- A pending edit of R202: its command, OP, sequences, and limit. -/
structure KvEdit where
  job : Nat
  op : Nat
  seqs : List Nat
  n : Nat
  addr : Nat
  deadline : Nat
  deriving DecidableEq, Repr, Inhabited

/-! ### Course builder (08) -/

/-- A sequence-table entry (Tables 08-3 and 08-11). -/
structure SeqEntry where
  state : Nat
  pstate : Nat
  kind : Nat
  inc : Bool
  switched : Bool
  shared : Bool
  prio : Nat
  cause : Nat
  model : Nat
  client : Nat
  ctx : Nat
  root : Option Nat
  budget : Nat
  maxtok : Nat
  arrival : Nat
  pos : Nat
  premain : Nat
  ntok : Nat
  nitem : Nat
  nofb : Bool
  stream : Bool
  cancelled : Bool
  late : Bool
  fixed : Bool
  failedOnce : Bool
  slot : Nat
  reqid : Word
  raddr : Nat
  rkey : Nat
  outoff : Nat
  outlen : Nat
  notes : BitVec 32
  status : Nat
  nout : Nat
  /-- PARK, CANCEL or other change waiting for the course's outcomes (R230) -/
  pendPark : Bool
  pendCancel : Bool
  resultOut : Bool
  resultDone : Bool
  /-- The RELEASE that waits for it, if one does (Table 08-8) -/
  releaseReq : Option Nat
  deriving DecidableEq, Repr, Inhabited

/-- A request client (R225). -/
structure Client where
  attached : Bool
  detaching : Bool
  ctx : Nat
  qpn : Nat
  base : Nat
  nslot : Nat
  slotLog2 : Nat
  used : List Nat
  /-- Records received and not yet placed for want of a translation, oldest first: slot and bytes (R225) -/
  held : List (Nat × List Byte)
  deriving DecidableEq, Repr, Inhabited

/-- A loaded model (Table 08-4): its record words, the roots in use and its page ring (R237, R238). -/
structure Model where
  loaded : Bool
  words : List Word
  /-- A record accepted by MODEL that takes effect at the next laying of its lane (R232) -/
  next : Option (List Word)
  rootsUsed : List Nat
  head : Nat
  count : Nat
  deriving DecidableEq, Repr, Inhabited

/-- One course entry as laid (R239). -/
structure Laid where
  entry : Nat
  /-- 0 decode, 1 prefill, 2 ranking -/
  work : Nat
  rows : Nat
  pos : Nat
  deriving DecidableEq, Repr, Inhabited

/-- One course lane. -/
structure LaneSt where
  running : Bool
  course : Nat
  laid : List Laid
  predicted : Nat
  launchedAt : Nat
  factor : Nat
  pred : Nat
  actual : Nat
  launch : Option Nat
  /-- How the launch ended, and when -/
  result : Option (Ending × Report)
  doneAt : Nat
  /-- The course area and CRS_LANE_CFG as the laying found them -/
  area : Nat
  cfg : Word
  /-- The outcomes of the running course are not applied (R404) -/
  dropped : Bool
  /-- Notes of the course launch: an entry was switched or abandoned at its laying, or continued late (Table 09-11) -/
  notes : BitVec 32
  deriving DecidableEq, Repr, Inhabited

/-- A result or progress write in flight (R246, R247). -/
structure Ticket where
  id : Nat
  client : Nat
  entry : Option Nat
  slot : Nat
  final : Bool
  deriving DecidableEq, Repr, Inhabited

/-! ### Links and collectives (12) -/

/-- A packet that waits on a link: flits of it already sent, and the link in whose receive buffer it lies with the flits of
it still there (R353); none for this device's own. -/
structure TxPkt where
  packet : Packet
  sent : Nat
  inLink : Option (Nat × Nat)
  deriving DecidableEq, Repr

/-- One link (Table 12-18) with its credits and retry buffer. -/
structure Link where
  /-- 0 down, 1 training, 2 up, 3 held, 4 failed -/
  state : Nat
  half : Bool
  version : Nat
  fec : Bool
  cause : Nat
  /-- The neighbour's device number (PEER, Table 12-14) -/
  peer : Nat
  /-- Depth advertised and credits left, by 2 × VC + class (R353) -/
  depth : Tbl Nat
  credit : Tbl Nat
  /-- Packets not wholly acknowledged: number of the last flit and packet, oldest first (R350, R356) -/
  unacked : List (Nat × Packet)
  /-- Packets routed to this link and not wholly sent, oldest first -/
  txq : List TxPkt
  /-- The retry buffer: runs of flits sent and not acknowledged, by first number, count and packet (R350) -/
  retry : List (Nat × Nat × Packet)
  /-- Number of the next flit to send, and of the oldest one not acknowledged -/
  txSeq : Nat
  acked : Nat
  rxSeq : Nat
  /-- Replay requests for the present flit (R350) -/
  replays : Nat
  lastRx : Nat
  lastTx : Nat
  /-- Flits received of a packet not yet complete -/
  rxPart : Nat
  /-- Collective data received for this device that no engine has taken: it keeps its credits (R374) -/
  rxHeld : List Packet
  deriving DecidableEq, Repr, Inhabited

/-- A packet held at a splice: since when, whether its held notice has gone, its direction, and itself
(R361, R366). -/
structure HeldPkt where
  since : Nat
  noticed : Bool
  plus : Bool
  packet : Packet
  deriving DecidableEq, Repr

/-- A ring's splice state (R366, R367). -/
structure Splice where
  /-- 0 out, 1 joining, 2 in, 3 leaving -/
  state : Nat
  /-- Step reached: 1 JOIN sent or sends stopped, 3 bypass moving, 4 training -/
  step : Nat
  heldPlus : Bool
  heldMinus : Bool
  since : Nat
  silences : Nat
  /-- Coefficients stored for training against the loopback (R366) -/
  coeffs : Bool
  /-- The bypass is open (R363); closed at reset -/
  bypassOpen : Bool
  members : Word
  /-- This device holds the path of its + or − span for a neighbour (state 4), and still owes its HELD report -/
  holdPlus : Bool
  holdMinus : Bool
  owesPlus : Bool
  owesMinus : Bool
  holding : List HeldPkt
  deriving DecidableEq, Repr, Inhabited

/-- A collective (R369 to R378): its descriptor words, group, near-group size and shape digest. -/
structure Collective where
  colid : Nat
  job : Nat
  ctx : Nat
  words : List Word
  group : List Nat
  ng : Nat
  shape : Nat
  /-- Contributions received so far: member's place in the list, block, payload -/
  got : List (Nat × Nat × List Byte)
  /-- Blocks whose packet has been asked for again (R378) -/
  again : List (Nat × Nat)
  /-- Its own contribution has been read and sent -/
  sent : Bool
  lastProgress : Nat
  /-- Tags of its packets to each other member: tag, device (R360, R362) -/
  tags : List (Nat × Nat)
  /-- Its own contribution, kept for packets that are asked for again (R378) -/
  own : List Byte
  /-- The blocks formed so far of its share of the reduction: bytes, rounding account, checksums of the contributions
  (R377) -/
  formed : List (List Byte × Nat × Nat)
  /-- Elements saturated (R376) -/
  sat : Nat
  deriving DecidableEq, Repr, Inhabited

/-- An armed slot (R373) and its collective; it stays armed until the collective completes. -/
structure Armed where
  slot : Nat
  ctx : Nat
  trig : Nat
  count : Nat
  started : Bool
  col : Collective
  deriving DecidableEq, Repr, Inhabited

/-- One collective engine. -/
structure ColEngine where
  running : List Collective
  armed : List Armed
  /-- Data and aborts that came before the local start (R374) -/
  staged : List Packet
  /-- Data taken: context, COLID, source, offset and flow sequence, by which a duplicate is known (R356) -/
  seen : List (Nat × Nat × Nat × Nat × Nat)
  /-- Collectives that have completed here, the last of each COLID, for packets that are asked for again (R378) -/
  done : List Collective
  deriving DecidableEq, Repr, Inhabited

/-! ### Resilience (13) -/

/-- A fault-log record section (Table 13-8), before its bytes are formed. -/
structure FaultRec where
  kind : Nat
  severity : Nat
  unit : Nat
  ctx : Nat
  action : Nat
  step : Nat
  addr : Word
  info0 : Word
  info1 : Word
  time : Nat
  seq : Nat
  suppressed : Nat
  deriving DecidableEq, Repr, Inhabited

/-- Suspect handling of one truss (R388 to R396). -/
structure Suspect where
  step : Nat
  /-- Counter values of the events in the window -/
  events : List Nat
  qpend : Bool
  qpendAt : Nat
  testWait : Bool
  /-- Place in the order of commands of a waiting test -/
  testAt : Nat
  testing : Bool
  /-- What the running test is for: 0 TEST, 1 UNQUARANTINE, 2 truss image, 3 start -/
  testFor : Nat
  result : Nat
  funit : Nat
  deriving DecidableEq, Repr, Inhabited

/-- A weight region as loaded (Table 13-5) and its scan (R399). -/
structure Region where
  base : Nat
  ctx : Nat
  len : Nat
  ref : Word
  gen : Nat
  refValid : Bool
  scanned : Option Word
  /-- The last translation that its scan asked for: the stand-in that waits for it, and the address (R399) -/
  asked : Option (Nat × Nat)
  deriving DecidableEq, Repr, Inhabited

/-- A replica group (R400 to R405). -/
structure Group where
  /-- The record, item list and area as EN = 1 read them, once read -/
  loaded : Bool
  members : List Nat
  items : List Word
  area : Nat
  expelled : Bool
  flagged : Bool
  /-- Last epoch resolved -/
  epoch : Nat
  /-- An epoch that has begun and whose record is not yet written -/
  due : Option Nat
  /-- Epochs whose records this device has written and not resolved, with the counter value of the writing -/
  sent : List (Nat × Nat)
  /-- REJOIN was written and no epoch has been resolved since (R405) -/
  rejoined : Bool
  deriving DecidableEq, Repr, Inhabited

/-! ### Metering (14) -/

/-- One metered quantity: whole units and the hidden fraction, in counted amounts (R419). -/
structure Quantity where
  whole : Nat
  frac : Nat
  deriving DecidableEq, Repr, Inhabited

/-- The metering unit. -/
structure Meter where
  /-- Accounts: key 32 × account + quantity (R417) -/
  acct : Tbl Quantity
  /-- Totals and retired sums by quantity -/
  total : Tbl Nat
  retired : Tbl Nat
  snap : Nat
  lastPeriod : Nat
  lastTick : Nat
  lastAudit : Nat
  /-- MTR_OVF.ACCT and TOTAL (Table 14-8) -/
  ovfAcct : Bool
  ovfTotal : Bool
  /-- µs ticked so far, and measured energy (R420) -/
  ticks : Nat
  measured : Nat
  deriving DecidableEq, Repr, Inhabited

/-! ### Flashing, clocks, stages (15) -/

/-- Start stage, with the states outside Table 15-6. -/
inductive Stage where
  | off
  | beforeTarp
  | tarp
  | batten
  | thatched
  | tripped
  deriving DecidableEq, Repr, Inhabited

/-- Clocks, pins and resets. -/
structure Clocks where
  stage : Stage
  /-- Batten has begun and not ended -/
  starting : Bool
  /-- Steps 1 to 3 of R441 are done; 1 + the ring whose join runs or comes next -/
  battenStep : Nat
  /-- A ring join has begun since the start -/
  joinBegun : Bool
  /-- The 1 GHz counter and whether it counts (R447) -/
  now : Nat
  counting : Bool
  coreOk : Bool
  linkOk : Bool
  netOk : Bool
  pwrgd : Bool
  resetL : Bool
  thermtrip : Bool
  ridgeLock : Bool
  loftLock : Bool
  /-- Truss clocks in MHz, lock, and what holds each below its ceiling -/
  mhz : Tbl Nat
  locked : BitVec 16
  powerHeld : BitVec 16
  thermHeld : BitVec 4
  lastMove : Tbl Nat
  coolSince : Tbl Nat
  limiter : Bool
  /-- Last reading of the hottest sensor of each tile in °C -/
  temps : Tbl Nat
  watts : Nat
  startKind : Nat
  priorTarp : Bool
  /-- How the present run ended, or the last one, for the next start (Table 15-19) -/
  endedTarp : Bool
  endedTrip : Bool
  priorTrip : Bool
  flsRestarts : Nat
  deriving DecidableEq, Repr, Inhabited

/-- A management reply kept (R462): the request's source and SEQ, STATUS, and the payload's words and bytes. -/
structure Kept where
  src : Nat
  seq : Nat
  status : Nat
  values : List Word
  data : List Byte
  deriving DecidableEq, Repr, Inhabited

/-- A Flashing command that waits for those before it (R428): the one that the mailbox has handed over, or a management
request with its code and, for NONCE, the number drawn for it. -/
inductive FlsWait where
  | mailbox
  | mgmt (code : Nat) (r : FlsReq) (fresh : BitVec 32)
  deriving DecidableEq, Repr

/-- The Flashing partition (Table 15-1). -/
structure Flashing where
  -- non-volatile store
  autostart : Bool
  plimit : Nat
  bankA : List Byte
  bankB : List Byte
  fwA : List Byte
  fwB : List Byte
  nextBank : Nat
  fwNext : Nat
  storedRecs : List FaultRec
  storedQuar : BitVec 16
  storedStep : Tbl Nat
  phy : Tbl Nat
  /-- Core voltage set points by tile in mV, raises not included (R441, R467) -/
  vcore : Tbl Nat
  /-- Fault records to send to managers once a restart is over (R407, R409) -/
  heldRecs : List FaultRec
  -- fuses and identity
  /-- Silicon step: 0xA1 or 0xB0 (R3) -/
  silicon : Nat
  /-- 128-bit unique identifier (Table 13-7, Platform ID) -/
  uniqueId : Nat
  mac : Nat
  enrolled : BitVec 4
  revoked : BitVec 4
  ownerOnly : Bool
  svnFw : Nat
  svnDev : Nat
  svnTruss : Nat
  keyHash : Tbl (List Byte)
  -- running
  bank : Nat
  fwbank : Nat
  fwMajor : Nat
  imgMajor : Nat
  runSvnFw : Nat
  runSvnDev : Nat
  runSvnTruss : Nat
  /-- What the running device image gives: ring sizes less 1 by dimension, and roles by span (R343) -/
  torus : Tbl Nat
  roles : Tbl Nat
  /-- Management addresses of the neighbours, by 2 × dimension + (0 for +, 1 for −) (R366) -/
  neighbours : Tbl Nat
  majorMismatch : Bool
  /-- No firmware bank verified: the ROM answers (R439) -/
  romOnly : Bool
  startErr : Nat
  restarting : Bool
  restartAt : Nat
  restartCause : Nat
  failTimes : List Nat
  heldEvents : List Nat
  nonce : Option (BitVec 32)
  staging : Memory
  /-- Commands that wait their turn, first come first (R428) -/
  line : List FlsWait
  mboxCode : Nat
  mboxTag : Nat
  mboxBusy : Bool
  mboxArgs : List Word
  /-- The last translation that a mailbox command asked for: the stand-in that waits for it, and the address -/
  mboxAsked : Option (Nat × Nat)
  /-- Accepted entries without a record at the last drop to Tarp (R411) -/
  unrecorded : Nat
  managers : Tbl Nat
  kept : List Kept
  /-- Truss images applied: 16 entries, empty for none (Table 15-3) -/
  trussImages : Tbl (List Byte)
  /-- TRUSS_IMAGE in progress: truss and request -/
  imageJob : Option (Nat × FlsReq)
  deriving DecidableEq, Repr, Inhabited

/-! ### Network (16) -/

/-- A queue pair (R456 to R460). -/
structure Qp where
  port : Nat
  /-- 0 OWNER, 1 HOST, 2 CLIENT -/
  role : Nat
  ip : Nat
  remote : Nat
  /-- Start PSNs: the remote end's and the device's own -/
  psn : Nat
  ownPsn : Nat
  mtu : Nat
  retries : Nat
  rnrRetries : Nat
  timeout : Nat
  error : Bool
  /-- Send rate in Mbit/s (R460) -/
  rate : Nat
  lastCnpTx : Option Nat
  lastCnpRx : Option Nat
  /-- When a notification last cut the rate -/
  lastCut : Option Nat
  lastRaise : Nat
  deriving DecidableEq, Repr, Inhabited

/-- An Ethernet port (Table 16-14). -/
structure Port where
  up : Bool
  phy : Nat
  pfc : Option Nat
  addrSet : Bool
  ipv4 : Nat
  ipv6 : Nat
  vlan : Nat
  deriving DecidableEq, Repr, Inhabited

/-- What the device sends to the outside, in the order of sending. -/
inductive Output where
  /-- RDMA WRITE by the device: queue pair, rkey, host address, bytes -/
  | hostWrite (qpn rkey : Nat) (addr : Nat) (data : List Byte)
  /-- Answer to an RDMA request: 0 ACK, 1 remote access error, 2 remote operational error, 3 invalid request -/
  | rdmaReply (qpn : Nat) (status : Nat) (data : List Byte)
  | rnrNak (qpn : Nat)
  | mgmtReply (src seq : Nat) (status : Nat) (payload : List Word) (data : List Byte)
  | mgmtEvent (slot : Nat) (data : List Byte)
  /-- `n` flits of a packet, numbered from `seq`, on link `l` (R348) -/
  | packet (l seq n : Nat) (p : Packet)
  /-- The acknowledgement of a trailer: the number of the next flit expected (R350) -/
  | ack (l seq : Nat)
  | heartbeat (l : Nat)
  | replayRequest (l seq : Nat)
  | creditReturn (l vc cls : Nat)
  /-- A splice message on a ring's + or − side, to a management address -/
  | splice (d : Nat) (plus : Bool) (peer : Nat) (msg : Nat)
  | cnp (qpn : Nat)
  | avs (rail millivolts : Nat)
  deriving DecidableEq, Repr, Inhabited

end Sys2Proof.Machine
end

