-- ==== Sys2Proof/Machine/RegTable.lean ====
section
/-! DEFINITION. The registers of the control window (Tables 00-2 to 16-15): the offset of each, the
place of each field, and one row per register with its fields' access codes (Table 00-10) and reset
values. An indexed register's row covers all its instances. -/
namespace Sys2Proof.Machine

/-- Access codes (Table 00-10); the manual's tables use these four. -/
inductive Acc where
  | ro | rw | w1c | wo
  deriving DecidableEq, Repr

/-- A field: lowest bit, width, access, reset value (0 where the table names a source instead of a value). -/
structure RegField where
  lo : Nat
  w : Nat
  acc : Acc
  rst : Nat
  deriving DecidableEq, Repr

/-- A register of a table: offset of its first instance, how its instances repeat (count and stride,
outermost first), whether it is a counter, and its fields. -/
structure RegRow where
  base : Nat
  dims : List (Nat × Nat)
  counter : Bool
  fields : List RegField
  deriving DecidableEq, Repr

/-- The place of a field: lowest bit and width. -/
structure FieldPos where
  lo : Nat
  w : Nat
  deriving DecidableEq, Repr

namespace Reg

-- Table 00-2
def GLB_DEVICE_ID : Nat := 0x0
-- Table 01-5
def TRS_STATUS (i : Nat) : Nat := 0x1000000 + 0x100000 * i
-- Table 01-6
def TRS_HOLD (i : Nat) : Nat := 0x1000008 + 0x100000 * i
-- Table 01-7
def LOFT_LAYOUT (i : Nat) : Nat := 0x1020000 + 0x100000 * i
-- Table 01-8
def LOFT_SHARE (i : Nat) (j : Nat) : Nat := 0x1020010 + 0x100000 * i + 0x8 * j
-- Table 01-9
def SOF_CFG (i : Nat) : Nat := 0x1040000 + 0x100000 * i
-- Table 01-10
def SOF_CTRL (i : Nat) : Nat := 0x1040008 + 0x100000 * i
-- Table 01-11
def SOF_STATUS (i : Nat) : Nat := 0x1040010 + 0x100000 * i
-- Table 01-12
def SOF_WAY_LOCK (i : Nat) : Nat := 0x1040018 + 0x100000 * i
-- Table 01-13
def SOF_INV (i : Nat) : Nat := 0x1040020 + 0x100000 * i
-- Table 01-14
def SOF_PRELOAD_BASE (i : Nat) : Nat := 0x1040028 + 0x100000 * i
-- Table 01-15
def SOF_PRELOAD_CTRL (i : Nat) : Nat := 0x1040030 + 0x100000 * i
-- Table 01-16
def SOF_WAYMASK (i : Nat) (j : Nat) : Nat := 0x1040040 + 0x100000 * i + 0x8 * j
-- Table 01-17
def LOFT_ECC_CORR (i : Nat) : Nat := 0x1020040 + 0x100000 * i
def LOFT_ECC_UNCORR (i : Nat) : Nat := 0x1020048 + 0x100000 * i
def SOF_HITS (i : Nat) : Nat := 0x1040080 + 0x100000 * i
def SOF_MISSES (i : Nat) : Nat := 0x1040088 + 0x100000 * i
def SOF_MERGED (i : Nat) : Nat := 0x1040090 + 0x100000 * i
def SOF_PREFETCH (i : Nat) : Nat := 0x1040098 + 0x100000 * i
def SOF_MSHR_FULL (i : Nat) : Nat := 0x10400a0 + 0x100000 * i
def SOF_NOFILL (i : Nat) : Nat := 0x10400a8 + 0x100000 * i
def SOF_ECC_REFETCH (i : Nat) : Nat := 0x10400b0 + 0x100000 * i
-- Table 02-9
def HOD_CAPS (i : Nat) : Nat := 0x10c0000 + 0x100000 * i
-- Table 02-10
def HOD_FP_FLAGS (i : Nat) : Nat := 0x10c0010 + 0x100000 * i
-- Table 02-11
def HOD_SAT (i : Nat) : Nat := 0x10c0040 + 0x100000 * i
def HOD_DRL (i : Nat) : Nat := 0x10c0048 + 0x100000 * i
def HOD_NONFINITE (i : Nat) : Nat := 0x10c0050 + 0x100000 * i
-- Table 03-8
def HOD_SCALE_TOL (i : Nat) : Nat := 0x10c0018 + 0x100000 * i
-- Table 03-9
def HOD_SKEW_INFO (i : Nat) : Nat := 0x10c0020 + 0x100000 * i
-- Table 03-10
def HOD_SCALE_MISS_LO (i : Nat) : Nat := 0x10c0058 + 0x100000 * i
def HOD_SCALE_MISS_HI (i : Nat) : Nat := 0x10c0060 + 0x100000 * i
def HOD_SKEW (i : Nat) : Nat := 0x10c0068 + 0x100000 * i
-- Table 04-10
def RAF_CAPS (i : Nat) (j : Nat) : Nat := 0x1060000 + 0x100000 * i + 0x10000 * j
-- Table 04-11
def RAF_CTRL (i : Nat) (j : Nat) : Nat := 0x1060008 + 0x100000 * i + 0x10000 * j
-- Table 04-12
def RAF_STATUS (i : Nat) (j : Nat) : Nat := 0x1060010 + 0x100000 * i + 0x10000 * j
-- Table 04-13
def RAF_BALLAST (i : Nat) (j : Nat) : Nat := 0x1060018 + 0x100000 * i + 0x10000 * j
-- Table 04-14
def RAF_ABFT_INFO (i : Nat) (j : Nat) : Nat := 0x1060020 + 0x100000 * i + 0x10000 * j
-- Table 04-15
def RAF_ROWS (i : Nat) (j : Nat) : Nat := 0x1060040 + 0x100000 * i + 0x10000 * j
def RAF_BUBBLES (i : Nat) (j : Nat) : Nat := 0x1060048 + 0x100000 * i + 0x10000 * j
def RAF_BALLAST_ROWS (i : Nat) (j : Nat) : Nat := 0x1060050 + 0x100000 * i + 0x10000 * j
def RAF_ABFT_ERR (i : Nat) (j : Nat) : Nat := 0x1060058 + 0x100000 * i + 0x10000 * j
def RAF_ABFT_RETRY_OK (i : Nat) (j : Nat) : Nat := 0x1060060 + 0x100000 * i + 0x10000 * j
def RAF_BALLAST_ERR (i : Nat) (j : Nat) : Nat := 0x1060068 + 0x100000 * i + 0x10000 * j
def RAF_RESLATES (i : Nat) (j : Nat) : Nat := 0x1060070 + 0x100000 * i + 0x10000 * j
def RAF_SKEW (i : Nat) (j : Nat) : Nat := 0x1060078 + 0x100000 * i + 0x10000 * j
def RAF_DRAIN_STALL (i : Nat) (j : Nat) : Nat := 0x1060080 + 0x100000 * i + 0x10000 * j
def RAF_REFUSED (i : Nat) (j : Nat) : Nat := 0x1060088 + 0x100000 * i + 0x10000 * j
-- Table 05-7
def LTH_CTRL (i : Nat) (j : Nat) : Nat := 0x10a0000 + 0x100000 * i + 0x10000 * j
-- Table 05-8
def LTH_STATUS (i : Nat) (j : Nat) : Nat := 0x10a0008 + 0x100000 * i + 0x10000 * j
-- Table 05-9
def LTH_FP_FLAGS (i : Nat) (j : Nat) : Nat := 0x10a0010 + 0x100000 * i + 0x10000 * j
-- Table 05-10
def LTH_ERR_INFO (i : Nat) (j : Nat) : Nat := 0x10a0018 + 0x100000 * i + 0x10000 * j
-- Table 05-11
def LTH_INSTR (i : Nat) (j : Nat) : Nat := 0x10a0040 + 0x100000 * i + 0x10000 * j
def LTH_TQ_POPS (i : Nat) (j : Nat) : Nat := 0x10a0048 + 0x100000 * i + 0x10000 * j
def LTH_TQ_WAIT (i : Nat) (j : Nat) : Nat := 0x10a0050 + 0x100000 * i + 0x10000 * j
def LTH_TQ_DISCARD (i : Nat) (j : Nat) : Nat := 0x10a0058 + 0x100000 * i + 0x10000 * j
def LTH_SAT (i : Nat) (j : Nat) : Nat := 0x10a0060 + 0x100000 * i + 0x10000 * j
def LTH_DRL (i : Nat) (j : Nat) : Nat := 0x10a0068 + 0x100000 * i + 0x10000 * j
def LTH_SCALE_MISS_LO (i : Nat) (j : Nat) : Nat := 0x10a0070 + 0x100000 * i + 0x10000 * j
def LTH_SCALE_MISS_HI (i : Nat) (j : Nat) : Nat := 0x10a0078 + 0x100000 * i + 0x10000 * j
def LTH_SKEW (i : Nat) (j : Nat) : Nat := 0x10a0080 + 0x100000 * i + 0x10000 * j
def LTH_RESIDUE_ERR (i : Nat) (j : Nat) : Nat := 0x10a0088 + 0x100000 * i + 0x10000 * j
def LTH_RESIDUE_RETRY_OK (i : Nat) (j : Nat) : Nat := 0x10a0090 + 0x100000 * i + 0x10000 * j
def LTH_REG_ECC_CORR (i : Nat) (j : Nat) : Nat := 0x10a0098 + 0x100000 * i + 0x10000 * j
def LTH_REFUSED (i : Nat) (j : Nat) : Nat := 0x10a00a0 + 0x100000 * i + 0x10000 * j
-- Table 06-10
def THT_CTRL : Nat := 0x600000
-- Table 06-11
def THT_TDT_BASE : Nat := 0x600008
-- Table 06-12
def THT_TSTAT (i : Nat) : Nat := 0x610000 + 0x40 * i
-- Table 06-13
def THT_TGEN (i : Nat) : Nat := 0x610008 + 0x40 * i
-- Table 06-14
def THT_TBOUND (i : Nat) : Nat := 0x610010 + 0x40 * i
-- Table 06-15
def THT_TDIGA (i : Nat) : Nat := 0x610018 + 0x40 * i
def THT_TDIGB (i : Nat) : Nat := 0x610020 + 0x40 * i
-- Table 06-16
def THT_TROUND (i : Nat) : Nat := 0x610028 + 0x40 * i
-- Table 06-17
def THT_ESTAT (i : Nat) : Nat := 0x680000 + 0x1000 * i
-- Table 06-18
def THT_ROWS_LOCAL (i : Nat) : Nat := 0x680040 + 0x1000 * i
def THT_ROWS_REMOTE (i : Nat) : Nat := 0x680048 + 0x1000 * i
def THT_ROWS_SERVED (i : Nat) : Nat := 0x680050 + 0x1000 * i
def THT_NULL (i : Nat) : Nat := 0x680058 + 0x1000 * i
def THT_OOR (i : Nat) : Nat := 0x680060 + 0x1000 * i
def THT_REMOTE_LOST (i : Nat) : Nat := 0x680068 + 0x1000 * i
def THT_VERSION_REFUSED (i : Nat) : Nat := 0x680070 + 0x1000 * i
def THT_DELTA_ROWS (i : Nat) : Nat := 0x680078 + 0x1000 * i
def THT_DELTA_SAT (i : Nat) : Nat := 0x680080 + 0x1000 * i
def THT_SAT (i : Nat) : Nat := 0x680088 + 0x1000 * i
def THT_DRL (i : Nat) : Nat := 0x680090 + 0x1000 * i
def THT_REFUSED (i : Nat) : Nat := 0x680098 + 0x1000 * i
-- Table 07-9
def ATN_CTRL : Nat := 0x700000
-- Table 07-10
def PUR_WALK_SEL : Nat := 0x700010
-- Table 07-11
def PUR_WALK_CNT : Nat := 0x700018
-- Table 07-12
def ATN_ESTAT (i : Nat) : Nat := 0x780000 + 0x1000 * i
-- Table 07-13
def ATN_ERR_INFO (i : Nat) : Nat := 0x780008 + 0x1000 * i
-- Table 07-14
def ATN_KEYS (i : Nat) : Nat := 0x780040 + 0x1000 * i
def ATN_ROWS (i : Nat) : Nat := 0x780048 + 0x1000 * i
def ATN_APPENDED (i : Nat) : Nat := 0x780050 + 0x1000 * i
def ATN_LAB_HIT (i : Nat) : Nat := 0x780058 + 0x1000 * i
def ATN_LAB_MISS (i : Nat) : Nat := 0x780060 + 0x1000 * i
def ATN_EXTENT (i : Nat) : Nat := 0x780068 + 0x1000 * i
def ATN_SAT (i : Nat) : Nat := 0x780070 + 0x1000 * i
def ATN_DRL (i : Nat) : Nat := 0x780078 + 0x1000 * i
def ATN_UNDERFLOW (i : Nat) : Nat := 0x780080 + 0x1000 * i
def ATN_EMPTY (i : Nat) : Nat := 0x780088 + 0x1000 * i
def ATN_SKEW (i : Nat) : Nat := 0x780090 + 0x1000 * i
def ATN_RESIDUE_ERR (i : Nat) : Nat := 0x780098 + 0x1000 * i
def ATN_RESIDUE_RETRY_OK (i : Nat) : Nat := 0x7800a0 + 0x1000 * i
def ATN_REFUSED (i : Nat) : Nat := 0x7800a8 + 0x1000 * i
-- Table 08-9
def CRS_CTRL : Nat := 0x500000
-- Table 08-10
def CRS_MTAB_BASE : Nat := 0x500008
-- Table 08-11
def CRS_ENTRY_SEL : Nat := 0x500010
def CRS_ENTRY0 : Nat := 0x500018
def CRS_ENTRY1 : Nat := 0x500020
def CRS_ENTRY2 : Nat := 0x500028
def CRS_ENTRY3 : Nat := 0x500030
-- Table 08-12
def CRS_LANE_CFG (i : Nat) : Nat := 0x500100 + 0x20 * i
-- Table 08-13
def CRS_LANE_AREA (i : Nat) : Nat := 0x500108 + 0x20 * i
-- Table 08-14
def CRS_LANE_TOK (i : Nat) : Nat := 0x500110 + 0x20 * i
-- Table 08-15
def CRS_LANE_STAT (i : Nat) : Nat := 0x500118 + 0x20 * i
-- Table 08-16
def CRS_CLIENT (i : Nat) : Nat := 0x501000 + 0x8 * i
-- Table 08-17
def DLM_CTRL : Nat := 0x580000
-- Table 08-18
def DLM_FACTOR (i : Nat) : Nat := 0x580008 + 0x8 * i
-- Table 08-19
def DLM_LANE (i : Nat) : Nat := 0x580028 + 0x8 * i
-- Table 08-20
def CRS_ACCEPTED : Nat := 0x500800
def CRS_REJECTED : Nat := 0x500808
def CRS_FINISHED : Nat := 0x500810
def CRS_ABANDONED : Nat := 0x500818
def CRS_RESULT_DROP : Nat := 0x500820
def CRS_CANCEL_MISS : Nat := 0x500828
def CRS_COURSES : Nat := 0x500830
def CRS_POOL_DRY : Nat := 0x500838
def DLM_DOWNGRADED : Nat := 0x580100
def DLM_FALLBACK : Nat := 0x580108
def DLM_ABANDONED : Nat := 0x580110
def DLM_LATE : Nat := 0x580118
-- Table 09-15
def EAVE_CFG : Nat := 0x100000
-- Table 09-16
def EAVE_EXPECT : Nat := 0x100008
-- Table 09-17
def EAVE_POLL : Nat := 0x100010
-- Table 09-18
def EAVE_STATUS : Nat := 0x100018
-- Table 09-19
def EAVE_DOORBELL : Nat := 0x101000
-- Table 09-20
def RIDGE_CTRL : Nat := 0x108000
-- Table 09-21
def RIDGE_GSTORE : Nat := 0x108008
-- Table 09-22
def RIDGE_FENCE_SEL : Nat := 0x108010
-- Table 09-23
def RIDGE_FENCE_VAL : Nat := 0x108018
-- Table 09-24
def GUT_BASE (i : Nat) : Nat := 0x201000 + 0x40 * i
-- Table 09-25
def GUT_CFG (i : Nat) : Nat := 0x201008 + 0x40 * i
-- Table 09-26
def GUT_CONS (i : Nat) : Nat := 0x201010 + 0x40 * i
-- Table 09-27
def GUT_PROD (i : Nat) : Nat := 0x201018 + 0x40 * i
-- Table 09-28
def GUT_STAT (i : Nat) : Nat := 0x201020 + 0x40 * i
-- Table 09-29
def GUT_CTL (i : Nat) : Nat := 0x201028 + 0x40 * i
-- Table 09-30
def EAVE_ACCEPTED : Nat := 0x108800
def EAVE_REFUSED : Nat := 0x108808
def EAVE_STALE : Nat := 0x108810
def EAVE_DB_IGNORED : Nat := 0x108818
def EAVE_STALL_NS : Nat := 0x108820
def RIDGE_LAUNCHES : Nat := 0x108828
def RIDGE_AHEAD_HIT : Nat := 0x108830
def RIDGE_AHEAD_DROP : Nat := 0x108838
def RIDGE_FENCE_STALE : Nat := 0x108840
def GUT_RECORDS : Nat := 0x200800
def GUT_EVENTS : Nat := 0x200808
def GUT_BLOCKS : Nat := 0x200810
def GUT_CONS_IGNORED : Nat := 0x200818
-- Table 10-10
def CTX_STATE (i : Nat) : Nat := 0x300000 + 0x1000 * i
-- Table 10-11
def CTX_FMASK (i : Nat) : Nat := 0x300008 + 0x1000 * i
-- Table 10-12
def CTX_TRUSS (i : Nat) : Nat := 0x300010 + 0x1000 * i
-- Table 10-13
def CTX_PREEMPT (i : Nat) : Nat := 0x300040 + 0x1000 * i
def CTX_YIELD (i : Nat) : Nat := 0x300048 + 0x1000 * i
def CTX_XLT_FAULTS (i : Nat) : Nat := 0x300050 + 0x1000 * i
def CTX_XLT_WAIT_NS (i : Nat) : Nat := 0x300058 + 0x1000 * i
-- Table 10-14
def XLT_CTRL : Nat := 0x400000
-- Table 10-15
def XLT_REQ_BASE : Nat := 0x400008
-- Table 10-16
def XLT_REQ_CFG : Nat := 0x400010
-- Table 10-17
def XLT_REQ_CONS : Nat := 0x400018
-- Table 10-18
def XLT_ANSWER : Nat := 0x400020
-- Table 10-19
def XLT_STATUS : Nat := 0x400028
-- Table 10-20
def XLT_L1_HIT : Nat := 0x400100
def XLT_L1_MISS : Nat := 0x400108
def XLT_L2_HIT : Nat := 0x400110
def XLT_REQUESTS : Nat := 0x400118
def XLT_MERGED : Nat := 0x400120
def XLT_RESENT : Nat := 0x400128
def XLT_ANSWER_LATE : Nat := 0x400130
def XLT_REFUSED : Nat := 0x400138
def XLT_WAIT_FULL : Nat := 0x400140
-- Table 11-6
def MEM_CAP : Nat := 0x800000
-- Table 11-7
def MEM_CTRL : Nat := 0x800008
-- Table 11-8
def MEM_PRIO : Nat := 0x800010
-- Table 11-9
def MEM_MAINT : Nat := 0x800018
-- Table 11-10
def MEM_STATUS : Nat := 0x800020
-- Table 11-11
def MEM_FRAME_CMD : Nat := 0x800028
-- Table 11-12
def MEM_PC_SEL : Nat := 0x800030
def MEM_PC_STAT : Nat := 0x800038
def MEM_PC_CMD : Nat := 0x800040
-- Table 11-13
def MEM_ERR_INFO : Nat := 0x800048
-- Table 11-14
def MEM_MAP (i : Nat) : Nat := 0x800100 + 0x80 * i
def MEM_EXCL (i : Nat) (j : Nat) : Nat := 0x800108 + 0x80 * i + 0x8 * j
def MEM_FRAME_MAP (i : Nat) : Nat := 0x800200 + 0x8 * i
def MEM_PC_RETIRED (i : Nat) : Nat := 0x800300 + 0x8 * i
-- Table 11-15
def MEM_CORR1 : Nat := 0x800400
def MEM_CORR2 : Nat := 0x800408
def MEM_ERASE_CORR : Nat := 0x800410
def MEM_UNCORR : Nat := 0x800418
def MEM_ONCHIP_CORR : Nat := 0x800420
def MEM_ONCHIP_RETRY : Nat := 0x800428
def MEM_SCRUB_BURSTS : Nat := 0x800430
def MEM_AGED : Nat := 0x800438
def MEM_NMA_OPS : Nat := 0x800440
def MEM_NMA_SAT : Nat := 0x800448
def MEM_RETRAINS : Nat := 0x800450
def MEM_LANE_REPAIRS : Nat := 0x800458
def MEM_RETIRES : Nat := 0x800460
def MEM_HOLD_NS : Nat := 0x800468
-- Table 12-12
def SPN_TOPO : Nat := 0x900000
-- Table 12-13
def SPN_CFG (i : Nat) : Nat := 0x900010 + 0x8 * i
-- Table 12-14
def SPN_STAT (i : Nat) : Nat := 0x900040 + 0x8 * i
-- Table 12-15
def SPN_RING (i : Nat) : Nat := 0x900080 + 0x8 * i
-- Table 12-16
def SPN_SPLICE : Nat := 0x9000a0
-- Table 12-17
def LNK_CTRL : Nat := 0x910000
-- Table 12-18
def LNK_STAT (i : Nat) : Nat := 0x910100 + 0x8 * i
-- Table 12-19
def COL_CTRL : Nat := 0x920000
-- Table 12-20
def COL_STAT (i : Nat) : Nat := 0x920008 + 0x8 * i
-- Table 12-21
def COL_ERR_INFO (i : Nat) : Nat := 0x920020 + 0x8 * i
-- Table 12-22
def LNK_FLITS_TX (i : Nat) : Nat := 0x911000 + 0x40 * i
def LNK_FLITS_RX (i : Nat) : Nat := 0x911008 + 0x40 * i
def LNK_REPLAYS (i : Nat) : Nat := 0x911010 + 0x40 * i
def LNK_FEC_CORR (i : Nat) : Nat := 0x911018 + 0x40 * i
def LNK_DOWNS (i : Nat) : Nat := 0x911020 + 0x40 * i
def LNK_CREDIT_LOST (i : Nat) : Nat := 0x911028 + 0x40 * i
def LNK_FLITS_DROP (i : Nat) : Nat := 0x911030 + 0x40 * i
def LNK_HELD_NOTICES (i : Nat) : Nat := 0x911038 + 0x40 * i
def COL_STARTED (i : Nat) : Nat := 0x920100 + 0x80 * i
def COL_COMPLETED (i : Nat) : Nat := 0x920108 + 0x80 * i
def COL_ABORTED (i : Nat) : Nat := 0x920110 + 0x80 * i
def COL_RETRY_OK (i : Nat) : Nat := 0x920118 + 0x80 * i
def COL_CHECK_ERR (i : Nat) : Nat := 0x920120 + 0x80 * i
def COL_SAT (i : Nat) : Nat := 0x920128 + 0x80 * i
def COL_BYTES (i : Nat) : Nat := 0x920130 + 0x80 * i
def COL_DELTA_BATCHES (i : Nat) : Nat := 0x920138 + 0x80 * i
-- Table 13-10
def FLT_CTRL : Nat := 0xa00000
-- Table 13-11
def FLT_BOUND : Nat := 0xa00008
-- Table 13-12
def FLT_TRUSS_CMD : Nat := 0xa00010
def FLT_LINK : Nat := 0xa00018
-- Table 13-13
def FLT_TRUSS (i : Nat) : Nat := 0xa00100 + 0x8 * i
-- Table 13-14
def FLT_LOG_BASE : Nat := 0xa00020
def FLT_LOG_CFG : Nat := 0xa00028
def FLT_LOG_PROD : Nat := 0xa00030
def FLT_LOG_CONS : Nat := 0xa00038
-- Table 13-15
def REP_CTRL : Nat := 0xa10000
def REP_WREG_BASE : Nat := 0xa10008
def REP_WREG_N : Nat := 0xa10010
def REP_STAT_W : Nat := 0xa10018
def REP_WBAD (i : Nat) : Nat := 0xa10020 + 0x8 * i
def REP_CFG (i : Nat) : Nat := 0xa11000 + 0x40 * i
def REP_GROUP (i : Nat) : Nat := 0xa11008 + 0x40 * i
def REP_AREA (i : Nat) : Nat := 0xa11010 + 0x40 * i
def REP_ITEMS (i : Nat) : Nat := 0xa11018 + 0x40 * i
def REP_STAT (i : Nat) : Nat := 0xa11020 + 0x40 * i
def REP_CMD (i : Nat) : Nat := 0xa11028 + 0x40 * i
-- Table 13-16
def FLT_RECORDS : Nat := 0xa00800
def FLT_LOG_LOST : Nat := 0xa00808
def FLT_SUPPRESSED : Nat := 0xa00810
def FLT_STEPS : Nat := 0xa00818
def FLT_QUARANTINES : Nat := 0xa00820
def FLT_TESTS : Nat := 0xa00828
def FLT_RESTARTS : Nat := 0xa00830
def FLT_RESIDUE_RETRY_OK : Nat := 0xa00838
def REP_EPOCHS : Nat := 0xa10800
def REP_PEER_ODD : Nat := 0xa10808
def REP_TIMEOUTS : Nat := 0xa10810
def REP_REEXPEL : Nat := 0xa10818
def REP_WSCANS : Nat := 0xa10820
def REP_WBAD_EVENTS : Nat := 0xa10828
-- Table 14-6
def MTR_CTRL : Nat := 0xb00000
-- Table 14-7
def MTR_SNAP : Nat := 0xb00008
-- Table 14-8
def MTR_OVF : Nat := 0xb00010
-- Table 14-9
def MTR_RING_BASE : Nat := 0xb00018
def MTR_RING_CFG : Nat := 0xb00020
def MTR_RING_PROD : Nat := 0xb00028
def MTR_RING_CONS : Nat := 0xb00030
-- Table 14-10
def MTR_AUDIT : Nat := 0xb00038
-- Table 14-11
def MTR_ENERGY_MEAS : Nat := 0xb00040
def MTR_TOTAL (i : Nat) : Nat := 0xb01000 + 0x8 * i
def MTR_RETIRED (i : Nat) : Nat := 0xb01100 + 0x8 * i
def MTR_ACCT (i : Nat) (j : Nat) : Nat := 0xb10000 + 0x100 * i + 0x8 * j
-- Table 14-12
def MTR_RECORDS : Nat := 0xb00800
def MTR_SKIPPED : Nat := 0xb00808
def MTR_AUDIT_ERR : Nat := 0xb00810
-- Table 15-12
def FLS_STATUS : Nat := 0xc00000
-- Table 15-13
def FLS_THERM : Nat := 0xc00008
-- Table 15-14
def FLS_KEYS : Nat := 0xc00010
-- Table 15-15
def FLS_MBOX_ARG (i : Nat) : Nat := 0xc00100 + 0x8 * i
def FLS_MBOX_CMD : Nat := 0xc00120
def FLS_MBOX_STAT : Nat := 0xc00128
def FLS_MBOX_RES (i : Nat) : Nat := 0xc00130 + 0x8 * i
-- Table 15-16
def CLK_TIME : Nat := 0xd00000
-- Table 15-17
def CLK_STAT : Nat := 0xd00008
-- Table 15-18
def CLK_TRUSS (i : Nat) : Nat := 0xd00100 + 0x8 * i
-- Table 15-19
def RST_CAUSE : Nat := 0xd08000
-- Table 16-13
def GLB_MAC : Nat := 0x10
-- Table 16-14
def GLB_PORT_STAT (i : Nat) : Nat := 0x100 + 0x8 * i
-- Table 16-15
def ETH_TX_FRAMES (i : Nat) : Nat := 0x800 + 0x80 * i
def ETH_RX_FRAMES (i : Nat) : Nat := 0x808 + 0x80 * i
def ETH_FEC_CORR (i : Nat) : Nat := 0x810 + 0x80 * i
def ETH_FEC_UNCORR (i : Nat) : Nat := 0x818 + 0x80 * i
def ETH_DROPPED (i : Nat) : Nat := 0x820 + 0x80 * i
def ETH_ECN_CE (i : Nat) : Nat := 0x828 + 0x80 * i
def ETH_CNP_TX (i : Nat) : Nat := 0x830 + 0x80 * i
def ETH_CNP_RX (i : Nat) : Nat := 0x838 + 0x80 * i
def ETH_NAK_TX (i : Nat) : Nat := 0x840 + 0x80 * i
def ETH_MGMT_REQ (i : Nat) : Nat := 0x848 + 0x80 * i

end Reg

namespace Fld

-- Table 00-2
def GLB_DEVICE_ID_VENDOR : FieldPos := ⟨0, 16⟩
def GLB_DEVICE_ID_PART : FieldPos := ⟨16, 16⟩
def GLB_DEVICE_ID_STEP : FieldPos := ⟨32, 8⟩
def GLB_DEVICE_ID_TRUSSES : FieldPos := ⟨40, 8⟩
def GLB_DEVICE_ID_IMG_FMT : FieldPos := ⟨48, 8⟩
-- Table 01-5
def TRS_STATUS_STATE : FieldPos := ⟨0, 3⟩
def TRS_STATUS_VSTEP : FieldPos := ⟨3, 2⟩
def TRS_STATUS_FSTEP : FieldPos := ⟨5, 2⟩
def TRS_STATUS_HOLDERS : FieldPos := ⟨8, 3⟩
def TRS_STATUS_POOL_LOG2 : FieldPos := ⟨12, 3⟩
def TRS_STATUS_POOL_BASE : FieldPos := ⟨16, 4⟩
-- Table 01-6
def TRS_HOLD_HOLD : FieldPos := ⟨0, 64⟩
-- Table 01-7
def LOFT_LAYOUT_STAGE_GR : FieldPos := ⟨0, 8⟩
def LOFT_LAYOUT_SOFFIT_GR : FieldPos := ⟨8, 8⟩
def LOFT_LAYOUT_SHARE_GR : FieldPos := ⟨16, 8⟩
def LOFT_LAYOUT_SHARE_BASE : FieldPos := ⟨24, 8⟩
-- Table 01-8
def LOFT_SHARE_CTX : FieldPos := ⟨0, 6⟩
def LOFT_SHARE_VALID : FieldPos := ⟨6, 1⟩
def LOFT_SHARE_BASE_GR : FieldPos := ⟨8, 8⟩
def LOFT_SHARE_SIZE_GR : FieldPos := ⟨16, 8⟩
-- Table 01-9
def SOF_CFG_WAYS_LOG2 : FieldPos := ⟨0, 3⟩
def SOF_CFG_SETS : FieldPos := ⟨8, 16⟩
-- Table 01-10
def SOF_CTRL_ENABLE : FieldPos := ⟨0, 1⟩
def SOF_CTRL_PREFETCH : FieldPos := ⟨1, 1⟩
-- Table 01-11
def SOF_STATUS_ENABLED : FieldPos := ⟨0, 1⟩
def SOF_STATUS_INV_BUSY : FieldPos := ⟨1, 1⟩
def SOF_STATUS_INV_NEEDED : FieldPos := ⟨2, 1⟩
def SOF_STATUS_STALE_RISK : FieldPos := ⟨3, 1⟩
def SOF_STATUS_PRELOAD_BUSY : FieldPos := ⟨4, 1⟩
def SOF_STATUS_PRELOAD_REFUSED : FieldPos := ⟨5, 1⟩
def SOF_STATUS_LOCK_REFUSED : FieldPos := ⟨6, 1⟩
def SOF_STATUS_PRELOAD_FAULT : FieldPos := ⟨7, 1⟩
def SOF_STATUS_MSHR_BUSY : FieldPos := ⟨8, 7⟩
def SOF_STATUS_PRELOAD_DONE : FieldPos := ⟨15, 17⟩
-- Table 01-12
def SOF_WAY_LOCK_LOCK : FieldPos := ⟨0, 16⟩
-- Table 01-13
def SOF_INV_INV_ALL : FieldPos := ⟨0, 1⟩
def SOF_INV_INV_UNLOCKED : FieldPos := ⟨1, 1⟩
-- Table 01-14
def SOF_PRELOAD_BASE_ADDR : FieldPos := ⟨7, 37⟩
-- Table 01-15
def SOF_PRELOAD_CTRL_LINES : FieldPos := ⟨0, 17⟩
def SOF_PRELOAD_CTRL_WAYS : FieldPos := ⟨32, 16⟩
def SOF_PRELOAD_CTRL_GO : FieldPos := ⟨63, 1⟩
-- Table 01-16
def SOF_WAYMASK_MASK : FieldPos := ⟨0, 16⟩
-- Table 02-9
def HOD_CAPS_B16 : FieldPos := ⟨0, 1⟩
def HOD_CAPS_B32 : FieldPos := ⟨1, 1⟩
def HOD_CAPS_B64 : FieldPos := ⟨2, 1⟩
def HOD_CAPS_B128 : FieldPos := ⟨3, 1⟩
def HOD_CAPS_S4 : FieldPos := ⟨4, 1⟩
def HOD_CAPS_Q8 : FieldPos := ⟨5, 1⟩
def HOD_CAPS_FP64 : FieldPos := ⟨6, 1⟩
-- Table 02-10
def HOD_FP_FLAGS_INVALID : FieldPos := ⟨0, 1⟩
def HOD_FP_FLAGS_OVERFLOW : FieldPos := ⟨1, 1⟩
def HOD_FP_FLAGS_UNDERFLOW : FieldPos := ⟨2, 1⟩
def HOD_FP_FLAGS_INEXACT : FieldPos := ⟨3, 1⟩
def HOD_FP_FLAGS_NONFINITE : FieldPos := ⟨4, 1⟩
-- Table 03-8
def HOD_SCALE_TOL_TOL_S8 : FieldPos := ⟨0, 4⟩
def HOD_SCALE_TOL_TOL_S4 : FieldPos := ⟨4, 4⟩
-- Table 03-9
def HOD_SKEW_INFO_DATA_ORD : FieldPos := ⟨0, 6⟩
def HOD_SKEW_INFO_SCALE_ORD : FieldPos := ⟨8, 6⟩
def HOD_SKEW_INFO_CTX : FieldPos := ⟨16, 6⟩
def HOD_SKEW_INFO_LIDX : FieldPos := ⟨24, 39⟩
def HOD_SKEW_INFO_VALID : FieldPos := ⟨63, 1⟩
-- Table 04-10
def RAF_CAPS_MX128 : FieldPos := ⟨0, 1⟩
def RAF_CAPS_MX64P : FieldPos := ⟨1, 1⟩
def RAF_CAPS_MX256K : FieldPos := ⟨2, 1⟩
def RAF_CAPS_MT128 : FieldPos := ⟨3, 1⟩
def RAF_CAPS_I16 : FieldPos := ⟨4, 1⟩
-- Table 04-11
def RAF_CTRL_ABFT_EN : FieldPos := ⟨0, 1⟩
def RAF_CTRL_ABFT_RETRY : FieldPos := ⟨1, 1⟩
def RAF_CTRL_BALLAST_EN : FieldPos := ⟨2, 1⟩
-- Table 04-12
def RAF_STATUS_BUSY : FieldPos := ⟨0, 1⟩
def RAF_STATUS_FUSED : FieldPos := ⟨1, 1⟩
def RAF_STATUS_CTX : FieldPos := ⟨2, 6⟩
def RAF_STATUS_ACTIVE_VALID : FieldPos := ⟨8, 1⟩
def RAF_STATUS_SHADOW_VALID : FieldPos := ⟨9, 1⟩
def RAF_STATUS_SLOAD_BUSY : FieldPos := ⟨10, 1⟩
def RAF_STATUS_DUTY : FieldPos := ⟨11, 5⟩
def RAF_STATUS_RAMP_DOWN : FieldPos := ⟨16, 1⟩
def RAF_STATUS_RAMP_UP : FieldPos := ⟨17, 1⟩
-- Table 04-13
def RAF_BALLAST_WINDOW : FieldPos := ⟨0, 16⟩
def RAF_BALLAST_DOWN_STEP : FieldPos := ⟨16, 16⟩
def RAF_BALLAST_UP_STEP : FieldPos := ⟨32, 16⟩
-- Table 04-14
def RAF_ABFT_INFO_ROW : FieldPos := ⟨0, 16⟩
def RAF_ABFT_INFO_COL : FieldPos := ⟨16, 7⟩
def RAF_ABFT_INFO_COL_VALID : FieldPos := ⟨23, 1⟩
def RAF_ABFT_INFO_CTX : FieldPos := ⟨24, 6⟩
def RAF_ABFT_INFO_TAG : FieldPos := ⟨32, 8⟩
def RAF_ABFT_INFO_KBLK : FieldPos := ⟨40, 4⟩
def RAF_ABFT_INFO_KIND : FieldPos := ⟨44, 4⟩
def RAF_ABFT_INFO_RETRIED : FieldPos := ⟨48, 1⟩
def RAF_ABFT_INFO_VALID : FieldPos := ⟨63, 1⟩
-- Table 05-7
def LTH_CTRL_RESIDUE_EN : FieldPos := ⟨0, 1⟩
def LTH_CTRL_RETRY : FieldPos := ⟨1, 1⟩
def LTH_CTRL_TQ_TIMEOUT : FieldPos := ⟨16, 16⟩
-- Table 05-8
def LTH_STATUS_BUSY : FieldPos := ⟨0, 1⟩
def LTH_STATUS_CTX : FieldPos := ⟨1, 6⟩
def LTH_STATUS_BANK : FieldPos := ⟨7, 2⟩
def LTH_STATUS_WAIT : FieldPos := ⟨9, 3⟩
def LTH_STATUS_QOWNER : FieldPos := ⟨12, 6⟩
def LTH_STATUS_QOWNED : FieldPos := ⟨18, 1⟩
def LTH_STATUS_QDEPTH : FieldPos := ⟨19, 4⟩
-- Table 05-9
def LTH_FP_FLAGS_INVALID : FieldPos := ⟨0, 1⟩
def LTH_FP_FLAGS_DIVZERO : FieldPos := ⟨1, 1⟩
def LTH_FP_FLAGS_OVERFLOW : FieldPos := ⟨2, 1⟩
def LTH_FP_FLAGS_UNDERFLOW : FieldPos := ⟨3, 1⟩
def LTH_FP_FLAGS_INEXACT : FieldPos := ⟨4, 1⟩
-- Table 05-10
def LTH_ERR_INFO_OPC : FieldPos := ⟨0, 8⟩
def LTH_ERR_INFO_LANE : FieldPos := ⟨8, 7⟩
def LTH_ERR_INFO_CTX : FieldPos := ⟨16, 6⟩
def LTH_ERR_INFO_PC : FieldPos := ⟨24, 16⟩
def LTH_ERR_INFO_KIND : FieldPos := ⟨40, 4⟩
def LTH_ERR_INFO_RETRIED : FieldPos := ⟨44, 1⟩
def LTH_ERR_INFO_VALID : FieldPos := ⟨63, 1⟩
-- Table 06-10
def THT_CTRL_REMOTE_TO : FieldPos := ⟨0, 16⟩
-- Table 06-11
def THT_TDT_BASE_ADDR : FieldPos := ⟨7, 45⟩
-- Table 06-12
def THT_TSTAT_STATE_A : FieldPos := ⟨0, 3⟩
def THT_TSTAT_STATE_B : FieldPos := ⟨4, 3⟩
def THT_TSTAT_DESC_VALID : FieldPos := ⟨7, 1⟩
def THT_TSTAT_HELD : FieldPos := ⟨8, 1⟩
def THT_TSTAT_DFENCE_BUSY : FieldPos := ⟨9, 1⟩
def THT_TSTAT_OPEN_A : FieldPos := ⟨10, 3⟩
def THT_TSTAT_OPEN_B : FieldPos := ⟨13, 3⟩
-- Table 06-13
def THT_TGEN_GEN_A : FieldPos := ⟨0, 32⟩
def THT_TGEN_GEN_B : FieldPos := ⟨32, 32⟩
-- Table 06-14
def THT_TBOUND_BOUND_A : FieldPos := ⟨0, 32⟩
def THT_TBOUND_BOUND_B : FieldPos := ⟨32, 32⟩
-- Table 06-15
def THT_TDIGA_DIGEST : FieldPos := ⟨0, 64⟩
def THT_TDIGB_DIGEST : FieldPos := ⟨0, 64⟩
-- Table 06-16
def THT_TROUND_APPLIED_A : FieldPos := ⟨0, 32⟩
def THT_TROUND_APPLIED_B : FieldPos := ⟨32, 32⟩
-- Table 06-17
def THT_ESTAT_BUSY : FieldPos := ⟨0, 1⟩
def THT_ESTAT_CTX : FieldPos := ⟨1, 6⟩
def THT_ESTAT_DELTA : FieldPos := ⟨7, 1⟩
def THT_ESTAT_REMOTE_OUT : FieldPos := ⟨8, 9⟩
-- Table 07-9
def ATN_CTRL_EDIT_TO : FieldPos := ⟨0, 16⟩
def ATN_CTRL_RESIDUE_EN : FieldPos := ⟨16, 1⟩
def ATN_CTRL_RETRY : FieldPos := ⟨17, 1⟩
-- Table 07-10
def PUR_WALK_SEL_SEQ : FieldPos := ⟨0, 15⟩
-- Table 07-11
def PUR_WALK_CNT_COUNT : FieldPos := ⟨0, 16⟩
def PUR_WALK_CNT_EDIT_PENDING : FieldPos := ⟨16, 1⟩
def PUR_WALK_CNT_HELD : FieldPos := ⟨17, 1⟩
-- Table 07-12
def ATN_ESTAT_BUSY : FieldPos := ⟨0, 1⟩
def ATN_ESTAT_CTX : FieldPos := ⟨1, 6⟩
def ATN_ESTAT_MODE : FieldPos := ⟨7, 2⟩
def ATN_ESTAT_WAIT : FieldPos := ⟨9, 2⟩
def ATN_ESTAT_LAB_VALID : FieldPos := ⟨11, 8⟩
-- Table 07-13
def ATN_ERR_INFO_SEQ : FieldPos := ⟨0, 15⟩
def ATN_ERR_INFO_PAGE : FieldPos := ⟨16, 14⟩
def ATN_ERR_INFO_CTX : FieldPos := ⟨30, 6⟩
def ATN_ERR_INFO_KIND : FieldPos := ⟨36, 4⟩
def ATN_ERR_INFO_RETRIED : FieldPos := ⟨40, 1⟩
def ATN_ERR_INFO_VALID : FieldPos := ⟨63, 1⟩
-- Table 08-9
def CRS_CTRL_ENABLE : FieldPos := ⟨0, 1⟩
-- Table 08-10
def CRS_MTAB_BASE_ADDR : FieldPos := ⟨7, 45⟩
-- Table 08-11
def CRS_ENTRY_SEL_SEL : FieldPos := ⟨0, 15⟩
def CRS_ENTRY0_STATE : FieldPos := ⟨0, 3⟩
def CRS_ENTRY0_KIND : FieldPos := ⟨3, 1⟩
def CRS_ENTRY0_INC : FieldPos := ⟨4, 1⟩
def CRS_ENTRY0_SWITCHED : FieldPos := ⟨5, 1⟩
def CRS_ENTRY0_SHARED : FieldPos := ⟨6, 1⟩
def CRS_ENTRY0_PRIO : FieldPos := ⟨7, 3⟩
def CRS_ENTRY0_PSTATE : FieldPos := ⟨10, 3⟩
def CRS_ENTRY0_CAUSE : FieldPos := ⟨13, 3⟩
def CRS_ENTRY0_MODEL : FieldPos := ⟨16, 8⟩
def CRS_ENTRY0_CLIENT : FieldPos := ⟨24, 8⟩
def CRS_ENTRY0_CTX : FieldPos := ⟨32, 6⟩
def CRS_ENTRY0_ROOT : FieldPos := ⟨38, 15⟩
def CRS_ENTRY1_BUDGET : FieldPos := ⟨0, 40⟩
def CRS_ENTRY1_MAXTOK : FieldPos := ⟨40, 16⟩
def CRS_ENTRY2_ARRIVAL : FieldPos := ⟨0, 64⟩
def CRS_ENTRY3_POS : FieldPos := ⟨0, 20⟩
def CRS_ENTRY3_PREMAIN : FieldPos := ⟨20, 20⟩
def CRS_ENTRY3_NTOK : FieldPos := ⟨40, 16⟩
-- Table 08-12
def CRS_LANE_CFG_EN : FieldPos := ⟨0, 1⟩
def CRS_LANE_CFG_RETRY : FieldPos := ⟨1, 1⟩
def CRS_LANE_CFG_CTX : FieldPos := ⟨2, 6⟩
def CRS_LANE_CFG_GRAPH : FieldPos := ⟨8, 16⟩
def CRS_LANE_CFG_DECMAX : FieldPos := ⟨24, 13⟩
def CRS_LANE_CFG_RANKMAX : FieldPos := ⟨37, 13⟩
-- Table 08-13
def CRS_LANE_AREA_ADDR : FieldPos := ⟨12, 40⟩
-- Table 08-14
def CRS_LANE_TOK_TOKBUDGET : FieldPos := ⟨0, 19⟩
-- Table 08-15
def CRS_LANE_STAT_LAYING : FieldPos := ⟨0, 1⟩
def CRS_LANE_STAT_RUNNING : FieldPos := ⟨1, 1⟩
def CRS_LANE_STAT_COURSE : FieldPos := ⟨32, 32⟩
-- Table 08-16
def CRS_CLIENT_ATTACHED : FieldPos := ⟨0, 1⟩
def CRS_CLIENT_DETACHING : FieldPos := ⟨1, 1⟩
def CRS_CLIENT_CTX : FieldPos := ⟨2, 6⟩
def CRS_CLIENT_QPN : FieldPos := ⟨8, 24⟩
def CRS_CLIENT_FREE : FieldPos := ⟨32, 13⟩
-- Table 08-17
def DLM_CTRL_EN : FieldPos := ⟨0, 1⟩
def DLM_CTRL_ADAPT : FieldPos := ⟨1, 1⟩
-- Table 08-18
def DLM_FACTOR_F : FieldPos := ⟨0, 13⟩
-- Table 08-19
def DLM_LANE_PRED : FieldPos := ⟨0, 32⟩
def DLM_LANE_ACTUAL : FieldPos := ⟨32, 32⟩
-- Table 09-15
def EAVE_CFG_BASE : FieldPos := ⟨6, 38⟩
def EAVE_CFG_SIZE_LOG2 : FieldPos := ⟨48, 5⟩
def EAVE_CFG_EN : FieldPos := ⟨53, 1⟩
-- Table 09-16
def EAVE_EXPECT_X : FieldPos := ⟨0, 32⟩
-- Table 09-17
def EAVE_POLL_TIMEOUT : FieldPos := ⟨0, 16⟩
-- Table 09-18
def EAVE_STATUS_TARGET : FieldPos := ⟨0, 32⟩
def EAVE_STATUS_PENDING : FieldPos := ⟨32, 1⟩
def EAVE_STATUS_STALL : FieldPos := ⟨33, 1⟩
def EAVE_STATUS_STALE : FieldPos := ⟨34, 1⟩
-- Table 09-19
def EAVE_DOORBELL_STAMP : FieldPos := ⟨0, 32⟩
-- Table 09-20
def RIDGE_CTRL_AHEAD : FieldPos := ⟨0, 1⟩
def RIDGE_CTRL_PEND_MAX : FieldPos := ⟨16, 14⟩
-- Table 09-21
def RIDGE_GSTORE_BASE : FieldPos := ⟨21, 31⟩
def RIDGE_GSTORE_SIZE : FieldPos := ⟨52, 12⟩
-- Table 09-22
def RIDGE_FENCE_SEL_IDX : FieldPos := ⟨0, 12⟩
def RIDGE_FENCE_SEL_CTX : FieldPos := ⟨12, 6⟩
-- Table 09-23
def RIDGE_FENCE_VAL_VALUE : FieldPos := ⟨0, 64⟩
-- Table 09-24
def GUT_BASE_ADDR : FieldPos := ⟨0, 64⟩
-- Table 09-25
def GUT_CFG_SIZE_LOG2 : FieldPos := ⟨0, 5⟩
def GUT_CFG_QPN : FieldPos := ⟨8, 24⟩
def GUT_CFG_RKEY : FieldPos := ⟨32, 32⟩
-- Table 09-26
def GUT_CONS_CONS : FieldPos := ⟨0, 32⟩
-- Table 09-27
def GUT_PROD_ISSUED : FieldPos := ⟨0, 32⟩
def GUT_PROD_WRITTEN : FieldPos := ⟨32, 32⟩
-- Table 09-28
def GUT_STAT_STATE : FieldPos := ⟨0, 2⟩
def GUT_STAT_HELD : FieldPos := ⟨2, 13⟩
def GUT_STAT_INFLIGHT : FieldPos := ⟨15, 13⟩
-- Table 09-29
def GUT_CTL_REARM : FieldPos := ⟨0, 1⟩
def GUT_CTL_REDIRECT : FieldPos := ⟨1, 1⟩
def GUT_CTL_QUOTA : FieldPos := ⟨16, 13⟩
-- Table 10-10
def CTX_STATE_STATE : FieldPos := ⟨0, 2⟩
def CTX_STATE_PRIO : FieldPos := ⟨3, 3⟩
def CTX_STATE_LEN_LIMIT : FieldPos := ⟨16, 11⟩
def CTX_STATE_TENANT : FieldPos := ⟨32, 16⟩
-- Table 10-11
def CTX_FMASK_FMASK : FieldPos := ⟨0, 64⟩
-- Table 10-12
def CTX_TRUSS_HELD : FieldPos := ⟨0, 16⟩
def CTX_TRUSS_SLOT : FieldPos := ⟨16, 32⟩
def CTX_TRUSS_RELEASING : FieldPos := ⟨48, 16⟩
-- Table 10-14
def XLT_CTRL_RESEND : FieldPos := ⟨0, 16⟩
def XLT_CTRL_RETRIES : FieldPos := ⟨16, 4⟩
-- Table 10-15
def XLT_REQ_BASE_ADDR : FieldPos := ⟨0, 64⟩
-- Table 10-16
def XLT_REQ_CFG_SIZE_LOG2 : FieldPos := ⟨0, 5⟩
def XLT_REQ_CFG_QPN : FieldPos := ⟨8, 24⟩
def XLT_REQ_CFG_RKEY : FieldPos := ⟨32, 32⟩
-- Table 10-17
def XLT_REQ_CONS_CONS : FieldPos := ⟨0, 32⟩
-- Table 10-18
def XLT_ANSWER_ANSWER : FieldPos := ⟨0, 64⟩
-- Table 10-19
def XLT_STATUS_OUTSTANDING : FieldPos := ⟨0, 11⟩
def XLT_STATUS_RING_FULL : FieldPos := ⟨11, 1⟩
def XLT_STATUS_BLOCKED : FieldPos := ⟨12, 1⟩
-- Table 11-6
def MEM_CAP_FRAMES : FieldPos := ⟨0, 10⟩
def MEM_CAP_RETIRED : FieldPos := ⟨10, 10⟩
def MEM_CAP_ON_MAP1 : FieldPos := ⟨20, 10⟩
-- Table 11-7
def MEM_CTRL_AUTO_RETIRE : FieldPos := ⟨0, 1⟩
def MEM_CTRL_SCRUB_EN : FieldPos := ⟨1, 1⟩
def MEM_CTRL_SCRUB_HOURS : FieldPos := ⟨8, 8⟩
def MEM_CTRL_LANE_TH : FieldPos := ⟨16, 16⟩
-- Table 11-8
def MEM_PRIO_AGE : FieldPos := ⟨0, 16⟩
def MEM_PRIO_P3_FLOOR : FieldPos := ⟨16, 8⟩
-- Table 11-9
def MEM_MAINT_EN : FieldPos := ⟨0, 1⟩
def MEM_MAINT_SPACING : FieldPos := ⟨16, 16⟩
def MEM_MAINT_ANNOUNCE : FieldPos := ⟨32, 16⟩
-- Table 11-10
def MEM_STATUS_MAP_REFUSED : FieldPos := ⟨0, 1⟩
def MEM_STATUS_FRAME_BUSY : FieldPos := ⟨1, 1⟩
def MEM_STATUS_FRAME_CAUSE : FieldPos := ⟨2, 3⟩
-- Table 11-11
def MEM_FRAME_CMD_FRAME : FieldPos := ⟨0, 10⟩
def MEM_FRAME_CMD_MAP : FieldPos := ⟨10, 1⟩
def MEM_FRAME_CMD_GO : FieldPos := ⟨63, 1⟩
-- Table 11-12
def MEM_PC_SEL_CHAN : FieldPos := ⟨0, 9⟩
def MEM_PC_STAT_STATE : FieldPos := ⟨0, 3⟩
def MEM_PC_STAT_LANE1 : FieldPos := ⟨3, 6⟩
def MEM_PC_STAT_LANE2 : FieldPos := ⟨9, 6⟩
def MEM_PC_STAT_SPARE_USED : FieldPos := ⟨15, 1⟩
def MEM_PC_STAT_SWEEP : FieldPos := ⟨16, 11⟩
def MEM_PC_STAT_TRAIN_FAILS : FieldPos := ⟨27, 2⟩
def MEM_PC_CMD_OP : FieldPos := ⟨0, 2⟩
def MEM_PC_CMD_LANE : FieldPos := ⟨8, 6⟩
-- Table 11-13
def MEM_ERR_INFO_CHAN : FieldPos := ⟨0, 9⟩
def MEM_ERR_INFO_KIND : FieldPos := ⟨9, 3⟩
def MEM_ERR_INFO_GRAN : FieldPos := ⟨12, 19⟩
def MEM_ERR_INFO_SECTOR : FieldPos := ⟨31, 7⟩
def MEM_ERR_INFO_LANE : FieldPos := ⟨38, 6⟩
def MEM_ERR_INFO_VALID : FieldPos := ⟨63, 1⟩
-- Table 11-14
def MEM_MAP_SEED : FieldPos := ⟨0, 32⟩
def MEM_MAP_K : FieldPos := ⟨32, 6⟩
def MEM_MAP_VALID : FieldPos := ⟨63, 1⟩
def MEM_EXCL_EXCL : FieldPos := ⟨0, 64⟩
def MEM_FRAME_MAP_FRAME_MAP : FieldPos := ⟨0, 64⟩
def MEM_PC_RETIRED_PC_RETIRED : FieldPos := ⟨0, 64⟩
-- Table 12-12
def SPN_TOPO_DEVNUM : FieldPos := ⟨0, 18⟩
def SPN_TOPO_DX : FieldPos := ⟨18, 7⟩
def SPN_TOPO_DY : FieldPos := ⟨25, 7⟩
def SPN_TOPO_DZ : FieldPos := ⟨32, 7⟩
def SPN_TOPO_VALID : FieldPos := ⟨39, 1⟩
-- Table 12-13
def SPN_CFG_ROLE : FieldPos := ⟨0, 1⟩
def SPN_CFG_FEC : FieldPos := ⟨1, 1⟩
-- Table 12-14
def SPN_STAT_UP : FieldPos := ⟨0, 8⟩
def SPN_STAT_HALF : FieldPos := ⟨8, 8⟩
def SPN_STAT_BYPASS : FieldPos := ⟨16, 1⟩
def SPN_STAT_SPLICE : FieldPos := ⟨17, 3⟩
def SPN_STAT_VER : FieldPos := ⟨20, 2⟩
def SPN_STAT_PEER : FieldPos := ⟨22, 18⟩
-- Table 12-15
def SPN_RING_MEMBERS : FieldPos := ⟨0, 64⟩
-- Table 12-16
def SPN_SPLICE_OP : FieldPos := ⟨0, 2⟩
def SPN_SPLICE_DIM : FieldPos := ⟨2, 2⟩
def SPN_SPLICE_LAST : FieldPos := ⟨4, 3⟩
def SPN_SPLICE_BUSY : FieldPos := ⟨7, 1⟩
-- Table 12-17
def LNK_CTRL_HB_TIMEOUT : FieldPos := ⟨0, 16⟩
def LNK_CTRL_HOLD_GRACE : FieldPos := ⟨16, 16⟩
def LNK_CTRL_HOD_TO : FieldPos := ⟨32, 16⟩
def LNK_CTRL_RETRY_MAX : FieldPos := ⟨48, 4⟩
-- Table 12-18
def LNK_STAT_STATE : FieldPos := ⟨0, 3⟩
def LNK_STAT_WIDTH : FieldPos := ⟨3, 1⟩
def LNK_STAT_VER : FieldPos := ⟨4, 2⟩
def LNK_STAT_FEC : FieldPos := ⟨6, 1⟩
def LNK_STAT_CAUSE : FieldPos := ⟨7, 4⟩
-- Table 12-19
def COL_CTRL_SAMPLE : FieldPos := ⟨0, 8⟩
def COL_CTRL_TIMEOUT : FieldPos := ⟨16, 16⟩
-- Table 12-20
def COL_STAT_RUNNING : FieldPos := ⟨0, 5⟩
def COL_STAT_ARMED : FieldPos := ⟨5, 9⟩
-- Table 12-21
def COL_ERR_INFO_COLID : FieldPos := ⟨0, 32⟩
def COL_ERR_INFO_DEV : FieldPos := ⟨32, 18⟩
def COL_ERR_INFO_KIND : FieldPos := ⟨50, 4⟩
def COL_ERR_INFO_RETRIED : FieldPos := ⟨54, 1⟩
def COL_ERR_INFO_VALID : FieldPos := ⟨63, 1⟩
-- Table 13-10
def FLT_CTRL_SUSP_EN : FieldPos := ⟨0, 1⟩
def FLT_CTRL_THRESH : FieldPos := ⟨8, 8⟩
def FLT_CTRL_WINDOW : FieldPos := ⟨16, 16⟩
def FLT_CTRL_QWAIT : FieldPos := ⟨32, 16⟩
def FLT_CTRL_RATE : FieldPos := ⟨48, 8⟩
-- Table 13-11
def FLT_BOUND_COND : FieldPos := ⟨0, 7⟩
def FLT_BOUND_BOUND_OK : FieldPos := ⟨7, 1⟩
-- Table 13-12
def FLT_TRUSS_CMD_UNIT : FieldPos := ⟨0, 5⟩
def FLT_TRUSS_CMD_OP : FieldPos := ⟨5, 3⟩
def FLT_TRUSS_CMD_GO : FieldPos := ⟨63, 1⟩
def FLT_LINK_COLQ : FieldPos := ⟨0, 2⟩
def FLT_LINK_COUNT0 : FieldPos := ⟨8, 8⟩
def FLT_LINK_COUNT1 : FieldPos := ⟨16, 8⟩
-- Table 13-13
def FLT_TRUSS_STEP : FieldPos := ⟨0, 3⟩
def FLT_TRUSS_QPEND : FieldPos := ⟨3, 1⟩
def FLT_TRUSS_TEST_WAIT : FieldPos := ⟨4, 1⟩
def FLT_TRUSS_COUNT : FieldPos := ⟨8, 8⟩
def FLT_TRUSS_RESULT : FieldPos := ⟨16, 2⟩
def FLT_TRUSS_FUNIT : FieldPos := ⟨18, 4⟩
-- Table 13-14
def FLT_LOG_BASE_ADDR : FieldPos := ⟨9, 35⟩
def FLT_LOG_CFG_SIZE_LOG2 : FieldPos := ⟨0, 4⟩
def FLT_LOG_CFG_EN : FieldPos := ⟨4, 1⟩
def FLT_LOG_PROD_PROD : FieldPos := ⟨0, 64⟩
def FLT_LOG_CONS_CONS : FieldPos := ⟨0, 64⟩
-- Table 13-15
def REP_CTRL_WSCAN_EN : FieldPos := ⟨0, 1⟩
def REP_CTRL_WSCAN : FieldPos := ⟨8, 8⟩
def REP_CTRL_TIMEOUT : FieldPos := ⟨16, 16⟩
def REP_CTRL_RSTRIDE : FieldPos := ⟨32, 16⟩
def REP_WREG_BASE_ADDR : FieldPos := ⟨5, 47⟩
def REP_WREG_N_N : FieldPos := ⟨0, 9⟩
def REP_STAT_W_TABLE_BAD : FieldPos := ⟨0, 1⟩
def REP_WBAD_BAD : FieldPos := ⟨0, 64⟩
def REP_CFG_EN : FieldPos := ⟨0, 1⟩
def REP_CFG_LANE : FieldPos := ⟨1, 2⟩
def REP_CFG_LANES : FieldPos := ⟨3, 4⟩
def REP_CFG_PERIOD : FieldPos := ⟨7, 16⟩
def REP_CFG_NITEM : FieldPos := ⟨23, 4⟩
def REP_GROUP_ADDR : FieldPos := ⟨3, 49⟩
def REP_AREA_ADDR : FieldPos := ⟨8, 44⟩
def REP_ITEMS_ADDR : FieldPos := ⟨3, 49⟩
def REP_STAT_EXPELLED : FieldPos := ⟨0, 1⟩
def REP_STAT_FLAGGED : FieldPos := ⟨1, 1⟩
def REP_STAT_EPOCH : FieldPos := ⟨2, 62⟩
def REP_CMD_REJOIN : FieldPos := ⟨0, 1⟩
-- Table 14-6
def MTR_CTRL_PERIOD : FieldPos := ⟨0, 16⟩
def MTR_CTRL_AUDIT_EN : FieldPos := ⟨16, 1⟩
-- Table 14-7
def MTR_SNAP_GO : FieldPos := ⟨0, 1⟩
def MTR_SNAP_BUSY : FieldPos := ⟨1, 1⟩
def MTR_SNAP_REFUSED : FieldPos := ⟨2, 1⟩
def MTR_SNAP_SNAP : FieldPos := ⟨32, 32⟩
-- Table 14-8
def MTR_OVF_BLK : FieldPos := ⟨0, 11⟩
def MTR_OVF_ACCT : FieldPos := ⟨11, 1⟩
def MTR_OVF_TOTAL : FieldPos := ⟨12, 1⟩
def MTR_OVF_TRUSS : FieldPos := ⟨16, 16⟩
-- Table 14-9
def MTR_RING_BASE_ADDR : FieldPos := ⟨8, 36⟩
def MTR_RING_CFG_SIZE_LOG2 : FieldPos := ⟨0, 4⟩
def MTR_RING_CFG_EN : FieldPos := ⟨4, 1⟩
def MTR_RING_PROD_PROD : FieldPos := ⟨0, 64⟩
def MTR_RING_CONS_CONS : FieldPos := ⟨0, 64⟩
-- Table 14-10
def MTR_AUDIT_LOFT : FieldPos := ⟨0, 1⟩
def MTR_AUDIT_GUTTER : FieldPos := ⟨1, 1⟩
def MTR_AUDIT_METER : FieldPos := ⟨2, 1⟩
-- Table 14-11
def MTR_ENERGY_MEAS_Q : FieldPos := ⟨0, 64⟩
def MTR_TOTAL_Q : FieldPos := ⟨0, 64⟩
def MTR_RETIRED_Q : FieldPos := ⟨0, 64⟩
def MTR_ACCT_Q : FieldPos := ⟨0, 64⟩
-- Table 15-12
def FLS_STATUS_STAGE : FieldPos := ⟨0, 2⟩
def FLS_STATUS_RESTARTING : FieldPos := ⟨2, 1⟩
def FLS_STATUS_AUTOSTART : FieldPos := ⟨3, 1⟩
def FLS_STATUS_MAJOR_MISMATCH : FieldPos := ⟨4, 1⟩
def FLS_STATUS_BANK : FieldPos := ⟨5, 1⟩
def FLS_STATUS_FWBANK : FieldPos := ⟨6, 1⟩
def FLS_STATUS_FWMAJ : FieldPos := ⟨8, 8⟩
def FLS_STATUS_IMGMAJ : FieldPos := ⟨16, 8⟩
def FLS_STATUS_START_ERR : FieldPos := ⟨24, 8⟩
def FLS_STATUS_PLIMIT : FieldPos := ⟨32, 11⟩
-- Table 15-13
def FLS_THERM_TMAX : FieldPos := ⟨0, 8⟩
def FLS_THERM_THERM_THROTTLE : FieldPos := ⟨8, 1⟩
def FLS_THERM_POWER_THROTTLE : FieldPos := ⟨9, 1⟩
def FLS_THERM_PKG_POWER : FieldPos := ⟨16, 11⟩
-- Table 15-14
def FLS_KEYS_ENROLLED : FieldPos := ⟨0, 4⟩
def FLS_KEYS_REVOKED : FieldPos := ⟨4, 4⟩
def FLS_KEYS_OWNER_ONLY : FieldPos := ⟨8, 1⟩
def FLS_KEYS_SVN_FW : FieldPos := ⟨16, 6⟩
def FLS_KEYS_SVN_DEV : FieldPos := ⟨24, 6⟩
def FLS_KEYS_SVN_TRUSS : FieldPos := ⟨32, 6⟩
-- Table 15-15
def FLS_MBOX_ARG_ARG : FieldPos := ⟨0, 64⟩
def FLS_MBOX_CMD_CMD : FieldPos := ⟨0, 8⟩
def FLS_MBOX_CMD_TAG : FieldPos := ⟨8, 8⟩
def FLS_MBOX_CMD_GO : FieldPos := ⟨63, 1⟩
def FLS_MBOX_STAT_BUSY : FieldPos := ⟨0, 1⟩
def FLS_MBOX_STAT_DONE : FieldPos := ⟨1, 1⟩
def FLS_MBOX_STAT_IGNORED : FieldPos := ⟨2, 1⟩
def FLS_MBOX_STAT_STATUS : FieldPos := ⟨8, 8⟩
def FLS_MBOX_STAT_TAG : FieldPos := ⟨16, 8⟩
def FLS_MBOX_STAT_CAUSE : FieldPos := ⟨24, 8⟩
def FLS_MBOX_RES_RES : FieldPos := ⟨0, 64⟩
-- Table 15-16
def CLK_TIME_TIME : FieldPos := ⟨0, 64⟩
-- Table 15-17
def CLK_STAT_TRUSS_LOCK : FieldPos := ⟨0, 16⟩
def CLK_STAT_RIDGE_LOCK : FieldPos := ⟨16, 1⟩
def CLK_STAT_LOFT_LOCK : FieldPos := ⟨17, 1⟩
def CLK_STAT_CORE_REF_OK : FieldPos := ⟨18, 1⟩
def CLK_STAT_LINK_REF_OK : FieldPos := ⟨19, 1⟩
def CLK_STAT_NET_REF_OK : FieldPos := ⟨20, 1⟩
-- Table 15-18
def CLK_TRUSS_MHZ : FieldPos := ⟨0, 12⟩
def CLK_TRUSS_CEIL_MHZ : FieldPos := ⟨12, 12⟩
def CLK_TRUSS_THROTTLED : FieldPos := ⟨24, 1⟩
-- Table 15-19
def RST_CAUSE_START : FieldPos := ⟨0, 2⟩
def RST_CAUSE_PRIOR_TARP : FieldPos := ⟨2, 1⟩
def RST_CAUSE_PRIOR_TRIP : FieldPos := ⟨3, 1⟩
def RST_CAUSE_FLS_RESTARTS : FieldPos := ⟨8, 8⟩
-- Table 16-13
def GLB_MAC_BASE : FieldPos := ⟨0, 48⟩
-- Table 16-14
def GLB_PORT_STAT_UP : FieldPos := ⟨0, 1⟩
def GLB_PORT_STAT_PHY : FieldPos := ⟨1, 1⟩
def GLB_PORT_STAT_PFC : FieldPos := ⟨2, 1⟩
def GLB_PORT_STAT_PFC_PRIO : FieldPos := ⟨3, 3⟩
def GLB_PORT_STAT_ADDR_SET : FieldPos := ⟨6, 1⟩
def GLB_PORT_STAT_QPS : FieldPos := ⟨8, 11⟩

end Fld

/-- Registers of block 0 of Table 00-8. -/
def regRows0 : List RegRow := [
  ⟨0x0, [], false, [⟨0, 16, .ro, 20290⟩, ⟨16, 16, .ro, 2400⟩, ⟨32, 8, .ro, 176⟩, ⟨40, 8, .ro, 16⟩, ⟨48, 8, .ro, 3⟩]⟩,
  ⟨0x10, [], false, [⟨0, 48, .ro, 0⟩]⟩,
  ⟨0x100, [(2, 8)], false, [⟨0, 1, .ro, 0⟩, ⟨1, 1, .ro, 0⟩, ⟨2, 1, .ro, 0⟩, ⟨3, 3, .ro, 0⟩, ⟨6, 1, .ro, 0⟩, ⟨8, 11, .ro, 0⟩]⟩,
  ⟨0x800, [(2, 128)], true, [⟨0, 64, .ro, 0⟩]⟩,
  ⟨0x808, [(2, 128)], true, [⟨0, 64, .ro, 0⟩]⟩,
  ⟨0x810, [(2, 128)], true, [⟨0, 64, .ro, 0⟩]⟩,
  ⟨0x818, [(2, 128)], true, [⟨0, 64, .ro, 0⟩]⟩,
  ⟨0x820, [(2, 128)], true, [⟨0, 64, .ro, 0⟩]⟩,
  ⟨0x828, [(2, 128)], true, [⟨0, 64, .ro, 0⟩]⟩,
  ⟨0x830, [(2, 128)], true, [⟨0, 64, .ro, 0⟩]⟩,
  ⟨0x838, [(2, 128)], true, [⟨0, 64, .ro, 0⟩]⟩,
  ⟨0x840, [(2, 128)], true, [⟨0, 64, .ro, 0⟩]⟩,
  ⟨0x848, [(2, 128)], true, [⟨0, 64, .ro, 0⟩]⟩]

/-- Registers of block 16 of Table 00-8. -/
def regRows16_a : List RegRow := [
  ⟨0x1000000, [(16, 1048576)], false, [⟨0, 3, .ro, 0⟩, ⟨3, 2, .ro, 0⟩, ⟨5, 2, .ro, 0⟩, ⟨8, 3, .ro, 0⟩, ⟨12, 3, .ro, 0⟩, ⟨16, 4, .ro, 0⟩]⟩,
  ⟨0x1000008, [(16, 1048576)], false, [⟨0, 64, .ro, 0⟩]⟩,
  ⟨0x1020000, [(16, 1048576)], false, [⟨0, 8, .ro, 0⟩, ⟨8, 8, .ro, 0⟩, ⟨16, 8, .ro, 0⟩, ⟨24, 8, .ro, 0⟩]⟩,
  ⟨0x1020010, [(16, 1048576), (4, 8)], false, [⟨0, 6, .ro, 0⟩, ⟨6, 1, .ro, 0⟩, ⟨8, 8, .ro, 0⟩, ⟨16, 8, .ro, 0⟩]⟩,
  ⟨0x1040000, [(16, 1048576)], false, [⟨0, 3, .ro, 0⟩, ⟨8, 16, .ro, 0⟩]⟩,
  ⟨0x1040008, [(16, 1048576)], false, [⟨0, 1, .rw, 0⟩, ⟨1, 1, .rw, 1⟩]⟩,
  ⟨0x1040010, [(16, 1048576)], false, [⟨0, 1, .ro, 0⟩, ⟨1, 1, .ro, 0⟩, ⟨2, 1, .ro, 0⟩, ⟨3, 1, .ro, 0⟩, ⟨4, 1, .ro, 0⟩, ⟨5, 1, .w1c, 0⟩, ⟨6, 1, .w1c, 0⟩, ⟨7, 1, .w1c, 0⟩, ⟨8, 7, .ro, 0⟩, ⟨15, 17, .ro, 0⟩]⟩,
  ⟨0x1040018, [(16, 1048576)], false, [⟨0, 16, .rw, 0⟩]⟩,
  ⟨0x1040020, [(16, 1048576)], false, [⟨0, 1, .wo, 0⟩, ⟨1, 1, .wo, 0⟩]⟩,
  ⟨0x1040028, [(16, 1048576)], false, [⟨7, 37, .rw, 0⟩]⟩,
  ⟨0x1040030, [(16, 1048576)], false, [⟨0, 17, .rw, 0⟩, ⟨32, 16, .rw, 65535⟩, ⟨63, 1, .wo, 0⟩]⟩,
  ⟨0x1040040, [(16, 1048576), (4, 8)], false, [⟨0, 16, .rw, 65535⟩]⟩,
  ⟨0x1020040, [(16, 1048576)], true, [⟨0, 64, .ro, 0⟩]⟩,
  ⟨0x1020048, [(16, 1048576)], true, [⟨0, 64, .ro, 0⟩]⟩,
  ⟨0x1040080, [(16, 1048576)], true, [⟨0, 64, .ro, 0⟩]⟩,
  ⟨0x1040088, [(16, 1048576)], true, [⟨0, 64, .ro, 0⟩]⟩,
  ⟨0x1040090, [(16, 1048576)], true, [⟨0, 64, .ro, 0⟩]⟩,
  ⟨0x1040098, [(16, 1048576)], true, [⟨0, 64, .ro, 0⟩]⟩,
  ⟨0x10400a0, [(16, 1048576)], true, [⟨0, 64, .ro, 0⟩]⟩,
  ⟨0x10400a8, [(16, 1048576)], true, [⟨0, 64, .ro, 0⟩]⟩,
  ⟨0x10400b0, [(16, 1048576)], true, [⟨0, 64, .ro, 0⟩]⟩,
  ⟨0x10c0000, [(16, 1048576)], false, [⟨0, 1, .ro, 0⟩, ⟨1, 1, .ro, 0⟩, ⟨2, 1, .ro, 0⟩, ⟨3, 1, .ro, 0⟩, ⟨4, 1, .ro, 0⟩, ⟨5, 1, .ro, 0⟩, ⟨6, 1, .ro, 0⟩]⟩,
  ⟨0x10c0010, [(16, 1048576)], false, [⟨0, 1, .w1c, 0⟩, ⟨1, 1, .w1c, 0⟩, ⟨2, 1, .w1c, 0⟩, ⟨3, 1, .w1c, 0⟩, ⟨4, 1, .w1c, 0⟩]⟩,
  ⟨0x10c0040, [(16, 1048576)], true, [⟨0, 64, .ro, 0⟩]⟩]

/-- Registers of block 16 of Table 00-8. -/
def regRows16_b : List RegRow := [
  ⟨0x10c0048, [(16, 1048576)], true, [⟨0, 64, .ro, 0⟩]⟩,
  ⟨0x10c0050, [(16, 1048576)], true, [⟨0, 64, .ro, 0⟩]⟩,
  ⟨0x10c0018, [(16, 1048576)], false, [⟨0, 4, .rw, 4⟩, ⟨4, 4, .rw, 2⟩]⟩,
  ⟨0x10c0020, [(16, 1048576)], false, [⟨0, 6, .ro, 0⟩, ⟨8, 6, .ro, 0⟩, ⟨16, 6, .ro, 0⟩, ⟨24, 39, .ro, 0⟩, ⟨63, 1, .w1c, 0⟩]⟩,
  ⟨0x10c0058, [(16, 1048576)], true, [⟨0, 64, .ro, 0⟩]⟩,
  ⟨0x10c0060, [(16, 1048576)], true, [⟨0, 64, .ro, 0⟩]⟩,
  ⟨0x10c0068, [(16, 1048576)], true, [⟨0, 64, .ro, 0⟩]⟩,
  ⟨0x1060000, [(16, 1048576), (4, 65536)], false, [⟨0, 1, .ro, 1⟩, ⟨1, 1, .ro, 0⟩, ⟨2, 1, .ro, 0⟩, ⟨3, 1, .ro, 0⟩, ⟨4, 1, .ro, 0⟩]⟩,
  ⟨0x1060008, [(16, 1048576), (4, 65536)], false, [⟨0, 1, .rw, 1⟩, ⟨1, 1, .rw, 1⟩, ⟨2, 1, .rw, 1⟩]⟩,
  ⟨0x1060010, [(16, 1048576), (4, 65536)], false, [⟨0, 1, .ro, 0⟩, ⟨1, 1, .ro, 0⟩, ⟨2, 6, .ro, 0⟩, ⟨8, 1, .ro, 0⟩, ⟨9, 1, .ro, 0⟩, ⟨10, 1, .ro, 0⟩, ⟨11, 5, .ro, 0⟩, ⟨16, 1, .ro, 0⟩, ⟨17, 1, .ro, 0⟩]⟩,
  ⟨0x1060018, [(16, 1048576), (4, 65536)], false, [⟨0, 16, .rw, 2000⟩, ⟨16, 16, .rw, 250⟩, ⟨32, 16, .rw, 64⟩]⟩,
  ⟨0x1060020, [(16, 1048576), (4, 65536)], false, [⟨0, 16, .ro, 0⟩, ⟨16, 7, .ro, 0⟩, ⟨23, 1, .ro, 0⟩, ⟨24, 6, .ro, 0⟩, ⟨32, 8, .ro, 0⟩, ⟨40, 4, .ro, 0⟩, ⟨44, 4, .ro, 0⟩, ⟨48, 1, .ro, 0⟩, ⟨63, 1, .w1c, 0⟩]⟩,
  ⟨0x1060040, [(16, 1048576), (4, 65536)], true, [⟨0, 64, .ro, 0⟩]⟩,
  ⟨0x1060048, [(16, 1048576), (4, 65536)], true, [⟨0, 64, .ro, 0⟩]⟩,
  ⟨0x1060050, [(16, 1048576), (4, 65536)], true, [⟨0, 64, .ro, 0⟩]⟩,
  ⟨0x1060058, [(16, 1048576), (4, 65536)], true, [⟨0, 64, .ro, 0⟩]⟩,
  ⟨0x1060060, [(16, 1048576), (4, 65536)], true, [⟨0, 64, .ro, 0⟩]⟩,
  ⟨0x1060068, [(16, 1048576), (4, 65536)], true, [⟨0, 64, .ro, 0⟩]⟩,
  ⟨0x1060070, [(16, 1048576), (4, 65536)], true, [⟨0, 64, .ro, 0⟩]⟩,
  ⟨0x1060078, [(16, 1048576), (4, 65536)], true, [⟨0, 64, .ro, 0⟩]⟩,
  ⟨0x1060080, [(16, 1048576), (4, 65536)], true, [⟨0, 64, .ro, 0⟩]⟩,
  ⟨0x1060088, [(16, 1048576), (4, 65536)], true, [⟨0, 64, .ro, 0⟩]⟩,
  ⟨0x10a0000, [(16, 1048576), (2, 65536)], false, [⟨0, 1, .rw, 1⟩, ⟨1, 1, .rw, 1⟩, ⟨16, 16, .rw, 1000⟩]⟩,
  ⟨0x10a0008, [(16, 1048576), (2, 65536)], false, [⟨0, 1, .ro, 0⟩, ⟨1, 6, .ro, 0⟩, ⟨7, 2, .ro, 0⟩, ⟨9, 3, .ro, 0⟩, ⟨12, 6, .ro, 0⟩, ⟨18, 1, .ro, 0⟩, ⟨19, 4, .ro, 0⟩]⟩]

/-- Registers of block 16 of Table 00-8. -/
def regRows16_c : List RegRow := [
  ⟨0x10a0010, [(16, 1048576), (2, 65536)], false, [⟨0, 1, .w1c, 0⟩, ⟨1, 1, .w1c, 0⟩, ⟨2, 1, .w1c, 0⟩, ⟨3, 1, .w1c, 0⟩, ⟨4, 1, .w1c, 0⟩]⟩,
  ⟨0x10a0018, [(16, 1048576), (2, 65536)], false, [⟨0, 8, .ro, 0⟩, ⟨8, 7, .ro, 0⟩, ⟨16, 6, .ro, 0⟩, ⟨24, 16, .ro, 0⟩, ⟨40, 4, .ro, 0⟩, ⟨44, 1, .ro, 0⟩, ⟨63, 1, .w1c, 0⟩]⟩,
  ⟨0x10a0040, [(16, 1048576), (2, 65536)], true, [⟨0, 64, .ro, 0⟩]⟩,
  ⟨0x10a0048, [(16, 1048576), (2, 65536)], true, [⟨0, 64, .ro, 0⟩]⟩,
  ⟨0x10a0050, [(16, 1048576), (2, 65536)], true, [⟨0, 64, .ro, 0⟩]⟩,
  ⟨0x10a0058, [(16, 1048576), (2, 65536)], true, [⟨0, 64, .ro, 0⟩]⟩,
  ⟨0x10a0060, [(16, 1048576), (2, 65536)], true, [⟨0, 64, .ro, 0⟩]⟩,
  ⟨0x10a0068, [(16, 1048576), (2, 65536)], true, [⟨0, 64, .ro, 0⟩]⟩,
  ⟨0x10a0070, [(16, 1048576), (2, 65536)], true, [⟨0, 64, .ro, 0⟩]⟩,
  ⟨0x10a0078, [(16, 1048576), (2, 65536)], true, [⟨0, 64, .ro, 0⟩]⟩,
  ⟨0x10a0080, [(16, 1048576), (2, 65536)], true, [⟨0, 64, .ro, 0⟩]⟩,
  ⟨0x10a0088, [(16, 1048576), (2, 65536)], true, [⟨0, 64, .ro, 0⟩]⟩,
  ⟨0x10a0090, [(16, 1048576), (2, 65536)], true, [⟨0, 64, .ro, 0⟩]⟩,
  ⟨0x10a0098, [(16, 1048576), (2, 65536)], true, [⟨0, 64, .ro, 0⟩]⟩,
  ⟨0x10a00a0, [(16, 1048576), (2, 65536)], true, [⟨0, 64, .ro, 0⟩]⟩]

/-- Registers of block 6 of Table 00-8. -/
def regRows6 : List RegRow := [
  ⟨0x600000, [], false, [⟨0, 16, .rw, 50⟩]⟩,
  ⟨0x600008, [], false, [⟨7, 45, .rw, 0⟩]⟩,
  ⟨0x610000, [(4096, 64)], false, [⟨0, 3, .ro, 0⟩, ⟨4, 3, .ro, 0⟩, ⟨7, 1, .ro, 0⟩, ⟨8, 1, .ro, 0⟩, ⟨9, 1, .ro, 0⟩, ⟨10, 3, .ro, 0⟩, ⟨13, 3, .ro, 0⟩]⟩,
  ⟨0x610008, [(4096, 64)], false, [⟨0, 32, .ro, 0⟩, ⟨32, 32, .ro, 0⟩]⟩,
  ⟨0x610010, [(4096, 64)], false, [⟨0, 32, .ro, 0⟩, ⟨32, 32, .ro, 0⟩]⟩,
  ⟨0x610018, [(4096, 64)], false, [⟨0, 64, .ro, 0⟩]⟩,
  ⟨0x610020, [(4096, 64)], false, [⟨0, 64, .ro, 0⟩]⟩,
  ⟨0x610028, [(4096, 64)], false, [⟨0, 32, .ro, 0⟩, ⟨32, 32, .ro, 0⟩]⟩,
  ⟨0x680000, [(16, 4096)], false, [⟨0, 1, .ro, 0⟩, ⟨1, 6, .ro, 0⟩, ⟨7, 1, .ro, 0⟩, ⟨8, 9, .ro, 0⟩]⟩,
  ⟨0x680040, [(16, 4096)], true, [⟨0, 64, .ro, 0⟩]⟩,
  ⟨0x680048, [(16, 4096)], true, [⟨0, 64, .ro, 0⟩]⟩,
  ⟨0x680050, [(16, 4096)], true, [⟨0, 64, .ro, 0⟩]⟩,
  ⟨0x680058, [(16, 4096)], true, [⟨0, 64, .ro, 0⟩]⟩,
  ⟨0x680060, [(16, 4096)], true, [⟨0, 64, .ro, 0⟩]⟩,
  ⟨0x680068, [(16, 4096)], true, [⟨0, 64, .ro, 0⟩]⟩,
  ⟨0x680070, [(16, 4096)], true, [⟨0, 64, .ro, 0⟩]⟩,
  ⟨0x680078, [(16, 4096)], true, [⟨0, 64, .ro, 0⟩]⟩,
  ⟨0x680080, [(16, 4096)], true, [⟨0, 64, .ro, 0⟩]⟩,
  ⟨0x680088, [(16, 4096)], true, [⟨0, 64, .ro, 0⟩]⟩,
  ⟨0x680090, [(16, 4096)], true, [⟨0, 64, .ro, 0⟩]⟩,
  ⟨0x680098, [(16, 4096)], true, [⟨0, 64, .ro, 0⟩]⟩]

/-- Registers of block 7 of Table 00-8. -/
def regRows7 : List RegRow := [
  ⟨0x700000, [], false, [⟨0, 16, .rw, 1000⟩, ⟨16, 1, .rw, 1⟩, ⟨17, 1, .rw, 1⟩]⟩,
  ⟨0x700010, [], false, [⟨0, 15, .rw, 0⟩]⟩,
  ⟨0x700018, [], false, [⟨0, 16, .ro, 0⟩, ⟨16, 1, .ro, 0⟩, ⟨17, 1, .ro, 0⟩]⟩,
  ⟨0x780000, [(16, 4096)], false, [⟨0, 1, .ro, 0⟩, ⟨1, 6, .ro, 0⟩, ⟨7, 2, .ro, 0⟩, ⟨9, 2, .ro, 0⟩, ⟨11, 8, .ro, 0⟩]⟩,
  ⟨0x780008, [(16, 4096)], false, [⟨0, 15, .ro, 0⟩, ⟨16, 14, .ro, 0⟩, ⟨30, 6, .ro, 0⟩, ⟨36, 4, .ro, 0⟩, ⟨40, 1, .ro, 0⟩, ⟨63, 1, .w1c, 0⟩]⟩,
  ⟨0x780040, [(16, 4096)], true, [⟨0, 64, .ro, 0⟩]⟩,
  ⟨0x780048, [(16, 4096)], true, [⟨0, 64, .ro, 0⟩]⟩,
  ⟨0x780050, [(16, 4096)], true, [⟨0, 64, .ro, 0⟩]⟩,
  ⟨0x780058, [(16, 4096)], true, [⟨0, 64, .ro, 0⟩]⟩,
  ⟨0x780060, [(16, 4096)], true, [⟨0, 64, .ro, 0⟩]⟩,
  ⟨0x780068, [(16, 4096)], true, [⟨0, 64, .ro, 0⟩]⟩,
  ⟨0x780070, [(16, 4096)], true, [⟨0, 64, .ro, 0⟩]⟩,
  ⟨0x780078, [(16, 4096)], true, [⟨0, 64, .ro, 0⟩]⟩,
  ⟨0x780080, [(16, 4096)], true, [⟨0, 64, .ro, 0⟩]⟩,
  ⟨0x780088, [(16, 4096)], true, [⟨0, 64, .ro, 0⟩]⟩,
  ⟨0x780090, [(16, 4096)], true, [⟨0, 64, .ro, 0⟩]⟩,
  ⟨0x780098, [(16, 4096)], true, [⟨0, 64, .ro, 0⟩]⟩,
  ⟨0x7800a0, [(16, 4096)], true, [⟨0, 64, .ro, 0⟩]⟩,
  ⟨0x7800a8, [(16, 4096)], true, [⟨0, 64, .ro, 0⟩]⟩]

/-- Registers of block 5 of Table 00-8. -/
def regRows5_a : List RegRow := [
  ⟨0x500000, [], false, [⟨0, 1, .rw, 0⟩]⟩,
  ⟨0x500008, [], false, [⟨7, 45, .rw, 0⟩]⟩,
  ⟨0x500010, [], false, [⟨0, 15, .rw, 0⟩]⟩,
  ⟨0x500018, [], false, [⟨0, 3, .ro, 0⟩, ⟨3, 1, .ro, 0⟩, ⟨4, 1, .ro, 0⟩, ⟨5, 1, .ro, 0⟩, ⟨6, 1, .ro, 0⟩, ⟨7, 3, .ro, 0⟩, ⟨10, 3, .ro, 0⟩, ⟨13, 3, .ro, 0⟩, ⟨16, 8, .ro, 0⟩, ⟨24, 8, .ro, 0⟩, ⟨32, 6, .ro, 0⟩, ⟨38, 15, .ro, 0⟩]⟩,
  ⟨0x500020, [], false, [⟨0, 40, .ro, 0⟩, ⟨40, 16, .ro, 0⟩]⟩,
  ⟨0x500028, [], false, [⟨0, 64, .ro, 0⟩]⟩,
  ⟨0x500030, [], false, [⟨0, 20, .ro, 0⟩, ⟨20, 20, .ro, 0⟩, ⟨40, 16, .ro, 0⟩]⟩,
  ⟨0x500100, [(4, 32)], false, [⟨0, 1, .rw, 0⟩, ⟨1, 1, .rw, 1⟩, ⟨2, 6, .rw, 0⟩, ⟨8, 16, .rw, 0⟩, ⟨24, 13, .rw, 4096⟩, ⟨37, 13, .rw, 4096⟩]⟩,
  ⟨0x500108, [(4, 32)], false, [⟨12, 40, .rw, 0⟩]⟩,
  ⟨0x500110, [(4, 32)], false, [⟨0, 19, .rw, 2048⟩]⟩,
  ⟨0x500118, [(4, 32)], false, [⟨0, 1, .ro, 0⟩, ⟨1, 1, .ro, 0⟩, ⟨32, 32, .ro, 0⟩]⟩,
  ⟨0x501000, [(256, 8)], false, [⟨0, 1, .ro, 0⟩, ⟨1, 1, .ro, 0⟩, ⟨2, 6, .ro, 0⟩, ⟨8, 24, .ro, 0⟩, ⟨32, 13, .ro, 0⟩]⟩,
  ⟨0x580000, [], false, [⟨0, 1, .rw, 1⟩, ⟨1, 1, .rw, 1⟩]⟩,
  ⟨0x580008, [(4, 8)], false, [⟨0, 13, .ro, 1024⟩]⟩,
  ⟨0x580028, [(4, 8)], false, [⟨0, 32, .ro, 0⟩, ⟨32, 32, .ro, 0⟩]⟩,
  ⟨0x500800, [], true, [⟨0, 64, .ro, 0⟩]⟩,
  ⟨0x500808, [], true, [⟨0, 64, .ro, 0⟩]⟩,
  ⟨0x500810, [], true, [⟨0, 64, .ro, 0⟩]⟩,
  ⟨0x500818, [], true, [⟨0, 64, .ro, 0⟩]⟩,
  ⟨0x500820, [], true, [⟨0, 64, .ro, 0⟩]⟩,
  ⟨0x500828, [], true, [⟨0, 64, .ro, 0⟩]⟩,
  ⟨0x500830, [], true, [⟨0, 64, .ro, 0⟩]⟩,
  ⟨0x500838, [], true, [⟨0, 64, .ro, 0⟩]⟩,
  ⟨0x580100, [], true, [⟨0, 64, .ro, 0⟩]⟩]

/-- Registers of block 5 of Table 00-8. -/
def regRows5_b : List RegRow := [
  ⟨0x580108, [], true, [⟨0, 64, .ro, 0⟩]⟩,
  ⟨0x580110, [], true, [⟨0, 64, .ro, 0⟩]⟩,
  ⟨0x580118, [], true, [⟨0, 64, .ro, 0⟩]⟩]

/-- Registers of block 1 of Table 00-8. -/
def regRows1 : List RegRow := [
  ⟨0x100000, [], false, [⟨6, 38, .rw, 0⟩, ⟨48, 5, .rw, 6⟩, ⟨53, 1, .rw, 0⟩]⟩,
  ⟨0x100008, [], false, [⟨0, 32, .rw, 0⟩]⟩,
  ⟨0x100010, [], false, [⟨0, 16, .rw, 100⟩]⟩,
  ⟨0x100018, [], false, [⟨0, 32, .ro, 0⟩, ⟨32, 1, .ro, 0⟩, ⟨33, 1, .ro, 0⟩, ⟨34, 1, .ro, 0⟩]⟩,
  ⟨0x101000, [], false, [⟨0, 32, .wo, 0⟩]⟩,
  ⟨0x108000, [], false, [⟨0, 1, .rw, 1⟩, ⟨16, 14, .rw, 1024⟩]⟩,
  ⟨0x108008, [], false, [⟨21, 31, .rw, 0⟩, ⟨52, 12, .rw, 0⟩]⟩,
  ⟨0x108010, [], false, [⟨0, 12, .rw, 0⟩, ⟨12, 6, .rw, 0⟩]⟩,
  ⟨0x108018, [], false, [⟨0, 64, .ro, 0⟩]⟩,
  ⟨0x108800, [], true, [⟨0, 64, .ro, 0⟩]⟩,
  ⟨0x108808, [], true, [⟨0, 64, .ro, 0⟩]⟩,
  ⟨0x108810, [], true, [⟨0, 64, .ro, 0⟩]⟩,
  ⟨0x108818, [], true, [⟨0, 64, .ro, 0⟩]⟩,
  ⟨0x108820, [], true, [⟨0, 64, .ro, 0⟩]⟩,
  ⟨0x108828, [], true, [⟨0, 64, .ro, 0⟩]⟩,
  ⟨0x108830, [], true, [⟨0, 64, .ro, 0⟩]⟩,
  ⟨0x108838, [], true, [⟨0, 64, .ro, 0⟩]⟩,
  ⟨0x108840, [], true, [⟨0, 64, .ro, 0⟩]⟩]

/-- Registers of block 2 of Table 00-8. -/
def regRows2 : List RegRow := [
  ⟨0x201000, [(64, 64)], false, [⟨0, 64, .rw, 0⟩]⟩,
  ⟨0x201008, [(64, 64)], false, [⟨0, 5, .rw, 6⟩, ⟨8, 24, .rw, 0⟩, ⟨32, 32, .rw, 0⟩]⟩,
  ⟨0x201010, [(64, 64)], false, [⟨0, 32, .rw, 0⟩]⟩,
  ⟨0x201018, [(64, 64)], false, [⟨0, 32, .ro, 0⟩, ⟨32, 32, .ro, 0⟩]⟩,
  ⟨0x201020, [(64, 64)], false, [⟨0, 2, .ro, 0⟩, ⟨2, 13, .ro, 0⟩, ⟨15, 13, .ro, 0⟩]⟩,
  ⟨0x201028, [(64, 64)], false, [⟨0, 1, .wo, 0⟩, ⟨1, 1, .rw, 0⟩, ⟨16, 13, .rw, 64⟩]⟩,
  ⟨0x200800, [], true, [⟨0, 64, .ro, 0⟩]⟩,
  ⟨0x200808, [], true, [⟨0, 64, .ro, 0⟩]⟩,
  ⟨0x200810, [], true, [⟨0, 64, .ro, 0⟩]⟩,
  ⟨0x200818, [], true, [⟨0, 64, .ro, 0⟩]⟩]

/-- Registers of block 3 of Table 00-8. -/
def regRows3 : List RegRow := [
  ⟨0x300000, [(64, 4096)], false, [⟨0, 2, .ro, 0⟩, ⟨3, 3, .ro, 0⟩, ⟨16, 11, .ro, 0⟩, ⟨32, 16, .ro, 0⟩]⟩,
  ⟨0x300008, [(64, 4096)], false, [⟨0, 64, .ro, 0⟩]⟩,
  ⟨0x300010, [(64, 4096)], false, [⟨0, 16, .ro, 0⟩, ⟨16, 32, .ro, 0⟩, ⟨48, 16, .ro, 0⟩]⟩,
  ⟨0x300040, [(64, 4096)], true, [⟨0, 64, .ro, 0⟩]⟩,
  ⟨0x300048, [(64, 4096)], true, [⟨0, 64, .ro, 0⟩]⟩,
  ⟨0x300050, [(64, 4096)], true, [⟨0, 64, .ro, 0⟩]⟩,
  ⟨0x300058, [(64, 4096)], true, [⟨0, 64, .ro, 0⟩]⟩]

/-- Registers of block 4 of Table 00-8. -/
def regRows4 : List RegRow := [
  ⟨0x400000, [], false, [⟨0, 16, .rw, 100⟩, ⟨16, 4, .rw, 3⟩]⟩,
  ⟨0x400008, [], false, [⟨0, 64, .rw, 0⟩]⟩,
  ⟨0x400010, [], false, [⟨0, 5, .rw, 6⟩, ⟨8, 24, .rw, 0⟩, ⟨32, 32, .rw, 0⟩]⟩,
  ⟨0x400018, [], false, [⟨0, 32, .rw, 0⟩]⟩,
  ⟨0x400020, [], false, [⟨0, 64, .wo, 0⟩]⟩,
  ⟨0x400028, [], false, [⟨0, 11, .ro, 0⟩, ⟨11, 1, .ro, 0⟩, ⟨12, 1, .ro, 0⟩]⟩,
  ⟨0x400100, [], true, [⟨0, 64, .ro, 0⟩]⟩,
  ⟨0x400108, [], true, [⟨0, 64, .ro, 0⟩]⟩,
  ⟨0x400110, [], true, [⟨0, 64, .ro, 0⟩]⟩,
  ⟨0x400118, [], true, [⟨0, 64, .ro, 0⟩]⟩,
  ⟨0x400120, [], true, [⟨0, 64, .ro, 0⟩]⟩,
  ⟨0x400128, [], true, [⟨0, 64, .ro, 0⟩]⟩,
  ⟨0x400130, [], true, [⟨0, 64, .ro, 0⟩]⟩,
  ⟨0x400138, [], true, [⟨0, 64, .ro, 0⟩]⟩,
  ⟨0x400140, [], true, [⟨0, 64, .ro, 0⟩]⟩]

/-- Registers of block 8 of Table 00-8. -/
def regRows8_a : List RegRow := [
  ⟨0x800000, [], false, [⟨0, 10, .ro, 576⟩, ⟨10, 10, .ro, 0⟩, ⟨20, 10, .ro, 0⟩]⟩,
  ⟨0x800008, [], false, [⟨0, 1, .rw, 1⟩, ⟨1, 1, .rw, 1⟩, ⟨8, 8, .rw, 24⟩, ⟨16, 16, .rw, 16⟩]⟩,
  ⟨0x800010, [], false, [⟨0, 16, .rw, 2000⟩, ⟨16, 8, .rw, 64⟩]⟩,
  ⟨0x800018, [], false, [⟨0, 1, .rw, 1⟩, ⟨16, 16, .rw, 2000⟩, ⟨32, 16, .rw, 50⟩]⟩,
  ⟨0x800020, [], false, [⟨0, 1, .w1c, 0⟩, ⟨1, 1, .ro, 0⟩, ⟨2, 3, .ro, 0⟩]⟩,
  ⟨0x800028, [], false, [⟨0, 10, .rw, 0⟩, ⟨10, 1, .rw, 0⟩, ⟨63, 1, .wo, 0⟩]⟩,
  ⟨0x800030, [], false, [⟨0, 9, .rw, 0⟩]⟩,
  ⟨0x800038, [], false, [⟨0, 3, .ro, 0⟩, ⟨3, 6, .ro, 63⟩, ⟨9, 6, .ro, 63⟩, ⟨15, 1, .ro, 0⟩, ⟨16, 11, .ro, 0⟩, ⟨27, 2, .ro, 0⟩]⟩,
  ⟨0x800040, [], false, [⟨0, 2, .wo, 0⟩, ⟨8, 6, .wo, 0⟩]⟩,
  ⟨0x800048, [], false, [⟨0, 9, .ro, 0⟩, ⟨9, 3, .ro, 0⟩, ⟨12, 19, .ro, 0⟩, ⟨31, 7, .ro, 0⟩, ⟨38, 6, .ro, 0⟩, ⟨63, 1, .w1c, 0⟩]⟩,
  ⟨0x800100, [(2, 128)], false, [⟨0, 32, .rw, 0⟩, ⟨32, 6, .ro, 0⟩, ⟨63, 1, .rw, 0⟩]⟩,
  ⟨0x800108, [(2, 128), (8, 8)], false, [⟨0, 64, .rw, 0⟩]⟩,
  ⟨0x800200, [(9, 8)], false, [⟨0, 64, .ro, 0⟩]⟩,
  ⟨0x800300, [(8, 8)], false, [⟨0, 64, .ro, 0⟩]⟩,
  ⟨0x800400, [], true, [⟨0, 64, .ro, 0⟩]⟩,
  ⟨0x800408, [], true, [⟨0, 64, .ro, 0⟩]⟩,
  ⟨0x800410, [], true, [⟨0, 64, .ro, 0⟩]⟩,
  ⟨0x800418, [], true, [⟨0, 64, .ro, 0⟩]⟩,
  ⟨0x800420, [], true, [⟨0, 64, .ro, 0⟩]⟩,
  ⟨0x800428, [], true, [⟨0, 64, .ro, 0⟩]⟩,
  ⟨0x800430, [], true, [⟨0, 64, .ro, 0⟩]⟩,
  ⟨0x800438, [], true, [⟨0, 64, .ro, 0⟩]⟩,
  ⟨0x800440, [], true, [⟨0, 64, .ro, 0⟩]⟩,
  ⟨0x800448, [], true, [⟨0, 64, .ro, 0⟩]⟩]

/-- Registers of block 8 of Table 00-8. -/
def regRows8_b : List RegRow := [
  ⟨0x800450, [], true, [⟨0, 64, .ro, 0⟩]⟩,
  ⟨0x800458, [], true, [⟨0, 64, .ro, 0⟩]⟩,
  ⟨0x800460, [], true, [⟨0, 64, .ro, 0⟩]⟩,
  ⟨0x800468, [], true, [⟨0, 64, .ro, 0⟩]⟩]

/-- Registers of block 9 of Table 00-8. -/
def regRows9_a : List RegRow := [
  ⟨0x900000, [], false, [⟨0, 18, .ro, 0⟩, ⟨18, 7, .ro, 0⟩, ⟨25, 7, .ro, 0⟩, ⟨32, 7, .ro, 0⟩, ⟨39, 1, .ro, 0⟩]⟩,
  ⟨0x900010, [(6, 8)], false, [⟨0, 1, .ro, 0⟩, ⟨1, 1, .rw, 0⟩]⟩,
  ⟨0x900040, [(6, 8)], false, [⟨0, 8, .ro, 0⟩, ⟨8, 8, .ro, 0⟩, ⟨16, 1, .ro, 1⟩, ⟨17, 3, .ro, 0⟩, ⟨20, 2, .ro, 0⟩, ⟨22, 18, .ro, 0⟩]⟩,
  ⟨0x900080, [(3, 8)], false, [⟨0, 64, .ro, 0⟩]⟩,
  ⟨0x9000a0, [], false, [⟨0, 2, .wo, 0⟩, ⟨2, 2, .wo, 0⟩, ⟨4, 3, .ro, 0⟩, ⟨7, 1, .ro, 0⟩]⟩,
  ⟨0x910000, [], false, [⟨0, 16, .rw, 10⟩, ⟨16, 16, .rw, 4000⟩, ⟨32, 16, .rw, 1000⟩, ⟨48, 4, .rw, 8⟩]⟩,
  ⟨0x910100, [(48, 8)], false, [⟨0, 3, .ro, 0⟩, ⟨3, 1, .ro, 0⟩, ⟨4, 2, .ro, 0⟩, ⟨6, 1, .ro, 0⟩, ⟨7, 4, .ro, 0⟩]⟩,
  ⟨0x920000, [], false, [⟨0, 8, .rw, 64⟩, ⟨16, 16, .rw, 10⟩]⟩,
  ⟨0x920008, [(2, 8)], false, [⟨0, 5, .ro, 0⟩, ⟨5, 9, .ro, 0⟩]⟩,
  ⟨0x920020, [(2, 8)], false, [⟨0, 32, .ro, 0⟩, ⟨32, 18, .ro, 0⟩, ⟨50, 4, .ro, 0⟩, ⟨54, 1, .ro, 0⟩, ⟨63, 1, .w1c, 0⟩]⟩,
  ⟨0x911000, [(48, 64)], true, [⟨0, 64, .ro, 0⟩]⟩,
  ⟨0x911008, [(48, 64)], true, [⟨0, 64, .ro, 0⟩]⟩,
  ⟨0x911010, [(48, 64)], true, [⟨0, 64, .ro, 0⟩]⟩,
  ⟨0x911018, [(48, 64)], true, [⟨0, 64, .ro, 0⟩]⟩,
  ⟨0x911020, [(48, 64)], true, [⟨0, 64, .ro, 0⟩]⟩,
  ⟨0x911028, [(48, 64)], true, [⟨0, 64, .ro, 0⟩]⟩,
  ⟨0x911030, [(48, 64)], true, [⟨0, 64, .ro, 0⟩]⟩,
  ⟨0x911038, [(48, 64)], true, [⟨0, 64, .ro, 0⟩]⟩,
  ⟨0x920100, [(2, 128)], true, [⟨0, 64, .ro, 0⟩]⟩,
  ⟨0x920108, [(2, 128)], true, [⟨0, 64, .ro, 0⟩]⟩,
  ⟨0x920110, [(2, 128)], true, [⟨0, 64, .ro, 0⟩]⟩,
  ⟨0x920118, [(2, 128)], true, [⟨0, 64, .ro, 0⟩]⟩,
  ⟨0x920120, [(2, 128)], true, [⟨0, 64, .ro, 0⟩]⟩,
  ⟨0x920128, [(2, 128)], true, [⟨0, 64, .ro, 0⟩]⟩]

/-- Registers of block 9 of Table 00-8. -/
def regRows9_b : List RegRow := [
  ⟨0x920130, [(2, 128)], true, [⟨0, 64, .ro, 0⟩]⟩,
  ⟨0x920138, [(2, 128)], true, [⟨0, 64, .ro, 0⟩]⟩]

/-- Registers of block 10 of Table 00-8. -/
def regRows10_a : List RegRow := [
  ⟨0xa00000, [], false, [⟨0, 1, .rw, 1⟩, ⟨8, 8, .rw, 3⟩, ⟨16, 16, .rw, 60⟩, ⟨32, 16, .rw, 0⟩, ⟨48, 8, .rw, 10⟩]⟩,
  ⟨0xa00008, [], false, [⟨0, 7, .ro, 127⟩, ⟨7, 1, .ro, 1⟩]⟩,
  ⟨0xa00010, [], false, [⟨0, 5, .rw, 0⟩, ⟨5, 3, .rw, 0⟩, ⟨63, 1, .wo, 0⟩]⟩,
  ⟨0xa00018, [], false, [⟨0, 2, .ro, 0⟩, ⟨8, 8, .ro, 0⟩, ⟨16, 8, .ro, 0⟩]⟩,
  ⟨0xa00100, [(16, 8)], false, [⟨0, 3, .ro, 0⟩, ⟨3, 1, .ro, 0⟩, ⟨4, 1, .ro, 0⟩, ⟨8, 8, .ro, 0⟩, ⟨16, 2, .ro, 0⟩, ⟨18, 4, .ro, 0⟩]⟩,
  ⟨0xa00020, [], false, [⟨9, 35, .rw, 0⟩]⟩,
  ⟨0xa00028, [], false, [⟨0, 4, .rw, 6⟩, ⟨4, 1, .rw, 0⟩]⟩,
  ⟨0xa00030, [], false, [⟨0, 64, .ro, 0⟩]⟩,
  ⟨0xa00038, [], false, [⟨0, 64, .rw, 0⟩]⟩,
  ⟨0xa10000, [], false, [⟨0, 1, .rw, 1⟩, ⟨8, 8, .rw, 64⟩, ⟨16, 16, .rw, 10⟩, ⟨32, 16, .rw, 16⟩]⟩,
  ⟨0xa10008, [], false, [⟨5, 47, .rw, 0⟩]⟩,
  ⟨0xa10010, [], false, [⟨0, 9, .rw, 0⟩]⟩,
  ⟨0xa10018, [], false, [⟨0, 1, .ro, 0⟩]⟩,
  ⟨0xa10020, [(4, 8)], false, [⟨0, 64, .w1c, 0⟩]⟩,
  ⟨0xa11000, [(8, 64)], false, [⟨0, 1, .rw, 0⟩, ⟨1, 2, .rw, 0⟩, ⟨3, 4, .rw, 0⟩, ⟨7, 16, .rw, 64⟩, ⟨23, 4, .rw, 0⟩]⟩,
  ⟨0xa11008, [(8, 64)], false, [⟨3, 49, .rw, 0⟩]⟩,
  ⟨0xa11010, [(8, 64)], false, [⟨8, 44, .rw, 0⟩]⟩,
  ⟨0xa11018, [(8, 64)], false, [⟨3, 49, .rw, 0⟩]⟩,
  ⟨0xa11020, [(8, 64)], false, [⟨0, 1, .ro, 0⟩, ⟨1, 1, .w1c, 0⟩, ⟨2, 62, .ro, 0⟩]⟩,
  ⟨0xa11028, [(8, 64)], false, [⟨0, 1, .wo, 0⟩]⟩,
  ⟨0xa00800, [], true, [⟨0, 64, .ro, 0⟩]⟩,
  ⟨0xa00808, [], true, [⟨0, 64, .ro, 0⟩]⟩,
  ⟨0xa00810, [], true, [⟨0, 64, .ro, 0⟩]⟩,
  ⟨0xa00818, [], true, [⟨0, 64, .ro, 0⟩]⟩]

/-- Registers of block 10 of Table 00-8. -/
def regRows10_b : List RegRow := [
  ⟨0xa00820, [], true, [⟨0, 64, .ro, 0⟩]⟩,
  ⟨0xa00828, [], true, [⟨0, 64, .ro, 0⟩]⟩,
  ⟨0xa00830, [], true, [⟨0, 64, .ro, 0⟩]⟩,
  ⟨0xa00838, [], true, [⟨0, 64, .ro, 0⟩]⟩,
  ⟨0xa10800, [], true, [⟨0, 64, .ro, 0⟩]⟩,
  ⟨0xa10808, [], true, [⟨0, 64, .ro, 0⟩]⟩,
  ⟨0xa10810, [], true, [⟨0, 64, .ro, 0⟩]⟩,
  ⟨0xa10818, [], true, [⟨0, 64, .ro, 0⟩]⟩,
  ⟨0xa10820, [], true, [⟨0, 64, .ro, 0⟩]⟩,
  ⟨0xa10828, [], true, [⟨0, 64, .ro, 0⟩]⟩]

/-- Registers of block 11 of Table 00-8. -/
def regRows11 : List RegRow := [
  ⟨0xb00000, [], false, [⟨0, 16, .rw, 1000⟩, ⟨16, 1, .rw, 1⟩]⟩,
  ⟨0xb00008, [], false, [⟨0, 1, .wo, 0⟩, ⟨1, 1, .ro, 0⟩, ⟨2, 1, .w1c, 0⟩, ⟨32, 32, .ro, 0⟩]⟩,
  ⟨0xb00010, [], false, [⟨0, 11, .w1c, 0⟩, ⟨11, 1, .w1c, 0⟩, ⟨12, 1, .w1c, 0⟩, ⟨16, 16, .w1c, 0⟩]⟩,
  ⟨0xb00018, [], false, [⟨8, 36, .rw, 0⟩]⟩,
  ⟨0xb00020, [], false, [⟨0, 4, .rw, 8⟩, ⟨4, 1, .rw, 0⟩]⟩,
  ⟨0xb00028, [], false, [⟨0, 64, .ro, 0⟩]⟩,
  ⟨0xb00030, [], false, [⟨0, 64, .rw, 0⟩]⟩,
  ⟨0xb00038, [], false, [⟨0, 1, .w1c, 0⟩, ⟨1, 1, .w1c, 0⟩, ⟨2, 1, .w1c, 0⟩]⟩,
  ⟨0xb00040, [], false, [⟨0, 64, .ro, 0⟩]⟩,
  ⟨0xb01000, [(32, 8)], false, [⟨0, 64, .ro, 0⟩]⟩,
  ⟨0xb01100, [(32, 8)], false, [⟨0, 64, .ro, 0⟩]⟩,
  ⟨0xb10000, [(65, 256), (32, 8)], false, [⟨0, 64, .ro, 0⟩]⟩,
  ⟨0xb00800, [], true, [⟨0, 64, .ro, 0⟩]⟩,
  ⟨0xb00808, [], true, [⟨0, 64, .ro, 0⟩]⟩,
  ⟨0xb00810, [], true, [⟨0, 64, .ro, 0⟩]⟩]

/-- Registers of block 12 of Table 00-8. -/
def regRows12 : List RegRow := [
  ⟨0xc00000, [], false, [⟨0, 2, .ro, 1⟩, ⟨2, 1, .ro, 0⟩, ⟨3, 1, .ro, 0⟩, ⟨4, 1, .ro, 0⟩, ⟨5, 1, .ro, 0⟩, ⟨6, 1, .ro, 0⟩, ⟨8, 8, .ro, 0⟩, ⟨16, 8, .ro, 0⟩, ⟨24, 8, .ro, 0⟩, ⟨32, 11, .ro, 0⟩]⟩,
  ⟨0xc00008, [], false, [⟨0, 8, .ro, 0⟩, ⟨8, 1, .ro, 0⟩, ⟨9, 1, .ro, 0⟩, ⟨16, 11, .ro, 0⟩]⟩,
  ⟨0xc00010, [], false, [⟨0, 4, .ro, 0⟩, ⟨4, 4, .ro, 0⟩, ⟨8, 1, .ro, 0⟩, ⟨16, 6, .ro, 0⟩, ⟨24, 6, .ro, 0⟩, ⟨32, 6, .ro, 0⟩]⟩,
  ⟨0xc00100, [(4, 8)], false, [⟨0, 64, .rw, 0⟩]⟩,
  ⟨0xc00120, [], false, [⟨0, 8, .wo, 0⟩, ⟨8, 8, .wo, 0⟩, ⟨63, 1, .wo, 0⟩]⟩,
  ⟨0xc00128, [], false, [⟨0, 1, .ro, 0⟩, ⟨1, 1, .w1c, 0⟩, ⟨2, 1, .w1c, 0⟩, ⟨8, 8, .ro, 0⟩, ⟨16, 8, .ro, 0⟩, ⟨24, 8, .ro, 0⟩]⟩,
  ⟨0xc00130, [(2, 8)], false, [⟨0, 64, .ro, 0⟩]⟩]

/-- Registers of block 13 of Table 00-8. -/
def regRows13 : List RegRow := [
  ⟨0xd00000, [], false, [⟨0, 64, .ro, 0⟩]⟩,
  ⟨0xd00008, [], false, [⟨0, 16, .ro, 0⟩, ⟨16, 1, .ro, 0⟩, ⟨17, 1, .ro, 0⟩, ⟨18, 1, .ro, 0⟩, ⟨19, 1, .ro, 0⟩, ⟨20, 1, .ro, 0⟩]⟩,
  ⟨0xd00100, [(16, 8)], false, [⟨0, 12, .ro, 0⟩, ⟨12, 12, .ro, 0⟩, ⟨24, 1, .ro, 0⟩]⟩,
  ⟨0xd08000, [], false, [⟨0, 2, .ro, 0⟩, ⟨2, 1, .ro, 0⟩, ⟨3, 1, .ro, 0⟩, ⟨8, 8, .ro, 0⟩]⟩]

/-- The registers of a block of the window, by offset ÷ 1 MiB; the sixteen truss blocks share their rows (Table 00-8). -/
def regRowsIn (b : Nat) : List RegRow :=
  if b = 0 then regRows0 else
  if b = 1 then regRows1 else
  if b = 2 then regRows2 else
  if b = 3 then regRows3 else
  if b = 4 then regRows4 else
  if b = 5 then regRows5_a ++ regRows5_b else
  if b = 6 then regRows6 else
  if b = 7 then regRows7 else
  if b = 8 then regRows8_a ++ regRows8_b else
  if b = 9 then regRows9_a ++ regRows9_b else
  if b = 10 then regRows10_a ++ regRows10_b else
  if b = 11 then regRows11 else
  if b = 12 then regRows12 else
  if b = 13 then regRows13 else
  if 16 ≤ b && b < 32 then regRows16_a ++ regRows16_b ++ regRows16_c
  else []

end Sys2Proof.Machine
end

