-- ==== Sys2Proof/Machine/State.lean ====
section
/-! DEFINITION. The state of the block: the device and the queue of commands that wait, first in, first
out. Everything is plain data; a table of units lists only those that differ from their reset value. -/
namespace Sys2Proof.Machine

open Sys2Proof

/-- Why a command has no meaning. -/
inductive Refusal where
  /-- Raised by `exec` for a row of the table without a meaning; safe, since the machine stops. -/
  | notModelled (mnemonic : String)
  deriving DecidableEq, Repr

/-- Why the machine stops. No meaning of this model raises a fault: the device answers every access and
every event of the table with a next state (R6, R9). -/
inductive Fault where
  /-- Never raised; the type is kept inhabited for the host's interface. Safe. -/
  | unreachable
  deriving DecidableEq, Repr

/-- The device: every unit of the manual. -/
structure Device where
  /-- Clocks, pins, resets, stage (15) -/
  clk : Clocks
  /-- Flashing partition (15) -/
  fls : Flashing
  /-- Register words that software or the device has written, by window offset (00); others read their reset value -/
  regs : Tbl Word
  /-- FLT_BOUND.COND as last settled (R386) -/
  bound : BitVec 7
  /-- HBM (11) -/
  hbm : Hbm
  /-- Loft contents by truss (01) -/
  loft : Tbl Memory
  /-- Uncorrectable Loft words: truss and word (R13) -/
  loftBad : List (Nat × Nat)
  /-- Patrol position by truss (R14) -/
  patrol : Tbl Nat
  truss : Tbl TrussSt
  soffit : Tbl Soffit
  /-- Thatch row reads in flight (R165) -/
  rowReqs : List RowReq
  /-- Rafter arrays, by 4 × truss + array -/
  raf : Tbl RafArray
  /-- Lath engines, by 2 × truss + engine -/
  lth : Tbl LthEngine
  atn : Tbl AtnEngine
  /-- Commands in hand, oldest first (09) -/
  jobs : List Job
  nextJob : Nat
  /-- Place in readiness order given to the next task that becomes ready (R272) -/
  nextReady : Nat
  /-- The entry store, oldest first (R261, R264) -/
  entries : List Entry
  nextEntry : Nat
  bufs : List Buf
  nextBuf : Nat
  graphs : Tbl Graph
  /-- Fences, by 4,096 × context + number (R266) -/
  fences : Tbl Word
  gut : Tbl Gutter
  eave : Eave
  ctxs : Tbl Context
  xlt : Xlt
  tables : Tbl Table
  remotes : List Remote
  /-- Requests of other devices that wait for a translation here, by the command that stands for each (R359) -/
  serving : List (Nat × Packet)
  nextTag : Nat
  /-- Next flow sequence number of this device's flows, by destination, virtual channel and unit (Table 12-3) -/
  flows : Tbl Nat
  /-- Delta batches (false) and end-of-round markers (true) for tables of this device that wait at their source,
  this device, oldest first (R182) -/
  heldLocal : List (Bool × DeltaBatch)
  kvEdits : List KvEdit
  seqs : Tbl SeqEntry
  clients : Tbl Client
  models : Tbl Model
  lanes : Tbl LaneSt
  /-- What the last read of CRS_ENTRY0 found in CRS_ENTRY1 to CRS_ENTRY3 (R255) -/
  crsSnap : List Word
  tickets : List Ticket
  nextTicket : Nat
  links : Tbl Link
  /-- Splices by dimension (R366) -/
  splices : Tbl Splice
  cols : Tbl ColEngine
  /-- Next fault-log Record ID (R406) -/
  logSeq : Nat
  /-- Rate limit by 256 × KIND + UNIT: counter value of the last record and records withheld since (R408) -/
  rate : Tbl (Nat × Nat)
  /-- Suspect handling of trusses 0–15 and collective engines 16, 17 (R389, R394) -/
  suspects : Tbl Suspect
  /-- Quarantined collective engines (R394) -/
  colq : BitVec 2
  regions : Tbl Region
  tableBad : Bool
  /-- REP_WREG_N was written and the table is not yet read (R397) -/
  regionsDue : Bool
  groups : Tbl Group
  meter : Meter
  qps : Tbl Qp
  ports : Tbl Port
  /-- The rkeys of the control and memory regions (R459) -/
  rkeyControl : BitVec 32
  rkeyMemory : BitVec 32
  /-- The device number and its validity (R344) -/
  devnum : Nat
  devnumValid : Bool
  /-- What the device has sent, in order -/
  out : List Output
  /-- The model's own: how many free values have been taken (log entry 3) -/
  free : Nat
  deriving DecidableEq, Repr

/-- The block: the device and the commands waiting at it, first in, first out. -/
structure State where
  dev : Device
  pending : List Instr
  deriving DecidableEq, Repr

/-- The device in reset, PWRGD and RESET_L low (Table 15-11, Table 16-8): every register at its table's
reset value, every unit idle and empty, the bypasses closed, map slot 0 valid with nothing excluded
(Table 11-14). The non-volatile store and the fuses have no reset; a part with a blank store and fuses is
taken (DESIGN CHOICE, log entry 2). -/
def Device.reset : Device where
  clk := default
  fls := { (default : Flashing) with plimit := 1800, silicon := 0xB0 }
  regs := []
  bound := 0x7F#7
  hbm := { (default : Hbm) with slot0 := ⟨0, 0, true⟩, spacing := 2000000 }
  loft := []
  loftBad := []
  patrol := []
  truss := []
  soffit := []
  rowReqs := []
  raf := []
  lth := []
  atn := []
  jobs := []
  nextJob := 0
  nextReady := 0
  entries := []
  nextEntry := 1
  bufs := []
  nextBuf := 0
  graphs := []
  fences := []
  gut := []
  eave := default
  ctxs := []
  xlt := default
  tables := []
  remotes := []
  serving := []
  nextTag := 0
  flows := []
  heldLocal := []
  kvEdits := []
  seqs := []
  clients := []
  models := []
  lanes := []
  crsSnap := []
  tickets := []
  nextTicket := 0
  links := []
  splices := []
  cols := []
  logSeq := 0
  rate := []
  suspects := []
  colq := 0
  regions := []
  tableBad := false
  regionsDue := false
  groups := []
  meter := default
  qps := []
  ports := []
  rkeyControl := 0
  rkeyMemory := 0
  devnum := 0
  devnumValid := false
  out := []
  free := 0

/-- The block right after reset; no command waits. -/
def State.reset : State where
  dev := Device.reset
  pending := []

end Sys2Proof.Machine
end

