-- ==== Sys2Proof/Machine/Ops.lean ====
section
/-! DEFINITION. The named operations over tables, bytes, memory, bit fields and registers that the
meanings share. -/
namespace Sys2Proof.Machine

open Sys2Proof

/-! ### Sparse tables -/

/-- The value at key `k`, or `dflt`. -/
def tget {α : Type} (t : Tbl α) (k : Nat) (dflt : α) : α :=
  match t with
  | [] => dflt
  | (j, v) :: r => if j = k then v else tget r k dflt

/-- `t` with `v` at key `k`, sorted by key when `t` is. -/
def tset {α : Type} (t : Tbl α) (k : Nat) (v : α) : Tbl α :=
  match t with
  | [] => [(k, v)]
  | (j, u) :: r =>
    if k < j then (k, v) :: (j, u) :: r
    else if k = j then (k, v) :: r
    else (j, u) :: tset r k v

/-- `t` without key `k`. -/
def tdel {α : Type} (t : Tbl α) (k : Nat) : Tbl α := t.filter (fun p => p.1 != k)

/-- Whether key `k` is listed. -/
def thas {α : Type} (t : Tbl α) (k : Nat) : Bool := t.any (fun p => p.1 == k)

/-- Changes the value at key `k`. -/
def tmap {α : Type} (t : Tbl α) (k : Nat) (dflt : α) (f : α → α) : Tbl α :=
  tset t k (f (tget t k dflt))

/-- Changes every listed value. -/
def tupd {α : Type} (t : Tbl α) (f : Nat → α → α) : Tbl α := t.map (fun p => (p.1, f p.1 p.2))

/-! ### Numbers and bits -/

/-- Bits hi:lo of `w`, as the manual writes them. -/
def bits (w : Word) (hi lo : Nat) : Nat := (w.toNat >>> lo) % 2 ^ (hi + 1 - lo)

/-- Bit `i` of `w`. -/
def bit (w : Word) (i : Nat) : Bool := (w.toNat >>> i) % 2 == 1

/-- 1 for true. -/
def b2n (b : Bool) : Nat := if b then 1 else 0

/-- The word of fields given as (lowest bit, width, value); a value is cut to its width. -/
def pack (fs : List (Nat × Nat × Nat)) : Word :=
  BitVec.ofNat 64 (fs.foldl (fun n f => n + (f.2.2 % 2 ^ f.2.1) <<< f.1) 0)

/-- The value of a field. -/
def FieldPos.of (p : FieldPos) (w : Word) : Nat := (w.toNat >>> p.lo) % 2 ^ p.w

/-- The bits of a field. -/
def fieldMask (lo w : Nat) : Word := BitVec.ofNat 64 ((2 ^ w - 1) <<< lo)

/-- `w` with `v` in a field. -/
def FieldPos.put (p : FieldPos) (w : Word) (v : Nat) : Word :=
  (w &&& ~~~ (fieldMask p.lo p.w)) ||| BitVec.ofNat 64 ((v % 2 ^ p.w) <<< p.lo)

/-- Two's-complement reading of the low `n` bits of `v`. -/
def signed (n v : Nat) : Int :=
  let x := v % 2 ^ n
  if 2 ^ (n - 1) ≤ x then (x : Int) - 2 ^ n else x

/-- The low `n` bits of an integer in two's complement. -/
def unsigned (n : Nat) (i : Int) : Nat := (i % (2 ^ n : Int)).toNat

/-- Serial-number order (R266): `a` at or after `b` in `n`-bit serial arithmetic. -/
def serialGe (n a b : Nat) : Bool := (a + 2 ^ n - b % 2 ^ n) % 2 ^ n < 2 ^ (n - 1)

def ceilDiv (a b : Nat) : Nat := (a + b - 1) / b

/-- ⌊log2 n⌋ for n > 0, structurally. -/
def log2Aux : Nat → Nat → Nat
  | 0, _ => 0
  | f + 1, n => if n < 2 then 0 else log2Aux f (n / 2) + 1

/-- The number of bits of a magnitude below 2^`f`. -/
def bitLen (f n : Nat) : Nat := if n = 0 then 0 else log2Aux f n + 1

/-! ### Bytes -/

/-- Little-endian value of bytes. -/
def leNat : List Byte → Nat
  | [] => 0
  | b :: r => b.toNat + 256 * leNat r

/-- The `n` little-endian bytes of a value. -/
def leBytes : Nat → Nat → List Byte
  | 0, _ => []
  | n + 1, v => BitVec.ofNat 8 v :: leBytes n (v / 256)

def wordBytes (w : Word) : List Byte := leBytes 8 w.toNat

def bytesWord (bs : List Byte) : Word := BitVec.ofNat 64 (leNat (bs.take 8))

/-- Splits a list into pieces of `n`, by fuel. -/
def chunks {α : Type} (n : Nat) : Nat → List α → List (List α)
  | 0, _ => []
  | f + 1, l => if l.isEmpty then [] else l.take n :: chunks n f (l.drop n)

/-- The 64-bit little-endian words of bytes. -/
def bytesWords (bs : List Byte) : List Word := (chunks 8 bs.length bs).map bytesWord

def wordsBytes (ws : List Word) : List Byte := (ws.map wordBytes).flatten

/-- Bytes `off` to `off + n − 1` of a list, zeros beyond its end. -/
def slice (bs : List Byte) (off n : Nat) : List Byte :=
  let s := (bs.drop off).take n
  s ++ List.replicate (n - s.length) 0

/-- Word `i` of a list of words, zero beyond its end. -/
def wordAt (ws : List Word) (i : Nat) : Word := ws.getD i 0

/-! ### Memory -/

/-- Addresses strictly rising above `lo` and no entry equal to the byte an unlisted address reads. -/
def wfFrom : Option Nat → Memory → Bool
  | _, [] => true
  | none, (a, b) :: r => (b != 0) && wfFrom (some a) r
  | some lo, (a, b) :: r => decide (lo < a) && (b != 0) && wfFrom (some a) r

/-- The canonical form of memory: addresses strictly rising, no zero byte listed. -/
def memWf (m : Memory) : Bool := wfFrom none m

/-- The byte at `a`; an unlisted address reads 0 (DESIGN CHOICE, log entry 1). -/
def memGet : Memory → Nat → Byte
  | [], _ => 0
  | (j, b) :: r, a => if j = a then b else memGet r a

/-- `m` with byte `b` at `a`, in canonical form when `m` is. -/
def memSet : Memory → Nat → Byte → Memory
  | [], a, b => if b = 0 then [] else [(a, b)]
  | (j, c) :: r, a, b =>
    if a < j then (if b = 0 then (j, c) :: r else (a, b) :: (j, c) :: r)
    else if a = j then (if b = 0 then r else (j, b) :: r)
    else (j, c) :: memSet r a b

/-- `n` bytes from `a`. -/
def memRead (m : Memory) (a : Nat) : Nat → List Byte
  | 0 => []
  | n + 1 => memGet m a :: memRead m (a + 1) n

/-- Stores bytes from `a` up. -/
def memWrite : Memory → Nat → List Byte → Memory
  | m, _, [] => m
  | m, a, b :: r => memWrite (memSet m a b) (a + 1) r

/-! ### Registers -/

/-- Whether the row has an instance at `off`, with the distance left over `dims`. -/
def dimsMatch : List (Nat × Nat) → Nat → Bool
  | [], r => r == 0
  | (n, s) :: ds, r => decide (r / s < n) && dimsMatch ds (r % s)

def RegRow.hasOff (r : RegRow) (off : Nat) : Bool :=
  decide (r.base ≤ off) && dimsMatch r.dims (off - r.base)

/-- The row of the register at `off`, if one lies there (R9). -/
def regRowAt (off : Nat) : Option RegRow := (regRowsIn (off / 0x100000)).find? (fun r => r.hasOff off)

/-- Reset value of a register: its fields' reset values. -/
def RegRow.resetWord (r : RegRow) : Word := pack (r.fields.map (fun f => (f.lo, f.w, f.rst)))

def resetAt (off : Nat) : Word :=
  match regRowAt off with
  | some r => r.resetWord
  | none => 0

/-- The stored word of the register at `off`. -/
def Device.reg (d : Device) (off : Nat) : Word :=
  match d.regs.find? (fun p => p.1 == off) with
  | some p => p.2
  | none => resetAt off

def Device.setReg (d : Device) (off : Nat) (w : Word) : Device := { d with regs := tset d.regs off w }

/-- A field of the stored word. -/
def Device.fld (d : Device) (off : Nat) (p : FieldPos) : Nat := p.of (d.reg off)

def Device.setFld (d : Device) (off : Nat) (p : FieldPos) (v : Nat) : Device :=
  d.setReg off (p.put (d.reg off) v)

/-- The bit of MTR_OVF for the block that holds `off` (Table 14-8); none for blocks without one. -/
def ovfBit (off : Nat) : Option Nat :=
  let b := off / 0x100000
  if b ≤ 10 then some b else if 16 ≤ b && b < 32 then some b else none

/-- Sets the sticky overflow flag of the block of `off` (R414). -/
def Device.setOvf (d : Device) (off : Nat) : Device :=
  match ovfBit off with
  | none => d
  | some b => d.setReg Reg.MTR_OVF (d.reg Reg.MTR_OVF ||| BitVec.ofNat 64 (1 <<< b))

def counterMax : Nat := 2 ^ 64 - 1

/-- A count arriving at a statistics counter (R413): it stays at 2^64 − 1 and sets its block's flag. -/
def Device.count (d : Device) (off n : Nat) : Device :=
  if n = 0 then d
  else
    let v := (d.reg off).toNat
    let d := d.setReg off (BitVec.ofNat 64 (min (v + n) counterMax))
    if counterMax < v + n then d.setOvf off else d

/-- A free value (log entry 3): one that nothing constrains, and the counter moves on. -/
def Device.takeFree (d : Device) : Nat × Device := (Config.freeNat d.free, { d with free := d.free + 1 })

/-- Sends something to the outside. -/
def Device.emit (d : Device) (o : Output) : Device := { d with out := d.out ++ [o] }

def Device.now (d : Device) : Nat := d.clk.now

end Sys2Proof.Machine
end

