-- ==== Sys2Proof/Machine/Operands.lean ====
section
/-! DEFINITION. Operand forms of the commands: the fields of C0 to C3 (Tables 09-3, 09-4), which places
a command may stand in, which of its bits are reserved, and the words of an Eave ring entry (Table 09-2). -/
namespace Sys2Proof.Machine

open Sys2Proof

def Cmd.opc (c : Cmd) : Nat := bits c.c0 7 0
def Cmd.truss (c : Cmd) : Nat := bits c.c0 11 8
def Cmd.unit (c : Cmd) : Nat := bits c.c0 13 12
def Cmd.subst (c : Cmd) : Nat := bits c.c0 18 16
/-- Bits hi:lo of C0, within ARG. -/
def Cmd.arg (c : Cmd) (hi lo : Nat) : Nat := bits c.c0 hi lo

/-- The command in 32 bytes. -/
def cmdOfBytes (bs : List Byte) : Cmd :=
  let w := bytesWords (slice bs 0 32)
  ⟨wordAt w 0, wordAt w 1, wordAt w 2, wordAt w 3⟩

/-- Word k of a command. -/
def Cmd.word (c : Cmd) (k : Nat) : Word := if k = 0 then c.c0 else if k = 1 then c.c1 else if k = 2 then c.c2 else c.c3

/-- A row of Table 09-4: whether the command may stand in the ring, in a buffer, for context 0 only, and
the bits that are not reserved of ARG (as bits of C0), C1, C2 and C3. -/
structure CmdForm where
  ring : Bool
  buffer : Bool
  ctx0 : Bool
  arg : Nat
  m1 : Nat
  m2 : Nat
  m3 : Nat

def all64 : Nat := 2 ^ 64 - 1

/-- Mask of bits hi:lo. -/
def span (hi lo : Nat) : Nat := (2 ^ (hi + 1 - lo) - 1) <<< lo

/-- Table 09-4. Operations whose fields have refusals of their own chapter (CTX_OP, XLT_OP, COURSE_OP,
COL_TASK) are checked there. -/
def cmdForm (opc : Nat) : Option CmdForm :=
  match opc with
  | 0x00 => some ⟨true, true, false, 0, 0, 0, 0⟩
  | 0x01 => some ⟨true, true, false, 0, all64, span 31 0, 0⟩
  | 0x02 => some ⟨true, false, false, span 36 19, all64, all64, all64⟩
  | 0x03 => some ⟨true, false, false, span 39 19, all64, span 31 0, all64⟩
  | 0x04 => some ⟨true, false, false, span 35 19, all64, span 31 0, span 31 0⟩
  | 0x05 => some ⟨true, false, false, span 34 19, 0, 0, 0⟩
  | 0x08 => some ⟨false, true, false, span 36 19, all64, 0, 0⟩
  | 0x09 => some ⟨false, true, false, span 30 19, all64, 0, 0⟩
  | 0x0A => some ⟨true, false, true, span 36 19, all64, 0, 0⟩
  | 0x0B => some ⟨false, true, false, 0, 0, 0, 0⟩
  | 0x0C => some ⟨false, true, false, span 23 19, all64, all64, 0⟩
  | 0x0D => some ⟨false, true, false, 0, 0, 0, 0⟩
  | 0x0E => some ⟨false, true, false, span 23 20, all64, all64, 0⟩
  | 0x0F => some ⟨false, true, false, 0, 0, 0, 0⟩
  | 0x10 => some ⟨false, true, false, 0, 0, 0, 0⟩
  | 0x20 => some ⟨true, true, false, 0, all64, 0, 0⟩
  | 0x21 => some ⟨true, true, false, span 19 19, all64, 0, 0⟩
  | 0x22 => some ⟨true, true, false, 0, all64, span 15 0, all64⟩
  | 0x23 => some ⟨true, true, false, span 19 19, all64, 0, 0⟩
  | 0x24 => some ⟨true, true, false, 0, all64, 0, 0⟩
  | 0x25 => some ⟨true, true, false, span 63 19, all64, 0, 0⟩
  | 0x28 => some ⟨true, true, false, span 35 19, span 31 0, span 31 0, 0⟩
  | 0x29 => some ⟨true, true, false, span 51 19, all64, span 14 0, 0⟩
  | 0x2A => some ⟨true, false, false, span 22 19, span 14 0, all64, span 47 0⟩
  | 0x2B => some ⟨true, true, false, 0, all64, span 47 32 + span 16 0, 0⟩
  | 0x31 => some ⟨true, false, true, span 63 19, all64, all64, all64⟩
  | 0x32 => some ⟨true, false, false, span 63 19, all64, all64, all64⟩
  | _ => none

/-- Whether a word has a bit outside a mask. -/
def outside (w : Word) (mask : Nat) : Bool := w.toNat &&& mask != w.toNat

/-- A non-zero reserved field of a command (Tables 09-3, 09-4). SUBST is one outside a stored graph. -/
def Cmd.reserved (c : Cmd) (f : CmdForm) (inGraph : Bool) : Bool :=
  let head := span 13 0 + (if inGraph then span 18 16 else 0)
  outside c.c0 (head + f.arg) || outside c.c1 f.m1 || outside c.c2 f.m2 || outside c.c3 f.m3

/-- The words of an Eave ring entry. -/
structure RingEntry where
  w : List Word

def RingEntry.stamp (e : RingEntry) : Nat := bits (wordAt e.w 0) 31 0
def RingEntry.fmt (e : RingEntry) : Nat := bits (wordAt e.w 0) 35 32
def RingEntry.ctx (e : RingEntry) : Nat := bits (wordAt e.w 0) 41 36
/-- TAG; 0 under FMT 1 (R262). -/
def RingEntry.tag (e : RingEntry) : Nat := if e.fmt = 1 then 0 else bits (wordAt e.w 0) 63 48
/-- WCTX; CTX under FMT 1 (R262). -/
def RingEntry.wctx (e : RingEntry) : Nat := if e.fmt = 1 then e.ctx else bits (wordAt e.w 3) 19 14
/-- A non-zero reserved field of the entry. -/
def RingEntry.reserved (e : RingEntry) : Bool :=
  bits (wordAt e.w 0) 47 42 != 0 || bit (wordAt e.w 3) 13 || bits (wordAt e.w 3) 63 35 != 0

def RingEntry.cmd (e : RingEntry) : Cmd := ⟨wordAt e.w 4, wordAt e.w 5, wordAt e.w 6, wordAt e.w 7⟩

end Sys2Proof.Machine
end

