-- ==== Sys2Proof/Machine/Store.lean ====
section
/-! DEFINITION. The memories: where HBM places an address (R318 to R321), reads and writes of HBM and
Loft with their uncorrectable sectors and words (R13, R330), and the invalidation of Soffit lines by
writes (R22, R31). -/
namespace Sys2Proof.Machine

open Sys2Proof

/-! ### The interleave (R320) -/

def MapSlot.excludes (m : MapSlot) (c : Nat) : Bool := m.excl.testBit c

/-- K: the channels a slot excludes. -/
def MapSlot.k (m : MapSlot) : Nat :=
  if m.excl = 0 then 0 else (List.range 512).countP (fun c => m.excludes c)

/-- The `i`-th channel from `c` upwards that the slot does not exclude. -/
def nthChannel (m : MapSlot) : Nat → Nat → Nat → Nat
  | 0, c, _ => c
  | f + 1, c, i =>
    if m.excludes c then nthChannel m f (c + 1) i
    else if i = 0 then c else nthChannel m f (c + 1) (i - 1)

/-- The map slot that a frame follows. -/
def Hbm.slotOf (h : Hbm) (f : Nat) : MapSlot := if h.onMap1.contains f then h.slot1 else h.slot0

def frames : Nat := 576

/-- Channel and channel granule of a local physical address; none when unbacked or beyond the
populated range (R318, R320, R321). -/
def Hbm.place (h : Hbm) (a : Nat) : Option (Nat × Nat) :=
  let f := a / 2 ^ 30
  if frames ≤ f then none
  else
    let g := a / 4096 % 2 ^ 18
    let m := h.slotOf f
    let n := 512 - m.k
    if 512 * n ≤ g then none
    else
      let q := g / n
      let r := g % n
      let k := (f * 512 + q) ^^^ m.seed
      let x := k * 0x9E3779B1 % 2 ^ 32
      let i := (r + (x / 256) % n) % n
      let c := if m.excl = 0 then i else nthChannel m 512 0 i
      some (c, 512 * f + q)

/-- Whether an access to this granule is made at all (R321, R339). -/
def Hbm.reachable (h : Hbm) (a : Nat) : Bool :=
  (h.place a).isSome && (h.converting != some (a / 2 ^ 30))

/-- Whether a byte address lies on a retired channel (R337). -/
def Hbm.onRetired (h : Hbm) (a : Nat) : Bool :=
  match h.place a with
  | some (c, _) => (tget h.chans c default).retired
  | none => false

/-- Whether a byte address lies on a channel that the sweep of a lane repair is passing through (R336). -/
def Hbm.onSweeping (h : Hbm) (a : Nat) : Bool :=
  match h.place a with
  | some (c, _) => (tget h.chans c default).sweeping
  | none => false

/-- The pieces into which [a, a + n) falls on `unit`-byte boundaries: address and length of each. -/
def pieces (unit a n : Nat) : List (Nat × Nat) :=
  if n = 0 then []
  else
    (List.range ((a + n - 1) / unit + 1 - a / unit)).map fun i =>
      let lo := max a ((a / unit + i) * unit)
      let hi := min (a + n) ((a / unit + i + 1) * unit)
      (lo, hi - lo)

/-- Why a memory access is not made, or not wholly. -/
inductive MemErr where
  /-- Unbacked, out of range or in a frame under conversion (R321, R339) -/
  | violation
  /-- An uncorrectable sector, word or retired channel at this address (R13, R330, R337) -/
  | uncorrectable (addr : Nat)
  deriving DecidableEq, Repr

/-- Whether every granule of [a, a + n) is reachable. -/
def Hbm.allReachable (h : Hbm) (a n : Nat) : Bool := (pieces 4096 a n).all (fun p => h.reachable p.1)

/-- Whether the sector at `a` is uncorrectable (R330) or lies on a retired channel (R337). -/
def Hbm.sectorBad (h : Hbm) (a : Nat) : Bool := h.bad.contains (a / 32) || h.onRetired a

/-- Reads HBM; the first uncorrectable sector fails the read (R330). -/
def Hbm.read (h : Hbm) (a n : Nat) : Except MemErr (List Byte) :=
  if !h.allReachable a n then .error .violation
  else
    match (pieces 32 a n).find? (fun p => h.sectorBad p.1) with
    | some p => .error (.uncorrectable p.1)
    | none => .ok (memRead h.mem a n)

/-- One piece of a write, within one sector (R330): a whole sector stores a fresh codeword, a part of
an uncorrectable sector is not made, and nothing is made on a retired channel (R337). -/
def Hbm.writePiece (h : Hbm) (a : Nat) (bs : List Byte) : Hbm × Option MemErr :=
  let h := if h.onSweeping a then { h with rewritten := a / 32 :: h.rewritten } else h
  if h.onRetired a then (h, some (.uncorrectable a))
  else if h.bad.contains (a / 32) then
    if bs.length = 32 then
      ({ h with mem := memWrite h.mem a bs, bad := h.bad.filter (· != a / 32) }, none)
    else (h, some (.uncorrectable a))
  else ({ h with mem := memWrite h.mem a bs }, none)

/-- The first of two errors. -/
def firstErr (a b : Option MemErr) : Option MemErr := match a with | some e => some e | none => b

/-- Writes HBM sector by sector (R330); an unreachable granule stops the whole write (R321). -/
def Hbm.write (h : Hbm) (a : Nat) (bs : List Byte) : Hbm × Option MemErr :=
  if !h.allReachable a bs.length then (h, some .violation)
  else
    (pieces 32 a bs.length).foldl (fun (acc : Hbm × Option MemErr) p =>
      let r := acc.1.writePiece p.1 (slice bs (p.1 - a) p.2)
      (r.1, firstErr acc.2 r.2)) (h, none)

/-! ### Coherence of the Soffit slices (R22, R31) -/

/-- Drops a line from a slice that takes part in R22: its copy goes, and a miss register for it stops
accepting merges and will not install (R31). -/
def Soffit.invalidate (s : Soffit) (line : Nat) : Soffit :=
  if s.enabled then
    { s with lines := s.lines.filter (fun l => l.line != line)
             misses := s.misses.map (fun m => if m.line = line then { m with noInstall := true, passed := true } else m) }
  else s

/-- Invalidates the lines of [a, a + n) in every enabled slice (R22). -/
def Device.invalidateLines (d : Device) (a n : Nat) : Device :=
  { d with soffit := d.soffit.map fun p =>
      (p.1, (pieces 128 a n).foldl (fun s q => s.invalidate (q.1 / 128)) p.2) }

/-- A write reaching the controllers: HBM, then the Soffit slices (R22). -/
def Device.hbmWrite (d : Device) (a : Nat) (bs : List Byte) : Device × Option MemErr :=
  let r := d.hbm.write a bs
  if r.2 = some .violation then (d, r.2)
  else ({ d with hbm := r.1 }.invalidateLines a bs.length, r.2)

/-! ### Loft -/

def granule : Nat := 0x40000

/-- Bytes of a slice. -/
def loftSize : Nat := 0x2000000

/-- Reads Loft of truss `t`; the first uncorrectable word fails the read (R13). -/
def Device.loftRead (d : Device) (t a n : Nat) : Except MemErr (List Byte) :=
  match (pieces 32 a n).find? (fun p => d.loftBad.contains (t, p.1 / 32)) with
  | some p => .error (.uncorrectable p.1)
  | none => .ok (memRead (tget d.loft t []) a n)

/-- Stores to Loft word by word (R13): a whole word ends an error, part of an uncorrectable word is not
made. -/
def Device.loftWrite (d : Device) (t a : Nat) (bs : List Byte) : Device × Option MemErr :=
  (pieces 32 a bs.length).foldl (fun (acc : Device × Option MemErr) p =>
    let part := slice bs (p.1 - a) p.2
    let put (d : Device) : Device := { d with loft := tset d.loft t (memWrite (tget d.loft t []) p.1 part) }
    if acc.1.loftBad.contains (t, p.1 / 32) then
      if p.2 = 32 then
        (put { acc.1 with loftBad := acc.1.loftBad.filter (· != (t, p.1 / 32)) }, acc.2)
      else (acc.1, firstErr acc.2 (some (.uncorrectable p.1)))
    else (put acc.1, acc.2)) (d, none)

/-- Zeroes a range of Loft with fresh codewords (R298, R395). -/
def Device.loftZero (d : Device) (t a n : Nat) : Device :=
  { d with loft := tset d.loft t ((tget d.loft t []).filter (fun c => decide (c.1 < a) || decide (a + n ≤ c.1)))
           loftBad := d.loftBad.filter (fun w => w.1 != t || decide (w.2 * 32 < a) || decide (a + n ≤ w.2 * 32)) }

end Sys2Proof.Machine
end

