-- ==== Sys2Proof/Machine/Record.lean ====
section
/-! DEFINITION. What the device records and reports: metered charges (14), RDMA WRITEs of its own,
Gutter records (R286 to R291), fault-log records (R406 to R408) and suspect events (R388 to R392). -/
namespace Sys2Proof.Machine

open Sys2Proof

/-! ### Metering (R417 to R422) -/

/-- The metered quantities in use (Table 14-3). -/
inductive MQ where
  | rafMac | lthOps | thtRows | atnPairs | hodKib | hbmRd | hbmWr | lnkTx | lnkRx | eth | loftGus
  | engineUs | energy | entries | requests | downgraded | fallback | abandoned | late | xltReqs
  deriving DecidableEq, Repr

def MQ.num : MQ → Nat
  | .rafMac => 0 | .lthOps => 1 | .thtRows => 2 | .atnPairs => 3 | .hodKib => 4 | .hbmRd => 5
  | .hbmWr => 6 | .lnkTx => 7 | .lnkRx => 8 | .eth => 9 | .loftGus => 10 | .engineUs => 11
  | .energy => 12 | .entries => 13 | .requests => 14 | .downgraded => 15 | .fallback => 16
  | .abandoned => 17 | .late => 18 | .xltReqs => 19

/-- What makes one whole unit, in the amounts that engines charge (R419): products, lane results, rows,
pairs, bytes, granule-µs, ns of busy time, fJ, and single events. -/
def quantityUnit (q : Nat) : Nat :=
  if q = 0 then 2 ^ 24 else if q = 1 then 2 ^ 16 else if q = 3 then 2 ^ 10
  else if 4 ≤ q && q ≤ 9 then 1024 else if q = 11 then 1000 else if q = 12 then 10 ^ 9 else 1

def deviceAccount : Nat := 64

/-- Charges an amount of quantity `q` to account `a`: when the fraction reaches a unit, the whole count
and the total rise together (R417, R419). -/
def Meter.charge (m : Meter) (a q amt : Nat) : Meter :=
  let c := tget m.acct (32 * a + q) default
  let f := c.frac + amt
  let inc := f / quantityUnit q
  let whole := c.whole + inc
  let tot := tget m.total q 0 + inc
  { m with
    acct := tset m.acct (32 * a + q) ⟨min whole counterMax, f % quantityUnit q⟩
    total := tset m.total q (min tot counterMax)
    ovfAcct := m.ovfAcct || decide (counterMax < whole)
    ovfTotal := m.ovfTotal || decide (counterMax < tot) }

/-- Retires quantity `q` of account `a` (R422): the whole count joins the retired sum and the hidden
fraction the device account. -/
def Meter.retire (m : Meter) (a q : Nat) : Meter :=
  let c := tget m.acct (32 * a + q) default
  let r := tget m.retired q 0 + c.whole
  let m := { m with
    acct := tset m.acct (32 * a + q) ⟨0, 0⟩
    retired := tset m.retired q (min r counterMax)
    ovfTotal := m.ovfTotal || decide (counterMax < r) }
  m.charge deviceAccount q c.frac

/-- Charges an amount and the energy of its event class (R420) on truss `t` (16 for none). -/
def Device.charge (d : Device) (a : Nat) (q : MQ) (amt t : Nat) : Device :=
  { d with meter := (d.meter.charge a q.num amt).charge a MQ.energy.num (Config.energyCoeff q.num t * amt) }

/-! ### RDMA WRITEs by the device (R456 to R460) -/

/-- Sends one RDMA WRITE on a queue pair: it is counted in frames of the path MTU and charged. -/
def Device.rdmaOut (d : Device) (acct qpn rkey addr : Nat) (bs : List Byte) : Device :=
  let q := tget d.qps qpn default
  let d := d.count (Reg.ETH_TX_FRAMES q.port) (max 1 (ceilDiv bs.length (max 1 q.mtu)))
  (d.charge acct .eth bs.length 16).emit (.hostWrite qpn rkey addr bs)

/-- A request of `n` payload bytes comes in on a queue pair: counted in frames and charged. -/
def Device.rdmaIn (d : Device) (acct qpn n : Nat) : Device :=
  let q := tget d.qps qpn default
  (d.count (Reg.ETH_RX_FRAMES q.port) (max 1 (ceilDiv n (max 1 q.mtu)))).charge acct .eth n 16

/-- Answers a request on a queue pair; a status other than 0 is a NAK (R457 to R459). -/
def Device.rdmaAnswer (d : Device) (qpn status : Nat) (data : List Byte) : Device :=
  let q := tget d.qps qpn default
  let d := d.count (Reg.ETH_TX_FRAMES q.port) (max 1 (ceilDiv data.length (max 1 q.mtu)))
  (if status = 0 then d else d.count (Reg.ETH_NAK_TX q.port) 1).emit (.rdmaReply qpn status data)

/-! ### Gutter rings (R286 to R291) -/

def Device.gutter (d : Device) (c : Nat) : Gutter := tget d.gut c default

def Device.setGutter (d : Device) (c : Nat) (g : Gutter) : Device := { d with gut := tset d.gut c g }

def Device.gutSize (d : Device) (c : Nat) : Nat := 2 ^ d.fld (Reg.GUT_CFG c) Fld.GUT_CFG_SIZE_LOG2

/-- Records written and not consumed. -/
def Device.gutUsed (d : Device) (c : Nat) : Nat :=
  ((d.gutter c).written + 2 ^ 32 - d.fld (Reg.GUT_CONS c) Fld.GUT_CONS_CONS) % 2 ^ 32

/-- Whether the ring of context `c` lacks a free slot (R289). -/
def Device.gutFull (d : Device) (c : Nat) : Bool := decide (d.gutSize c ≤ d.gutUsed c)

/-- The 32 bytes of record `n` in a ring of `size` records, phase included (R286). -/
def recordBytes (r : GutRec) (n size : Nat) : List Byte :=
  let ph := n / size % 2
  wordsBytes [r.w0 ||| BitVec.ofNat 64 (ph <<< 39), r.w1, r.w2,
              (r.w3 &&& 0x7FFFFFFFFFFFFFFF#64) ||| BitVec.ofNat 64 (ph <<< 63)]

/-- Writes a record to the ring of context `c` as its next one; one sent again is counted once (R290, R293). -/
def Device.gutSend (d : Device) (c : Nat) (r : GutRec) : Device :=
  let g := d.gutter c
  let n := g.written
  let size := d.gutSize c
  let cfg := Reg.GUT_CFG c
  let addr := (d.reg (Reg.GUT_BASE c)).toNat + 32 * (n % size)
  let d := d.setGutter c { g with written := n + 1, sent := g.sent ++ [(n, r)] }
  let d := if r.again then d else d.count (if r.isEvent then Reg.GUT_EVENTS else Reg.GUT_RECORDS) 1
  let acct := if r.isEvent then 0 else bits r.w0 37 32
  d.rdmaOut acct (d.fld cfg Fld.GUT_CFG_QPN) (d.fld cfg Fld.GUT_CFG_RKEY) addr (recordBytes r n size)

/-- Sends held records in order while slots are free (R289, R291). -/
def Device.gutDrain : Nat → Device → Nat → Device
  | 0, d, _ => d
  | f + 1, d, c =>
    let g := d.gutter c
    match g.held with
    | [] => d
    | r :: rest =>
      if g.blocked || d.gutFull c then d
      else Device.gutDrain f ((d.setGutter c { g with held := rest }).gutSend c r) c

/-- The ring that takes the records of context `c` (R291). -/
def Device.gutRing (d : Device) (c : Nat) : Nat := if (d.gutter c).redirected then 0 else c

/-- Produces a record of context `c`: written, or held behind others, a full ring or a block (R288 to
R290). -/
def Device.gutPut (d : Device) (c : Nat) (r : GutRec) : Device :=
  let c := d.gutRing c
  let g := d.gutter c
  let d := d.setGutter c { g with issued := g.issued + 1, held := g.held ++ [r] }
  d.gutDrain (g.held.length + 1) c

/-- An event record (Table 09-10, KIND 1, layout D) for context 0's ring; none while context 0 does not
exist (log entry 12). -/
def Device.event (d : Device) (status : Nat) (detail0 : Word) (stamp : Nat) : Device :=
  if (tget d.ctxs 0 default).state = 0 then d
  else
    d.gutPut 0
      { w0 := pack [(0, 32, stamp), (38, 1, 1), (40, 8, status)]
        w1 := pack [(32, 32, d.now)]
        w2 := detail0
        w3 := 0
        isEvent := true
        again := false }

/-- The expected stamp X (R258). -/
def Device.expect (d : Device) : Nat := d.fld Reg.EAVE_EXPECT Fld.EAVE_EXPECT_X

/-! ### Fault log (R406 to R408) -/

/-- UNIT of layout C: the truss and the unit kind (Table 09-12). -/
def unitCode (t kind : Nat) : Nat := t % 16 + 16 * (kind % 16)

/-- A GUID in the byte order of UEFI (PRESUMED, log entry 10): the first three fields little-endian. -/
def guidBytes (a b c d : Nat) (rest : Nat) : List Byte :=
  leBytes 4 a ++ leBytes 2 b ++ leBytes 2 c ++ (leBytes 2 d).reverse ++ (leBytes 6 rest).reverse

/-- Bytes of a firmware bank. -/
def Flashing.fw (f : Flashing) (bank : Nat) : List Byte := if bank = 0 then f.fwA else f.fwB

/-- FWVER (Table 13-8): the running firmware's major version in bits [15:8]; the others are not described. -/
def Flashing.fwver (f : Flashing) : Nat := f.fwMajor * 256 + Config.fwMinor (f.fw f.fwbank) % 256

/-- The Obellan section (Table 13-8). -/
def sectionBytes (d : Device) (r : FaultRec) : List Byte :=
  leBytes 2 2 ++ leBytes 2 r.kind ++ leBytes 1 r.unit ++ leBytes 1 r.ctx ++ leBytes 1 r.action
    ++ leBytes 1 r.step ++ leBytes 4 (d.devnum % 2 ^ 18) ++ leBytes 1 d.fls.silicon
    ++ leBytes 1 d.fls.imgMajor ++ leBytes 2 d.fls.fwver ++ leBytes 8 r.time ++ leBytes 8 r.seq
    ++ wordBytes r.addr ++ wordBytes r.info0 ++ wordBytes r.info1
    ++ leBytes 4 (min r.suppressed (2 ^ 32 - 1)) ++ leBytes 4 0

/-- The record of 264 bytes: a CPER header (Table 13-7), one section descriptor and the section. Offsets
of the header's and descriptor's fields follow UEFI Appendix N (PRESUMED, log entry 10). -/
def cperBytes (d : Device) (r : FaultRec) : List Byte :=
  [0x43, 0x50, 0x45, 0x52] ++ leBytes 2 0x0101 ++ leBytes 4 0xFFFFFFFF ++ leBytes 2 1
    ++ leBytes 4 r.severity ++ leBytes 4 1 ++ leBytes 4 264 ++ leBytes 8 0
    ++ leBytes 16 d.fls.uniqueId ++ leBytes 16 0
    ++ guidBytes 0x7b3e91c4 0x2f05 0x4a8d 0xb6e1 0x3c90d2a45f17
    ++ guidBytes 0x0a6c58e2 0xd417 0x4b39 0x8f2a 0x51e3b9c07d66
    ++ leBytes 8 r.seq ++ leBytes 4 0 ++ leBytes 8 0 ++ leBytes 12 0
    ++ leBytes 4 200 ++ leBytes 4 64 ++ leBytes 2 2 ++ leBytes 1 0 ++ leBytes 1 0 ++ leBytes 4 0
    ++ guidBytes 0xe4d2a619 0x8c3b 0x47f0 0xa51e 0x96b07c3d28a4
    ++ leBytes 16 0 ++ leBytes 4 r.severity ++ leBytes 20 0
    ++ sectionBytes d r

/-- Sends a record to every subscribed manager (R407). -/
def Device.toManagers (d : Device) (r : FaultRec) : Device :=
  { d with out := d.out ++ d.fls.managers.map (fun m => Output.mgmtEvent m.1 (cperBytes d r)) }

/-- The truss's own step as FLT_TRUSS_n shows it (R390). -/
def Device.trussStep (d : Device) (t : Nat) : Nat := (tget d.suspects t default).step

/-- STEP of a record: the step of the truss its UNIT names, 0 for a unit of the whole device. -/
def Device.recStep (d : Device) (unit : Nat) : Nat :=
  let k := unit / 16
  if k = 0 || k = 10 || k = 11 || k = 12 then 0 else d.trussStep (unit % 16)

/-- Slots and room of the fault-log ring (R407). -/
def Device.logRoom (d : Device) : Bool :=
  d.fld Reg.FLT_LOG_CFG Fld.FLT_LOG_CFG_EN == 1 &&
    decide ((d.reg Reg.FLT_LOG_PROD).toNat - (d.reg Reg.FLT_LOG_CONS).toNat
      < 2 ^ d.fld Reg.FLT_LOG_CFG Fld.FLT_LOG_CFG_SIZE_LOG2)

/-- Writes the record to its slot of the ring, or counts it lost (R407). -/
def Device.logToRing (d : Device) (r : FaultRec) : Device :=
  let prod := (d.reg Reg.FLT_LOG_PROD).toNat
  let d' :=
    if d.logRoom then
      let size := 2 ^ d.fld Reg.FLT_LOG_CFG Fld.FLT_LOG_CFG_SIZE_LOG2
      let addr := d.fld Reg.FLT_LOG_BASE Fld.FLT_LOG_BASE_ADDR * 512 + 512 * (prod % size)
      let w := d.hbmWrite addr (cperBytes d r)
      if w.2.isSome then w.1.count Reg.FLT_LOG_LOST 1 else w.1.charge deviceAccount .hbmWr 264 16
    else d.count Reg.FLT_LOG_LOST 1
  d'.setReg Reg.FLT_LOG_PROD (BitVec.ofNat 64 (prod + 1))

/-- Fatal and recoverable records are kept, the last 64 of them (R408); those of kind 0x15 are already
kept. -/
def Device.logKeep (d : Device) (r : FaultRec) : Device :=
  if (r.severity = 0 || r.severity = 1) && r.kind != 0x15 then
    let l := d.fls.storedRecs ++ [r]
    { d with fls := { d.fls with storedRecs := l.drop (l.length - 64) } }
  else d

/-- What becomes of a record (R407, R408): the ring, the event, the store and the managers. -/
def Device.logWrite (d : Device) (r : FaultRec) : Device :=
  let d := (d.logToRing r).count Reg.FLT_RECORDS 1
  let d := d.event 0x7F (pack [(0, 8, 0x21), (8, 8, r.severity), (16, 16, r.kind), (32, 32, r.seq)]) d.expect
  let d := d.logKeep r
  if r.severity = 2 then d
  else if d.fls.restarting then { d with fls := { d.fls with heldRecs := d.fls.heldRecs ++ [r] } }
  else d.toManagers r

/-- Produces one fault-log record (R406 to R408): at most one of a KIND and UNIT every RATE ms unless it
is fatal or recoverable; a withheld one is counted. -/
def Device.log (d : Device) (kind severity unit ctx action : Nat) (addr info0 info1 : Word) : Device :=
  let key := 256 * kind + unit
  let last := tget d.rate key (0, 0)
  let ns := d.fld Reg.FLT_CTRL Fld.FLT_CTRL_RATE * 1000000
  if thas d.rate key && !(severity == 0 || severity == 1) && decide (d.now < last.1 + ns) then
    ({ d with rate := tset d.rate key (last.1, last.2 + 1) }).count Reg.FLT_SUPPRESSED 1
  else
    let r : FaultRec :=
      { kind := kind, severity := severity, unit := unit, ctx := ctx, action := action
        step := d.recStep unit, addr := addr, info0 := info0, info1 := info1
        time := d.now, seq := d.logSeq, suppressed := last.2 }
    ({ d with rate := tset d.rate key (d.now, 0), logSeq := d.logSeq + 1 }).logWrite r

def noCtx : Nat := 0xFF

/-- A record whose KIND no row of Table 13-9 gives: the kind is a free value (log entry 3). -/
def Device.logOpen (d : Device) (severity unit ctx action : Nat) (addr info0 info1 : Word) : Device :=
  let k := d.takeFree
  k.2.log (k.1 % 2 ^ 16) severity unit ctx action addr info0 info1

/-! ### Truss steps and suspect events (R388 to R392) -/

/-- Raise in mV that a step asks for (Table 13-3). -/
def stepRaise (s : Nat) : Nat := 10 * min s 3

/-- Clock ceiling in MHz of a step (Table 13-3); a truss at step 7 keeps the ceiling of step 6 (R392). -/
def stepCeil (s : Nat) : Nat :=
  if s ≤ 3 then 3600 else if s = 4 then 3400 else if s = 5 then 3200 else 2800

/-- The largest raise asked for by the trusses of a tile, as far as the rail stays within 0.85 V (R390). -/
def Device.tileRaise (d : Device) (tile : Nat) : Nat :=
  min ((850 - tget d.fls.vcore tile 750) / 10 * 10)
    ((List.range 4).foldl (fun m i => max m (stepRaise (d.trussStep (4 * tile + i)))) 0)

/-- Sets the rail of a tile to its set point and raise over AVSBus (R390, R467). -/
def Device.setRail (d : Device) (tile : Nat) : Device :=
  d.emit (.avs tile (tget d.fls.vcore tile 750 + d.tileRaise tile))

/-- Events of the sliding window at the present time (R389). -/
def Device.windowed (d : Device) (es : List Nat) : List Nat :=
  es.filter (fun e => decide (d.now < e + max 1 (d.fld Reg.FLT_CTRL Fld.FLT_CTRL_WINDOW) * 10 ^ 9))

/-- FLT_TRUSS_n (Table 13-13): COUNT holds the events of the window (R389). -/
def Device.fltTruss (d : Device) (t : Nat) : Word :=
  let s := tget d.suspects t default
  pack [(0, 3, s.step), (3, 1, b2n s.qpend), (4, 1, b2n s.testWait), (8, 8, min (d.windowed s.events).length 255),
        (16, 2, s.result), (18, 4, s.funit)]

/-- The step after `s` on tile voltage `base` (R389, R390): a raise beyond 0.85 V is not made, and the
truss moves on to the first clock step. -/
def nextStep (base s : Nat) : Nat := if s < 3 && decide (850 < base + stepRaise (s + 1)) then 4 else min (s + 1) 7

/-- Brings a truss to a step: the rail follows, a clock step starts a relock (R390), the store keeps the
step (R391). -/
def Device.applyStep (d : Device) (t s : Nat) : Device :=
  let old := d.trussStep t
  let u := tget d.suspects t default
  let d := { d with suspects := tset d.suspects t { u with step := s }
                    fls := { d.fls with storedStep := tset d.fls.storedStep t s } }
  let d := d.setRail (t / 4)
  if stepCeil s = stepCeil old then d
  else
    let held := d.clk.powerHeld.toNat.testBit t || d.clk.thermHeld.toNat.testBit (t / 4)
    let mhz := if held then min (tget d.clk.mhz t 0) (stepCeil s) else stepCeil s
    { d with clk := { d.clk with mhz := tset d.clk.mhz t mhz, locked := d.clk.locked &&& ~~~ (1#16 <<< t) } }

/-- The truss takes its next step (R389, R392). -/
def Device.takeStep (d : Device) (t n : Nat) : Device :=
  let old := d.trussStep t
  if 7 ≤ old then d
  else
    let s := nextStep (tget d.fls.vcore (t / 4) 750) old
    let d := (d.applyStep t s).count Reg.FLT_STEPS 1
    let u := tget d.suspects t default
    let d :=
      if s = 7 then
        { d with suspects := tset d.suspects t { u with qpend := true, qpendAt := d.now, events := [] } }
      else { d with suspects := tset d.suspects t { u with events := [] } }
    d.log 0x0F 0 (unitCode t 0) noCtx (if s = 7 then 4 else 3) 0 (d.fltTruss t) (BitVec.ofNat 64 n)

/-- Counts a suspect event of truss `t` and takes a step when the count reaches THRESH (R389). -/
def Device.suspectCount (d : Device) (t : Nat) : Device :=
  let u := tget d.suspects t default
  let es := d.windowed u.events ++ [d.now]
  let d := { d with suspects := tset d.suspects t { u with events := es } }
  if max 1 (d.fld Reg.FLT_CTRL Fld.FLT_CTRL_THRESH) ≤ es.length then d.takeStep t es.length else d

/-- A suspect event against truss `t` (R388); during a Flashing restart it waits (R410). -/
def Device.suspect (d : Device) (t : Nat) : Device :=
  if d.fld Reg.FLT_CTRL Fld.FLT_CTRL_SUSP_EN = 0 then d
  else if d.fls.restarting then { d with fls := { d.fls with heldEvents := d.fls.heldEvents ++ [t] } }
  else d.suspectCount t

/-- Counts a suspect event of collective engine `e`, unit 16 + e, and quarantines the engine at THRESH (R394). -/
def Device.suspectColCount (d : Device) (e : Nat) : Device :=
  let u := tget d.suspects (16 + e) default
  let es := d.windowed u.events ++ [d.now]
  if max 1 (d.fld Reg.FLT_CTRL Fld.FLT_CTRL_THRESH) ≤ es.length && !(d.colq.toNat.testBit e) then
    (({ d with suspects := tset d.suspects (16 + e) { u with events := [] }
               colq := d.colq ||| (1#2 <<< e) }).count Reg.FLT_QUARANTINES 1).log 0x0F 0 (unitCode e 10) noCtx 5 0 0
      (BitVec.ofNat 64 es.length)
  else { d with suspects := tset d.suspects (16 + e) { u with events := es } }

/-- A suspect event against collective engine `e` (R388); during a Flashing restart it waits (R410). -/
def Device.suspectCol (d : Device) (e : Nat) : Device :=
  if d.fld Reg.FLT_CTRL Fld.FLT_CTRL_SUSP_EN = 0 then d
  else if d.fls.restarting then { d with fls := { d.fls with heldEvents := d.fls.heldEvents ++ [16 + e] } }
  else d.suspectColCount e

/-! ### The bound (R386) -/

/-- Bits 0 to 6 of Table 13-1, as the registers and slices stand. Only registers that have been written
are listed, and the reset values meet every condition. -/
def boundCond (d : Device) : BitVec 7 :=
  let field (off : Nat) (hi lo : Nat) : Nat := bits (d.reg off) hi lo
  let b0 := d.regs.all fun p =>
    !(regRowsRafCtrl p.1) || bit p.2 0
  let b1 := d.regs.all fun p =>
    !(regRowsLthCtrl p.1) || bit p.2 0
  let b1a := decide (field Reg.ATN_CTRL 16 16 = 1)
  let b2 := decide (field Reg.COL_CTRL 7 0 ≠ 0)
  let b3 := decide (field Reg.MEM_CTRL 1 1 = 1) && decide (max 1 (field Reg.MEM_CTRL 15 8) ≤ 24)
  let b4 := d.soffit.all (fun p => !p.2.staleRisk)
  let b5 := decide (field Reg.FLT_CTRL 0 0 = 1)
  let b6 := decide (field Reg.REP_CTRL 0 0 = 1) && d.regions.all (fun p => p.2.refValid)
  BitVec.ofNat 7 (b2n b0 + 2 * b2n (b1 && b1a) + 4 * b2n b2 + 8 * b2n b3 + 16 * b2n b4 + 32 * b2n b5 + 64 * b2n b6)
where
  /-- RAF_CTRL of any array. -/
  regRowsRafCtrl (off : Nat) : Bool :=
    decide (0x1060008 ≤ off) && (off - 0x1060008) / 0x100000 < 16 &&
      (off - 0x1060008) % 0x100000 / 0x10000 < 4 && (off - 0x1060008) % 0x10000 == 0
  /-- LTH_CTRL of any engine. -/
  regRowsLthCtrl (off : Nat) : Bool :=
    decide (0x10a0000 ≤ off) && (off - 0x10a0000) / 0x100000 < 16 &&
      (off - 0x10a0000) % 0x100000 / 0x10000 < 2 && (off - 0x10a0000) % 0x10000 == 0

/-- FLT_BOUND of a COND (Table 13-11). -/
def boundWord (c : BitVec 7) : Word := pack [(0, 7, c.toNat), (7, 1, b2n (c == 0x7F#7))]

/-- What follows every command: FLT_BOUND takes the conditions as they now stand, and the fall of a bit
is recorded as kind 0x14 (R386). -/
def settle (d : Device) : Device :=
  let c := boundCond d
  let d := if d.bound &&& ~~~ c = 0 then d
    else d.log 0x14 3 0 noCtx 0 0 (boundWord d.bound) (boundWord c)
  { d with bound := boundCond d }

/-- A command's effect on the device; the queue is not touched. -/
def onDevice (s : State) (f : Device → Device) : Host.Outcome State Fault Refusal :=
  .next { s with dev := settle (f s.dev) }

/-- Whether the control window serves a block at the present stage (R443): all of it from Batten on, the
GLB, FLS, CLK and RST blocks at Tarp, none before. -/
def Device.windowOpen (d : Device) (off : Nat) : Bool :=
  match d.clk.stage with
  | .batten | .thatched => true
  | .tarp => off / 0x100000 == 0 || off / 0x100000 == 12 || off / 0x100000 == 13
  | _ => false

/-- The effect of a write to the register at `off`, discarded where the window does not serve it (R443). -/
def onRegister (s : State) (off : Nat) (f : Device → Device) : Host.Outcome State Fault Refusal :=
  onDevice s (fun d => if d.windowOpen off then f d else d)

end Sys2Proof.Machine
end

