-- ==== Sys2Proof/Machine/Work.lean ====
section
/-! DEFINITION. Commands in hand and what they do to memory: how a task ends, translation of virtual
addresses (R306 to R315), reads and writes of a context's space, and Loft pointers (R15, R20, R135). -/
namespace Sys2Proof.Machine

open Sys2Proof

/-! ### Endings and notes -/

/-- Status codes (Table 09-9). -/
def stOk : Nat := 0x00
def stNotes : Nat := 0x01
def stSkew : Nat := 0x10
def stNonfinite : Nat := 0x11
def stXltFault : Nat := 0x20
def stViolation : Nat := 0x21
def stAbandoned : Nat := 0x30
def stAbft : Nat := 0x40
def stUncorr : Nat := 0x41
def stRemoteLost : Nat := 0x50
def stRetired : Nat := 0x60
def stStale : Nat := 0x70
def stInternal : Nat := 0x7F

/-- An ending with layout C (Table 09-12). -/
def endC (status cause unit index addr : Nat) : Ending :=
  { status := status
    d0 := pack [(0, 8, cause), (8, 8, unit), (16, 32, index)]
    d1 := pack [(0, 63, addr)] }

/-- An ending with layout B (SCALE_SKEW, R83). -/
def endB (operand dataOrd scaleOrd unit logical : Nat) : Ending :=
  { status := stSkew
    d0 := pack [(0, 8, operand), (8, 6, dataOrd), (16, 6, scaleOrd), (24, 8, unit)]
    d1 := pack [(0, 48, logical)] }

/-- The end of a command that did not fail; its report decides between 0x00 and 0x01. -/
def endOk : Ending := ⟨stOk, 0, 0⟩

def Ending.failed (e : Ending) : Bool := e.status != stOk && e.status != stNotes

/-- Notes (Table 09-11) by bit. -/
def noteSat : Nat := 0
def noteDrl : Nat := 1
def noteMissLo : Nat := 2
def noteMissHi : Nat := 3
def noteNonfinite : Nat := 4
/-- INVALID, DIVZERO, OVERFLOW, UNDERFLOW, INEXACT are bits 5 to 9. -/
def noteFlags : Nat := 5
def noteEmptyRed : Nat := 10
def noteEmptyBag : Nat := 11
def noteEmptyRow : Nat := 12
def noteSkipped : Nat := 13
def noteBadQrec : Nat := 14
def noteRetryOk : Nat := 15
def noteXltWait : Nat := 16
def notePreempted : Nat := 17
def noteCountSat : Nat := 18
def noteMultiFail : Nat := 19
def noteSwitch : Nat := 20
def noteLate : Nat := 21
def noteFenceStale : Nat := 22

/-- The notes marked "yes" in Table 09-11: they raise OK to OK_WITH_NOTES. -/
def raisingNotes : BitVec 32 := 0x307C1D#32

def Report.note (r : Report) (b : Nat) : Report := { r with notes := r.notes ||| (1#32 <<< b) }

def Report.noteIf (r : Report) (c : Bool) (b : Nat) : Report := if c then r.note b else r

/-- Adds a later report to an earlier one (R279): notes are united, counts added, and the earliest
non-finite index kept. -/
def Report.join (a b : Report) : Report :=
  { notes := a.notes ||| b.notes
    sat := a.sat + b.sat
    drl := a.drl + b.drl
    missLo := a.missLo + b.missLo
    missHi := a.missHi + b.missHi
    nfIndex := match a.nfIndex with | some i => some i | none => b.nfIndex
    skipped := a.skipped + b.skipped }

/-- A report of counted saturations and dynamic-range losses. -/
def reportCounts (sat drl : Nat) : Report :=
  (({ (default : Report) with sat := sat, drl := drl }).noteIf (sat != 0) noteSat).noteIf (drl != 0) noteDrl

/-- UNIT of an engine (Table 09-12). -/
def engUnit : Engine → Nat
  | .hod t => unitCode t 1
  | .raf t a => unitCode t (2 + a)
  | .lth t e => unitCode t (6 + e)
  | .tht t => unitCode t 8
  | .atn t => unitCode t 9
  | .col e => unitCode e 10

/-- The truss of an engine, 16 for a collective engine. -/
def engTruss : Engine → Nat
  | .hod t | .raf t _ | .lth t _ | .tht t | .atn t => t
  | .col _ => 16

/-! ### Jobs -/

def Device.job? (d : Device) (id : Nat) : Option Job := d.jobs.find? (fun j => j.id == id)

def Device.mapJob (d : Device) (id : Nat) (f : Job → Job) : Device :=
  { d with jobs := d.jobs.map (fun j => if j.id = id then f j else j) }

/-- Charges the time a task has held its engine (ENGINE_US, Table 14-3). -/
def Device.chargeBusy (d : Device) (id : Nat) : Device :=
  match d.job? id with
  | some j =>
    match j.engine with
    | some e => if j.state = .running then d.charge j.ctx .engineUs (d.now - j.since) (engTruss e) else d
    | none => d
  | none => d

/-- Counts the time a command has waited for a translation (R316). -/
def Device.countWait (d : Device) (id : Nat) : Device :=
  match d.job? id with
  | none => d
  | some j =>
    match j.waitFrom with
    | none => d
    | some w => d.count (Reg.CTX_XLT_WAIT_NS j.ctx) (d.now - w)

/-- The clock in force of a truss in MHz (Table 15-18): at most 2.8 GHz under the limiter (R410). -/
def Device.mhzNow (d : Device) (t : Nat) : Nat :=
  let m := tget d.clk.mhz t 0
  if d.clk.limiter then min m 2800 else m

/-- Counts the cycles that a Lath task has waited for its queue (R139). -/
def Device.countTq (d : Device) (id : Nat) : Device :=
  match d.job? id with
  | none => d
  | some j =>
    match j.engine, j.run with
    | some (.lth t e), .lth _ _ _ _ (some f) => d.count (Reg.LTH_TQ_WAIT t e) ((d.now - f) * d.mhzNow t / 1000)
    | _, _ => d

/-- Ends a command (R271); a wait for a translation or for a queue ends with it (R139, R316). -/
def Device.endJob (d : Device) (id : Nat) (e : Ending) : Device :=
  (((d.chargeBusy id).countWait id).countTq id).mapJob id (fun j =>
    if j.state = .done then j else { j with state := .done, run := .none, waitFrom := none, ending := some e })

/-- Adds to a command's report. -/
def Device.report (d : Device) (id : Nat) (r : Report) : Device :=
  d.mapJob id (fun j => { j with report := j.report.join r })

def Device.noteJob (d : Device) (id b : Nat) : Device :=
  d.mapJob id (fun j => { j with report := j.report.note b })

/-- The task an engine is running. -/
def Device.running? (d : Device) (e : Engine) : Option Job :=
  d.jobs.find? (fun j => j.engine == some e && j.state == .running)

def Device.ctx (d : Device) (c : Nat) : Context := tget d.ctxs c default

/-- The share slot that context `c` holds on truss `t`, with its number. -/
def Device.slotOf? (d : Device) (c t : Nat) : Option (Nat × ShareSlot) :=
  (tget d.truss t default).slots.find? (fun p => p.2.valid && p.2.ctx == c)

/-- A context's share slot on a truss; 0 where it holds none. -/
def Device.slotNo (d : Device) (c t : Nat) : Nat := match d.slotOf? c t with | some p => p.1 | none => 0

/-- The engines that a task needs: a Rafter task on a pair needs both arrays (R101). -/
def Job.engines (j : Job) : List Engine :=
  match j.engine with
  | some (.raf t a) => if bits j.cmd.c0 19 19 = 1 ∧ a.val % 2 = 0 then [.raf t a, .raf t (Fin.ofNat 4 (a.val + 1))] else [.raf t a]
  | some e => [e]
  | none => []

/-- Marks the running tasks of engines for pre-emption when a higher-priority task is ready (R301). -/
def Device.callPreempt (d : Device) (es : List Engine) (prio : Nat) : Device :=
  { d with jobs := d.jobs.map fun j =>
      if j.state == .running && j.engines.any (fun e => es.contains e) && decide ((tget d.ctxs j.ctx default).prio < prio)
      then { j with preemptReq := true } else j }

/-- A task becomes ready: it takes the next place in readiness order (R272, R304) and may call for a
pre-emption (R301). -/
def Device.makeReady (d : Device) (id : Nat) : Device :=
  match d.job? id with
  | none => d
  | some j =>
    match j.engine with
    | none => d.mapJob id (fun j => { j with state := .issued, waitFrom := none })
    | some _ =>
      let d := { d with nextReady := d.nextReady + 1 }
      let d := d.mapJob id (fun j => { j with state := .ready, readyAt := d.nextReady, waitFrom := none })
      d.callPreempt j.engines (d.ctx j.ctx).prio

/-- A task yields its engine (R304, R305); a command of the Ridge simply waits. -/
def Device.yieldJob (d : Device) (id : Nat) : Device :=
  match d.job? id with
  | none => d
  | some j =>
    let d := (d.chargeBusy id).mapJob id (fun j =>
      { j with state := if j.engine.isSome then .yielded else .waiting, preemptReq := false })
    if j.engine.isSome then d.count (Reg.CTX_YIELD j.ctx) 1 else d

/-! ### Translation (R306 to R314) -/

/-- Page sizes by code (Table 10-6). -/
def pageSize (code : Nat) : Nat := if code = 0 then 2 ^ 21 else if code = 1 then 2 ^ 26 else 2 ^ 30

def Xlation.covers (x : Xlation) (c va : Nat) : Bool :=
  x.ctx == c && decide (x.va ≤ va) && decide (va < x.va + pageSize x.size)

/-- The second-level set of a page (R307). -/
def l2Set (c va size : Nat) : Nat :=
  let p := va / pageSize size
  (p ^^^ (p / 2 ^ 12) ^^^ (p / 2 ^ 24) ^^^ (c * 64)) % 4096

/-- A translation moved to the front of a list, most recently used first. -/
def mruTouch (x : Xlation) (l : List Xlation) : List Xlation := x :: l.filter (· != x)

/-- Installs at the first level of truss `t`, at most 512 translations (R307). -/
def Xlt.fillL1 (x : Xlt) (t : Nat) (e : Xlation) : Xlt :=
  { x with l1 := tset x.l1 t ((mruTouch e (tget x.l1 t [])).take 512) }

/-- Installs at the second level, 4 ways in each set (R307). -/
def Xlt.fillL2 (x : Xlt) (e : Xlation) : Xlt :=
  let s := l2Set e.ctx e.va e.size
  { x with l2 := tset x.l2 s ((mruTouch e (tget x.l2 s [])).take 4) }

/-- Whether two address ranges overlap. -/
def overlap (a n b m : Nat) : Bool := decide (a < b + m) && decide (b < a + n)

/-- Removes every translation of context `c` overlapping [va, va + n) from both levels (R314, R315). -/
def Xlt.remove (x : Xlt) (c va n : Nat) : Xlt :=
  let keep (e : Xlation) : Bool := !(e.ctx == c && overlap e.va (pageSize e.size) va n)
  { x with l1 := x.l1.map (fun p => (p.1, p.2.filter keep)), l2 := x.l2.map (fun p => (p.1, p.2.filter keep)) }

def Xlt.removeCtx (x : Xlt) (c : Nat) : Xlt :=
  { x with l1 := x.l1.map (fun p => (p.1, p.2.filter (fun e => e.ctx != c)))
           l2 := x.l2.map (fun p => (p.1, p.2.filter (fun e => e.ctx != c))) }

/-- The second-level look-up of all three page sizes at once (R307). -/
def Xlt.findL2 (x : Xlt) (c va : Nat) : Option Xlation :=
  [0, 1, 2].findSome? fun z => (tget x.l2 (l2Set c va z) []).find? (fun e => e.size == z && e.covers c va)

/-- Looks up both levels; truss 16 stands for the Ridge and other units without a first level. -/
def Device.lookupXlt (d : Device) (c t va : Nat) : Device × Option Xlation :=
  let l1 := if t < 16 then (tget d.xlt.l1 t []).find? (fun e => e.covers c va) else none
  match l1 with
  | some e => (({ d with xlt := d.xlt.fillL1 t e }).count Reg.XLT_L1_HIT 1, some e)
  | none =>
    let d := if t < 16 then d.count Reg.XLT_L1_MISS 1 else d
    match d.xlt.findL2 c va with
    | some e =>
      let x := d.xlt.fillL2 e
      let x := if t < 16 then x.fillL1 t e else x
      (({ d with xlt := x }).count Reg.XLT_L2_HIT 1, some e)
    | none => (d, none)

/-- What an access through translation came to. -/
inductive Got (α : Type) where
  | ok (v : α)
  /-- No translation at either level for this address (R309) -/
  | miss (va : Nat) (wr : Bool)
  | fail (e : Ending)

/-- Translates one address within a page. -/
def Device.translate (d : Device) (c t unit va : Nat) (wr : Bool) : Device × Got Nat :=
  match d.lookupXlt c t va with
  | (d, none) => (d, .miss va wr)
  | (d, some e) =>
    if wr && !e.wr then (d, .fail (endC stViolation 0x45 unit 0 va))
    else (d, .ok (e.pa + (va - e.va)))

/-- Translates every 2 MiB piece of a range; the first that fails or misses decides. -/
def Device.translateAll (d : Device) (c t unit : Nat) (wr : Bool) :
    List (Nat × Nat) → Device × Got (List (Nat × Nat))
  | [] => (d, .ok [])
  | p :: ps =>
    match d.translate c t unit p.1 wr with
    | (d, .ok pa) =>
      match Device.translateAll d c t unit wr ps with
      | (d, .ok l) => (d, .ok ((pa, p.2) :: l))
      | (d, .miss a w) => (d, .miss a w)
      | (d, .fail e) => (d, .fail e)
    | (d, .miss a w) => (d, .miss a w)
    | (d, .fail e) => (d, .fail e)

/-- Marked lanes that no spare has replaced. -/
def Chan.unsteered (h : Chan) : List Nat := h.marks.filter (fun l => h.steered != some l)

/-- MEM_PC_STAT of a channel (Table 11-12). -/
def Chan.statWord (h : Chan) : Word :=
  let st := if h.held then 4 else if h.retired then 3 else if h.sweeping then 2
    else if h.unsteered.isEmpty then 0 else 1
  pack [(0, 3, st), (3, 6, h.marks.getD 0 0x3F), (9, 6, h.marks.getD 1 0x3F), (15, 1, b2n h.spareUsed),
        (16, 11, h.sweep), (27, 2, h.fails)]

def Device.chan (d : Device) (c : Nat) : Chan := tget d.hbm.chans c default

/-- Holds an event in MEM_ERR_INFO unless one is held (R342). -/
def Device.memErrInfo (d : Device) (chan kind gran sector lane : Nat) : Device :=
  if d.fld Reg.MEM_ERR_INFO Fld.MEM_ERR_INFO_VALID = 1 then d
  else d.setReg Reg.MEM_ERR_INFO
    (pack [(0, 9, chan), (9, 3, kind), (12, 19, gran), (31, 7, sector), (38, 6, lane), (63, 1, 1)])

/-- An HBM event (kind 0x06) at an address or channel. -/
def Device.memEvent (d : Device) (chan kind gran sector lane severity action addr : Nat) : Device :=
  let d := d.memErrInfo chan kind gran sector lane
  d.log 0x06 severity 0 noCtx action (BitVec.ofNat 64 addr) (d.reg Reg.MEM_ERR_INFO) (d.chan chan).statWord

/-- A read that found an uncorrectable sector (R329): counted, logged with the action that follows, and held in
MEM_ERR_INFO. -/
def Device.noteUncorr (d : Device) (action a : Nat) : Device :=
  if d.hbm.onRetired a then d
  else
    match d.hbm.place a with
    | none => d
    | some (c, g) => (d.count Reg.MEM_UNCORR 1).memEvent c 1 g (a / 32 % 128) 0 0 action a

/-- Charges `n` bytes read or written at `a` to account `acct`, through the tile the address is stored in (R418). -/
def Device.chargeHbm (d : Device) (acct : Nat) (k : MQ) (a n : Nat) : Device :=
  d.charge acct k n (match d.hbm.place a with | some (c, _) => c / 32 | none => 16)

/-- Reads HBM for account `acct` (R329, R418), with the ACTION of a record of an uncorrectable sector; an address that
is not there reads nothing. -/
def Device.hbmLoad (d : Device) (action acct a n : Nat) : Device × Except MemErr (List Byte) :=
  match d.hbm.read a n with
  | .ok bs => (d.chargeHbm acct .hbmRd a n, .ok bs)
  | .error (.uncorrectable x) => ((d.chargeHbm acct .hbmRd a n).noteUncorr action x, .error (.uncorrectable x))
  | .error .violation => (d, .error .violation)

/-- Logs every uncorrectable sector that a write of [a, a + n) covers in part: its read-modify-write read it
(R329, R330). -/
def Device.noteUnmade (d : Device) (action a n : Nat) : Device :=
  ((pieces 32 a n).filter fun p => p.2 != 32 && d.hbm.sectorBad p.1).foldl
    (fun d p => d.noteUncorr action p.1) d

/-- Writes HBM for account `acct`, with the ACTION of a record of an uncorrectable sector; an address that is not there
takes nothing. -/
def Device.hbmStore (d : Device) (action acct a : Nat) (bs : List Byte) : Device × Option MemErr :=
  let r := d.hbmWrite a bs
  match r.2 with
  | some .violation => r
  | some (.uncorrectable x) =>
    ((r.1.chargeHbm acct .hbmWr a bs.length).noteUnmade action a bs.length, some (.uncorrectable x))
  | none => (r.1.chargeHbm acct .hbmWr a bs.length, none)

/-- The ending of a memory error at virtual address `va` (R321, R330). -/
def memEnding (e : MemErr) (unit va : Nat) : Ending :=
  match e with
  | .violation => endC stViolation 0x46 unit 0 va
  | .uncorrectable _ => endC stUncorr 0 unit 0 va

/-- Reads the physical pieces of a range one after another. -/
def Device.readPieces (d : Device) (acct unit : Nat) : Nat → List (Nat × Nat) → Device × Got (List Byte)
  | _, [] => (d, .ok [])
  | va, p :: ps =>
    match d.hbmLoad 2 acct p.1 p.2 with
    | (d, .error (.uncorrectable x)) => (d, .fail (memEnding (.uncorrectable x) unit (va + (x - p.1))))
    | (d, .error .violation) => (d, .fail (memEnding .violation unit va))
    | (d, .ok bs) =>
      match Device.readPieces d acct unit (va + p.2) ps with
      | (d, .ok r) => (d, .ok (bs ++ r))
      | (d, .miss a w) => (d, .miss a w)
      | (d, .fail e) => (d, .fail e)

/-- Whether [va, va + n) lies within the 2^52 addresses of a context (R306). -/
def vaOk (va : Int) (n : Nat) : Bool := decide (0 ≤ va) && decide (va.toNat + n ≤ 2 ^ 52)

/-- Reads `n` bytes of a context's space: every page is translated first (R308). -/
def Device.vload (d : Device) (c t unit : Nat) (va : Int) (n : Nat) : Device × Got (List Byte) :=
  if !vaOk va n then (d, .fail (endC stViolation 0x44 unit 0 (unsigned 63 va)))
  else
    let a := va.toNat
    match d.translateAll c t unit false (pieces (2 ^ 21) a n) with
    | (d, .miss x w) => (d, .miss x w)
    | (d, .fail e) => (d, .fail e)
    | (d, .ok ps) => d.readPieces c unit a ps

/-- Stores to a context's space page by page: the pieces before a miss or failure stand (R308), and on an
uncorrectable sector the other sectors are written (R330). -/
def Device.vstorePieces (d : Device) (c t unit va0 : Nat) (bs : List Byte) :
    List (Nat × Nat) → Option Ending → Device × Got Unit
  | [], none => (d, .ok ())
  | [], some e => (d, .fail e)
  | p :: ps, err =>
    match d.translate c t unit p.1 true with
    | (d, .miss a w) => (d, .miss a w)
    | (d, .fail e) => (d, .fail e)
    | (d, .ok pa) =>
      match d.hbmStore 2 c pa (slice bs (p.1 - va0) p.2) with
      | (d, none) => Device.vstorePieces d c t unit va0 bs ps err
      | (d, some (.uncorrectable x)) =>
        Device.vstorePieces d c t unit va0 bs ps
          (match err with | some e => some e | none => some (memEnding (.uncorrectable x) unit (p.1 + (x - pa))))
      | (d, some .violation) => (d, .fail (memEnding .violation unit p.1))

def Device.vstore (d : Device) (c t unit : Nat) (va : Int) (bs : List Byte) : Device × Got Unit :=
  if !vaOk va bs.length then (d, .fail (endC stViolation 0x44 unit 0 (unsigned 63 va)))
  else d.vstorePieces c t unit va.toNat bs (pieces (2 ^ 21) va.toNat bs.length) none

/-! ### Requests to the owner host (R309 to R313) -/

def Device.xltRingSize (d : Device) : Nat := 2 ^ d.fld Reg.XLT_REQ_CFG Fld.XLT_REQ_CFG_SIZE_LOG2

def Device.xltRingFull (d : Device) : Bool :=
  decide (d.xltRingSize ≤ (d.xlt.prod + 2 ^ 32 - d.fld Reg.XLT_REQ_CONS Fld.XLT_REQ_CONS_CONS) % 2 ^ 32)

def Device.mapReq (d : Device) (reqid : Nat) (f : XReq → XReq) : Device :=
  { d with xlt := { d.xlt with reqs := d.xlt.reqs.map (fun r => if r.reqid = reqid then f r else r) } }

/-- The 32 bytes of request record `n` (Table 10-5). -/
def xreqBytes (r : XReq) (resent : Bool) (n size : Nat) : List Byte :=
  let ph := n / size % 2
  wordsBytes
    [pack [(0, 12, r.reqid), (12, 6, r.ctx), (18, 1, b2n (r.write || r.waiters.any (·.2.2.2))), (19, 1, b2n resent), (20, 4, r.truss),
           (24, 4, r.kind), (39, 1, ph)],
     pack [(0, 52, r.va)],
     pack [(0, 32, r.time), (32, 16, min r.merged 0xFFFF)],
     pack [(63, 1, ph)]]

/-- Writes a request to the host ring; its resend interval starts (R310, R313). -/
def Device.xltWrite (d : Device) (reqid : Nat) : Device :=
  match d.xlt.reqs.find? (fun r => r.reqid == reqid) with
  | none => d
  | some r =>
    let n := d.xlt.prod
    let size := d.xltRingSize
    let bs := xreqBytes r r.resent n size
    let d := { d with xlt := { d.xlt with prod := n + 1 } }
    let d := if r.resent then d.count Reg.XLT_RESENT 1 else (d.count Reg.XLT_REQUESTS 1).charge r.ctx .xltReqs 1 16
    let d := d.mapReq reqid (fun r => { r with sent := true, since := d.now })
    d.rdmaOut r.ctx (d.fld Reg.XLT_REQ_CFG Fld.XLT_REQ_CFG_QPN) (d.fld Reg.XLT_REQ_CFG Fld.XLT_REQ_CFG_RKEY)
      ((d.reg Reg.XLT_REQ_BASE).toNat + 32 * (n % size)) bs

/-- Writes held requests in order while the host ring has free slots (R312). -/
def Device.xltDrain : Nat → Device → Device
  | 0, d => d
  | f + 1, d =>
    match d.xlt.ringHeld with
    | [] => d
    | r :: rest =>
      if d.xltRingFull then d
      else Device.xltDrain f (({ d with xlt := { d.xlt with ringHeld := rest } }).xltWrite r)

/-- Sends a request, or holds it behind others and a full ring (R312). -/
def Device.xltSend (d : Device) (reqid : Nat) : Device :=
  let d := { d with xlt := { d.xlt with ringHeld := d.xlt.ringHeld ++ [reqid] } }
  d.xltDrain d.xlt.ringHeld.length

/-- The lowest-numbered free REQID (R312). -/
def Xlt.freeReqid (x : Xlt) : Option Nat := (List.range 1024).find? (fun i => !x.reqs.any (fun r => r.reqid == i))

/-- Puts a miss of time `time` into an outstanding request of its granule, a new request, or the wait for a free
REQID (R310, R312). -/
def Device.xltPlace (d : Device) (id ctx kind t va : Nat) (wr : Bool) (time : Nat) : Device :=
  match d.xlt.reqs.find? (fun r => r.ctx == ctx && r.va / 2 ^ 21 == va / 2 ^ 21 && !r.destroyed) with
  | some r =>
    (d.mapReq r.reqid (fun r => { r with merged := r.merged + 1, waiters := r.waiters ++ [(id, t, va, wr)] })).count
      Reg.XLT_MERGED 1
  | none =>
    match d.xlt.freeReqid with
    | none => { d with xlt := { d.xlt with full := d.xlt.full ++ [((ctx, id, t, va, wr), time)] } }
    | some i =>
      let r : XReq :=
        { reqid := i, ctx := ctx, va := va, write := wr, truss := t % 16, kind := kind, time := time
          merged := 0, resends := 0, waiters := [(id, t, va, wr)], sent := false, since := d.now, resent := false
          withdrawn := false, destroyed := false }
      ({ d with xlt := { d.xlt with reqs := d.xlt.reqs ++ [r] } }).xltSend i

/-- A command misses at both levels in the space of context `c` and waits (R309, R312, R313). `kind` is its unit
kind. -/
def Device.xltMissIn (d : Device) (c id kind t va : Nat) (wr : Bool) : Device :=
  match d.job? id with
  | none => d
  | some _ =>
    let d := (d.count (Reg.CTX_XLT_FAULTS c) 1).noteJob id noteXltWait
    if d.xlt.blocked then d.endJob id (endC stXltFault 0x43 (unitCode t kind) 0 va)
    else
      let d := (d.yieldJob id).mapJob id (fun j => { j with waitFrom := some d.now })
      let n := d.xlt.full.length
      let d := d.xltPlace id c kind t va wr d.now
      if n < d.xlt.full.length then d.count Reg.XLT_WAIT_FULL 1 else d

/-- A command misses in its own context's space. -/
def Device.xltMiss (d : Device) (id kind t va : Nat) (wr : Bool) : Device :=
  match d.job? id with
  | none => d
  | some j => d.xltMissIn j.ctx id kind t va wr

/-- Carries on with what an access in the space of context `c` got, or lets the command wait or end. -/
def Device.andThenIn {α : Type} (r : Device × Got α) (c id kind t : Nat) (k : Device → α → Device) : Device :=
  match r with
  | (d, .ok v) => k d v
  | (d, .miss va wr) => d.xltMissIn c id kind t va wr
  | (d, .fail e) => d.endJob id e

/-- The same in the command's own context. -/
def Device.andThen {α : Type} (r : Device × Got α) (id kind t : Nat) (k : Device → α → Device) : Device :=
  match r with
  | (d, .ok v) => k d v
  | (d, .miss va wr) => d.xltMiss id kind t va wr
  | (d, .fail e) => d.endJob id e

/-! ### Loft by pointer (R15, R20, R135) -/

/-- Truss and offset of a Loft pointer used on truss `own`; none when a bit outside its fields is set. -/
def loftPtr (w : Word) (own : Nat) : Option (Nat × Nat) :=
  if bits w 63 30 ≠ 0 then none
  else if bit w 29 then some (bits w 28 25, bits w 24 0)
  else if bits w 28 25 ≠ 0 then none
  else some (own, bits w 24 0)

/-- Whether two trusses are in one pool (R15). -/
def Device.samePool (d : Device) (a b : Nat) : Bool :=
  let p := (tget d.truss a default).poolLog2
  a / 2 ^ p == b / 2 ^ p

/-- The slice address of `n` bytes at an offset of context `c`'s share on truss `t`, checked against the
share (R20). -/
def Device.shareAddr (d : Device) (c t off n : Nat) : Option Nat :=
  match d.slotOf? c t with
  | none => none
  | some (_, s) => if off + n ≤ s.size * granule then some (s.base * granule + off) else none

/-- Resolves a Loft pointer of context `c` on truss `own`; `anyTruss` is for transfers (R269). -/
def Device.resolve (d : Device) (c own : Nat) (anyTruss : Bool) (w : Word) (n : Nat) : Option (Nat × Nat) :=
  match loftPtr w own with
  | none => none
  | some (t, off) =>
    if anyTruss || d.samePool own t then (d.shareAddr c t off n).map (fun a => (t, a)) else none

/-- An uncorrectable Loft word (R13): counted, and logged with its pointer where an engine met it. -/
def Device.noteLoftUncorr (d : Device) (t c unit action ptr a : Nat) : Device :=
  (d.count (Reg.LOFT_ECC_UNCORR t) 1).log 0x04 0 unit c action (BitVec.ofNat 64 ptr) (BitVec.ofNat 64 a) (BitVec.ofNat 64 c)

/-- Loads `n` bytes at a Loft pointer. -/
def Device.ptrLoad (d : Device) (c own unit : Nat) (anyTruss : Bool) (w : Word) (n : Nat) :
    Device × Got (List Byte) :=
  match d.resolve c own anyTruss w n with
  | none => (d, .fail (endC stViolation 0 unit 0 0))
  | some (t, a) =>
    match d.loftRead t a n with
    | .ok bs => (d, .ok bs)
    | .error (.uncorrectable x) => (d.noteLoftUncorr t c unit 2 (x - (a - bits w 24 0)) x, .fail (endC stUncorr 0 unit 0 (x - (a - bits w 24 0))))
    | .error .violation => (d, .fail (endC stViolation 0 unit 0 0))

/-- Stores bytes at a Loft pointer (R13: the words that can be stored are stored). -/
def Device.ptrStore (d : Device) (c own unit : Nat) (anyTruss : Bool) (w : Word) (bs : List Byte) :
    Device × Got Unit :=
  match d.resolve c own anyTruss w bs.length with
  | none => (d, .fail (endC stViolation 0 unit 0 0))
  | some (t, a) =>
    match d.loftWrite t a bs with
    | (d, none) => (d, .ok ())
    | (d, some (.uncorrectable x)) =>
      (d.noteLoftUncorr t c unit 2 (x - (a - bits w 24 0)) x, .fail (endC stUncorr 0 unit 0 (x - (a - bits w 24 0))))
    | (d, some .violation) => (d, .fail (endC stViolation 0 unit 0 0))

/-- The sum of a pointer and a byte distance, kept in the pointer's offset field. -/
def ptrAdd (w : Word) (n : Nat) : Word := w + BitVec.ofNat 64 n

/-! ### Engines at work -/

/-- Whether the engines of truss `t` run: the device is at Thatched, its clock is locked (R390), and the
truss is in use. -/
def Device.engineOn (d : Device) (t : Nat) : Bool :=
  d.clk.stage == .thatched && d.clk.locked.toNat.testBit t && (tget d.truss t default).state == 1

/-- Engines that may go on within a segment while a pre-emption is due (Table 10-3). -/
def engRafter : Engine → Bool
  | .raf _ _ => true
  | _ => false

/-- The running task of an engine, when the engine runs and no pre-emption is due at this point (R301, R302). -/
def Device.active? (d : Device) (e : Engine) : Option Job :=
  if engTruss e < 16 && !d.engineOn (engTruss e) then none
  else
    match d.running? e with
    | some j => if (j.forced || j.preemptReq) && !engRafter e then none else some j
    | none => none

end Sys2Proof.Machine
end

