-- ==== Sys2Proof/Machine/Soffit.lean ====
section
/-! DEFINITION. Loft patrol and the Soffit cache (01): look-ups, fills, replacement, way locking,
preload, disabling and invalidation. -/
namespace Sys2Proof.Machine

open Sys2Proof

def Device.sof (d : Device) (t : Nat) : Soffit := tget d.soffit t default

def Device.setSof (d : Device) (t : Nat) (s : Soffit) : Device := { d with soffit := tset d.soffit t s }

/-- The configured ways as a mask. -/
def Soffit.wayMask (s : Soffit) : Nat := 2 ^ s.ways - 1

/-- Lookups and fills take place (R33, R34). -/
def Soffit.active (s : Soffit) : Bool := s.enabled && !s.disabling && s.inv == 0

def Soffit.setOf (s : Soffit) (line : Nat) : Nat := if s.sets = 0 then 0 else line % s.sets

def Soffit.find? (s : Soffit) (line : Nat) : Option SofLine := s.lines.find? (fun l => l.line == line)

/-! ### Pseudo-LRU (R23): node i of a set's tree has children 2i and 2i + 1, leaf `ways` + w is way w, and
a node's bit is 1 when its right half is the less recently used. -/

/-- Turns the nodes above a leaf away from it, by fuel. -/
def lruTouch : Nat → Nat → BitVec 16 → BitVec 16
  | 0, _, b => b
  | f + 1, n, b =>
    if n ≤ 1 then b
    else
      let p := n / 2
      lruTouch f p (if n % 2 = 0 then b ||| (1#16 <<< p) else b &&& ~~~ (1#16 <<< p))

/-- Whether a way of `allowed` lies under node `n`. -/
def lruHas (ways allowed : Nat) : Nat → Nat → Bool
  | 0, _ => false
  | f + 1, n =>
    if ways ≤ n then allowed.testBit (n - ways) else lruHas ways allowed f (2 * n) || lruHas ways allowed f (2 * n + 1)

/-- The way that the tree names among `allowed`: down the less recently used half where it holds one. -/
def lruVictim (ways allowed : Nat) (b : BitVec 16) : Nat → Nat → Nat
  | 0, n => n - ways
  | f + 1, n =>
    if ways ≤ n then n - ways
    else
      let c := 2 * n + (if b.toNat.testBit n then 1 else 0)
      let o := 2 * n + (if b.toNat.testBit n then 0 else 1)
      lruVictim ways allowed b f (if lruHas ways allowed 5 c then c else o)

def Soffit.touch (s : Soffit) (set way : Nat) : Soffit :=
  { s with lru := tset s.lru set (lruTouch 5 (s.ways + way) (tget s.lru set 0)) }

/-- The way to fill in a set among `allowed` (R23, R26): an invalid one first, otherwise the tree's. -/
def Soffit.victim (s : Soffit) (set allowed : Nat) : Option Nat :=
  let a := allowed &&& s.wayMask
  if a = 0 then none
  else
    match (List.range s.ways).find? (fun w => a.testBit w && !s.lines.any (fun l => l.set == set && l.way == w)) with
    | some w => some w
    | none => some (lruVictim s.ways a (tget s.lru set 0) 5 1)

/-- Installs a line in a way of `allowed`; none when no way qualifies. -/
def Soffit.install (s : Soffit) (line allowed : Nat) (data : List Byte) : Option Soffit :=
  let set := s.setOf line
  if (s.find? line).isSome then some s
  else
    match s.victim set allowed with
    | none => none
    | some w =>
      let keep := s.lines.filter (fun l => !(l.set == set && l.way == w))
      some ({ s with lines := ⟨set, w, line, data⟩ :: keep }.touch set w)

/-- Ways that a demand fill for context `c` may use: the unlocked ones (R23, R24), within the mask of its share slot
where it holds one (R25). -/
def Device.fillWays (d : Device) (t c : Nat) : Nat :=
  let lock := d.fld (Reg.SOF_WAY_LOCK t) Fld.SOF_WAY_LOCK_LOCK
  let mask := match d.slotOf? c t with
    | some p => d.fld (Reg.SOF_WAYMASK t p.1) Fld.SOF_WAYMASK_MASK
    | none => 0xFFFF
  (List.range 16).foldl (fun n w => if mask.testBit w && !lock.testBit w then n + 2 ^ w else n) 0

/-- One line as a controller returns it, with counters and log (R330); `action` is the ACTION of the record of an
uncorrectable sector: 2 where a task ends, 0 for a prefetch or a preload of no command (DESIGN CHOICE, log entry 113). -/
def Device.readLine (d : Device) (action acct line : Nat) : Device × Option (List Byte) :=
  match d.hbmLoad action acct (line * 128) 128 with
  | (d, .ok bs) => (d, some bs)
  | (d, .error _) => (d, none)

/-! ### A row request's lines -/

def Device.mapRowReq (d : Device) (tag : Nat) (f : RowReq → RowReq) : Device :=
  { d with rowReqs := d.rowReqs.map (fun r => if r.tag = tag then f r else r) }

/-- Hands a line, or its failure, to a row request. -/
def Device.giveLine (d : Device) (tag line : Nat) (data : Option (List Byte)) : Device :=
  d.mapRowReq tag (fun r =>
    { r with lines := r.lines.map (fun l => if l.1 = line ∧ l.2 = none then (line, some data) else l) })

/-- The bytes of a row request, none when a line could not be read. -/
def RowReq.bytes (r : RowReq) : Option (List Byte) :=
  (r.lines.foldl (fun (acc : Option (List Byte)) l => match acc, l.2 with | some a, some (some b) => some (a ++ b) | _, _ => none) (some [])).map
    (fun bs => slice bs (r.addr % 128) r.len)

/-- A row request that has all its lines, or lacks one for good. -/
def RowReq.settled (r : RowReq) : Bool := r.lines.all (fun l => l.2.isSome)

/-- Allocates a miss register and issues its read (R29). The record of an uncorrectable sector says that a task ends
(ACTION 2), or for a prefetch, which fails no task, that nothing follows (ACTION 0; log entry 113). -/
def Device.allocMiss (d : Device) (t line ctx acct : Nat) (waiters : List Nat) (prefetch : Bool) : Device :=
  let r := d.readLine (if prefetch then 0 else 2) acct line
  let d := r.1
  let s := d.sof t
  let m : SofMiss :=
    { id := s.nextMiss, line := line, cls := if prefetch then 1 else 0, ctx := ctx
      waiters := waiters, prefetch := prefetch, noInstall := s.inv != 0, passed := false, data := r.2 }
  d.setSof t { s with misses := s.misses ++ [m], nextMiss := s.nextMiss + 1 }

/-- Prefetch of the next line after a demand allocation (R30). -/
def Device.prefetchNext (d : Device) (t line ctx acct : Nat) : Device :=
  let s := d.sof t
  let next := line + 1
  if d.fld (Reg.SOF_CTRL t) Fld.SOF_CTRL_PREFETCH = 1 && line / 32 == next / 32 && s.active
      && (s.find? next).isNone && !s.misses.any (fun m => m.line == next) && decide (s.misses.length + 8 ≤ 64) then
    (d.allocMiss t next ctx acct [] true).count (Reg.SOF_PREFETCH t) 1
  else d

/-- A cacheable read of one line by a row request (R21, R29 to R31): hit, merge, new miss register, a
wait for one, or straight from HBM while the slice is off. -/
def Device.sofDemand (d : Device) (t line ctx acct tag : Nat) : Device :=
  let s := d.sof t
  if !s.enabled || s.disabling then
    let r := d.readLine 2 acct line
    r.1.giveLine tag line r.2
  else
    match (if s.inv = 0 then s.find? line else none) with
    | some l => ((d.setSof t (s.touch l.set l.way)).count (Reg.SOF_HITS t) 1).giveLine tag line (some l.data)
    | none =>
      match s.misses.find? (fun m => m.line == line && !m.passed) with
      | some m =>
        if m.waiters.length < 16 then
          (d.setSof t { s with misses := s.misses.map (fun n => if n.id = m.id then { n with waiters := n.waiters ++ [tag] } else n) }).count
            (Reg.SOF_MERGED t) 1
        else d.setSof t { s with missWait := s.missWait ++ [(tag, line, ctx, acct, none)] }
      | none =>
        if s.misses.length < 64 then
          ((d.allocMiss t line ctx acct [tag] false).count (Reg.SOF_MISSES t) 1).prefetchNext t line ctx acct
        else d.setSof t { s with missWait := s.missWait ++ [(tag, line, ctx, acct, some d.now)] }

/-- What a read of the Purlin walker through the slice comes to. -/
inductive WalkerLine where
  | got (data : List Byte)
  | failed
  /-- No miss register is free, or the line's takes no more requests: the walker reads again later (R29) -/
  | waits
  deriving DecidableEq, Repr

def WalkerLine.of : Option (List Byte) → WalkerLine
  | some bs => .got bs
  | none => .failed

/-- The waiter that stands for a walker's read which waited and has not been answered, and the one for a read that has. -/
def walkerOwed : Nat := 0
def walkerDone : Nat := 2 ^ 32

/-- A cacheable read of one line by the Purlin walker (R21, R29 to R31): hit, merge, new miss register, a wait, or straight
from HBM while the slice is off. The walker takes the line when its read is ordered; the miss register stays in flight
until its fill (log entry 20). -/
def Device.walkerRead (d : Device) (t line ctx acct : Nat) : Device × WalkerLine :=
  let s := d.sof t
  if !s.enabled || s.disabling then
    let r := d.readLine 2 acct line
    (r.1, .of r.2)
  else
    match (if s.inv = 0 then s.find? line else none) with
    | some l => ((d.setSof t (s.touch l.set l.way)).count (Reg.SOF_HITS t) 1, .got l.data)
    | none =>
      let wait (since : Option Nat) : Device × WalkerLine :=
        if s.missWait.any (fun w => w.1 == walkerOwed && w.2.1 == line) then (d, .waits)
        else (d.setSof t { s with missWait := s.missWait ++ [(walkerOwed, line, ctx, acct, since)] }, .waits)
      let join (m : SofMiss) (ws : List Nat) : Device :=
        d.setSof t { s with misses := s.misses.map (fun n => if n.id = m.id then { n with waiters := ws } else n) }
      match s.misses.find? (fun m => m.line == line && !m.passed) with
      | some m =>
        if m.waiters.contains walkerOwed then
          (join m (m.waiters.map (fun w => if w = walkerOwed then walkerDone else w)), .of m.data)
        else if m.waiters.length < 16 then
          ((join m (m.waiters ++ [walkerDone])).count (Reg.SOF_MERGED t) 1, .of m.data)
        else wait none
      | none =>
        if s.misses.length < 64 then
          let d := ((d.allocMiss t line ctx acct [walkerDone] false).count (Reg.SOF_MISSES t) 1)
          let got := (((d.sof t).misses.find? (fun m => m.line == line && !m.passed)).bind SofMiss.data)
          (d.prefetchNext t line ctx acct, .of got)
        else wait (some d.now)

/-- A row that has just been written whole is seen whole (R184, R185): a request of it that still waits for one of its
lines is asked for again from its first. -/
def Device.reaskRows (d : Device) (hits : Nat → Bool) : Device :=
  let torn (q : RowReq) : Bool :=
    q.lines.any (fun l => hits l.1) && (d.sof q.truss).missWait.any (fun w => w.1 == q.tag)
  (d.rowReqs.filter torn).foldl (fun d q =>
    let s := d.sof q.truss
    let d := d.setSof q.truss { s with
      missWait := s.missWait.filter (fun w => w.1 != q.tag)
      misses := s.misses.map (fun m => { m with waiters := m.waiters.filter (· != q.tag) }) }
    let d := d.mapRowReq q.tag (fun r => { r with lines := r.lines.map (fun l => (l.1, none)) })
    q.lines.foldl (fun d l => d.sofDemand q.truss l.1 q.ctx q.ctx q.tag) d) d

/-! ### The slice goes off and on -/

/-- ENABLED falls once the last fill in flight has returned (R33). -/
def Device.sofSettle (d : Device) (t : Nat) : Device :=
  let s := d.sof t
  if s.disabling && s.misses.isEmpty then d.setSof t { s with enabled := false, disabling := false, invNeeded := true }
  else d

/-- An enable that takes effect (R35 to R37); one that comes while a disable still drains its fills cancels the disable, with
no INV_NEEDED and no STALE_RISK (DESIGN CHOICE, log entry 113). -/
def Device.sofTurnOn (d : Device) (t : Nat) : Device :=
  let s := d.sof t
  if s.ways = 0 then d
  else if s.enabled then d.setSof t { s with disabling := false }
  else if s.invNeeded then
    (d.setSof t { s with enabled := true, staleRisk := true }).log 0x05 3 (unitCode t 13) noCtx 0 0 1 0
  else d.setSof t { s with enabled := true }

/-- Stops a running preload (R27, R28, R270): the command that started it, if one did, ends so. -/
def Device.sofStopPreload (d : Device) (t : Nat) (e : Ending) : Device :=
  let s := d.sof t
  match s.preload with
  | none => d
  | some p =>
    let d := d.setSof t { s with preload := none }
    match p.job with
    | some j => d.endJob j e
    | none => d

/-! ### Meanings -/

/-- The granules of a slice that hold Soffit lines (Table 01-3): after the staging region. -/
def Device.inSoffitRegion (d : Device) (t a : Nat) : Bool :=
  let c := tget d.truss t default
  decide (c.stageGr * granule ≤ a) && decide (a < (c.stageGr + c.soffitGr) * granule)

/-- The line that rests at an offset of the Soffit region: way by way, set by set (log entry 21). -/
def Soffit.lineAt (s : Soffit) (off : Nat) : Option SofLine :=
  if s.sets = 0 then none
  else s.lines.find? (fun l => l.way == off / 128 / s.sets && l.set == off / 128 % s.sets)

/-- An uncorrectable error in a resting line drops it (R32). -/
def Device.dropLineAt (d : Device) (t off : Nat) : Device :=
  let s := d.sof t
  match s.lineAt off with
  | none => d
  | some l =>
    ((d.setSof t { s with lines := s.lines.filter (· != l) }).count (Reg.SOF_ECC_REFETCH t) 1).log
      0x05 2 (unitCode t 13) noCtx 0 (BitVec.ofNat 64 (l.line * 128)) 0 (BitVec.ofNat 64 (l.line * 128))

/-- LOFT_PATROL (R13, R14, R32). -/
def execLoftPatrol (t : Truss) (word : Nat) (err : EccErr) (s : State) : Host.Outcome State Fault Refusal :=
  onDevice s fun d =>
    if loftSize ≤ 32 * word then d
    else
      let d := { d with patrol := tset d.patrol t ((word + 1) % (loftSize / 32)) }
      match err with
      | .clean => d
      | .corrected => d.count (Reg.LOFT_ECC_CORR t) 1
      | .uncorrectable =>
        if d.inSoffitRegion t (32 * word) then
          d.dropLineAt t (32 * word - (tget d.truss t default).stageGr * granule)
        else
          let d := { d with loftBad := if d.loftBad.contains (t.val, word) then d.loftBad else (t.val, word) :: d.loftBad }
          d.noteLoftUncorr t noCtx (unitCode t 0) 0 0 (32 * word)

/-- The read of a miss register returns (R23, R29 to R33): its requests are answered, the line is installed in a way that
is allowed now, and waiting misses go on. SOF_NOFILL counts the fill once (log entry 113). -/
def Device.soffitFill (d : Device) (t mshr : Nat) : Device :=
  let c := d.sof t
  match c.misses.find? (fun m => m.id == mshr) with
  | none => d
  | some m =>
    let c := { c with misses := c.misses.filter (fun n => n.id != mshr) }
    let d := d.setSof t c
    let d := m.waiters.foldl (fun d w => d.giveLine w m.line m.data) d
    let d :=
      match m.data with
      | none => d
      | some bs =>
        if m.noInstall || !c.active then d
        else
          match c.install m.line (d.fillWays t m.ctx) bs with
          | some c => d.setSof t c
          | none => d.count (Reg.SOF_NOFILL t) 1
    let waiting := (d.sof t).missWait
    let d := d.setSof t { d.sof t with missWait := [] }
    let d := waiting.foldl (fun d w =>
      let d := match w.2.2.2.2 with | some since => d.count (Reg.SOF_MSHR_FULL t) ((d.now - since) * 9 / 5) | none => d
      d.sofDemand t w.2.1 w.2.2.1 w.2.2.2.1 w.1) d
    d.sofSettle t

/-- SOF_WAY_LOCK_WRITE (R24). -/
def Device.sofWayLockWrite (d : Device) (t : Nat) (v : Word) : Device :=
  let ways := (d.sof t).wayMask
  let lock := v.toNat % 2 ^ 16 &&& ways
  if ways != 0 && lock == ways then d.setFld (Reg.SOF_STATUS t) Fld.SOF_STATUS_LOCK_REFUSED 1
  else d.setReg (Reg.SOF_WAY_LOCK t) (BitVec.ofNat 64 lock)

def execSofWayLockWrite (t : Truss) (v : Word) (s : State) : Host.Outcome State Fault Refusal :=
  onRegister s (Reg.SOF_WAY_LOCK t) fun d => d.sofWayLockWrite t v

/-- Lines that a LINES value asks for: 0 means 65,536 (Table 01-15). -/
def preloadLines (lines : Nat) : Nat := if lines = 0 then 65536 else lines

/-- SOF_PRELOAD_GO (R26, R27): a write of SOF_PRELOAD_CTRL. -/
def Device.sofPreloadGo (d : Device) (t : Nat) (v : Word) : Device :=
  let d := d.setReg (Reg.SOF_PRELOAD_CTRL t) (v &&& 0x0000FFFF0001FFFF#64)
  if !bit v 63 then d
  else
    let c := d.sof t
    let lines := bits v 16 0
    let ways := bits v 47 32 &&& c.wayMask
    if !c.enabled || c.disabling || c.preload.isSome || ways == 0 || decide (65536 < lines) then
      d.setFld (Reg.SOF_STATUS t) Fld.SOF_STATUS_PRELOAD_REFUSED 1
    else
      let base := d.fld (Reg.SOF_PRELOAD_BASE t) Fld.SOF_PRELOAD_BASE_ADDR
      d.setSof t { c with
        preload := some ⟨[(base, preloadLines lines)], BitVec.ofNat 16 ways, none, 0, deviceAccount⟩
        preloadDone := 0 }

def execSofPreloadGo (t : Truss) (v : Word) (s : State) : Host.Outcome State Fault Refusal :=
  onRegister s (Reg.SOF_PRELOAD_CTRL t) fun d => d.sofPreloadGo t v

/-- A preload stops at a line it cannot read (R28, R270). -/
def Device.preloadFault (d : Device) (t : Nat) (p : SofPreload) (line : Nat) (uncorr : Bool) : Device :=
  let d := d.setFld (Reg.SOF_STATUS t) Fld.SOF_STATUS_PRELOAD_FAULT 1
  let d := d.log 0x05 (if uncorr then 0 else 3) (unitCode t 13) (if p.job.isSome then p.acct else noCtx) (if p.job.isSome then 2 else 0)
    (BitVec.ofNat 64 (line * 128)) 2
    (BitVec.ofNat 64 (line * 128))
  d.sofStopPreload t (if uncorr then endC stUncorr 0 0 0 p.vaddr else endC stViolation 0x46 0 0 p.vaddr)

/-- The runs after one line has been dealt with. -/
def nextRuns : List (Nat × Nat) → List (Nat × Nat)
  | [] => []
  | (l, n) :: r => if n ≤ 1 then r else (l + 1, n - 1) :: r

/-- SOF_PRELOAD_LINE (R26, R28): the read of the next line completes; while an invalidation of the slice is in progress the
preload stands still (DESIGN CHOICE, log entry 113). -/
def execSofPreloadLine (t : Truss) (s : State) : Host.Outcome State Fault Refusal :=
  onDevice s fun d =>
    let c := d.sof t
    match c.preload with
    | none => d
    | some p =>
      if c.inv != 0 then d
      else
        match p.runs with
        | [] => d.sofStopPreload t endOk
        | (line, _) :: _ =>
          if !d.hbm.allReachable (line * 128) 128 then d.preloadFault t p line false
          else
            let r := if (c.find? line).isSome then (d, some []) else d.readLine (if p.job.isSome then 2 else 0) p.acct line
            match r.2 with
            | none => r.1.preloadFault t p line true
            | some bs =>
              let d := r.1
              let c := d.sof t
              let c := ((c.install line p.ways.toNat bs).getD c)
              let rest := nextRuns p.runs
              let d := d.setSof t { c with
                preload := some { p with runs := rest, vaddr := p.vaddr + 128 }
                preloadDone := c.preloadDone + 1 }
              if rest.isEmpty then d.sofStopPreload t endOk else d

/-- SOF_DISABLE (R27, R33): a write of SOF_CTRL with ENABLE = 0. -/
def Device.sofDisable (d : Device) (t : Nat) (v : Word) : Device :=
  if bit v 0 then d
  else
    let d := d.setReg (Reg.SOF_CTRL t) (v &&& 2#64)
    let c := d.sof t
    let d := d.setSof t { c with
      disabling := c.enabled, deferredEnable := false, misses := c.misses.map (fun m => { m with noInstall := true }) }
    let d := d.sofStopPreload t (endC stInternal 0x10 0 c.preloadDone 0)
    d.sofSettle t

def execSofDisable (t : Truss) (v : Word) (s : State) : Host.Outcome State Fault Refusal :=
  onRegister s (Reg.SOF_CTRL t) fun d => d.sofDisable t v

/-- SOF_ENABLE (R35 to R37): a write of SOF_CTRL with ENABLE = 1. -/
def Device.sofEnable (d : Device) (t : Nat) (v : Word) : Device :=
  if !bit v 0 then d
  else
    let c := d.sof t
    if c.ways = 0 then d.setReg (Reg.SOF_CTRL t) (v &&& 2#64)
    else
      let d := d.setReg (Reg.SOF_CTRL t) (v &&& 3#64)
      if c.inv != 0 then d.setSof t { c with deferredEnable := true } else d.sofTurnOn t

def execSofEnable (t : Truss) (v : Word) (s : State) : Host.Outcome State Fault Refusal :=
  onRegister s (Reg.SOF_CTRL t) fun d => d.sofEnable t v

/-- SOF_INV_ALL (R34). -/
def Device.sofInvAll (d : Device) (t : Nat) : Device :=
  let c := d.sof t
  if c.inv != 0 then d else d.setSof t { c with inv := 1, lines := [] }

def execSofInvAll (t : Truss) (s : State) : Host.Outcome State Fault Refusal :=
  onRegister s (Reg.SOF_INV t) fun d => d.sofInvAll t

/-- SOF_INV_UNLOCKED (R34). -/
def Device.sofInvUnlocked (d : Device) (t : Nat) : Device :=
  let c := d.sof t
  let lock := d.fld (Reg.SOF_WAY_LOCK t) Fld.SOF_WAY_LOCK_LOCK
  if c.inv != 0 then d else d.setSof t { c with inv := 2, lines := c.lines.filter (fun l => lock.testBit l.way) }

def execSofInvUnlocked (t : Truss) (s : State) : Host.Outcome State Fault Refusal :=
  onRegister s (Reg.SOF_INV t) fun d => d.sofInvUnlocked t

/-- SOF_INV_DONE (R34 to R36). -/
def execSofInvDone (t : Truss) (s : State) : Host.Outcome State Fault Refusal :=
  onDevice s fun d =>
    let c := d.sof t
    if c.inv = 0 then d
    else
      let all := c.inv == 1
      let d := d.setSof t { c with
        inv := 0, deferredEnable := false
        invNeeded := c.invNeeded && !all
        staleRisk := c.staleRisk && !all }
      if c.deferredEnable then d.sofTurnOn t else d

end Sys2Proof.Machine
end

