-- ==== Sys2Proof/Machine/Ridge.lean ====
section
/-! DEFINITION. The Eave ring and the Ridge (09): acceptance, fences, starting and completing entries,
issuing commands, command buffers and stored graphs. -/
namespace Sys2Proof.Machine

open Sys2Proof

/-! ### Fences (R266) -/

def fenceKey (c i : Nat) : Nat := 4096 * c + i

def Device.fence (d : Device) (c i : Nat) : Word := tget d.fences (fenceKey c i) 0

/-- a at or after b, in 64-bit serial-number arithmetic (R266). -/
def atOrAfter (a b : Word) : Bool := serialGe 64 a.toNat b.toNat

def Device.setFence (d : Device) (c i : Nat) (v : Word) : Device := { d with fences := tset d.fences (fenceKey c i) v }

/-- A signal with value v (R266): whether it was stale. -/
def Device.signal (d : Device) (c i : Nat) (v : Word) : Device × Bool :=
  let f := d.fence c i
  if v = f then (d, false)
  else if atOrAfter v f then (d.setFence c i v, false)
  else (d.count Reg.RIDGE_FENCE_STALE 1, true)

/-- Whether a waiter of context `c` may name a fence of context `w` (R268). -/
def Device.mayWait (d : Device) (c w : Nat) : Bool := w == c || w == 0 || (d.ctx c).fmask.toNat.testBit w

/-! ### Entries -/

def Device.entry? (d : Device) (e : Nat) : Option Entry := d.entries.find? (fun x => x.id == e)

def Device.mapEntry (d : Device) (e : Nat) (f : Entry → Entry) : Device :=
  { d with entries := d.entries.map (fun x => if x.id = e then f x else x) }

/-- Entries of a context started and not completed (GUT_STAT.INFLIGHT). -/
def Device.inflight (d : Device) (c : Nat) : Nat :=
  d.entries.countP (fun x => x.ctx == c && x.state == .started && x.lane.isNone)

/-- DETAIL0 and DETAIL1 of layout A, and whether a count saturated (R287). -/
def layoutA (r : Report) : Word × Word × Bool :=
  let cap (n : Nat) : Nat := min n 0xFFFF
  let skip := min r.skipped (2 ^ 23 - 1)
  let nf := match r.nfIndex with | some i => i % 2 ^ 40 | none => 0xFFFFFFFFFF
  let past := decide (0xFFFF < r.sat) || decide (0xFFFF < r.drl) || decide (0xFFFF < r.missLo)
    || decide (0xFFFF < r.missHi) || decide (2 ^ 23 - 1 < r.skipped)
  (pack [(0, 16, cap r.sat), (16, 16, cap r.drl), (32, 16, cap r.missLo), (48, 16, cap r.missHi)],
   pack [(0, 40, nf), (40, 23, skip)], past)

/-- Status 0x00 or 0x01 of a report (R279). -/
def okStatus (r : Report) : Nat := if r.notes &&& raisingNotes = 0 then stOk else stNotes

/-- A completion record (Tables 09-10 to 09-12). -/
def completionRecord (stamp ctx tag time : Nat) (e : Ending) (r : Report) : GutRec :=
  let a := layoutA r
  let useA := !e.failed || e.status == stNonfinite
  let notes := (r.notes ||| (if useA && a.2.2 then 1#32 <<< noteCountSat else 0)).toNat
  { w0 := pack [(0, 32, stamp), (32, 6, ctx), (40, 8, if e.failed then e.status else okStatus r), (48, 16, tag)]
    w1 := pack [(0, 32, notes), (32, 32, time)]
    w2 := if useA then a.1 else e.d0
    w3 := if useA then a.2.1 else e.d1
    isEvent := false
    again := false }

/-- The ring that takes the record of an entry of context `c`: context 0's for a missing one (R263). -/
def Device.recordCtx (d : Device) (c : Nat) : Nat := if (d.ctx c).state = 0 then 0 else c

/-- The doorbell target clears when X passes it (R259). -/
def Eave.passed (e : Eave) (x : Nat) : Eave :=
  match e.target with
  | some t => if serialGe 32 x (t + 1) then { e with target := none } else e
  | none => e

def Device.eaveEn (d : Device) : Bool := d.fld Reg.EAVE_CFG Fld.EAVE_CFG_EN == 1
def Device.eaveBase (d : Device) : Nat := d.fld Reg.EAVE_CFG Fld.EAVE_CFG_BASE * 64
def Device.eaveSize (d : Device) : Nat := 2 ^ d.fld Reg.EAVE_CFG Fld.EAVE_CFG_SIZE_LOG2

/-- Whether the Ridge accepts entries (R443). -/
def Device.ridgeOn (d : Device) : Bool := d.clk.stage == .thatched && d.eaveEn

/-- The words of the slot in which the expected entry lies; none when HBM cannot read it. -/
def Device.eaveSlot (d : Device) : Option RingEntry :=
  match d.hbm.read (d.eaveBase + 64 * (d.expect % d.eaveSize)) 64 with
  | .ok bs => some ⟨bytesWords bs⟩
  | .error _ => none

def Device.pendMax (d : Device) : Nat := min 8192 (max 1 (d.fld Reg.RIDGE_CTRL Fld.RIDGE_CTRL_PEND_MAX))

/-- Whether the entry at X would exceed the store or its context's share of it (R264). -/
def Device.storeFull (d : Device) (c : Nat) : Bool :=
  decide (8192 ≤ d.entries.countP (fun x => x.lane.isNone)) ||
    decide (d.pendMax ≤ d.entries.countP (fun x => x.ctx == c && x.state == .accepted))

/-- Whether the entry at X is there and finds no space (R264). -/
def Device.stallHolds (d : Device) : Bool :=
  d.ridgeOn && (match d.eaveSlot with | some e => e.stamp == d.expect && d.storeFull e.ctx | none => false)

/-- The end of a stall (R264): its time is counted, the slot is read, and the limit of R260 runs anew (log entry 115). -/
def Device.endStall (d : Device) : Device :=
  ({ d with eave := { d.eave with stall := false, since := d.now, due := d.ridgeOn } }).count Reg.EAVE_STALL_NS
    (d.now - d.eave.stallFrom)

/-- A stall ends as soon as space has freed, or no entry is there to wait for it (R264). -/
def Device.unstall (d : Device) : Device := if d.eave.stall && !d.stallHolds then d.endStall else d

def Device.graph? (d : Device) (g : Nat) : Option Graph :=
  match d.graphs.find? (fun p => p.1 == g) with | some p => some p.2 | none => none

/-- Frees versions that neither new launches nor running ones use (R280). -/
def Device.pruneGraph (d : Device) (g : Nat) : Device :=
  match d.graph? g with
  | none => d
  | some x =>
    let used (v : GraphVer) : Bool :=
      v.key == x.current || d.bufs.any (fun b => b.graph == some (g, v.key))
    let vs := x.vers.filter used
    if vs.isEmpty then { d with graphs := tdel d.graphs g } else { d with graphs := tset d.graphs g { x with vers := vs } }

/-- An entry leaves the store with its commands and buffers; the versions that its launches were bound to may be freed
(R280). -/
def Device.dropEntry (d : Device) (x : Entry) : Device :=
  let gs := (d.bufs.filter (fun b => b.entry == x.id)).filterMap (fun b => b.graph.map (·.1))
  gs.foldl (fun d g => d.pruneGraph g)
    { d with
      entries := d.entries.filter (fun y => y.id != x.id)
      jobs := d.jobs.filter (fun j => j.entry != x.id)
      bufs := d.bufs.filter (fun b => b.entry != x.id) }

/-- Completes an entry (R267, R288): its fence signal, then its record. A course launch hands its outcome to
its lane and writes no record (R282). Space may free for the entry at X (R264). -/
def Device.completeEntry (d : Device) (x : Entry) (e : Ending) (r : Report) (mayRunSignal : Bool) : Device :=
  match x.lane with
  | some l =>
    let d := d.dropEntry x
    { d with lanes := tmap d.lanes l { (default : LaneSt) with factor := 1024 } (fun s => { s with result := some (e, r), doneAt := d.now }) }
  | none =>
    let st := if e.failed then e.status else okStatus r
    let sends := mayRunSignal && x.sen && (!x.sigok || st == stOk || st == stNotes)
    let s := if sends then d.signal x.ctx x.sidx x.sval else (d, false)
    let d := s.1.dropEntry x
    let r := r.noteIf s.2 noteFenceStale
    let d := d.charge x.ctx .entries 1 16
    (d.gutPut (d.recordCtx x.ctx) (completionRecord x.stamp x.ctx x.tag d.now e r)).unstall

/-! ### Acceptance (R257 to R264, R268) -/

/-- FMT values accepted (R262). -/
def Device.fmtOk (d : Device) (f : Nat) : Bool := f == 1 || (f == 2 && d.fls.silicon != 0xA1)

/-- How an accepted entry is refused, if it is (R263). -/
def Device.refuseEntry (d : Device) (e : RingEntry) : Option Ending :=
  if !d.fmtOk e.fmt || e.reserved then some (endC stInternal 0x01 0 0 0)
  else if (d.ctx e.ctx).state ≠ 1 then some (endC stViolation 0 0 0 0)
  else none

/-- How an accepted entry ends at once, if it does (R263, R268). -/
def Device.acceptEnding (d : Device) (e : RingEntry) : Option Ending :=
  match d.refuseEntry e with
  | some g => some g
  | none => if bit (wordAt e.w 3) 12 && !d.mayWait e.ctx e.wctx then some (endC stViolation 0 0 0 0) else none

/-- A read of the expected slot finds no entry to accept: none follows until something asks for one (R259). -/
def Device.eaveSeen (d : Device) : Device :=
  let d := d.unstall
  { d with eave := { d.eave with due := false } }

/-- Reads the expected slot and accepts its entry, if it is there (R258, R263, R264). -/
def Device.eaveAccept (d : Device) : Device :=
  match d.eaveSlot with
  | none => d.eaveSeen
  | some e =>
    if e.stamp ≠ d.expect then d.eaveSeen
    else if d.storeFull e.ctx then
      if d.eave.stall then d else { d with eave := { d.eave with stall := true, stallFrom := d.now } }
    else
      let d := d.unstall
      let x := (d.expect + 1) % 2 ^ 32
      let d := d.setFld Reg.EAVE_EXPECT Fld.EAVE_EXPECT_X x
      let d := { d with eave := { d.eave.passed x with due := true } }
      let d := d.count Reg.EAVE_ACCEPTED 1
      let w (i : Nat) := wordAt e.w i
      let en : Entry :=
        { id := d.nextEntry, stamp := e.stamp, ctx := e.ctx, tag := e.tag, wen := bit (w 3) 12, wctx := e.wctx
          widx := bits (w 3) 11 0, wval := w 1, sen := bit (w 3) 32, sigok := bit (w 3) 33, sidx := bits (w 3) 31 20
          sval := w 2, conc := bit (w 3) 34, cmd := e.cmd, state := .accepted, lane := none, prev := (d.ctx e.ctx).lastEntry, ending := none }
      let ending? := d.acceptEnding e
      let refused := (d.refuseEntry e).isSome
      let d := { d with
        nextEntry := d.nextEntry + 1, entries := d.entries ++ [en]
        ctxs := tset d.ctxs e.ctx { d.ctx e.ctx with lastEntry := some en.id } }
      match ending? with
      | none => d
      | some g => (if refused then d.count Reg.EAVE_REFUSED 1 else d).completeEntry en g default false

/-- EAVE_ACCEPT (R258, R259, R261 to R264): the read that follows a doorbell write or an acceptance, or the entry that
waits for space. -/
def execEaveAccept (s : State) : Host.Outcome State Fault Refusal :=
  onDevice s fun d => if d.ridgeOn && (d.eave.due || d.eave.stall) then d.eaveAccept else d

/-- A doorbell write (R259, R260): the slot is read within 30 ns of it; a value out of range is otherwise ignored (log
entry 115). -/
def Device.doorbell (d : Device) (v : Word) : Device :=
  let t := bits v 31 0
  let e := { d.eave with due := d.ridgeOn }
  if (t + 2 ^ 32 - d.expect) % 2 ^ 32 < d.eaveSize then
    { d with eave := { e with target := some t, door := t, stale := false, since := d.now } }
  else ({ d with eave := e }).count Reg.EAVE_DB_IGNORED 1

/-- EAVE_DOORBELL (R259). -/
def execEaveDoorbell (v : Word) (s : State) : Host.Outcome State Fault Refusal :=
  onRegister s Reg.EAVE_DOORBELL fun d => d.doorbell v

/-- EAVE_POLL (R259): a read of the expected slot while a target is outstanding, every 250 ns. -/
def execEavePoll (s : State) : Host.Outcome State Fault Refusal :=
  onDevice s fun d =>
    if d.eave.target.isSome && !d.eave.stale && decide (d.eave.lastPoll + 250 ≤ d.now) then
      let d := { d with eave := { d.eave with lastPoll := d.now } }
      if d.ridgeOn then d.eaveAccept else d
    else d

/-- STALE_DOORBELL (R260): a stall raises none (R264). -/
def execStaleDoorbell (s : State) : Host.Outcome State Fault Refusal :=
  onDevice s fun d =>
    let limit := max 1 (d.fld Reg.EAVE_POLL Fld.EAVE_POLL_TIMEOUT) * 1000
    if d.eave.target.isSome && !d.eave.stale && !d.eave.stall && decide (d.eave.since + limit ≤ d.now) then
      let found := match d.eaveSlot with | some e => e.stamp | none => 0
      let d := { d with eave := { d.eave with stale := true } }
      (d.count Reg.EAVE_STALE 1).event stStale (pack [(0, 32, d.eave.door), (32, 32, found)]) d.expect
    else d

/-- A write of EAVE_CFG (R443, R473, Table 09-15): changes of BASE or SIZE_LOG2 while EN is 1 are
discarded, and EN = 1 before Thatched is held. -/
def Device.writeEaveCfg (d : Device) (v : Word) : Device :=
  let sz := bits v 52 48
  let old := d.reg Reg.EAVE_CFG
  let v' := v &&& 0x003F0FFFFFFFFFC0#64
  if sz < 6 || 16 < sz then d
  else if bit old 53 && (v' ^^^ old) &&& 0x001F0FFFFFFFFFC0#64 != 0 then d
  else
    let d := d.setReg Reg.EAVE_CFG v'
    ({ d with eave := { d.eave with heldEnable := bit v 53 && d.clk.stage != Stage.thatched, due := d.eave.due && bit v 53 } }).unstall

/-- EAVE_CFG_WRITE (R443). -/
def execEaveCfgWrite (v : Word) (s : State) : Host.Outcome State Fault Refusal :=
  onRegister s Reg.EAVE_CFG fun d => d.writeEaveCfg v

/-- A write of EAVE_EXPECT takes effect only while EN is 0 (R258, Table 09-16). -/
def Device.writeEaveExpect (d : Device) (v : Word) : Device :=
  if d.eaveEn then d else d.setReg Reg.EAVE_EXPECT (v &&& 0xFFFFFFFF#64)

/-- EAVE_EXPECT_WRITE (R258). -/
def execEaveExpectWrite (v : Word) (s : State) : Host.Outcome State Fault Refusal :=
  onRegister s Reg.EAVE_EXPECT fun d => d.writeEaveExpect v

/-! ### Issuing commands (R269, R271) -/

/-- The engine of an engine command; UNIT names an array or a Lath engine. -/
def Cmd.engine (c : Cmd) : Option Engine :=
  let t : Truss := Fin.ofNat 16 c.truss
  match c.opc with
  | 0x20 => some (.hod t)
  | 0x21 => some (.raf t (Fin.ofNat 4 c.unit))
  | 0x22 => some (.lth t (Fin.ofNat 2 c.unit))
  | 0x23 => some (.tht t)
  | 0x24 => some (.atn t)
  | _ => none

/-- UNIT outside the truss (Table 09-13, cause 0x04): only arrays and Lath engines are numbered, and a pair
starts at an even array. -/
def Cmd.unitBad (c : Cmd) : Bool :=
  match c.opc with
  | 0x21 => c.arg 19 19 == 1 && c.unit % 2 == 1
  | 0x22 => decide (1 < c.unit)
  | 0x20 | 0x23 | 0x24 => c.unit != 0
  | _ => false

/-- How an engine command ends for want of its truss (R271, R298): no ready share, a RELEASE that waits, or
a truss not available. -/
def Device.trussEnding (d : Device) (c t unit index : Nat) : Option Ending :=
  match d.slotOf? c t with
  | none => some (endC stViolation 0 unit 0 0)
  | some (_, s) =>
    if !s.ready || (tget d.truss t default).releasing.any (fun r => r.1 == c) then some (endC stViolation 0 unit 0 0)
    else if (tget d.truss t default).state ≠ 1 then some (endC stInternal 0x04 unit index 0)
    else none

/-- How the Ridge refuses a command at issue, if it does (R263, R269, R271; Tables 09-4, 09-13). -/
def Device.issueEnding (d : Device) (ctx : Nat) (c : Cmd) (inRing inGraph : Bool) (index : Nat) : Option Ending :=
  match cmdForm c.opc with
  | none => some (endC stInternal 0x02 0 index 0)
  | some f =>
    if (inRing && !f.ring) || (!inRing && !f.buffer) || (f.ctx0 && ctx != 0) then some (endC stInternal 0x02 0 index 0)
    else if c.reserved f inGraph then some (endC stInternal (if c.opc = 0x31 then 0x0A else 0x01) 0 index 0)
    else if c.opc = 0x31 ∧ (4 < c.arg 22 19 ∨ c.arg 13 8 ≠ 0 ∨ c.arg 63 29 ≠ 0) then some (endC stInternal 0x0A 0 index 0)
    else if c.opc = 0x32 ∧ (2 < c.arg 22 19 ∨ c.arg 63 23 ≠ 0 ∨ c.c3 ≠ 0) then some (endC stInternal 0x01 0 index 0)
    else if (c.opc = 0x28 ∧ 6 < c.arg 22 19) ∨ (c.opc = 0x29 ∧ 3 < c.arg 21 19) ∨ (c.opc = 0x2A ∧ 7 < c.arg 22 19) then some (endC stInternal 0x01 0 index 0)
    else
      match c.engine with
      | none => none
      | some e =>
        if c.unitBad then some (endC stInternal 0x04 0 index 0)
        else d.trussEnding ctx (engTruss e) (engUnit e) index

/-- Issues a command: it joins the commands in hand, ended at once when refused; an engine command becomes
ready for its engine. -/
def Device.issue (d : Device) (entry ctx : Nat) (buf : Option Nat) (index : Nat) (c : Cmd) (inGraph : Bool) : Device :=
  let refusal := d.issueEnding ctx c buf.isNone inGraph index
  let id := d.nextJob
  let j : Job :=
    { id := id, entry := entry, buf := buf, index := index, ctx := ctx, cmd := c
      state := if refusal.isSome then .done else .issued
      engine := if refusal.isSome then none else c.engine
      readyAt := 0, waitFrom := none, since := 0, preemptReq := false, forced := false, preloaded := false, run := .none
      report := default, ending := refusal }
  let d := { d with nextJob := id + 1, jobs := d.jobs ++ [j] }
  if refusal.isNone && c.engine.isSome then d.makeReady id else d

/-- A command that has already ended, for a control command that failed or left a note. -/
def Device.issueEnded (d : Device) (entry ctx : Nat) (buf : Option Nat) (index : Nat) (c : Cmd) (e : Ending) (r : Report) : Device :=
  let j : Job :=
    { id := d.nextJob, entry := entry, buf := buf, index := index, ctx := ctx, cmd := c, state := .done, engine := none
      readyAt := 0, waitFrom := none, since := 0, preemptReq := false, forced := false, preloaded := false, run := .none
      report := r, ending := some e }
  { d with nextJob := d.nextJob + 1, jobs := d.jobs ++ [j] }

/-! ### Starting and completing entries (R265, R267, R278, R279, R289) -/

/-- The entry accepted before `x` in its context, while it has not completed. -/
def Device.previous (d : Device) (x : Entry) : Option Entry := x.prev.bind d.entry?

/-- Context order (R265). -/
def Device.inOrder (d : Device) (x : Entry) : Bool :=
  match d.previous x with
  | none => true
  | some y => if x.conc then y.state != .accepted else false

def Device.quota (d : Device) (c : Nat) : Nat := d.fld (Reg.GUT_CTL c) Fld.GUT_CTL_QUOTA

/-- Whether an entry may start (R265, R289). -/
def Device.mayStart (d : Device) (x : Entry) : Bool :=
  x.state == .accepted && d.inOrder x && (x.ending.isSome || !x.wen || atOrAfter (d.fence x.wctx x.widx) x.wval)
    && decide (d.inflight x.ctx + (d.gutter x.ctx).held.length < d.quota x.ctx)

/-- ENTRY_START (R265, R271, R289). -/
def execEntryStart (entry : Nat) (s : State) : Host.Outcome State Fault Refusal :=
  onDevice s fun d =>
    match d.entry? entry with
    | none => d
    | some x =>
      if d.clk.stage != .thatched || !d.mayStart x then d
      else
        let d := (d.mapEntry entry (fun y => { y with state := .started })).unstall
        match x.ending with
        | some e => d.issueEnded entry x.ctx none 0 x.cmd e default
        | none => d.issue entry x.ctx none 0 x.cmd false

/-- The commands of an entry, in issue order. -/
def Device.jobsOf (d : Device) (entry : Nat) : List Job := d.jobs.filter (fun j => j.entry == entry)

def Job.failedJob (j : Job) : Bool := match j.ending with | some e => e.failed | none => false

/-- A failure anywhere in an entry stops its buffers (R278). -/
def Device.entryFailed (d : Device) (entry : Nat) : Bool := (d.jobsOf entry).any Job.failedJob

/-- A command has ended; one that runs a buffer has ended when the buffer has issued everything. -/
def Device.settled (d : Device) (j : Job) : Bool :=
  j.state == .done || d.bufs.any (fun b => b.job == j.id && (b.finished || d.entryFailed j.entry))

/-- Status and report of an entry's commands (R279). -/
def entryResult (js : List Job) : Ending × Report :=
  let failed := js.filter Job.failedJob
  let rep : Report := js.foldl (fun r j => Report.join r j.report) default
  let rep := rep.noteIf (decide (1 < failed.length)) noteMultiFail
  match failed with
  | j :: _ => (j.ending.getD endOk, rep)
  | [] => (endOk, rep)

/-- ENTRY_COMPLETE (R267, R278, R279). -/
def execEntryComplete (entry : Nat) (s : State) : Host.Outcome State Fault Refusal :=
  onDevice s fun d =>
    match d.entry? entry with
    | none => d
    | some x =>
      let js := d.jobsOf entry
      if x.state == .started && js.all d.settled then
        let r := entryResult js
        d.completeEntry x r.1 r.2 true
      else d

/-- A command of the given code that waits for the Ridge to carry it out. -/
def Device.issued? (d : Device) (id opc : Nat) : Option Job :=
  match d.job? id with
  | some j => if j.state == .issued && j.cmd.opc == opc && d.clk.stage == .thatched then some j else none
  | none => none

/-- CMD_NOP (R269). -/
def execCmdNop (j : Nat) (s : State) : Host.Outcome State Fault Refusal :=
  onDevice s fun d => match d.issued? j 0x00 with | some _ => d.endJob j endOk | none => d

/-- FENCE_SET (R268). -/
def execFenceSet (j : Nat) (s : State) : Host.Outcome State Fault Refusal :=
  onDevice s fun d =>
    match d.issued? j 0x0A with
    | some k => (d.setFence (k.cmd.arg 36 31) (k.cmd.arg 30 19) k.cmd.c1).endJob j endOk
    | none => d

/-! ### Command buffers (R275 to R278, R283) -/

/-- Whether a command code is one of the buffer's own control commands. -/
def isControl (opc : Nat) : Bool := [0x08, 0x09, 0x0B, 0x0C, 0x0D, 0x0E, 0x0F, 0x10].contains opc

/-- An open LOOP (none) or IF (whether its ELSE has been met). -/
def scanStep (st : Option (List (Option Bool))) (c : Cmd) : Option (List (Option Bool)) :=
  match st with
  | none => none
  | some open_ =>
    match cmdForm c.opc with
    | none => none
    | some f =>
      if !f.buffer then none
      else if c.opc = 0x0C then (if open_.length < 8 then some (none :: open_) else none)
      else if c.opc = 0x0E then (if open_.length < 8 then some (some false :: open_) else none)
      else if c.opc = 0x0D then (match open_ with | none :: r => some r | _ => none)
      else if c.opc = 0x0F then (match open_ with | some false :: r => some (some true :: r) | _ => none)
      else if c.opc = 0x10 then (match open_ with | some _ :: r => some r | _ => none)
      else some open_

/-- The structure rules of R275. -/
def scanOk (cs : List Cmd) : Bool := cs.foldl scanStep (some []) == some []

def Device.buf? (d : Device) (b : Nat) : Option Buf := d.bufs.find? (fun x => x.id == b)

def Device.mapBuf (d : Device) (b : Nat) (f : Buf → Buf) : Device :=
  { d with bufs := d.bufs.map (fun x => if x.id = b then f x else x) }

/-- Substitution of a stored graph's command (R281): slot[Ck[3:0]] + (Ck with bits [3:0] cleared). -/
def substitute (slots : List Word) (c : Cmd) : Cmd :=
  let f (k : Nat) (w : Word) : Word :=
    if c.subst.testBit (k - 1) then wordAt slots (bits w 3 0) + (w &&& ~~~ 0xF#64) else w
  { c with c1 := f 1 c.c1, c2 := f 2 c.c2, c3 := f 3 c.c3 }

/-- The command at the buffer's place, with its launch record applied. -/
def Buf.current (b : Buf) : Option Cmd :=
  (b.cmds[b.pc]?).map (fun c => match b.slots with | some s => substitute s c | none => c)

/-- Issues the buffer's commands from its place on until a control command, a nested EXEC or the end
(R275, R278). -/
def Device.bufRun : Nat → Device → Nat → Device
  | 0, d, _ => d
  | f + 1, d, b =>
    match d.buf? b with
    | none => d
    | some x =>
      if x.finished || x.inner.isSome then d
      else if d.entryFailed x.entry then d.mapBuf b (fun x => { x with finished := true })
      else
        match x.current with
        | none => d.mapBuf b (fun x => { x with finished := true })
        | some c =>
          if isControl c.opc then d
          else
            let id := d.nextJob
            let d := d.issue x.entry x.ctx (some b) x.pc c x.slots.isSome
            let d := d.mapBuf b (fun x =>
              { x with pc := x.pc + 1, inner := if c.opc = 0x01 then some id else none })
            Device.bufRun f d b

/-- Carries on buffers that waited for a nested EXEC to issue everything. -/
def Device.bufResume : Nat → Device → Nat → Device
  | 0, d, _ => d
  | f + 1, d, b =>
    match d.buf? b with
    | none => d
    | some x =>
      let d := d.bufRun (x.cmds.length + 1) b
      match d.buf? b with
      | none => d
      | some x =>
        if !x.finished then d
        else
          match x.parent with
          | none => d
          | some p => Device.bufResume f (d.mapBuf p (fun y => if y.inner = some x.job then { y with inner := none } else y)) p

/-- Runs a buffer on, and its parents after it. -/
def Device.bufGo (d : Device) (b : Nat) : Device := d.bufResume 5 b

/-- Depth of EXEC nesting of a buffer, the ring's own counting 1 (R275). -/
def Device.bufDepth : Nat → Device → Option Nat → Nat
  | 0, _, _ => 0
  | _ + 1, _, none => 0
  | f + 1, d, some b =>
    match d.buf? b with
    | none => 0
    | some x => 1 + Device.bufDepth f d x.parent

/-- Buffers and launches that hold one of the 32 places (R283); nested buffers run in their parent's. -/
def Device.placesUsed (d : Device) : Nat := d.bufs.countP (fun b => b.parent.isNone)

/-- Starts a buffer for command `j`. -/
def Device.openBuf (d : Device) (j : Job) (ctx : Nat) (cmds : List Cmd) (slots : Option (List Word)) (graph : Option (Nat × Nat)) :
    Device :=
  let b : Buf :=
    { id := d.nextBuf, entry := j.entry, job := j.id, ctx := ctx, parent := j.buf, cmds := cmds, pc := 0, frames := []
      slots := slots, graph := graph, inner := none, finished := false, stands := false }
  let d := { d with nextBuf := d.nextBuf + 1, bufs := d.bufs ++ [b] }
  (d.mapJob j.id (fun k => { k with state := .running })).bufGo b.id

/-- The commands in a run of bytes. -/
def cmdsOf (bs : List Byte) : List Cmd := (chunks 32 (bs.length / 32) bs).map cmdOfBytes

/-- A failing EXEC inside a buffer leaves its parent to stop (R278). -/
def Device.endExec (d : Device) (j : Job) (e : Ending) : Device :=
  let d := d.endJob j.id e
  match j.buf with
  | some p => (d.mapBuf p (fun y => if y.inner = some j.id then { y with inner := none } else y)).bufGo p
  | none => d

/-- A course launch waits for one of the 32 places: it takes the next one that falls free (R283). One that runs holds
its place. -/
def Device.courseWaits (d : Device) (entry : Nat) : Bool :=
  d.jobs.any (fun j => j.entry != entry && j.state == .issued && j.cmd.opc == 0x02 && !d.bufs.any (fun b => b.job == j.id)
    && (match d.entry? j.entry with | some x => x.lane.isSome | none => false))

/-- Whether a launch or buffer of an entry finds no place (R283). -/
def Device.noPlace (d : Device) (entry : Nat) : Bool :=
  decide (32 ≤ d.placesUsed) ||
    (d.courseWaits entry && !(match d.entry? entry with | some x => x.lane.isSome | none => false))

/-- EXEC (R269, R275, R283). -/
def execExec (j : Nat) (s : State) : Host.Outcome State Fault Refusal :=
  onDevice s fun d =>
    match d.issued? j 0x01 with
    | none => d
    | some k =>
      let n := bits k.cmd.c2 31 0
      if d.bufs.any (fun b => b.job == j) then d
      else if k.cmd.c1.toNat % 32 ≠ 0 then d.endExec k (endC stInternal 0x06 0 k.index 0)
      else if n = 0 || 65536 < n then d.endExec k (endC stInternal 0x01 0 k.index 0)
      else if 4 ≤ d.bufDepth 5 k.buf then d.endExec k (endC stInternal 0x03 0 k.index 0)
      else if k.buf.isNone && d.noPlace k.entry then d
      else
        match d.vload k.ctx 16 0 k.cmd.c1.toNat (32 * n) with
        | (d, .miss va wr) => d.xltMiss j 0 16 va wr
        | (d, .fail e) => d.endExec k e
        | (d, .ok bs) =>
          if scanOk (cmdsOf bs) then d.openBuf k k.ctx (cmdsOf bs) none none
          else d.endExec k (endC stInternal 0x03 0 k.index 0)

/-- Buffers below `b`, itself included, by fuel. -/
def Device.bufTree : Nat → Device → Nat → List Nat
  | 0, _, b => [b]
  | f + 1, d, b => b :: (d.bufs.filter (fun x => x.parent == some b)).flatMap (fun x => Device.bufTree f d x.id)

/-- Every task issued earlier by the buffer has ended (R276). -/
def Device.barrierOk (d : Device) (b : Nat) : Bool :=
  let t := d.bufTree 4 b
  d.jobs.all (fun j => match j.buf with | some x => !t.contains x || d.settled j | none => true)

/-- The buffer at a control command of the given code, ready to take it. -/
def Device.atControl? (d : Device) (b opc : Nat) : Option (Buf × Cmd) :=
  match d.buf? b with
  | none => none
  | some x =>
    if x.finished || x.inner.isSome || d.entryFailed x.entry || d.clk.stage != .thatched
        || d.jobs.any (fun j => j.id == x.job && j.state == .waiting) then none
    else
      match x.current with
      | some c => if c.opc = opc then some (x, c) else none
      | none => none

/-- Moves a buffer to place `pc` and runs it on. -/
def Device.bufTo (d : Device) (b pc : Nat) : Device := (d.mapBuf b (fun x => { x with pc := pc, stands := false })).bufGo b

/-- A control command that fails at its place (R278). -/
def Device.bufFail (d : Device) (x : Buf) (c : Cmd) (e : Ending) : Device :=
  (d.issueEnded x.entry x.ctx (some x.id) x.pc c e default).bufGo x.id

/-- The buffer's control command of the given code is met: one with a reserved field that is not zero is refused
(R263, R269), another is carried out. -/
def Device.atControl (d : Device) (b opc : Nat) (k : Buf → Cmd → Device) : Device :=
  match d.atControl? b opc with
  | none => d
  | some (x, c) =>
    match cmdForm c.opc with
    | some f => if c.reserved f x.slots.isSome then d.bufFail x c (endC stInternal 0x01 0 x.pc 0) else k x c
    | none => d

/-- CMD_WAIT (R268, R276, R299): a wait that has been accepted stands. -/
def execCmdWait (b : Nat) (s : State) : Host.Outcome State Fault Refusal :=
  onDevice s fun d =>
    d.atControl b 0x08 fun x c =>
      if !x.stands && !d.mayWait x.ctx (c.arg 36 31) then d.bufFail x c (endC stViolation 0 0 x.pc 0)
      else if atOrAfter (d.fence (c.arg 36 31) (c.arg 30 19)) c.c1 then d.bufTo b (x.pc + 1)
      else d.mapBuf b (fun y => { y with stands := true })

/-- CMD_SIGNAL (R266, R276). -/
def execCmdSignal (b : Nat) (s : State) : Host.Outcome State Fault Refusal :=
  onDevice s fun d =>
    d.atControl b 0x09 fun x c =>
      if !d.barrierOk b then d
      else
        let r := d.signal x.ctx (c.arg 30 19) c.c1
        let d := if r.2 then r.1.issueEnded x.entry x.ctx (some b) x.pc c endOk ((default : Report).note noteFenceStale) else r.1
        d.bufTo b (x.pc + 1)

/-- BARRIER (R276). -/
def execBarrier (b : Nat) (s : State) : Host.Outcome State Fault Refusal :=
  onDevice s fun d =>
    d.atControl b 0x0B fun x _ => if d.barrierOk b then d.bufTo b (x.pc + 1) else d

/-- The index after `i` of the command that closes the block opened before it (ENDLOOP or ENDIF), or of an
IF's own ELSE when `orElse`. -/
def closing (cs : List Cmd) (orElse : Bool) : Nat → Nat → Nat → Nat
  | 0, i, _ => i
  | f + 1, i, depth =>
    match cs[i]? with
    | none => i
    | some c =>
      if c.opc = 0x0C ∨ c.opc = 0x0E then closing cs orElse f (i + 1) (depth + 1)
      else if c.opc = 0x0D ∨ c.opc = 0x10 then (if depth = 0 then i else closing cs orElse f (i + 1) (depth - 1))
      else if c.opc = 0x0F ∧ depth = 0 ∧ orElse = true then i
      else closing cs orElse f (i + 1) depth

def Buf.closingAt (x : Buf) (orElse : Bool) : Nat := closing x.cmds orElse x.cmds.length (x.pc + 1) 0

/-- The conditions of R277. -/
def condHolds (cond : Nat) (v c : Word) : Bool :=
  match cond with
  | 0 => v != 0
  | 1 => v == 0
  | 2 => v == c
  | 3 => v != c
  | 4 => atOrAfter v c
  | 5 => !atOrAfter v c
  | _ => false

/-- Reads a predicate after the implied barrier and goes on with its truth (R277). -/
def Device.predicate (d : Device) (x : Buf) (c : Cmd) (k : Device → Bool → Device) : Device :=
  if !d.barrierOk x.id then d
  else if 5 < c.arg 23 20 then d.bufFail x c (endC stInternal 0x01 0 x.pc 0)
  else if c.c1.toNat % 8 ≠ 0 then d.bufFail x c (endC stInternal 0x06 0 x.pc 0)
  else
    match d.vload x.ctx 16 0 c.c1.toNat 8 with
    | (d, .miss va wr) => d.xltMissIn x.ctx x.job 0 16 va wr
    | (d, .fail e) => d.bufFail x c e
    | (d, .ok bs) => k d (condHolds (c.arg 23 20) (bytesWord bs) c.c2)

/-- LOOP (R277): a count loop opens with C1 passes; a predicate loop tests. -/
def execLoop (b : Nat) (s : State) : Host.Outcome State Fault Refusal :=
  onDevice s fun d =>
    d.atControl b 0x0C fun x c =>
      if c.arg 19 19 = 0 then
        if c.c1 = 0 then d.bufTo b (x.closingAt false + 1)
        else
          (d.mapBuf b (fun y => { y with frames := ⟨x.pc, c.c1.toNat - 1⟩ :: y.frames })).bufTo b (x.pc + 1)
      else d.predicate x c (fun d yes => d.bufTo b (if yes then x.pc + 1 else x.closingAt false + 1))

/-- The LOOP that an ENDLOOP at index `i` closes. -/
def opening (cs : List Cmd) : Nat → Nat → Nat
  | 0, _ => 0
  | i + 1, depth =>
    match cs[i]? with
    | none => 0
    | some c =>
      if c.opc = 0x0D ∨ c.opc = 0x10 then opening cs i (depth + 1)
      else if c.opc = 0x0C ∨ c.opc = 0x0E then (if depth = 0 then i else opening cs i (depth - 1))
      else opening cs i depth

/-- ENDLOOP (R277): another pass of a count loop while passes are left, the test of a predicate loop. -/
def execEndloop (b : Nat) (s : State) : Host.Outcome State Fault Refusal :=
  onDevice s fun d =>
    d.atControl b 0x0D fun x _ =>
      let start := opening x.cmds x.pc 0
      match x.frames with
      | fr :: rest =>
        if fr.start = start then
          if fr.left = 0 then (d.mapBuf b (fun y => { y with frames := rest })).bufTo b (x.pc + 1)
          else (d.mapBuf b (fun y => { y with frames := { fr with left := fr.left - 1 } :: rest })).bufTo b (start + 1)
        else d.bufTo b start
      | [] => d.bufTo b start

/-- IF (R277): into the first arm, or to after the ELSE, or to the ENDIF. -/
def execIfCmd (b : Nat) (s : State) : Host.Outcome State Fault Refusal :=
  onDevice s fun d =>
    d.atControl b 0x0E fun x c =>
      d.predicate x c (fun d yes =>
        if yes then d.bufTo b (x.pc + 1)
        else
          let i := x.closingAt true
          let isElse := match x.cmds[i]? with | some e => e.opc == 0x0F | none => false
          d.bufTo b (if isElse then i + 1 else i))

/-- ELSE, met at the end of the first arm: on to the ENDIF (R277). -/
def execElseCmd (b : Nat) (s : State) : Host.Outcome State Fault Refusal :=
  onDevice s fun d =>
    d.atControl b 0x0F fun x _ => d.bufTo b (x.closingAt false)

/-- ENDIF (R277). -/
def execEndif (b : Nat) (s : State) : Host.Outcome State Fault Refusal :=
  onDevice s fun d =>
    d.atControl b 0x10 fun x _ => d.bufTo b (x.pc + 1)

/-! ### Stored graphs (R280 to R282) -/

/-- The version that new launches bind, if the number is sealed. -/
def Graph.cur? (g : Graph) : Option GraphVer := if g.current = 0 then none else g.vers.find? (fun v => v.key == g.current)

def verBytes (v : GraphVer) : Nat := 32 * v.cmds.length + 8 * v.defaults.length

/-- Space used in the graph store and the versions that exist. -/
def Device.graphUse (d : Device) : Nat × Nat :=
  d.graphs.foldl (fun a p => p.2.vers.foldl (fun a v => (a.1 + verBytes v, a.2 + 1)) a) (0, 0)

/-- Whether the store takes a further version. -/
def Device.graphFits (d : Device) (v : GraphVer) : Bool :=
  let u := d.graphUse
  decide (u.1 + verBytes v ≤ d.fld Reg.RIDGE_GSTORE Fld.RIDGE_GSTORE_SIZE * 2 ^ 21) && decide (u.2 < 4096)
    && d.fld Reg.RIDGE_GSTORE Fld.RIDGE_GSTORE_SIZE != 0

/-- Every SUBST of a graph names a slot below NSLOT (R281). -/
def substOk (nslot : Nat) (cs : List Cmd) : Bool :=
  cs.all (fun c => [1, 2, 3].all (fun k => !c.subst.testBit (k - 1) || decide (bits (c.word k) 3 0 < nslot)))

/-- A key that no version of the number has. -/
def Graph.newKey (g : Option Graph) : Nat := (match g with | some x => x.vers.foldl (fun m v => max m v.key) 0 | none => 0) + 1

/-- The version that a SEAL makes (R280): 1, or one more than the current one. -/
def Graph.nextVersion (g : Option Graph) : Nat := match g.bind Graph.cur? with | some v => v.version + 1 | none => 1

/-- UNIT of a command that no engine takes: the unit whose chapter has its operations (Table 09-12, log entry 24). -/
def Cmd.opUnit (c : Cmd) : Nat :=
  match c.opc with
  | 0x28 => unitCode c.truss 8
  | 0x29 => unitCode c.truss 9
  | 0x2A => unitCode 0 11
  | 0x32 => unitCode 0 12
  | _ => 0

/-- Ends the Ridge's own command with a refusal cause. -/
def Device.refuse (d : Device) (j : Job) (cause : Nat) : Device := d.endJob j.id (endC stInternal cause j.cmd.opUnit j.index 0)

/-- A command of a context that may not issue it (R176, R200, R252). -/
def Device.denied (d : Device) (j : Job) : Device := d.endJob j.id (endC stViolation 0 j.cmd.opUnit 0 0)

/-- A command's graph number sealed by another context ends it (R280). -/
def Device.foreignGraph (d : Device) (g ctx : Nat) : Bool :=
  match d.graph? g with | some x => x.current != 0 && x.owner != ctx | none => false

/-- GRAPH_SEAL (R280, R281). -/
def execGraphSeal (j : Nat) (s : State) : Host.Outcome State Fault Refusal :=
  onDevice s fun d =>
    match d.issued? j 0x03 with
    | none => d
    | some k =>
      let g := k.cmd.arg 34 19
      let nslot := k.cmd.arg 39 35
      let n := bits k.cmd.c2 31 0
      if d.foreignGraph g k.ctx then d.endJob j (endC stViolation 0 0 k.index 0)
      else if 16 < nslot then d.refuse k 0x05
      else if k.cmd.c1.toNat % 32 ≠ 0 || k.cmd.c3.toNat % 8 ≠ 0 then d.refuse k 0x06
      else if n = 0 || 65536 < n then d.refuse k 0x01
      else
        Device.andThen (d.vload k.ctx 16 0 k.cmd.c1.toNat (32 * n)) j 0 16 fun d bs =>
          Device.andThen (if k.cmd.c3 = 0 then (d, .ok (List.replicate (8 * nslot) 0))
            else d.vload k.ctx 16 0 k.cmd.c3.toNat (8 * nslot)) j 0 16 fun d ds =>
            let cs := cmdsOf bs
            let old := d.graph? g
            let v : GraphVer := ⟨Graph.newKey old, Graph.nextVersion old, cs, bytesWords ds⟩
            if !scanOk cs then d.refuse k 0x03
            else if !substOk nslot cs || !d.graphFits v then d.refuse k 0x05
            else
              let x : Graph := { owner := k.ctx, current := v.key, vers := (match old with | some x => x.vers | none => []) ++ [v] }
              (({ d with graphs := tset d.graphs g x }).pruneGraph g).endJob j endOk

/-- GRAPH_PATCH (R282): KIND 0 writes default slots of the current version, KIND 1 commands of a new one. -/
def execGraphPatch (j : Nat) (s : State) : Host.Outcome State Fault Refusal :=
  onDevice s fun d =>
    match d.issued? j 0x04 with
    | none => d
    | some k =>
      let g := k.cmd.arg 34 19
      let first := bits k.cmd.c2 31 0
      let n := bits k.cmd.c3 31 0
      let kind := k.cmd.arg 35 35
      if d.foreignGraph g k.ctx then d.endJob j (endC stViolation 0 0 k.index 0)
      else
        match (match d.graph? g with | some x => (x.cur?).map (fun v => (x, v)) | none => none) with
        | none => d.refuse k 0x05
        | some (x, v) =>
          let size := if kind = 0 then 8 else 32
          let limit := if kind = 0 then v.defaults.length else v.cmds.length
          if k.cmd.c1.toNat % size ≠ 0 then d.refuse k 0x06
          else if limit < first + n then d.refuse k 0x05
          else
            Device.andThen (d.vload k.ctx 16 0 k.cmd.c1.toNat (size * n)) j 0 16 fun d bs =>
              if kind = 0 then
                let v' := { v with defaults := v.defaults.take first ++ bytesWords bs ++ v.defaults.drop (first + n) }
                let x := { x with vers := x.vers.map (fun u => if u.key = v.key then v' else u) }
                ({ d with graphs := tset d.graphs g x }).endJob j endOk
              else
                let cs := v.cmds.take first ++ cmdsOf bs ++ v.cmds.drop (first + n)
                let v' : GraphVer := { v with key := Graph.newKey (some x), version := v.version + 1, cmds := cs }
                let inUse := d.bufs.any (fun b => b.graph == some (g, v.key))
                if !scanOk cs then d.refuse k 0x03
                else if !substOk v.defaults.length cs || (inUse && !d.graphFits v') then d.refuse k 0x05
                else
                  let x := { x with current := v'.key, vers := x.vers ++ [v'] }
                  (({ d with graphs := tset d.graphs g x }).pruneGraph g).endJob j endOk

/-- Removes a graph number (R280). -/
def Device.dropGraph (d : Device) (g : Nat) : Device :=
  match d.graph? g with
  | none => d
  | some x => ({ d with graphs := tset d.graphs g { x with current := 0 } }).pruneGraph g

/-- GRAPH_DROP (R280). -/
def execGraphDrop (j : Nat) (s : State) : Host.Outcome State Fault Refusal :=
  onDevice s fun d =>
    match d.issued? j 0x05 with
    | none => d
    | some k =>
      let g := k.cmd.arg 34 19
      if d.foreignGraph g k.ctx then d.endJob j (endC stViolation 0 0 k.index 0)
      else
        match (match d.graph? g with | some x => x.cur? | none => none) with
        | none => d.refuse k 0x05
        | some _ => (d.dropGraph g).endJob j endOk

/-- The slots of a launch (R281): defaults, the slot block at C1 unless 0, then C2 and C3. -/
def launchSlots (v : GraphVer) (block : List Word) (c : Cmd) : List Word :=
  let s := if block.isEmpty then v.defaults else block
  let s := if c.arg 35 35 = 1 then s.set 0 c.c2 else s
  if c.arg 36 36 = 1 then s.set 1 c.c3 else s

/-- LAUNCH (R281, R283): by the owner or context 0; the launch runs in the owning context. -/
def execLaunch (j : Nat) (s : State) : Host.Outcome State Fault Refusal :=
  onDevice s fun d =>
    match d.issued? j 0x02 with
    | none => d
    | some k =>
      let g := k.cmd.arg 34 19
      if d.bufs.any (fun b => b.job == j) then d
      else
        match (match d.graph? g with | some x => (x.cur?).map (fun v => (x, v)) | none => none) with
        | none => d.refuse k 0x05
        | some (x, v) =>
          if x.owner ≠ k.ctx ∧ k.ctx ≠ 0 then d.endJob j (endC stViolation 0 0 k.index 0)
          else if k.cmd.c1.toNat % 8 ≠ 0 then d.refuse k 0x06
          else if d.noPlace k.entry then d
          else
            let n := v.defaults.length
            Device.andThen (if k.cmd.c1 = 0 then (d, .ok []) else d.vload k.ctx 16 0 k.cmd.c1.toNat (8 * n)) j 0 16 fun d bs =>
              (d.count Reg.RIDGE_LAUNCHES 1).openBuf k x.owner v.cmds (some (launchSlots v (bytesWords bs) k.cmd)) (some (g, v.key))

/-! ### SOF_PRELOAD (R270) -/

/-- Lines of physical pieces, as runs. -/
def lineRuns (ps : List (Nat × Nat)) : List (Nat × Nat) := ps.map (fun p => (p.1 / 128, p.2 / 128))

/-- SOF_PRELOAD (R26, R270, R271). -/
def execSofPreload (j : Nat) (s : State) : Host.Outcome State Fault Refusal :=
  onDevice s fun d =>
    match d.issued? j 0x2B with
    | none => d
    | some k =>
      let t := k.cmd.truss
      match d.trussEnding k.ctx t 0 k.index with
      | some e => d.endJob j e
      | none =>
        let lines := bits k.cmd.c2 16 0
        let ways := bits k.cmd.c2 47 32
        let va := k.cmd.c1.toNat / 128 * 128
        let c := d.sof t
        let named := ways &&& c.wayMask
        if decide (65536 < lines) || !c.enabled || c.disabling || c.preload.isSome || named == 0
            || (k.ctx != 0 && (named &&& d.fillWays t k.ctx) != named) then d.refuse k 0x10
        else if !vaOk va (128 * preloadLines lines) then d.endJob j (endC stViolation 0x44 0 0 va)
        else
          Device.andThen (d.translateAll k.ctx t 0 false (pieces (2 ^ 21) va (128 * preloadLines lines))) j 0 t fun d ps =>
            let p : SofPreload := ⟨lineRuns ps, BitVec.ofNat 16 named, some j, va, k.ctx⟩
            (d.setSof t { d.sof t with preload := some p, preloadDone := 0 }).mapJob j (fun k => { k with state := .waiting })

end Sys2Proof.Machine
end

