-- ==== Sys2Proof/Machine/Gutter.lean ====
section
/-! DEFINITION. The Gutter rings (09): a record that cannot be written, the consumer count, re-arming and
quotas; and the latch of a fence's value. -/
namespace Sys2Proof.Machine

open Sys2Proof

/-- The record that a failed RDMA WRITE carried, and every later one of the ring, go back to the head of
the held records (R290). -/
def Gutter.takeBack (g : Gutter) (n : Nat) : Gutter :=
  let back := (g.sent.filter (fun p => decide (n ≤ p.1))).map (fun p => { p.2 with again := true })
  { g with sent := g.sent.filter (fun p => decide (p.1 < n)), held := back ++ g.held, written := n, blocked := true }

/-- Ring `c` becomes BLOCKED: counted, logged, and told to context 0 (R290). -/
def Device.gutBlock (d : Device) (c : Nat) : Device :=
  let g := d.gutter c
  if g.blocked then d
  else
    let d := (d.setGutter c { g with blocked := true }).count Reg.GUT_BLOCKS 1
    let d := d.log 0x13 0 0 c 0 0 (BitVec.ofNat 64 c) (BitVec.ofNat 64 (d.fld (Reg.GUT_CFG c) Fld.GUT_CFG_QPN))
    if c = 0 then d else d.event stInternal (pack [(0, 8, 0x20), (8, 6, c)]) d.expect

/-- A record write of ring `c` fails (R290). -/
def Device.gutFail (d : Device) (c n : Nat) : Device :=
  let g := d.gutter c
  if !thas g.sent n then d else (d.setGutter c { g.takeBack n with blocked := g.blocked }).gutBlock c

/-- GUT_WRITE_FAIL (R290): the write of record `n` of a context's ring fails. -/
def execGutWriteFail (c : Ctx) (n : Nat) (s : State) : Host.Outcome State Fault Refusal :=
  onDevice s fun d => d.gutFail c n

/-- A write of GUT_CONS_c (R292): taken when it lies between the old count and the records written. -/
def Device.gutConsWrite (d : Device) (c : Nat) (v : Word) : Device :=
  let g := d.gutter c
  let cons := bits v 31 0
  let old := d.fld (Reg.GUT_CONS c) Fld.GUT_CONS_CONS
  if (g.written + 2 ^ 32 - old) % 2 ^ 32 < (cons + 2 ^ 32 - old) % 2 ^ 32 then d.count Reg.GUT_CONS_IGNORED 1
  else
    let left := (g.written + 2 ^ 32 - cons) % 2 ^ 32
    let d := d.setReg (Reg.GUT_CONS c) (BitVec.ofNat 64 cons)
    let d := d.setGutter c { g with sent := g.sent.filter (fun p => decide (g.written - left ≤ p.1)) }
    d.gutDrain (g.held.length + 1) c

/-- GUT_CONS_WRITE (R289, R292). -/
def execGutConsWrite (c : Ctx) (v : Word) (s : State) : Host.Outcome State Fault Refusal :=
  onRegister s (Reg.GUT_CONS c) fun d => d.gutConsWrite c v

/-- The sum of the quotas of all contexts but `c` (R289). -/
def Device.otherQuotas (d : Device) (c : Nat) : Nat :=
  (List.range 64).foldl (fun n k => if k = c then n else n + d.quota k) 0

/-- REARM (R291): leaves BLOCKED; records go on in the context's own ring, or under REDIRECT, held ones
first, in context 0's. -/
def Device.gutRearm (d : Device) (c : Nat) (redirect : Bool) : Device :=
  let g := d.gutter c
  if redirect && c != 0 then
    let d := d.setGutter c { g with blocked := false, redirected := true, held := [], issued := g.issued - g.held.length }
    g.held.foldl (fun d r => d.gutPut 0 r) d
  else
    let d := d.setGutter c { g with blocked := false, redirected := false }
    d.gutDrain (g.held.length + 1) c

/-- A write of GUT_CTL_c (R289, R291): a QUOTA outside 1 to 4,096, or one that takes the sum of quotas beyond
4,096, leaves QUOTA unchanged. -/
def Device.gutCtlWrite (d : Device) (c : Nat) (v : Word) : Device :=
  let q := bits v 28 16
  let keep := q == 0 || decide (4096 < q + d.otherQuotas c)
  let d := d.setReg (Reg.GUT_CTL c) (pack [(1, 1, bits v 1 1), (16, 13, if keep then d.quota c else q)])
  if bit v 0 then d.gutRearm c (bit v 1) else d

/-- GUT_REARM (R291). -/
def execGutRearm (c : Ctx) (v : Word) (s : State) : Host.Outcome State Fault Refusal :=
  onRegister s (Reg.GUT_CTL c) fun d => d.gutCtlWrite c v

/-- GUT_QUOTA_WRITE (R289). -/
def execGutQuotaWrite (c : Ctx) (v : Word) (s : State) : Host.Outcome State Fault Refusal :=
  onRegister s (Reg.GUT_CTL c) fun d => d.gutCtlWrite c v

/-- A write of RIDGE_FENCE_SEL latches the fence named (Table 09-22). -/
def Device.fenceSelWrite (d : Device) (v : Word) : Device :=
  let d := d.setReg Reg.RIDGE_FENCE_SEL (v &&& 0x3FFFF#64)
  d.setReg Reg.RIDGE_FENCE_VAL (d.fence (bits v 17 12) (bits v 11 0))

/-- RIDGE_FENCE_SEL_WRITE (Tables 09-22, 09-23). -/
def execRidgeFenceSelWrite (v : Word) (s : State) : Host.Outcome State Fault Refusal :=
  onRegister s Reg.RIDGE_FENCE_SEL fun d => d.fenceSelWrite v

end Sys2Proof.Machine
end

