-- ==== Sys2Proof/Machine/Contexts.lean ====
section
/-! DEFINITION. Contexts (10): CREATE, SET, GRANT and RELEASE. -/
namespace Sys2Proof.Machine

open Sys2Proof

def Device.setCtx (d : Device) (c : Nat) (x : Context) : Device := { d with ctxs := tset d.ctxs c x }

def Device.trussSt (d : Device) (t : Nat) : TrussSt := tget d.truss t default

def Device.setTruss (d : Device) (t : Nat) (x : TrussSt) : Device := { d with truss := tset d.truss t x }

/-- Operations of CTX_OP (Table 10-1). -/
inductive CtxOp where
  | create | destroy | set | grant | release
  deriving DecidableEq, Repr

def CtxOp.code : CtxOp → Nat
  | .create => 0 | .destroy => 1 | .set => 2 | .grant => 3 | .release => 4

/-- Bits of C1 and C2 that an operation names (Table 10-1). -/
def CtxOp.masks : CtxOp → Nat × Nat
  | .create => (span 2 0 + span 26 16 + span 47 32, all64)
  | .destroy => (span 0 0, 0)
  | .set => (span 2 0 + span 26 16, all64)
  | .grant => (span 3 0 + span 15 8, 0)
  | .release => (span 3 0 + span 8 8, 0)

/-- The command, if it is this operation and waits to be carried out. -/
def Device.ctxOp? (d : Device) (id : Nat) (op : CtxOp) : Option Job :=
  match d.issued? id 0x31 with
  | some j => if j.cmd.arg 22 19 = op.code then some j else none
  | none => none

def Job.target (j : Job) : Nat := j.cmd.arg 28 23

/-- A non-zero field that the operation does not name (R295). -/
def Job.ctxReserved (j : Job) (op : CtxOp) : Bool :=
  outside j.cmd.c1 op.masks.1 || outside j.cmd.c2 op.masks.2 || j.cmd.c3 != 0

/-- LEN_LIMIT of a command, none when out of range (R297, Table 10-2). -/
def Job.lenLimit (j : Job) : Option Nat :=
  let n := bits j.cmd.c1 26 16
  if n = 0 then some 1000 else if n < 64 || 1800 < n then none else some n

/-- A context comes to life (R266, R297, R316): fences zero, no translations, an empty Gutter ring, its
counters at zero. -/
def Device.createCtx (d : Device) (c : Nat) (x : Context) : Device :=
  let d := d.setCtx c x
  let d := { d with
    fences := d.fences.filter (fun p => p.1 / 4096 != c)
    xlt := d.xlt.removeCtx c
    gut := tdel d.gut c }
  let d := d.setReg (Reg.GUT_CONS c) 0
  [Reg.CTX_PREEMPT c, Reg.CTX_YIELD c, Reg.CTX_XLT_FAULTS c, Reg.CTX_XLT_WAIT_NS c].foldl (fun d r => d.setReg r 0) d

/-- CTX_CREATE (R296, R297). -/
def execCtxCreate (j : Nat) (s : State) : Host.Outcome State Fault Refusal :=
  onDevice s fun d =>
    match d.ctxOp? j .create with
    | none => d
    | some k =>
      let c := k.target
      if c = 0 || (d.ctx c).state != 0 || k.ctxReserved .create then d.refuse k 0x0A
      else
        match k.lenLimit with
        | none => d.refuse k 0x0F
        | some len =>
          (d.createCtx c
            { state := 1, prio := bits k.cmd.c1 2 0, lenLimit := len, tenant := bits k.cmd.c1 47 32
              fmask := k.cmd.c2, destroy := none, lastEntry := none }).endJob j endOk

/-- CTX_SET (R296, R299). -/
def execCtxSet (j : Nat) (s : State) : Host.Outcome State Fault Refusal :=
  onDevice s fun d =>
    match d.ctxOp? j .set with
    | none => d
    | some k =>
      let c := k.target
      if c = 0 || (d.ctx c).state != 1 || k.ctxReserved .set then d.refuse k 0x0A
      else
        match k.lenLimit with
        | none => d.refuse k 0x0F
        | some len =>
          (d.setCtx c { d.ctx c with prio := bits k.cmd.c1 2 0, lenLimit := len, fmask := k.cmd.c2 }).endJob j endOk

/-- The lowest-numbered free share slot of a truss (R19, R298). -/
def TrussSt.freeSlot (x : TrussSt) : Option Nat :=
  (List.range 4).find? (fun i => !(tget x.slots i default).valid)

/-- The lowest-numbered run of `n` free granules in the share region (R298). -/
def TrussSt.freeRun (x : TrussSt) (n : Nat) : Option Nat :=
  let lo := x.stageGr + x.soffitGr
  (List.range (x.shareGr + 1 - n)).map (· + lo) |>.find? (fun b =>
    x.slots.all (fun p => !p.2.valid || !overlap b n p.2.base p.2.size))

/-- A truss that a GRANT may name: available, with no quarantine pending (R392) and no test waiting (R395). -/
def Device.grantable (d : Device) (t : Nat) : Bool :=
  let u := tget d.suspects t default
  (d.trussSt t).state == 1 && !u.qpend && !u.testWait

/-- CTX_GRANT (R296, R298): the slot and the run are taken; the grant then waits for its zeroing. -/
def execCtxGrant (j : Nat) (s : State) : Host.Outcome State Fault Refusal :=
  onDevice s fun d =>
    match d.ctxOp? j .grant with
    | none => d
    | some k =>
      let c := k.target
      let t := bits k.cmd.c1 3 0
      let n := bits k.cmd.c1 15 8
      let x := d.trussSt t
      if (d.ctx c).state != 1 || k.ctxReserved .grant || n = 0 || 120 < n then d.refuse k 0x0A
      else if !d.grantable t || (d.slotOf? c t).isSome then d.refuse k 0x0D
      else
        match x.freeSlot, x.freeRun n with
        | some i, some b =>
          let x := { x with slots := tset x.slots i { valid := true, ctx := c, base := b, size := n, ready := false } }
          (d.setTruss t x).mapJob j (fun k => { k with state := .waiting })
        | _, _ => d.refuse k 0x0D

/-- What a grant clears of share slot `i` of truss `t`: Rafter stores (R107), Lath banks (R131), the
attention store (R221), and the way mask returns to 0xFFFF (R25). -/
def Device.clearSlot (d : Device) (t i : Nat) : Device :=
  let d := { d with
    raf := tupd d.raf (fun k a => if k / 4 = t then { a with bank := a.bank.filter (fun b => b.1 / 16 != i) } else a)
    lth := tupd d.lth (fun k e => if k / 2 = t then { e with bank := tdel e.bank i } else e)
    atn := tupd d.atn (fun k e => if k = t then { e with store := e.store.filter (fun p => p.1 % 4 != i) } else e) }
  d.setReg (Reg.SOF_WAYMASK t i) 0xFFFF

/-- GRANT_COMPLETE (R298). -/
def execGrantComplete (j : Nat) (s : State) : Host.Outcome State Fault Refusal :=
  onDevice s fun d =>
    match d.job? j with
    | none => d
    | some k =>
      if k.cmd.opc != 0x31 || k.cmd.arg 22 19 != 3 || k.state != .waiting then d
      else
        let t := bits k.cmd.c1 3 0
        match d.slotOf? k.target t with
        | none => d
        | some (i, x) =>
          if x.ready then d
          else
            let d := (d.loftZero t (x.base * granule) (x.size * granule)).clearSlot t i
            let u := d.trussSt t
            (d.setTruss t { u with slots := tset u.slots i { x with ready := true } }).endJob j endOk

/-- A task that has started on its engine and not ended. -/
def Job.startedTask (j : Job) : Bool := j.state != .done && j.engine.isSome && (j.state == .running || j.run != .none)

def Job.onTruss (j : Job) (t : Nat) : Bool := match j.engine with | some e => engTruss e == t | none => false

/-- Forces the tasks that `which` names to stop: a running one at its next pre-emption point (R302), another
started one at once (R298, R300). -/
def Device.forceTasks (d : Device) (which : Job → Bool) : Device :=
  (d.jobs.filter (fun j => j.startedTask && which j)).foldl (fun d j =>
    if j.state = .running then d.mapJob j.id (fun j => { j with forced := true })
    else d.endJob j.id (endC stInternal 0x09 (match j.engine with | some e => engUnit e | none => 0) 0 0)) d

/-- RELEASE of truss `t` by context `c` (R298). -/
def Device.startRelease (d : Device) (c t : Nat) (force : Bool) (job : Option Nat) : Device :=
  let x := d.trussSt t
  let d := d.setTruss t { x with releasing := x.releasing ++ [(c, force, job)] }
  if force then d.forceTasks (fun j => j.ctx == c && j.onTruss t) else d

/-- CTX_RELEASE (R296, R298). -/
def execCtxRelease (j : Nat) (s : State) : Host.Outcome State Fault Refusal :=
  onDevice s fun d =>
    match d.ctxOp? j .release with
    | none => d
    | some k =>
      let c := k.target
      let t := bits k.cmd.c1 3 0
      if (d.ctx c).state != 1 || k.ctxReserved .release then d.refuse k 0x0A
      else if (d.slotOf? c t).isNone then d.refuse k 0x0E
      else (d.startRelease c t (bit k.cmd.c1 8) (some j)).mapJob j (fun k => { k with state := .waiting })

/-- A finished-tile queue has fallen empty and may pass to another context: the Lath tasks that yielded for it become
ready (R137, R304). -/
def Device.wakeQueue (d : Device) (t e : Nat) : Device :=
  let waits (j : Job) : Bool :=
    j.state == .yielded && (match j.engine, j.run with | some (.lth t' e'), .lth _ _ _ _ (some _) => t'.val == t && e'.val == e | _, _ => false)
  (d.jobs.filter waits).foldl (fun d j => d.makeReady j.id) d

/-- Discards the entries that context `c` owns in the finished-tile queues of a truss (R139). -/
def Device.discardQueues (d : Device) (c t : Nat) : Device :=
  [0, 1].foldl (fun d e =>
    let q := tget d.lth (2 * t + e) default
    if q.qowner = some c then
      (({ d with lth := tset d.lth (2 * t + e) { q with queue := [], qowner := none } }).count
        (Reg.LTH_TQ_DISCARD t e) q.queue.length).wakeQueue t e
    else d) d

end Sys2Proof.Machine
end

