-- ==== Sys2Proof/Machine/Links.lean ====
section
/-! DEFINITION. Brutera links (12): routing, virtual channels, flits and retry, credits, link downs, held
notices, and the splice of rings. -/
namespace Sys2Proof.Machine

open Sys2Proof

/-! ### Place in the torus (R343 to R345) -/

/-- The device image that runs. -/
def Device.image (d : Device) : List Byte := if d.fls.bank = 0 then d.fls.bankA else d.fls.bankB

/-- Ring size of a dimension, 1 to 64 (R343). -/
def Device.ringSize (d : Device) (dim : Nat) : Nat := 1 + tget d.fls.torus dim 0 % 64

/-- Whether span `s` has the role RING; a dimension of size 1 has none (R343). -/
def Device.spanRing (d : Device) (s : Nat) : Bool :=
  decide (1 < d.ringSize (s / 2)) && tget d.fls.roles s 0 % 2 == 1

def Device.ringUsed (d : Device) (dim : Nat) : Bool := d.spanRing (2 * dim) && d.spanRing (2 * dim + 1)

/-- A device's position in a ring (R319, R344). -/
def coordOf (dev dim : Nat) : Nat := dev / 2 ^ (12 - 6 * dim) % 64

def Device.link (d : Device) (l : Nat) : Link := tget d.links l default
def Device.setLink (d : Device) (l : Nat) (x : Link) : Device := { d with links := tset d.links l x }
def Device.splice (d : Device) (dim : Nat) : Splice := tget d.splices dim default
def Device.setSplice (d : Device) (dim : Nat) (x : Splice) : Device := { d with splices := tset d.splices dim x }

/-- The span of a dimension and direction (Table 12-1). -/
def spanNo (dim : Nat) (plus : Bool) : Nat := 2 * dim + b2n (!plus)

def Link.isUp (x : Link) : Bool := x.state == 2 || x.state == 3

/-- Links of span `s` that are up, in order. -/
def Device.upLinks (d : Device) (s : Nat) : List Nat := ((List.range 8).map (8 * s + ·)).filter (fun l => (d.link l).isUp)

/-- Flits of a packet (R348). -/
def flitsOf (p : Packet) : Nat := 1 + ceilDiv (p.payload.length - 192) 256

/-- Whether this device holds, for a neighbour's splice, the path of a span (R366). -/
def Splice.holds (x : Splice) (plus : Bool) : Bool := if plus then x.holdPlus else x.holdMinus

/-- Where a packet goes next. -/
inductive Way where
  | span (s cls : Nat)
  | held (dim : Nat) (plus : Bool)
  /-- Vacant position, or no way round (cause 0x53) -/
  | unreachable
  deriving DecidableEq, Repr

/-- Whether the hop from this device in a direction crosses the dateline of the ring (R347), passing over
bypassed positions. -/
def Device.crosses (d : Device) (dim : Nat) (plus : Bool) : Bool :=
  let me := coordOf d.devnum dim
  let m := (d.splice dim).members.toNat
  if plus then !(List.range (d.ringSize dim)).any (fun p => decide (me < p) && m.testBit p)
  else !(List.range me).any (fun p => m.testBit p)

/-- Whether a direction has an up link or a held path. -/
def Device.open_ (d : Device) (dim : Nat) (plus : Bool) : Bool :=
  (d.splice dim).holds plus || !(d.upLinks (spanNo dim plus)).isEmpty

/-- The next hop (R345 to R347, R356, R362): the shorter way round, + when equal, onward in the direction of
travel inside a ring, and the other way when no link of the span is up. `from_` is the span on which the
packet came in. -/
def Device.way (d : Device) (p : Packet) (from_ : Option Nat) : Way :=
  match [0, 1, 2].find? (fun i => coordOf p.dst i != coordOf d.devnum i) with
  | none => .unreachable
  | some dim =>
    let size := d.ringSize dim
    let me := coordOf d.devnum dim
    let goal := coordOf p.dst dim
    let x := d.splice dim
    let inRing := match from_ with | some s => s / 2 == dim | none => false
    -- a leaving device sends nothing of its own and still passes others' packets on (R367)
    if size ≤ goal || !(x.state == 2 || (x.state == 3 && inRing)) then .unreachable
    else if !inRing && !x.members.toNat.testBit goal then .unreachable
    else
      let plus := match from_ with
        | some s => if inRing then s % 2 == 1 else decide (2 * ((goal + size - me) % size) ≤ size)
        | none => decide (2 * ((goal + size - me) % size) ≤ size)
      let dir := if d.open_ dim plus then some plus else if d.open_ dim (!plus) then some (!plus) else none
      match dir with
      | none => .unreachable
      | some plus =>
        if x.holds plus then .held dim plus
        else .span (spanNo dim plus) (if d.crosses dim plus || (inRing && p.cls == 1) then 1 else 0)

/-- Whether two packets are of one flow (R345). -/
def sameFlow (p q : Packet) : Bool := p.src == q.src && p.dst == q.dst && p.vc == q.vc && p.unit == q.unit

/-- The link of a span that a packet's flow takes, over the links that are up (R345); a flow stays on a link that
still has packets of it to send (R346). -/
def Device.flowLink (d : Device) (s : Nat) (p : Packet) : Nat :=
  let up := d.upLinks s
  match up.find? (fun l => (d.link l).txq.any (fun t => sameFlow p t.packet)) with
  | some l => l
  | none => up.getD (Config.flowHash p.src p.dst p.vc p.unit % max 1 up.length) (8 * s)

/-! ### Sending (R348, R350, R353) -/

/-- Flits that the retry buffer holds (R350, Table 12-5). -/
def Link.retryCap (x : Link) : Nat := if x.version = 1 then 64 else 128

def chanKey (p : Packet) : Nat := 2 * p.vc + p.cls

/-- Flits of a waiting packet that have not been sent. -/
def TxPkt.left (t : TxPkt) : Nat := flitsOf t.packet - t.sent

/-- Flits that a link may send now on a virtual channel and class: it has credits and room in its retry buffer (R350, R353). -/
def Link.room (x : Link) (k : Nat) : Nat :=
  if x.state == 2 then min (tget x.credit k 0) (x.retryCap - (x.txSeq - x.acked)) else 0

/-- A link after it sent `n` flits of a waiting packet. -/
def Link.sent (x : Link) (t : TxPkt) (n now : Nat) : Link :=
  { x with
    credit := tset x.credit (chanKey t.packet) (tget x.credit (chanKey t.packet) 0 - n)
    txSeq := x.txSeq + n
    retry := x.retry ++ [(x.txSeq, n, t.packet)]
    unacked := if t.left ≤ n then x.unacked ++ [(x.txSeq + n - 1, t.packet)] else x.unacked
    txq := if t.left ≤ n then x.txq.erase t
      else x.txq.replace t { t with sent := t.sent + n, inLink := t.inLink.map (fun q => (q.1, min q.2 (t.left - n))) }
    lastTx := now }

/-- The descriptor's CTX of the loaded table with a TGID. -/
def Device.tableCtx (d : Device) (tgid : Nat) : Option Nat :=
  (d.tables.find? (fun t => t.2.valid && bits (wordAt t.2.desc 0) 63 32 == tgid)).map (fun t => bits (wordAt t.2.desc 0) 27 22)

/-- Who pays for a packet (Table 14-2). -/
def Device.payer (d : Device) (p : Packet) (sending : Bool) : Nat :=
  if (if sending then p.src else p.dst) != d.devnum then deviceAccount
  else if sending && p.kind == 5 && !d.remotes.any (fun r => r.rtag == p.rtag) then deviceAccount
  else if (sending && p.kind == 2) || (!sending && (p.kind == 1 || p.kind == 7 || p.kind == 8)) then
    (d.tableCtx p.tgid).getD deviceAccount
  else p.ctx

/-- Whether a request's limit has passed (R361). -/
def Remote.late (r : Remote) (now : Nat) : Bool := match r.deadline with | some t => decide (t ≤ now) | none => false

/-- Kinds that are requests (Table 12-3). -/
def isRequest (p : Packet) : Bool := p.kind == 1 || p.kind == 3 || p.kind == 5 || p.kind == 7

/-- Whether a task's remote write has not left for want of link credit. -/
def Device.unsent (d : Device) (job : Nat) : Bool := d.remotes.any (fun r => r.job == job && r.kind == 2 && r.deadline.isNone)

/-- The limit of this device's own request starts when it leaves (R361); a Hod task that yielded for want of link credit
(`sub` 1) is ready again with its last write gone (R304). -/
def Device.startLimit (d : Device) (p : Packet) : Device :=
  if p.src = d.devnum && isRequest p then
    let d : Device := { d with remotes := d.remotes.map fun r =>
      if r.rtag = p.rtag && r.deadline.isNone then { r with deadline := some (d.now + r.limit) } else r }
    match d.remotes.find? (fun r => r.rtag == p.rtag && r.kind == 2 && r.sub == 1) with
    | some r =>
      match d.job? r.job with
      | some j => if j.state = .yielded && j.waitFrom.isNone && !d.unsent r.job then d.makeReady r.job else d
      | none => d
    | none => d
  else d

/-- Credits of `n` flits of a packet go back on the link whose receive buffer held them (R353). -/
def Device.giveBack (d : Device) (l vc cls n : Nat) : Device := { d with out := d.out ++ List.replicate n (.creditReturn l vc cls) }

/-- A waiting packet leaves the receive buffer that holds it, down to `h` flits. -/
def Device.leaveBuffer (d : Device) (t : TxPkt) (h : Nat) : Device :=
  match t.inLink with
  | some (l, m) => d.giveBack l t.packet.vc (match t.packet.via with | some v => v.2 | none => t.packet.cls) (m - h)
  | none => d

/-- Sends `n` flits of a waiting packet on link `l`. -/
def Device.sendFlits (d : Device) (l : Nat) (t : TxPkt) (n : Nat) : Device :=
  let seq := (d.link l).txSeq
  let d := d.setLink l ((d.link l).sent t n d.now)
  let d := (((d.count (Reg.LNK_FLITS_TX l) n).emit (.packet l seq n { t.packet with via := none })).leaveBuffer t (t.left - n))
  if t.left ≤ n then (d.startLimit t.packet).charge (d.payer t.packet true) .lnkTx t.packet.payload.length 16 else d

/-- Sends what a link's queue can send, each virtual channel and class in order; the flits of one packet follow one another
on its virtual channel (R348, R353). -/
def Device.drainTx (d : Device) (l : Nat) : List TxPkt → List Nat → Device
  | [], _ => d
  | t :: ts, blocked =>
    let k := chanKey t.packet
    let x := d.link l
    let begun := t.sent == 0 && x.txq.any (fun u => u.sent != 0 && u.packet.vc == t.packet.vc)
    let n := if blocked.contains k || begun then 0 else min t.left (x.room k)
    Device.drainTx (if n = 0 then d else d.sendFlits l t n) l ts (if n = t.left then blocked else k :: blocked)

/-- Queues a packet on a link and sends what can go. -/
def Device.enqueue (d : Device) (l : Nat) (t : TxPkt) : Device :=
  let x := d.link l
  let d := d.setLink l { x with txq := x.txq ++ [t] }
  d.drainTx l (x.txq ++ [t]) []

/-- Holds a packet at a splice (R366). -/
def Device.holdPacket (d : Device) (dim : Nat) (plus : Bool) (t : TxPkt) : Device :=
  let x := d.splice dim
  (d.setSplice dim { x with holding := x.holding ++ [⟨d.now, false, plus, t.packet⟩] }).leaveBuffer t 0

/-- Routes a packet, which may lie in a receive buffer, and sends or holds it; false when its destination is
unreachable. -/
def Device.route (d : Device) (p : Packet) (from_ : Option Nat) (inLink : Option (Nat × Nat)) : Device × Bool :=
  let q := { p with via := from_.map (fun s => (s, p.cls)) }
  match d.way p from_ with
  | .unreachable => (d, false)
  | .held dim plus => (d.holdPacket dim plus ⟨q, 0, inLink⟩, true)
  | .span s cls => (d.enqueue (d.flowLink s p) ⟨{ q with cls := cls }, 0, inLink⟩, true)

/-- A flow's key (R345). -/
def flowKey (p : Packet) : Nat := (p.dst * 4 + p.vc) * 4096 + p.unit

/-- Sends a packet of this device, the next of its flow; false when its destination is unreachable. -/
def Device.send (d : Device) (p : Packet) : Device × Bool :=
  let n := tget d.flows (flowKey p) 0
  let r := d.route { p with fseq := n % 2 ^ 32 } none none
  if r.2 then ({ r.1 with flows := tset r.1.flows (flowKey p) (n + 1) }, true) else (d, false)

/-- A short packet on virtual channel 1 to the device `dst`: notice, acknowledgement, unreachable or refusal. -/
def Device.note (d : Device) (kind dst ctx rtag : Nat) (payload : List Byte) : Packet :=
  { vc := 1, cls := 0, kind := kind, len := payload.length, src := d.devnum, dst := dst, addr := 0, ctx := ctx
    tenant := (d.ctx ctx).tenant, rtag := rtag, chk := 0, racc := 0, fseq := 0, tgid := 0, gen := 0, payload := payload }

/-- Answers a packet of another device that cannot go on as unreachable, also when a link went down under it (R362). -/
def Device.notReached (d : Device) (p : Packet) (lost : Bool) : Device :=
  if p.kind = 0x0C then d else (d.send (d.note 0x0C p.src p.ctx p.rtag (if lost then [0x52] else [0x53]))).1

/-- Routes a packet received on link `l` onward from its receive buffer (R353, R362). -/
def Device.passOn (d : Device) (l : Nat) (p : Packet) : Device :=
  let r := d.route p (some (l / 8)) (some (l, flitsOf p))
  if r.2 then r.1 else (r.1.giveBack l p.vc p.cls (flitsOf p)).notReached p false

/-- Sends an answer, which no one waits for where it cannot go. -/
def Device.sendAnswer (d : Device) (p : Packet) : Device := (d.send p).1

/-! ### Failing an issuer (R362) -/

/-- The open reservation of a tag (R360): its command is still in hand. -/
def Device.remote? (d : Device) (rtag : Nat) : Option Remote :=
  d.remotes.find? (fun r => r.rtag == rtag && (match d.job? r.job with | some j => j.state != .done | none => false))

def Device.dropRemotes (d : Device) (job : Nat) : Device := { d with remotes := d.remotes.filter (fun r => r.job != job) }

/-- The issuing task ends with a status and cause; INDEX is the device (Table 12-7). -/
def Device.failRemote (d : Device) (rtag status cause : Nat) : Device :=
  match d.remote? rtag with
  | none => { d with remotes := d.remotes.filter (fun r => r.rtag != rtag) }
  | some r =>
    let unit := match d.job? r.job with | some j => (match j.engine with | some e => engUnit e | none => 0) | none => 0
    let gen := match d.job? r.job with
      | some j => (match j.run with | .tht _ _ _ g _ _ => g | .delta w => bits (wordAt w 0) 63 32 | _ => 0)
      | none => 0
    let index := if status = stRetired then gen
      else if status = stRemoteLost || (status = stViolation && cause = 0x50) then r.device
      else if r.kind = 0 || r.kind = 3 then r.bag else 0
    let d := d.endJob r.job (endC status cause unit index 0)
    let d := if (r.kind = 0 || r.kind = 3) && status = stRemoteLost then d.count (Reg.THT_REMOTE_LOST r.truss) 1 else d
    d.dropRemotes r.job

/-- A new tag for a request that leaves the device (R360); packets that are no request carry tag 0. -/
def Device.newTag (d : Device) : Nat × Device :=
  let n := d.nextTag % (2 ^ 32 - 1) + 1
  (n, { d with nextTag := n })

/-! ### Failing a collective (R378) -/

def Device.colEng (d : Device) (e : Nat) : ColEngine := tget d.cols e default
def Device.setColEng (d : Device) (e : Nat) (x : ColEngine) : Device := { d with cols := tset d.cols e x }

/-- The engine that runs a context's collective, and the collective. -/
def Device.colOf? (d : Device) (p : Collective → Bool) : Option (Nat × Collective) :=
  [0, 1].findSome? (fun e => ((d.colEng e).running.find? p).map (fun c => (e, c)))

/-- A collective leaves its engine, and its armed slot is free. -/
def Device.dropCol (d : Device) (job : Nat) : Device :=
  { d with cols := tupd d.cols (fun _ x =>
      { x with running := x.running.filter (fun c => c.job != job), armed := x.armed.filter (fun a => a.col.job != job) }) }

/-- Holds an event in COL_ERR_INFO_e unless one is held (R383). -/
def Device.colErrInfo (d : Device) (e colid dev kind : Nat) (retried : Bool) : Device :=
  if d.fld (Reg.COL_ERR_INFO e) Fld.COL_ERR_INFO_VALID = 1 then d
  else d.setReg (Reg.COL_ERR_INFO e) (pack [(0, 32, colid), (32, 18, dev), (50, 4, kind), (54, 1, b2n retried), (63, 1, 1)])

/-- A packet of a collective on engine `e` to member device `dst`; its tag is that of the member (R360). -/
def Device.colPacket (d : Device) (e : Nat) (c : Collective) (kind vc dst off chk : Nat) (payload : List Byte) : Packet :=
  { vc := vc, cls := 0, kind := kind, len := payload.length, src := d.devnum, dst := dst
    addr := BitVec.ofNat 64 (c.colid * 2 ^ 32 + off), ctx := c.ctx, tenant := (d.ctx c.ctx).tenant
    rtag := match c.tags.find? (fun t => t.2 == dst) with | some t => t.1 | none => 0
    chk := BitVec.ofNat 64 chk, racc := 0, fseq := 0, tgid := 0, gen := c.shape, payload := payload, unit := unitCode e 10 }

/-- Sends an abort to every other member (R378); its payload names the cause. -/
def Device.sendAborts (d : Device) (e : Nat) (c : Collective) (cause : Nat) : Device :=
  (c.group.filter (· != d.devnum)).foldl (fun d m => (d.send (d.colPacket e c 0x0D 1 m 0 0 [BitVec.ofNat 8 cause])).1) d

/-- A collective ends in failure on engine `e` (R378): event kind, member concerned, and the task's ending. -/
def Device.colFail (d : Device) (e : Nat) (c : Collective) (kind dev : Nat) (end_ : Ending) : Device :=
  let d := (d.colErrInfo e c.colid dev kind false).count (Reg.COL_ABORTED e) 1
  let d := (d.endJob c.job end_).dropCol c.job
  (d.log 0x0A 0 (unitCode e 10) c.ctx 2 0 (d.reg (Reg.COL_ERR_INFO e)) 0).suspectCol e

/-- The detecting member aborts (R378). -/
def Device.colAbort (d : Device) (e : Nat) (c : Collective) (kind dev status cause index : Nat) : Device :=
  (d.sendAborts e c cause).colFail e c kind dev (endC status cause (unitCode e 10) index 0)

/-! ### Link state -/

/-- LNK_STAT_l (Table 12-18). -/
def Link.word (x : Link) : Word :=
  pack [(0, 3, x.state), (3, 1, b2n x.half), (4, 2, x.version), (6, 1, b2n x.fec), (7, 4, x.cause)]

/-- Whether the links run: Batten has begun and LINK_REFCLK is good (R439, R448). -/
def Device.linksOn (d : Device) : Bool :=
  (d.clk.starting || d.clk.stage == .batten || d.clk.stage == .thatched) && d.clk.linkOk

/-- The running collective that a packet belongs to. -/
def Device.colFor (d : Device) (p : Packet) : Option (Nat × Collective) :=
  d.colOf? (fun c => c.colid == bits p.addr 63 32 && c.ctx == p.ctx)

/-- A collective whose data or abort cannot reach a member ends (R362, R378). -/
def Device.colLost (d : Device) (e : Nat) (c : Collective) (dev cause : Nat) : Device :=
  d.colAbort e c 6 dev stRemoteLost cause dev

/-- The issuer of a packet that cannot be delivered fails (R356, R362): a request's task, a collective whose data it
is; a reply or notice has none. -/
def Device.failIssuer (d : Device) (p : Packet) (cause : Nat) : Device :=
  if isRequest p || p.kind == 8 then d.failRemote p.rtag stRemoteLost cause
  else if p.kind = 0x09 then
    match d.colFor p with
    | some (e, c) => d.colLost e c p.dst cause
    | none => d
  else d

/-- Sends again a packet that was not delivered (R356), or that a splice held (R366): `lost` when a link went down under it. A
packet of another device goes on in its ring and class (R347). -/
def Device.resend (d : Device) (t : TxPkt) (lost : Bool) : Device :=
  let p := t.packet
  let r := match p.via with
    | some v => d.route { p with cls := v.2 } (some v.1) t.inLink
    | none => d.route { p with cls := 0 } none none
  if r.2 then r.1
  else if p.src = d.devnum then r.1.failIssuer p (if lost then 0x52 else 0x53)
  else (r.1.leaveBuffer t 0).notReached p lost

/-- Drops what one link's receive buffer holds and has not begun to forward; what has begun goes on (R355). -/
def Device.dropHeld (d : Device) (l : Nat) : Device × Nat :=
  let from_ (t : TxPkt) : Bool := match t.inLink with | some q => q.1 == l | none => false
  let n := d.links.foldl (fun n (e : Nat × Link) => e.2.txq.foldl (fun n t =>
    if from_ t && t.sent == 0 then n + (match t.inLink with | some q => q.2 | none => 0) else n) n) 0
  let keep (q : List TxPkt) : List TxPkt :=
    (q.filter (fun t => !(from_ t && t.sent == 0))).map (fun t => if from_ t then { t with inLink := none } else t)
  ({ d with links := tupd d.links (fun _ x => { x with txq := keep x.txq }) }, n)

/-- A link goes down (R355, R356). -/
def Device.goDown (d : Device) (l cause : Nat) : Device :=
  let x := d.link l
  if !x.isUp then d
  else
    let lost := x.depth.foldl (fun n (p : Nat × Nat) => n + (p.2 - tget x.credit p.1 0)) 0
    let (d, dropped) := d.dropHeld l
    let again := x.unacked.map (fun u => (⟨u.2, 0, none⟩ : TxPkt)) ++ (d.link l).txq.map (fun t => { t with sent := 0 })
    let d := d.setLink l { (default : Link) with cause := cause, peer := x.peer, version := x.version }
    let d := ((d.count (Reg.LNK_DOWNS l) 1).count (Reg.LNK_CREDIT_LOST l) lost).count (Reg.LNK_FLITS_DROP l) (dropped + x.rxPart)
    let d := d.log 0x09 0 (unitCode (l / 8 % 2) 11) noCtx 0 0 (d.link l).word (BitVec.ofNat 64 l)
    again.foldl (fun d t => d.resend t true) d

/-- Takes every link of a ring down. -/
def Device.ringDown (d : Device) (dim cause : Nat) : Device :=
  (List.range 16).foldl (fun d k => d.goDown (16 * dim + k) cause) d

/-- Whether a span has nothing in flight: all acknowledged, all credits back (R366, step 3). -/
def Device.drained (d : Device) (s : Nat) : Bool :=
  (d.upLinks s).all (fun l => (d.link l).unacked.isEmpty && (d.link l).txq.isEmpty && (d.link l).depth == (d.link l).credit)

/-- Splice messages, to the neighbour's management address (R366): 1 JOIN, 2 leave, 3 HELD, 4 BUSY, 5 membership update. -/
def Device.spliceMsg (d : Device) (dim : Nat) (plus : Bool) (m : Nat) : Device :=
  d.emit (.splice dim plus (tget d.fls.neighbours (spanNo dim plus) 0) m)

/-- Reports HELD for a path that a neighbour asked for, once it has drained (R366). -/
def Device.checkHeld (d : Device) (dim : Nat) (plus : Bool) : Device :=
  let x := d.splice dim
  let owes := if plus then x.owesPlus else x.owesMinus
  if owes && d.drained (spanNo dim plus) then
    let d := d.setSplice dim (if plus then { x with owesPlus := false } else { x with owesMinus := false })
    let d := (d.upLinks (spanNo dim plus)).foldl (fun d l => d.setLink l { d.link l with state := 3 }) d
    d.spliceMsg dim plus 3
  else d

/-- Sends JOIN, or the leave, to both neighbours. -/
def Device.askBoth (d : Device) (dim m : Nat) : Device := (d.spliceMsg dim true m).spliceMsg dim false m

/-- The leave asks its neighbours once its own sends have drained (R367). -/
def Device.checkLeave (d : Device) (dim : Nat) : Device :=
  let x := d.splice dim
  if x.state = 3 && x.step = 0 && d.drained (spanNo dim true) && d.drained (spanNo dim false) then
    (d.setSplice dim { x with step := 1 }).askBoth dim 2
  else d

/-- A credit return that would exceed the advertised depth (R354). -/
def Link.overflows (x : Link) (c : Nat × Nat) : Bool := decide (tget x.depth c.1 0 < tget x.credit c.1 0 + c.2)

def Link.addCredits (x : Link) (cs : List (Nat × Nat)) : Link :=
  cs.foldl (fun x c => { x with credit := tset x.credit c.1 (tget x.credit c.1 0 + c.2) }) x

/-- A link after an acknowledgement: `n` is the next flit that its receiver expects (R350). -/
def Link.acknowledged (x : Link) (n : Nat) : Link :=
  { x with acked := max x.acked (min n x.txSeq), unacked := x.unacked.filter (fun u => decide (n ≤ u.1))
           retry := x.retry.filter (fun u => decide (n < u.1 + u.2.1)) }

/-- Sends the retry buffer again from its oldest flit (R350). -/
def Device.replayFlits (d : Device) (l : Nat) : Device :=
  let x := d.link l
  x.retry.foldl (fun d u =>
    let a := max u.1 x.acked
    d.emit (.packet l a (u.1 + u.2.1 - a) { u.2.2 with via := none })) (d.count (Reg.LNK_REPLAYS l) (x.txSeq - x.acked))

/-- What a flit's trailer brings: acknowledgement, replay, credits (R350, R353, R354). -/
def Device.trailer (d : Device) (l : Nat) (f : Flit) : Device :=
  let d := d.setLink l ((d.link l).acknowledged f.ack)
  let d := if f.replay then d.replayFlits l else d
  let x := d.link l
  if f.credits.any (fun c => (x.addCredits (f.credits.filter (fun e => e.1 == c.1))).overflows (c.1, 0)) then d.goDown l 3
  else
    let x := x.addCredits f.credits
    let d := (d.setLink l x).drainTx l x.txq []
    (d.checkHeld (l / 16) (l / 8 % 2 == 0)).checkLeave (l / 16)

/-- A packet whose last flit has come: passed on, or here; the buffer of collective data empties when an engine takes it
(R353, R374). -/
def Device.packetIn (d : Device) (l : Nat) (p : Packet) : Device :=
  let x := d.link l
  let x := { x with rxPart := x.rxPart - flitsOf p }
  let d := (d.setLink l x).charge (d.payer p false) .lnkRx p.payload.length 16
  if p.dst ≠ d.devnum then d.passOn l p
  else if p.kind = 0x09 then d.setLink l { x with rxHeld := x.rxHeld ++ [p] }
  else d.giveBack l p.vc p.cls (flitsOf p)

/-- LINK_FLIT_RX (R348 to R356). -/
def execLinkFlitRx (l : LinkNo) (flit : Flit) (s : State) : Host.Outcome State Fault Refusal :=
  onDevice s fun d =>
    let x := d.link l
    if !x.isUp then d
    else
      let d := d.setLink l { x with lastRx := d.now }
      let d := if flit.corrected then d.count (Reg.LNK_FEC_CORR l) 1 else d
      if !flit.crcOk then
        let x := d.link l
        let d := (d.setLink l { x with replays := x.replays + 1 }).emit (.replayRequest l x.rxSeq)
        if max 1 (d.fld Reg.LNK_CTRL Fld.LNK_CTRL_RETRY_MAX) ≤ x.replays + 1 then d.goDown l 2 else d
      else if flit.seq ≠ x.rxSeq then d
      else
        let x := d.link l
        let d := d.setLink l { x with rxSeq := x.rxSeq + 1, replays := 0, rxPart := x.rxPart + 1 }
        let d := ((d.count (Reg.LNK_FLITS_RX l) 1).emit (.ack l (x.rxSeq + 1))).trailer l flit
        if !(d.link l).isUp then d
        else
          match flit.packet with
          | none => d
          | some p => d.packetIn l p

/-- LINK_HEARTBEAT (R351). -/
def execLinkHeartbeat (l : LinkNo) (s : State) : Host.Outcome State Fault Refusal :=
  onDevice s fun d =>
    if (d.link l).isUp then (d.setLink l { d.link l with lastTx := d.now }).emit (.heartbeat l) else d

/-- LINK_HB_TIMEOUT (R351). -/
def execLinkHbTimeout (l : LinkNo) (s : State) : Host.Outcome State Fault Refusal :=
  onDevice s fun d =>
    let x := d.link l
    if decide (x.lastRx + max 1 (d.fld Reg.LNK_CTRL Fld.LNK_CTRL_HB_TIMEOUT) * 1000 ≤ d.now) then d.goDown l 1 else d

/-- LINK_DOWN (R350, R352, R354 to R356). -/
def execLinkDown (l : LinkNo) (cause : Nat) (s : State) : Host.Outcome State Fault Refusal :=
  onDevice s fun d => d.goDown l (cause % 16)

/-- Lets what a splice held on one path go on (R366). -/
def Device.releaseHeld (d : Device) (dim : Nat) (plus : Bool) : Device :=
  let x := d.splice dim
  let d := d.setSplice dim (if plus then { x with holdPlus := false, owesPlus := false, holding := x.holding.filter (fun h => !h.plus) }
    else { x with holdMinus := false, owesMinus := false, holding := x.holding.filter HeldPkt.plus })
  let d := (d.upLinks (spanNo dim plus)).foldl (fun d l => d.setLink l { d.link l with state := 2 }) d
  (x.holding.filter (fun h => h.plus == plus)).foldl (fun d h => d.resend ⟨h.packet, 0, none⟩ false) d

/-- A training that left the link down. -/
def Device.trainFailed (d : Device) (l state cause : Nat) : Device :=
  let d := d.setLink l { (default : Link) with state := state, cause := cause, peer := (d.link l).peer }
  d.log 0x09 0 (unitCode (l / 8 % 2) 11) noCtx 0 0 (d.link l).word (BitVec.ofNat 64 l)

/-- LINK_TRAINED (R352, R353, R355, R357, R364): credits start from the advertised depths. -/
def execLinkTrained (l : LinkNo) (res : TrainResult) (s : State) : Host.Outcome State Fault Refusal :=
  onDevice s fun d =>
    let x := d.link l
    if x.isUp || !d.linksOn || !d.spanRing (l / 8) || !(d.splice (l / 16)).bypassOpen then d
    else
      match res with
      | .up half version depths peer =>
        if half && version = 1 then d.trainFailed l 4 4
        else
          let t : Tbl Nat := (List.range 8).map (fun k => (k, depths.getD k 0))
          let y : Link := { (default : Link) with
            state := 2, half := half, version := if version = 1 then 1 else 2
            fec := version != 1 && d.fld (Reg.SPN_CFG (l / 8)) Fld.SPN_CFG_FEC == 1
            cause := x.cause, peer := peer % 2 ^ 18, depth := t, credit := t, lastRx := d.now, lastTx := d.now }
          let same := y.peer == x.peer
          let d := d.setLink l y
          let plus := l.val / 8 % 2 == 0
          -- a neighbour that held this path for a join that failed trains across the bypass again, and goes on (R366)
          if same && (d.splice (l / 16)).holds plus && (d.upLinks (l / 8)).all (fun k => (d.link k).state == 2) then
            d.releaseHeld (l / 16) plus
          else d
      | .noLanes => d.trainFailed l 4 4
      | .noCommonVersion => d.trainFailed l 0 5
      | .gap => d.trainFailed l 4 4

/-! ### Notices (R361, R362) -/

/-- Restarts a request's limit, once (R361). -/
def Device.grace (d : Device) (rtag : Nat) : Device :=
  { d with remotes := d.remotes.map fun r =>
      if r.rtag = rtag && !r.graced then
        { r with graced := true, deadline := some (d.now + d.fld Reg.LNK_CTRL Fld.LNK_CTRL_HOLD_GRACE * 1000) }
      else r }

/-- HELD_NOTICE (R361): one that came in on a link under version 1.1 is not acted on (Table 12-5). -/
def execHeldNotice (x : LinkTag) (s : State) : Host.Outcome State Fault Refusal :=
  onDevice s fun d => if (d.link x.link).version = 1 then d else d.grace x.rtag

/-- The link that a notice leaves on. -/
def Device.firstLink (d : Device) (p : Packet) : Option Nat :=
  match d.way p none with
  | .span s _ => some (d.flowLink s p)
  | _ => none

/-- HELD_NOTICE_SENT (R361): a request held for more than 10 µs; a link under version 1.1 carries no notice (Table 12-5). -/
def execHeldNoticeSent (source rtag : Nat) (s : State) : Host.Outcome State Fault Refusal :=
  onDevice s fun d =>
    let due (h : HeldPkt) : Bool :=
      h.packet.src == source && h.packet.rtag == rtag && isRequest h.packet && !h.noticed && decide (h.since + 10000 < d.now)
    match [0, 1, 2].findSome? (fun i => ((d.splice i).holding.find? due).map (fun h => (i, h))) with
    | none => d
    | some (dim, h) =>
      let x := d.splice dim
      let told := d.setSplice dim { x with holding := x.holding.map (fun k => if due k then { k with noticed := true } else k) }
      if source = d.devnum then told.grace rtag
      else
        let p := d.note 0x0B source h.packet.ctx rtag []
        match d.firstLink p with
        | some l => if (d.link l).version = 1 then d else ((told.count (Reg.LNK_HELD_NOTICES l) 1).send p).1
        | none => (told.send p).1

/-- Whether a tag is that of a collective's packets to a member. -/
def Device.colTag (d : Device) (rtag : Nat) : Option (Nat × Collective × Nat) :=
  match d.colOf? (fun c => c.tags.any (fun t => t.1 == rtag)) with
  | some (e, c) => (c.tags.find? (fun t => t.1 == rtag)).map (fun t => (e, c, t.2))
  | none => none

/-- UNREACHABLE (R362): cause 0x52 where a link went down under the packet, else 0x53. -/
def execUnreachable (x : LostTag) (s : State) : Host.Outcome State Fault Refusal :=
  onDevice s fun d =>
    let cause := if x.lost then 0x52 else 0x53
    match d.colTag x.rtag with
    | some (e, c, dev) => d.colLost e c dev cause
    | none => d.failRemote x.rtag stRemoteLost cause

/-- REMOTE_REFUSAL (R173, R359). -/
def execRemoteRefusal (rtag status cause : Nat) (s : State) : Host.Outcome State Fault Refusal :=
  onDevice s fun d => d.failRemote rtag (status % 256) (cause % 256)

/-! ### Splice (R363 to R368) -/

/-- Whether a join or leave of this device runs (SPN_SPLICE.BUSY). -/
def Device.splicing (d : Device) : Bool := d.splices.any (fun p => p.2.state == 1 || p.2.state == 3)

/-- Ends a splice with SPN_SPLICE.LAST. -/
def Device.endSplice (d : Device) (dim state last : Nat) : Device :=
  let x := d.splice dim
  (d.setSplice dim { x with state := state, step := 0, heldPlus := false, heldMinus := false, silences := 0 }).setFld
    Reg.SPN_SPLICE Fld.SPN_SPLICE_LAST last

/-- A join begins (R366, steps 1 and 2): the bypass is closed, and the device knows its number (R344). -/
def Device.startJoin (d : Device) (dim : Nat) : Device :=
  let x := d.splice dim
  if d.splicing || x.state != 0 || !d.ringUsed dim || !d.devnumValid || !d.linksOn then d
  else
    let d := { d with clk := { d.clk with joinBegun := true } }
    (d.setSplice dim { x with state := 1, step := 1, heldPlus := false, heldMinus := false
                              since := d.now, silences := 0, coeffs := true }).askBoth dim 1

/-- SPLICE_JOIN (R366). -/
def execSpliceJoin (dim : Dim) (s : State) : Host.Outcome State Fault Refusal :=
  onRegister s Reg.SPN_SPLICE fun d => d.startJoin dim

def Device.startLeave (d : Device) (dim : Nat) : Device :=
  let x := d.splice dim
  if d.splicing || x.state != 2 then d
  else (d.setSplice dim { x with state := 3, step := 0, heldPlus := false, heldMinus := false, since := d.now }).checkLeave dim

/-- SPLICE_LEAVE (R367). -/
def execSpliceLeave (dim : Dim) (s : State) : Host.Outcome State Fault Refusal :=
  onRegister s Reg.SPN_SPLICE fun d => d.startLeave dim

/-- A write of SPN_SPLICE (Table 12-16). -/
def Device.writeSplice (d : Device) (v : Word) : Device :=
  let dim := bits v 3 2
  if dim = 3 then d else if bits v 1 0 = 1 then d.startJoin dim else if bits v 1 0 = 2 then d.startLeave dim else d

/-- JOIN_REQUEST (R366, step 3): the neighbour on the + or − side asks this device to hold the path. During
a Flashing restart splices are refused (R410). -/
def execJoinRequest (dim : Dim) (plus : Bool) (s : State) : Host.Outcome State Fault Refusal :=
  onDevice s fun d =>
    let x := d.splice dim
    if !d.linksOn then d
    else if x.state != 2 || x.holds plus || d.fls.restarting then d.spliceMsg dim plus 4
    else
      let d := d.setSplice dim (if plus then { x with holdPlus := true, owesPlus := true } else { x with holdMinus := true, owesMinus := true })
      -- what the path's links have queued and not sent is held
      let d := (d.upLinks (spanNo dim plus)).foldl (fun d l =>
        let y := d.link l
        -- a packet that has begun is sent whole first
        (y.txq.filter (fun t => t.sent == 0)).foldl (fun d t => d.holdPacket dim plus t)
          (d.setLink l { y with txq := y.txq.filter (fun t => t.sent != 0) })) d
      d.checkHeld dim plus

/-- JOIN_HELD (R366, step 4; R367). -/
def execJoinHeld (dim : Dim) (plus : Bool) (s : State) : Host.Outcome State Fault Refusal :=
  onDevice s fun d =>
    let d := d.checkLeave dim
    let x := d.splice dim
    if (x.state != 1 && x.state != 3) || x.step != 1 then d
    else
      let x := if plus then { x with heldPlus := true } else { x with heldMinus := true }
      if !(x.heldPlus && x.heldMinus) then d.setSplice dim x
      else if x.state = 1 then d.setSplice dim { x with step := 3 }
      else (d.setSplice dim { x with step := 3, bypassOpen := false }).ringDown dim 6

/-- BYPASS_OPEN_DONE (R366, step 5). -/
def execBypassOpenDone (dim : Dim) (s : State) : Host.Outcome State Fault Refusal :=
  onDevice s fun d =>
    let x := d.splice dim
    if x.state != 1 || x.step != 3 then d
    else
      (List.range 16).foldl (fun d k => d.setLink (16 * dim + k) { d.link (16 * dim + k) with state := 1 })
        (d.setSplice dim { x with step := 4, bypassOpen := true, since := d.now })

/-- A step of the start that could not join a ring (Table 15-7). -/
def Device.joinFailed (d : Device) (dim last : Nat) : Device :=
  let d := d.endSplice dim 0 last
  if d.clk.starting then { d with fls := { d.fls with startErr := 0x21 } } else d

/-- Whether every link of a ring's two spans is up. -/
def Device.ringUp (d : Device) (dim : Nat) : Bool := (List.range 16).all (fun k => (d.link (16 * dim + k)).isUp)

/-- Limit of the new links' training in ns (R366): longer when a neighbour runs version 1.1. -/
def Device.trainLimit (d : Device) (dim : Nat) (old : Bool) : Nat :=
  if old || (List.range 16).any (fun k => (d.link (16 * dim + k)).version == 1) then 6400000 else 1600000

/-- JOIN_TRAIN_TIMEOUT (R366). -/
def execJoinTrainTimeout (w : TrainWait) (s : State) : Host.Outcome State Fault Refusal :=
  onDevice s fun d =>
    let dim := w.dim
    let x := d.splice dim
    if x.state != 1 || x.step != 4 || d.ringUp dim || decide (d.now < x.since + d.trainLimit dim w.old) then d
    else
      let d := (d.setSplice dim { x with bypassOpen := false }).ringDown dim 6
      let d := (List.range 16).foldl (fun d k => d.setLink (16 * dim + k) { d.link (16 * dim + k) with state := 0 }) d
      d.joinFailed dim 3

/-- JOIN_RETRY (R366): 10 ms after a neighbour answered BUSY. -/
def execJoinRetry (b : BusyAnswer) (s : State) : Host.Outcome State Fault Refusal :=
  onDevice s fun d =>
    let dim := b.dim
    let x := d.splice dim
    if x.state != 1 || x.step != 1 || decide (b.busyAt < x.since) || decide (d.now < b.busyAt + 10000000) then d
    else
      ((d.setSplice dim { x with since := d.now, heldPlus := false, heldMinus := false }).setFld
        Reg.SPN_SPLICE Fld.SPN_SPLICE_LAST 2).askBoth dim 1

/-- JOIN_NO_ANSWER (Table 15-7, 0x21): tried again 1 s later, and after a second silence given up. -/
def execJoinNoAnswer (dim : Dim) (s : State) : Host.Outcome State Fault Refusal :=
  onDevice s fun d =>
    let x := d.splice dim
    if x.state != 1 || x.step != 1 || decide (d.now < x.since + 1000000000) then d
    else if x.silences = 0 then (d.setSplice dim { x with since := d.now, silences := 1 }).askBoth dim 1
    else d.joinFailed dim 4

/-- MEMBERSHIP_UPDATE (R365; R366, step 6; R367). -/
def execMembershipUpdate (dim : Dim) (members : Word) (s : State) : Host.Outcome State Fault Refusal :=
  onDevice s fun d =>
    let x := d.splice dim
    let map := BitVec.ofNat 64 (members.toNat % 2 ^ d.ringSize dim)
    if x.state = 0 || !d.ringUsed dim then d
    else if x.state = 1 && !(x.step = 4 && d.ringUp dim && members.toNat.testBit (coordOf d.devnum dim)) then d
    else
      let held := x.holding
      let d := d.setSplice dim { x with members := map, holdPlus := false, holdMinus := false, owesPlus := false, owesMinus := false, holding := [] }
      let d := d.upLinks (spanNo dim true) ++ d.upLinks (spanNo dim false) |>.foldl
        (fun d l => d.setLink l { d.link l with state := 2 }) d
      let d := if x.state = 1 then d.endSplice dim 2 1 else if x.state = 3 && x.step = 3 then d.endSplice dim 0 1 else d
      held.foldl (fun d h => d.resend ⟨h.packet, 0, none⟩ false) (d.spliceMsg dim true 5)

end Sys2Proof.Machine
end

