-- ==== Sys2Proof/Machine/Flags.lean ====
section
/-! DEFINITION. The IEEE 754-2019 exception flags, as a set of five bits. -/
namespace Sys2Proof.Machine

open Sys2Proof

/-- Invalid, division by zero, overflow, underflow, inexact, from bit 0 (the order of the notes INVALID to
INEXACT, Table 09-11). -/
abbrev Flags := BitVec 5

def flNone : Flags := 0
def flInvalid : Flags := 1
def flDivZero : Flags := 2
def flOverflow : Flags := 4
def flUnderflow : Flags := 8
def flInexact : Flags := 16

def flIf (c : Bool) (f : Flags) : Flags := if c then f else 0

/-- The notes of a set of flags (Table 09-11). -/
def flagNotes (f : Flags) : BitVec 32 := BitVec.ofNat 32 (f.toNat <<< 5)

/-- HOD_FP_FLAGS of a set of flags (Table 02-10): invalid, overflow, underflow, inexact. -/
def hodFlagBits (f : Flags) : Nat :=
  b2n (f.toNat.testBit 0) + 2 * b2n (f.toNat.testBit 2) + 4 * b2n (f.toNat.testBit 3) + 8 * b2n (f.toNat.testBit 4)

end Sys2Proof.Machine
end

