-- ==== Sys2Proof/Machine/Float.lean ====
section
/-! DEFINITION. Rounding to nearest, ties to even (R39), exact dyadic values, and the binary32 and binary64
operations of R56 and R57. -/
namespace Sys2Proof.Machine

open Sys2Proof

/-! ### Exact values and rounding -/

/-- The exact value n × 2^e. -/
structure Dyad where
  n : Int
  e : Int
  deriving DecidableEq, Repr

/-- n ÷ 2^k rounded to nearest, ties to even (R39). -/
def rneShift (n : Int) (k : Nat) : Int :=
  if k = 0 then n
  else
    let q := n / (2 ^ k : Int)
    let r := n - q * 2 ^ k
    if 2 * r < 2 ^ k then q else if 2 * r = 2 ^ k ∧ q % 2 = 0 then q else q + 1

/-- round_rne(n × 2^e). -/
def rneScale (n e : Int) : Int := if 0 ≤ e then n * 2 ^ e.toNat else rneShift n (-e).toNat

/-- Whether n × 2^e is exactly the integer `q`. -/
def isExactly (n e q : Int) : Bool := if 0 ≤ e then n * 2 ^ e.toNat == q else n == q * 2 ^ (-e).toNat

/-- floor(log2 |n × 2^e|) for n ≠ 0. -/
def floorLog2 (n e : Int) : Int := (Nat.log2 n.natAbs : Int) + e

/-- a at most b in magnitude. -/
def Dyad.absLe (a b : Dyad) : Bool :=
  if a.e ≤ b.e then decide (a.n.natAbs ≤ b.n.natAbs * 2 ^ (b.e - a.e).toNat)
  else decide (a.n.natAbs * 2 ^ (a.e - b.e).toNat ≤ b.n.natAbs)

/-- The exact sum. -/
def Dyad.add (a b : Dyad) : Dyad :=
  if a.n = 0 then b
  else if b.n = 0 then a
  else
    let e := min a.e b.e
    ⟨a.n * 2 ^ (a.e - e).toNat + b.n * 2 ^ (b.e - e).toNat, e⟩

def Dyad.mul (a b : Dyad) : Dyad := ⟨a.n * b.n, a.e + b.e⟩

def Dyad.neg (a : Dyad) : Dyad := ⟨-a.n, a.e⟩

/-- The largest integer whose square is at most `n`, bit by bit from bit `i`. -/
def isqrtFrom : Nat → Nat → Nat → Nat
  | 0, n, r => if (r + 1) * (r + 1) ≤ n then r + 1 else r
  | i + 1, n, r =>
    let c := r + 2 ^ (i + 1)
    isqrtFrom i n (if c * c ≤ n then c else r)

/-! ### Formats -/

/-- A binary interchange format: fraction bits and exponent bits. -/
structure FFmt where
  mb : Nat
  eb : Nat

def f32 : FFmt := ⟨23, 8⟩
def f64 : FFmt := ⟨52, 11⟩

/-- Bits of a value of the format. -/
def FFmt.width (f : FFmt) : Nat := 1 + f.eb + f.mb
def FFmt.bias (f : FFmt) : Nat := 2 ^ (f.eb - 1) - 1
def FFmt.emin (f : FFmt) : Int := 1 - (f.bias : Int)
def FFmt.emax (f : FFmt) : Int := f.bias
def FFmt.signBit (f : FFmt) : Nat := 2 ^ (f.eb + f.mb)
def FFmt.infBits (f : FFmt) : Nat := (2 ^ f.eb - 1) <<< f.mb
/-- The default NaN (R57). -/
def FFmt.nan (f : FFmt) : Nat := f.infBits + 2 ^ (f.mb - 1)
/-- The largest finite magnitude. -/
def FFmt.maxBits (f : FFmt) : Nat := f.infBits - 1

/-- What the bits of a value stand for. -/
inductive FVal where
  | nan
  | inf (neg : Bool)
  | fin (neg : Bool) (d : Dyad)
  deriving DecidableEq, Repr

def FFmt.neg (f : FFmt) (b : Nat) : Bool := (b >>> (f.eb + f.mb)) % 2 == 1
def FFmt.exp (f : FFmt) (b : Nat) : Nat := (b >>> f.mb) % 2 ^ f.eb
def FFmt.frac (f : FFmt) (b : Nat) : Nat := b % 2 ^ f.mb

/-- Reads a value. -/
def FFmt.val (f : FFmt) (b : Nat) : FVal :=
  let s : Int := if f.neg b then -1 else 1
  let x := f.exp b
  if x = 2 ^ f.eb - 1 then (if f.frac b = 0 then .inf (f.neg b) else .nan)
  else if x = 0 then .fin (f.neg b) ⟨s * f.frac b, f.emin - f.mb⟩
  else .fin (f.neg b) ⟨s * (f.frac b + 2 ^ f.mb : Nat), (x : Int) - f.bias - f.mb⟩

def FFmt.isNan (f : FFmt) (b : Nat) : Bool := f.exp b == 2 ^ f.eb - 1 && f.frac b != 0

/-- A NaN quietened (R57). -/
def FFmt.quiet (f : FFmt) (b : Nat) : Nat := b ||| 2 ^ (f.mb - 1)

def FFmt.isSnan (f : FFmt) (b : Nat) : Bool := f.isNan b && !(f.frac b).testBit (f.mb - 1)

/-- A non-zero subnormal. -/
def FFmt.isSub (f : FFmt) (b : Nat) : Bool := f.exp b == 0 && f.frac b != 0

/-- num ÷ den rounded to an integer in a direction, and whether it was exact. Directions (R150): 0 to nearest, ties
to even; 1 toward zero; 2 toward positive; 3 toward negative. The value is a magnitude; `neg` is its sign. -/
def rndRat (rm : Nat) (neg : Bool) (num den : Nat) : Nat × Bool :=
  let q := num / den
  let r := num % den
  let up :=
    if rm = 0 then decide (den < 2 * r) || (decide (2 * r = den) && q % 2 == 1)
    else if rm = 1 then false
    else if rm = 2 then !neg && r != 0
    else neg && r != 0
  (if up then q + 1 else q, r == 0)

/-- The magnitude bits of num ÷ den × 2^e > 0 rounded to the format, with overflow, underflow and inexact;
tininess is detected after rounding (R56). Overflow delivers infinity, or the largest finite number where the
direction points inward. -/
def FFmt.roundMag (f : FFmt) (num den : Nat) (e : Int) (neg : Bool) (rm : Nat) : Nat × Flags :=
  let at_ (q : Int) : Nat × Bool :=     -- in units of 2^q
    if q ≤ e then rndRat rm neg (num * 2 ^ (e - q).toNat) den else rndRat rm neg num (den * 2 ^ (q - e).toNat)
  let t : Int := (Nat.log2 num : Int) - (Nat.log2 den : Int)
  -- 2^(t-1) < num ÷ den < 2^(t+1)
  let below := if 0 ≤ t then decide (num < den * 2 ^ t.toNat) else decide (num * 2 ^ (-t).toNat < den)
  let l : Int := (if below then t - 1 else t) + e
  let unb := at_ (l - f.mb)
  let lr : Int := if unb.1 = 2 ^ (f.mb + 1) then l + 1 else l
  let tiny := decide (lr < f.emin)
  let x : Int := max l f.emin
  let r := at_ (x - f.mb)
  let fl := flIf (!r.2) flInexact ||| flIf (tiny && !r.2) flUnderflow
  -- a carry out of the significand moves into the exponent field by itself
  let bits := if r.1 < 2 ^ f.mb then r.1 else ((x - f.emin + 1).toNat <<< f.mb) + (r.1 - 2 ^ f.mb)
  let inward := rm == 1 || (rm == 2 && neg) || (rm == 3 && !neg)
  if f.infBits ≤ bits then (if inward then f.maxBits else f.infBits, flOverflow ||| flInexact) else (bits, fl)

/-- A finite exact value rounded; zero keeps the sign given. -/
def FFmt.round (f : FFmt) (zneg : Bool) (d : Dyad) (rm : Nat := 0) : Nat × Flags :=
  if d.n = 0 then ((if zneg then f.signBit else 0), 0)
  else
    let r := f.roundMag d.n.natAbs 1 d.e (decide (d.n < 0)) rm
    ((if d.n < 0 then f.signBit else 0) + r.1, r.2)

/-! ### Arithmetic (R56, R57) -/

/-- The first NaN among operands, quietened; invalid when one is signalling. -/
def FFmt.nanOf (f : FFmt) (ops : List Nat) : Option (Nat × Flags) :=
  match ops.find? f.isNan with
  | some b => some (f.quiet b, flIf (ops.any f.isSnan) flInvalid)
  | none => none

def FFmt.invalid (f : FFmt) : Nat × Flags := (f.nan, flInvalid)

def FFmt.signed (f : FFmt) (neg : Bool) (mag : Nat) : Nat := (if neg then f.signBit else 0) + mag

def FFmt.flip (f : FFmt) (b : Nat) : Nat := if f.neg b then b - f.signBit else b + f.signBit

def FFmt.add (f : FFmt) (a b : Nat) (rm : Nat := 0) : Nat × Flags :=
  match f.nanOf [a, b] with
  | some r => r
  | none =>
    match f.val a, f.val b with
    | .inf s, .inf t => if s = t then (a, 0) else f.invalid
    | .inf _, _ => (a, 0)
    | _, .inf _ => (b, 0)
    | .fin s x, .fin t y =>
      let z := x.add y
      f.round (if x.n = 0 ∧ y.n = 0 then (if s = t then s else rm == 3) else rm == 3) z rm
    | _, _ => f.invalid

/-- Subtraction: a NaN operand is returned unchanged in sign. -/
def FFmt.sub (f : FFmt) (a b : Nat) (rm : Nat := 0) : Nat × Flags :=
  match f.nanOf [a, b] with
  | some r => r
  | none => f.add a (f.flip b) rm

def FFmt.mul (f : FFmt) (a b : Nat) (rm : Nat := 0) : Nat × Flags :=
  match f.nanOf [a, b] with
  | some r => r
  | none =>
    let s := f.neg a != f.neg b
    match f.val a, f.val b with
    | .inf _, .inf _ => (f.signed s f.infBits, 0)
    | .inf _, .fin _ y => if y.n = 0 then f.invalid else (f.signed s f.infBits, 0)
    | .fin _ x, .inf _ => if x.n = 0 then f.invalid else (f.signed s f.infBits, 0)
    | .fin _ x, .fin _ y => f.round s (x.mul y) rm
    | _, _ => f.invalid

/-- Whether 0 × ∞ meets as such (R57). -/
def FFmt.zeroTimesInf (f : FFmt) (a b : Nat) : Bool :=
  match f.val a, f.val b with
  | .inf _, .fin _ y => y.n == 0
  | .fin _ x, .inf _ => x.n == 0
  | _, _ => false

/-- a × b + c with one rounding; 0 × ∞ is invalid, beside a NaN addend too (R57). -/
def FFmt.fma (f : FFmt) (a b c : Nat) (rm : Nat := 0) : Nat × Flags :=
  match f.nanOf [a, b, c] with
  | some r => (r.1, r.2 ||| flIf (f.zeroTimesInf a b) flInvalid)
  | none =>
    let s := f.neg a != f.neg b
    match f.val a, f.val b, f.val c with
    | .fin _ x, .fin _ y, .fin t z =>
      let p := x.mul y
      f.round (if p.n = 0 ∧ z.n = 0 then (if s = t then s else rm == 3) else rm == 3) (p.add z) rm
    | .fin _ _, .fin _ _, .inf _ => (c, 0)
    | .inf _, .fin _ y, cv =>
      if y.n = 0 then f.invalid
      else match cv with
        | .inf t => if s = t then (c, 0) else f.invalid
        | _ => (f.signed s f.infBits, 0)
    | .fin _ x, .inf _, cv =>
      if x.n = 0 then f.invalid
      else match cv with
        | .inf t => if s = t then (c, 0) else f.invalid
        | _ => (f.signed s f.infBits, 0)
    | .inf _, .inf _, cv =>
      match cv with
      | .inf t => if s = t then (c, 0) else f.invalid
      | _ => (f.signed s f.infBits, 0)
    | _, _, _ => f.invalid

def FFmt.div (f : FFmt) (a b : Nat) (rm : Nat := 0) : Nat × Flags :=
  match f.nanOf [a, b] with
  | some r => r
  | none =>
    let s := f.neg a != f.neg b
    match f.val a, f.val b with
    | .inf _, .inf _ => f.invalid
    | .inf _, _ => (f.signed s f.infBits, 0)
    | .fin _ _, .inf _ => (f.signed s 0, 0)
    | .fin _ x, .fin _ y =>
      if y.n = 0 then (if x.n = 0 then f.invalid else (f.signed s f.infBits, flDivZero))
      else if x.n = 0 then (f.signed s 0, 0)
      else
        let r := f.roundMag x.n.natAbs y.n.natAbs (x.e - y.e) s rm
        (f.signed s r.1, r.2)
    | _, _ => f.invalid

/-- The square root: of −0 it is −0, of another negative value invalid. -/
def FFmt.sqrt (f : FFmt) (a : Nat) (rm : Nat := 0) : Nat × Flags :=
  match f.nanOf [a] with
  | some r => r
  | none =>
    match f.val a with
    | .inf false => (a, 0)
    | .inf true => f.invalid
    | .fin s x =>
      if x.n = 0 then (a, 0)
      else if s then f.invalid
      else
        -- an even exponent and enough bits; a remainder stands as one more low bit
        let k := 2 * (f.mb + 4) + (if x.e % 2 = 0 then 0 else 1)
        let n := x.n.natAbs * 2 ^ k
        let r := isqrtFrom (f.mb + f.mb + 8) n 0
        let odd := if r * r = n then 0 else 1
        f.roundMag (2 * r + odd) 1 ((x.e - k) / 2 - 1) false rm
    | _ => f.invalid

/-- Order of two values; none when a NaN is among them. -/
def FFmt.cmp (f : FFmt) (a b : Nat) : Option Ordering :=
  match f.val a, f.val b with
  | .nan, _ => none
  | _, .nan => none
  | .inf s, .inf t => some (if s = t then .eq else if s then .lt else .gt)
  | .inf s, _ => some (if s then .lt else .gt)
  | _, .inf t => some (if t then .gt else .lt)
  | .fin _ x, .fin _ y =>
    let z := x.add y.neg
    some (if z.n < 0 then .lt else if z.n = 0 then .eq else .gt)

/-- minimum or maximum; with `num`, minimumNumber or maximumNumber (R150). −0 lies below +0. -/
def FFmt.minMax (f : FFmt) (isMax num : Bool) (a b : Nat) : Nat × Flags :=
  if f.isNan a || f.isNan b then
    if num && !(f.isNan a && f.isNan b) then
      (if f.isNan a then b else a, flIf (f.isSnan a || f.isSnan b) flInvalid)
    else match f.nanOf [a, b] with | some r => r | none => (a, 0)
  else
    let less := match f.cmp a b with
      | some .lt => true
      | some .gt => false
      | _ => f.neg a
    (if less != isMax then a else b, 0)

/-- A finite value rounded to an integer in a direction, and whether it was exact. -/
def Dyad.toInt (d : Dyad) (rm : Nat) : Int × Bool :=
  let neg := decide (d.n < 0)
  if 0 ≤ d.e then (d.n * 2 ^ d.e.toNat, true)
  else
    let r := rndRat rm neg d.n.natAbs (2 ^ (-d.e).toNat)
    (if neg then -(r.1 : Int) else r.1, r.2)

end Sys2Proof.Machine
end

