-- ==== Sys2Proof/Machine/Tracked.lean ====
section
/-! DEFINITION. Exponent-tracked values (02): the aligned add (R55), narrowing of aligned accumulators into
a finished-tile entry (R53), stores to floating point (R67), and the rescale (R77). -/
namespace Sys2Proof.Machine

open Sys2Proof

/-- The canonical zero. -/
def tzero : Tracked := ⟨0, -32768⟩

def maxI64 : Int := 2 ^ 63 - 1
def fitsI64 (a : Int) : Bool := decide (-(2 ^ 63) ≤ a) && decide (a ≤ maxI64)

/-- The loop of R55: the smallest exponent from `x` on at which the exact sum fits. -/
def alignLoop : Nat → Dyad → Int → Int × Int
  | 0, s, x => (rneScale s.n (s.e - x), x)
  | f + 1, s, x =>
    let a := rneScale s.n (s.e - x)
    if fitsI64 a then (a, x) else alignLoop f s (x + 1)

/-- The aligned add (R55), and whether it saturated. -/
def alignedAdd (p q : Tracked) : Tracked × Bool :=
  if p.a = 0 then (q, false)
  else if q.a = 0 then (p, false)
  else
    let s := (⟨p.a, p.x⟩ : Dyad).add ⟨q.a, q.x⟩
    if s.n = 0 then (tzero, false)
    else
      let r := alignLoop 3 s (max p.x q.x)
      if 32767 < r.2 then (⟨(if s.n < 0 then -maxI64 else maxI64), 32767⟩, true) else (⟨r.1, r.2⟩, false)

/-- A chain of aligned adds from the left, with the number of saturations. -/
def alignedSum : Tracked → List Tracked → Tracked × Nat
  | p, [] => (p, 0)
  | p, q :: r =>
    let s := alignedAdd p q
    let t := alignedSum s.1 r
    (t.1, t.2 + b2n s.2)

/-! ### Narrowing (R53) -/

/-- An accumulator's value rounded to a multiple of 2^xc, divided by 2^xc; a sticky bit lies strictly between
two steps. -/
def AccCell.roundAt (c : AccCell) (xc : Int) : Int :=
  if c.s then rneScale (2 * c.g + 1) (c.y - 1 - xc) else rneScale c.g (c.y - xc)

def narrowLoop (live : List AccCell) : Nat → Int → Int
  | 0, x => x
  | f + 1, x => if live.all (fun c => fitsI64 (c.roundAt x)) then x else narrowLoop live f (x + 1)

/-- One column of an entry: the column exponent and the rows' integers (R53). -/
def narrowColumn (cells : List AccCell) : Int × List Int :=
  let live := cells.filter (fun c => c.g != 0)
  match live with
  | [] => (-32768, cells.map (fun _ => 0))
  | c :: r =>
    let xc := narrowLoop live 80 (r.foldl (fun m d => max m (d.y + 1)) (c.y + 1))
    let as := cells.map (fun d => if d.g = 0 then 0 else d.roundAt xc)
    if as.all (· == 0) then (-32768, as) else (xc, as)

/-! ### Into floating point (R67, R68) -/

/-- A finite exact value stored to a format; under `ovfInf` = false an overflow delivers the largest finite
number and is a saturation (R67). -/
def storeFloat (f : FFmt) (ovfInf : Bool) (d : Dyad) : Nat × Flags × Bool :=
  let r := f.round false d
  if r.2.toNat.testBit 2 && !ovfInf then ((if d.n < 0 then f.signBit else 0) + f.maxBits, r.2, true) else (r.1, r.2, false)

/-! ### Rescale (R77, R78) -/

/-- Range of an integer output format. -/
def q8uRange : Int × Int := (0, 255)
def q8sRange : Int × Int := (-128, 127)
def i32Range : Int × Int := (-(2 ^ 31), 2 ^ 31 - 1)

def clampTo (r : Int × Int) (v : Int) : Int := if v < r.1 then r.1 else if r.2 < v then r.2 else v

/-- The rescale of (A, Xc) by a record: the output, whether it saturated, whether it lost its range. -/
def rescale (range : Int × Int) (a xc : Int) (m : Int) (s : Nat) (zp : Int) : Int × Bool × Bool :=
  if a = 0 ∨ m = 0 then (zp, false, false)
  else
    let v := zp + rneScale (a * m) (xc - s)
    let out := clampTo range v
    (out, out != v, out == zp)

/-- MULT, SHIFT and ZP_OUT of a rescale record (Table 03-2) for an output of the given signedness. -/
def rescaleRec (w : Word) (signedOut : Bool) : Int × Nat × Int :=
  (signed 32 (bits w 31 0), bits w 37 32, if signedOut then signed 8 (bits w 47 40) else bits w 47 40)

end Sys2Proof.Machine
end

