-- ==== Sys2Proof/Machine/Shingle.lean ====
section
/-! DEFINITION. The element formats and their conversions (02, 03): quantising to S8 and S4 with computed or
carried exponents, affine quantising, dequantising, stores of exponent-tracked values, and scale streams. -/
namespace Sys2Proof.Machine

open Sys2Proof

/-! ### Formats (Table 02-1) -/

def fmtBytes : Nat := 0x0
def fmtF32 : Nat := 0x1
def fmtF64 : Nat := 0x2
def fmtS8 : Nat := 0x3
def fmtS4 : Nat := 0x4
def fmtQ8U : Nat := 0x5
def fmtQ8S : Nat := 0x6
def fmtI16 : Nat := 0x7
def fmtI32 : Nat := 0x8
def fmtI64 : Nat := 0x9
def fmtAcc : Nat := 0xA

/-- Bits of one element; an ACC element stands for its 8 bytes of A. -/
def fmtBits (f : Nat) : Nat :=
  if f = fmtF32 || f = fmtI32 then 32 else if f = fmtF64 || f = fmtI64 || f = fmtAcc then 64
  else if f = fmtS4 then 4 else if f = fmtI16 then 16 else 8

/-- Bytes of `n` elements in a row (R41). -/
def fmtBytesOf (f n : Nat) : Nat := (n * fmtBits f + 7) / 8

def isShingle (f : Nat) : Bool := f == fmtS8 || f == fmtS4
def isFp (f : Nat) : Bool := f == fmtF32 || f == fmtF64
def isQ8 (f : Nat) : Bool := f == fmtQ8U || f == fmtQ8S
def fpOf (f : Nat) : FFmt := if f = fmtF64 then f64 else f32

/-- Signed S4 or S8 code number `i` of a row of bytes (R41, R42). -/
def codeAt (f : Nat) (bs : List Byte) (i : Nat) : Int :=
  if f = fmtS4 then signed 4 ((bs.getD (i / 2) 0).toNat >>> (4 * (i % 2))) else signed 8 (bs.getD i 0).toNat

/-- Packs codes into bytes: one a byte, or two nibbles a byte with a zero last nibble (R41). -/
def packCodes (f : Nat) : List Int → List Byte
  | [] => []
  | a :: r =>
    if f = fmtS4 then
      match r with
      | [] => [BitVec.ofNat 8 (unsigned 4 a)]
      | b :: r => BitVec.ofNat 8 (unsigned 4 a + 16 * unsigned 4 b) :: packCodes f r
    else BitVec.ofNat 8 (unsigned 8 a) :: packCodes f r

/-! ### What a conversion counts (R61, R64, R69, R86) -/

structure Tally where
  sat : Nat
  drl : Nat
  nonfinite : Nat
  first : Option Nat
  flags : Flags
  missLo : Nat
  missHi : Nat
  badRec : Bool
  deriving DecidableEq, Repr, Inhabited

def Tally.join (a b : Tally) : Tally :=
  { sat := a.sat + b.sat, drl := a.drl + b.drl, nonfinite := a.nonfinite + b.nonfinite
    first := match a.first with | some i => some i | none => b.first
    flags := a.flags ||| b.flags, missLo := a.missLo + b.missLo, missHi := a.missHi + b.missHi
    badRec := a.badRec || b.badRec }

/-- What one non-finite input counts (R64). -/
def nonfiniteTally (i : Nat) : Tally := { (default : Tally) with nonfinite := 1, first := some i, flags := flInvalid }

/-- The notes and counts of a report (Table 09-11). -/
def Tally.report (t : Tally) : Report :=
  let r : Report := { notes := flagNotes t.flags, sat := t.sat, drl := t.drl, missLo := t.missLo, missHi := t.missHi
                      nfIndex := t.first, skipped := 0 }
  ((((((r.noteIf (t.sat != 0) noteSat).noteIf (t.drl != 0) noteDrl).noteIf (t.missLo != 0) noteMissLo).noteIf
    (t.missHi != 0) noteMissHi).noteIf (t.nonfinite != 0) noteNonfinite).noteIf t.badRec noteBadQrec)

/-! ### Quantising to S8 and S4 (R61, R62, R86, R87) -/

def qmaxOf (f : Nat) : Int := if f = fmtS4 then 7 else 127

/-- Element code of a finite value under exponent `e` (R61). -/
def quantElem (f e : Nat) (d : Dyad) : Int × Tally :=
  let x := d.e + 127 - e
  let r := rneScale d.n x
  let m := qmaxOf f
  let q := clampTo (-m, m) r
  let sat := q != r
  (q, { (default : Tally) with
        sat := b2n sat
        drl := b2n (d.n != 0 && q == 0)
        flags := flIf sat flInvalid ||| flIf (!isExactly d.n x q) flInexact })

/-- The largest magnitude among finite elements; n = 0 when there is none. -/
def maxMag (xs : List FVal) : Dyad :=
  xs.foldl (fun m v => match v with | .fin _ d => if m.absLe d then d else m | _ => m) ⟨0, 0⟩

/-- The computed exponent of a block (R62). -/
def blockExp (f : Nat) (xs : List FVal) : Nat :=
  let m := maxMag xs
  if m.n = 0 then (if xs.any (fun v => match v with | .inf _ => true | _ => false) then 255 else 0)
  else
    let e := floorLog2 m.n m.e
    let k : Int := if f = fmtS8 then e + 121 else e + 125
    let k := if rneScale m.n.natAbs (m.e + 127 - k) = qmaxOf f + 1 then k + 1 else k
    (clampTo (1, 255) k).toNat

/-- How a block takes its exponent: computed, or carried with tolerance and CPOL. -/
inductive ExpMode where
  | computed
  | carried (ec tol : Nat) (recompute : Bool)
  deriving DecidableEq, Repr

/-- Miss class of a carried exponent (Table 03-5): low, high. -/
def missClass (f ec tol : Nat) (xs : List FVal) : Bool × Bool :=
  let m := maxMag xs
  if m.n = 0 then (false, false)
  else
    let low := ec == 0 || decide (qmaxOf f < rneScale m.n.natAbs (m.e + 127 - ec))
    (low, !low && decide (blockExp f xs + tol < ec))

/-- Quantises one block of (index, value): the exponent written, the codes, and what is counted. -/
def quantBlock (f : Nat) (mode : ExpMode) (xs : List (Nat × FVal)) : Nat × List Int × Tally :=
  let vals := xs.map (·.2)
  let ek := blockExp f vals
  let (e, miss) := match mode with
    | .computed => (ek, (false, false))
    | .carried ec tol rec =>
      let c := missClass f ec tol vals
      (if rec && (c.1 || c.2) then ek else ec, c)
  let one (x : Nat × FVal) : Int × Tally :=
    match x.2 with
    | .nan => (0, nonfiniteTally x.1)
    | .inf neg => (if e = 0 then 0 else if neg then -qmaxOf f else qmaxOf f, nonfiniteTally x.1)
    | .fin _ d =>
      if e = 0 then (0, { (default : Tally) with drl := b2n (d.n != 0), flags := flIf (d.n != 0) flInexact })
      else quantElem f e d
  let rs := xs.map one
  let t := rs.foldl (fun t r => Tally.join t r.2) { (default : Tally) with missLo := b2n miss.1, missHi := b2n miss.2 }
  (e, rs.map (·.1), t)

/-! ### Affine quantising (R66, R75, R76) -/

/-- Whether RSCALE is unusable (R76): NaN, infinity, zero or negative. -/
def badScale (r : Nat) : Bool :=
  match f32.val r with
  | .fin neg d => neg || d.n == 0
  | _ => true

/-- Zero point of a record, in the destination format (Table 03-1). -/
def recZp (f : Nat) (w : Word) : Int := if f = fmtQ8S then signed 8 (bits w 39 32) else bits w 39 32

def q8Range (f : Nat) : Int × Int := if f = fmtQ8S then q8sRange else q8uRange

/-- The code of one element and what it counts (R76); under an unusable RSCALE a finite element is a dynamic-range loss and
raises no inexact flag (DESIGN CHOICE, log entry 118). -/
def q8Elem (f : Nat) (rec : Word) (x : Nat × FVal) : Int × Tally :=
  let r := bits rec 31 0
  let zp := recZp f rec
  let rg := q8Range f
  if badScale r then
    match x.2 with
    | .fin _ d => (zp, { (default : Tally) with drl := b2n (d.n != 0), badRec := true })
    | _ => (zp, { nonfiniteTally x.1 with badRec := true })
  else
    match x.2 with
    | .nan => (zp, nonfiniteTally x.1)
    | .inf neg => (if neg then rg.1 else rg.2, nonfiniteTally x.1)
    | .fin _ d =>
      match f32.val r with
      | .fin _ s =>
        let p := d.mul s
        let v := zp + rneScale p.n p.e
        let q := clampTo rg v
        (q, { (default : Tally) with
              sat := b2n (q != v), drl := b2n (d.n != 0 && q == zp)
              flags := flIf (q != v) flInvalid ||| flIf (!isExactly p.n p.e (q - zp)) flInexact })
      | _ => (zp, default)

/-! ### To floating point (R67, R68) -/

def fpElem (f : Nat) (ovfInf : Bool) (d : Dyad) : Nat × Tally :=
  let r := storeFloat (fpOf f) ovfInf d
  (r.1, { (default : Tally) with sat := b2n r.2.2, flags := r.2.1 })

/-- The exact value of a code under a block exponent (R43). -/
def codeVal (q : Int) (e : Nat) : Dyad := if e = 0 then ⟨0, 0⟩ else ⟨q, (e : Int) - 127⟩

/-! ### Scale streams (R80 to R82) -/

/-- A scale stream entry (Table 03-4). -/
def scaleEntry (e ord : Nat) : Nat := e % 256 + 256 * (ord % 64)

def entryExp (w : Nat) : Nat := w % 256
def entryOrd (w : Nat) : Nat := w / 256 % 64

/-- Block size of a BLK code (Table 02-6). -/
def blkSize (code : Nat) : Nat := 16 * 2 ^ (code % 4)

end Sys2Proof.Machine
end

