-- ==== Sys2Proof/Machine/TableForm.lean ====
section
/-! DEFINITION. Embedding tables (06): the fields of a descriptor, row formats, the placing of rows, and the
version slots. -/
namespace Sys2Proof.Machine

open Sys2Proof

/-! ### Descriptor fields (Table 06-1) -/

def Table.f (t : Table) (w hi lo : Nat) : Nat := bits (wordAt t.desc w) hi lo
def Table.kind (t : Table) : Nat := t.f 0 2 0
def Table.qrop (t : Table) : Nat := t.f 0 3 3
def Table.cache (t : Table) : Bool := t.f 0 4 4 == 1
def Table.oorFail (t : Table) : Bool := t.f 0 5 5 == 1
def Table.own (t : Table) : Nat := t.f 0 7 6
def Table.dim (t : Table) : Nat := t.f 0 18 8
def Table.pitch (t : Table) : Nat := 32 * 2 ^ t.f 0 21 19
def Table.ctx (t : Table) : Nat := t.f 0 27 22
def Table.home (t : Table) : Nat := t.f 0 31 28
def Table.tgid (t : Table) : Nat := t.f 0 63 32
def Table.nlog (t : Table) : Nat := t.f 1 39 0
def Table.foldLog2 (t : Table) : Nat := t.f 1 45 40
def Table.tenant (t : Table) : Nat := t.f 1 63 48
def Table.nshard (t : Table) : Nat := t.f 4 18 0
def Table.rps (t : Table) : Nat := t.f 4 63 24
def Table.nq (t : Table) : Nat := t.f 8 31 0
def Table.nr (t : Table) : Nat := t.f 8 63 32
def Table.nlocal (t : Table) : Nat := t.f 12 39 0
def Table.stageKb (t : Table) : Nat := max 256 (t.f 12 63 40)
def Table.isQr (t : Table) : Bool := t.kind == 4

/-- Bytes of a row: its header and codes (R160, R161). -/
def rowLenOf (kind dim : Nat) : Nat := 8 + (if kind = 2 then (dim + 1) / 2 else dim)

def Table.rowLen (t : Table) : Nat := rowLenOf t.kind t.dim

/-- Bytes read for an uncached row (Table 06-9): one sector for each 32 bytes of a pitch below 128, long bursts
otherwise. -/
def Table.readLen (t : Table) : Nat := if t.pitch < 128 then t.pitch else ceilDiv t.rowLen 128 * 128

def Table.slot (t : Table) (b : Bool) : VSlot := if b then t.b else t.a
def Table.setSlot (t : Table) (b : Bool) (v : VSlot) : Table := if b then { t with b := v } else { t with a := v }

/-- Base of a slot's rows; `sub` 1 is the R sub-table of HASH_QR. -/
def Table.base (t : Table) (b : Bool) (sub : Nat) : Nat :=
  if sub = 0 then t.f (if b then 7 else 6) 51 0 else t.f (if b then 10 else 9) 51 0

/-- Slot states (Table 06-5). -/
def vEmpty : Nat := 0
def vLoading : Nat := 1
def vStandby : Nat := 2
def vCurrent : Nat := 3
def vRetiring : Nat := 4

def Device.table (d : Device) (t : Nat) : Table := tget d.tables t default
def Device.setTable (d : Device) (t : Nat) (x : Table) : Device := { d with tables := tset d.tables t x }

/-- The loaded table with a TGID, with its number. -/
def Device.tableOf (d : Device) (tgid : Nat) : Option (Nat × Table) := d.tables.find? (fun t => t.2.valid && t.2.tgid == tgid)

/-- The slot that holds a generation in one of the states listed. -/
def Table.slotOfGen (t : Table) (gen : Nat) (states : List Nat) : Option Bool :=
  [false, true].find? (fun b => (t.slot b).gen == gen && states.contains (t.slot b).state)

/-! ### Placing rows (R162, R163) -/

/-- Shard and local row of a physical row; none when RPS is 0 under OWN = 1. -/
def Table.place (t : Table) (p : Nat) : Option (Nat × Nat) :=
  if t.own = 0 then some (0, p)
  else if t.own = 1 then (if t.rps = 0 then none else some (p / t.rps, p % t.rps))
  else if t.nshard = 0 then none else some (p % t.nshard, p / t.nshard)

/-- The physical row of a local row of shard `s`. -/
def Table.physical (t : Table) (s l : Nat) : Nat :=
  if t.own = 1 then s * t.rps + l else if t.own = 2 then l * t.nshard + s else l

/-- The first shard that this device owns (R163). -/
def Device.ownShard (d : Device) (t : Table) : Nat := (t.owners.findIdx? (· == d.devnum)).getD 0

/-- The local address of local row `l`. -/
def Table.rowAddr (t : Table) (b : Bool) (sub l : Nat) : Nat := t.base b sub + l * t.pitch

/-- Physical rows named by a logical index: (sub-table, row) (R162). -/
def Table.rowsOf (t : Table) (i : Nat) : List (Nat × Nat) :=
  if t.kind = 3 then
    [(0, ((i ^^^ (wordAt t.desc 2).toNat) * (wordAt t.desc 3).toNat) % 2 ^ 64 / 2 ^ (64 - t.foldLog2))]
  else if t.isQr then [(0, (i / max 1 t.nr) % max 1 t.nq), (1, i % max 1 t.nr)]
  else [(0, i)]

/-- The row number that stands for a sub-table's row on the links and in the digest: R rows follow the Q
rows (log entry 31). -/
def Table.rowNo (t : Table) (sub p : Nat) : Nat := if sub = 0 then p else t.nq + p

/-- Sub-table and row of such a number. -/
def Table.rowOfNo (t : Table) (p : Nat) : Nat × Nat := if t.isQr && decide (t.nq ≤ p) then (1, p - t.nq) else (0, p)

/-! ### Row contents (R160, R161) -/

/-- Code `k` of a row, unsigned for coded rows, signed for hashed ones. -/
def rowCode (kind : Nat) (row : List Byte) (k : Nat) : Int :=
  if kind = 2 then ((row.getD (8 + k / 2) 0).toNat / 16 ^ (k % 2) % 16 : Nat)
  else if kind = 1 then (row.getD (8 + k) 0).toNat
  else signed 8 (row.getD (8 + k) 0).toNat

/-- Element `k` of a row. -/
def rowElem (kind : Nat) (row : List Byte) (k : Nat) : Dyad :=
  if kind ≤ 2 then
    let e := (row.getD 1 0).toNat
    if e = 0 then ⟨0, 0⟩
    else ⟨rowCode kind row k * (row.getD 0 0).toNat + signed 16 (leNat ((row.drop 2).take 2)), (e : Int) - 135⟩
  else
    let e := (row.getD 0 0).toNat
    if e = 0 then ⟨0, 0⟩ else ⟨rowCode kind row k, (e : Int) - 127⟩

/-- Range of a code (R184). -/
def codeRange (kind : Nat) : Int × Int := if kind = 1 then (0, 255) else if kind = 2 then (0, 15) else (-127, 127)

/-- A row with deltas added to its codes, clamped, and the number of clamps (R184). -/
def addDeltas (kind dim : Nat) (row : List Byte) (ds : List Int) : List Byte × Nat :=
  let rs := (List.range dim).map fun k =>
    let v := rowCode kind row k + ds.getD k 0
    let q := clampTo (codeRange kind) v
    (q, q != v)
  let qs := rs.map (·.1)
  let body := if kind = 2 then
      (chunks 2 dim qs).map (fun p => BitVec.ofNat 8 ((p.getD 0 0).toNat + 16 * (p.getD 1 0).toNat))
    else qs.map (fun q => BitVec.ofNat 8 (unsigned 8 q))
  (slice row 0 8 ++ body, rs.countP (·.2))

/-! ### The digest (R186) -/

/-- h(p, w) over a row's header and codes as 64-bit words. -/
def rowHash (p : Nat) (row : List Byte) : Nat :=
  (bytesWords row).foldl (fun (x : Nat) w =>
    let y := ((x ^^^ w.toNat) * 0xBF58476D1CE4E5B9) % 2 ^ 64
    y ^^^ (y / 2 ^ 31)) (((p + 1) * 0x9E3779B97F4A7C15) % 2 ^ 64)

end Sys2Proof.Machine
end

