-- ==== Sys2Proof/Machine/Remote.lean ====
section
/-! DEFINITION. Requests of other devices served here (R172, R173, R359): Hod reads and writes in the context
of the same number, and row reads on a table's home truss. -/
namespace Sys2Proof.Machine

open Sys2Proof

/-- A reply packet on virtual channel 1, issued by the home truss's Thatch engine for a row, else by no engine (R345). -/
def Device.replyTo (d : Device) (p : Packet) (kind : Nat) (payload : List Byte) : Device :=
  d.sendAnswer { d.note kind p.src p.ctx p.rtag payload with
    tgid := p.tgid, unit := if p.kind = 1 then unitCode (bits p.addr 43 40) 8 else 0 }

/-- A refusal packet: status and cause (R173, R359). -/
def Device.refuseRemote (d : Device) (p : Packet) (status cause : Nat) : Device :=
  d.replyTo p 0x0E [BitVec.ofNat 8 status, BitVec.ofNat 8 cause]

/-- A command that stands for work of no entry of this device: it only waits for translations. -/
def standIn (id ctx : Nat) : Job :=
  { id := id, entry := 0, buf := none, index := 0, ctx := ctx, cmd := ⟨0, 0, 0, 0⟩, state := .running, engine := none
    readyAt := 0, waitFrom := none, since := 0, preemptReq := false, forced := false, preloaded := false, run := .none
    report := default, ending := none }

/-- A miss of work without an entry: a stand-in waits for the translation, and its number is given. -/
def Device.missFor (d : Device) (ctx kind t va : Nat) (wr : Bool) : Nat × Device :=
  let id := d.nextJob
  (id, ({ d with nextJob := id + 1, jobs := d.jobs ++ [standIn id ctx] }).xltMiss id kind t va wr)

/-- Whether work without an entry already waits for this translation. -/
def Device.awaits (d : Device) (ctx va : Nat) : Bool :=
  (d.xlt.reqs.flatMap XReq.waiters ++ d.xlt.full.map (fun f => f.1.2)).any fun w =>
    w.2.2.1 == va && !d.serving.any (fun s => s.1 == w.1) &&
      (match d.job? w.1 with | some j => j.entry == 0 && j.ctx == ctx && j.state == .waiting | none => false)

/-- A miss of work without an entry, taken once however often the work is tried again (R309, R312). -/
def Device.ownMiss (d : Device) (ctx kind t va : Nat) (wr : Bool) : Device :=
  if d.awaits ctx va then d else (d.missFor ctx kind t va wr).2

def Device.dropJob (d : Device) (id : Nat) : Device := { d with jobs := d.jobs.filter (fun j => j.id != id) }

/-- Answers what a served access came to; on a miss the request waits here (R359). -/
def Device.served {α : Type} (r : Device × Got α) (p : Packet) (ctx kind t : Nat) (k : Device → α → Device) : Device :=
  match r with
  | (d, .ok v) => k d v
  | (d, .fail e) => d.refuseRemote p e.status (bits e.d0 7 0)
  | (d, .miss va wr) =>
    let m := d.missFor ctx kind t va wr
    match m.2.job? m.1 with
    | some j =>
      match j.ending with
      | some e => (m.2.dropJob m.1).refuseRemote p e.status (bits e.d0 7 0)
      | none => { m.2 with serving := m.2.serving ++ [(m.1, p)] }
    | none => m.2

/-- Whether the same-numbered context exists here with the same TENANT (R359). -/
def Device.tenantOk (d : Device) (p : Packet) : Bool := (d.ctx p.ctx).state != 0 && (d.ctx p.ctx).tenant == p.tenant

/-- A Hod read request (R359). -/
def Device.serveHodRead (d : Device) (p : Packet) : Device :=
  if !d.tenantOk p then d.refuseRemote p stViolation 0x50
  else Device.served (d.vload p.ctx 16 0 p.addr.toNat p.len) p p.ctx 0 16 (fun d bs => d.replyTo p 0x04 bs)

/-- A Hod write (R359). -/
def Device.serveHodWrite (d : Device) (p : Packet) : Device :=
  if !d.tenantOk p then d.refuseRemote p stViolation 0x50
  else Device.served (d.vstore p.ctx 16 0 p.addr.toNat p.payload) p p.ctx 0 16 (fun d _ => d.replyTo p 0x06 [])

/-- Physical pieces read straight from HBM. -/
def Device.readRow (d : Device) (acct : Nat) : List (Nat × Nat) → Device × Option (List Byte)
  | [] => (d, some [])
  | p :: ps =>
    match d.hbmLoad 2 acct p.1 p.2 with
    | (d, .error _) => (d, none)
    | (d, .ok bs) =>
      match Device.readRow d acct ps with
      | (d, some r) => (d, some (bs ++ r))
      | (d, none) => (d, none)

/-- Answers the served rows that have all their lines (R172, R173). -/
def Device.rowsServed (d : Device) : Device :=
  (d.rowReqs.filter (fun r => r.serve.isSome && r.settled)).foldl (fun d r =>
    let d := { d with rowReqs := d.rowReqs.filter (fun q => q.tag != r.tag) }
    match r.serve, r.bytes with
    | some p, some bs => ((d.count (Reg.THT_ROWS_SERVED r.truss) 1).charge r.ctx .thtRows 1 r.truss).replyTo p 0x02 bs
    | some p, none => d.refuseRemote p stUncorr 0
    | none, _ => d) d

/-- SOFFIT_FILL (R23, R29 to R33, R172); SOF_NOFILL counts once for a fill however many requests it serves, and for a prefetch
too (DESIGN CHOICE, log entry 113). -/
def execSoffitFill (t : Truss) (mshr : Nat) (s : State) : Host.Outcome State Fault Refusal :=
  onDevice s fun d => (d.soffitFill t mshr).rowsServed

/-- The truss that serves a table's remote requests and applies its deltas (R172): HOME, or while that is not
available the lowest available truss of its tile, or of the device (R393). -/
def Device.homeOf (d : Device) (t : Table) : Nat :=
  let ok (n : Nat) : Bool := (tget d.truss n default).state == 1
  if ok t.home then t.home
  else
    match ((List.range 4).map (4 * (t.home / 4) + ·) ++ List.range 16).find? ok with
    | some n => n
    | none => t.home

/-- Whether a replica group from which the device has expelled itself holds local table `n` (R404). -/
def Device.tableExpelled (d : Device) (n : Nat) : Bool :=
  d.groups.any (fun g => g.2.expelled && g.2.items.any (fun w => bits w 11 0 == n && bit w 12))

/-- A row request at its owner (R172, R173). -/
def Device.serveRow (d : Device) (p : Packet) : Device :=
  match d.tableOf p.tgid with
  | none => d.refuseRemote p stViolation 0
  | some (n, t) =>
    if d.tableExpelled n then d.replyTo p 0x0C []
    else if t.tenant ≠ p.tenant then d.refuseRemote p stViolation 0
    else
      match t.slotOfGen p.gen [vStandby, vCurrent, vRetiring] with
      | none => (d.count (Reg.THT_VERSION_REFUSED (d.homeOf t)) 1).refuseRemote p stRetired 0
      | some b =>
        let q := t.rowOfNo (bits p.addr 39 0)
        match t.place q.2 with
        | none => d.refuseRemote p stViolation 0
        | some (_, l) =>
          if t.nlocal ≤ l then d.refuseRemote p stViolation 0
          else
            let a := t.rowAddr b q.1 l
            let home := d.homeOf t
            let n := if t.cache then t.rowLen else t.readLen
            Device.served (d.translateAll t.ctx home (unitCode home 8) false (pieces (2 ^ 21) a n)) p t.ctx 8 home fun d ps =>
              let (tag, d) := d.newTag
              let first := (ps.headD (0, 0)).1
              let r : RowReq := { tag := tag, job := 0, truss := home, bag := 0, pos := 0, sub := q.1, addr := first, len := t.rowLen
                                  lines := [], ctx := t.ctx, va := a, serve := some p }
              if t.cache then
                let lines := ps.flatMap (fun p => (pieces 128 p.1 p.2).map (fun y => y.1 / 128))
                let d := { d with rowReqs := d.rowReqs ++ [{ r with lines := lines.map (fun y => (y, none)) }] }
                (lines.foldl (fun d y => d.sofDemand home y t.ctx t.ctx tag) d).rowsServed
              else
                let got := d.readRow t.ctx ps
                let data := got.2.map (fun bs => List.replicate (first % 128) 0 ++ bs)
                { got.1 with rowReqs := got.1.rowReqs ++ [{ r with lines := [(first / 128, some data)] }] }.rowsServed

/-- Serves a request by its kind. -/
def Device.serve (d : Device) (p : Packet) : Device :=
  if p.kind = 1 then d.serveRow p else if p.kind = 3 then d.serveHodRead p else d.serveHodWrite p

/-- Goes on with requests whose translations have come or failed, and drops stand-ins that wait no more. -/
def Device.serveAgain (d : Device) : Device :=
  let waits (id : Nat) : Bool := match d.job? id with | some j => j.state == .waiting | none => false
  let due := d.serving.filter (fun s => !waits s.1)
  let ends := due.map (fun s => (s.2, (d.job? s.1).bind Job.ending))
  let d := { d with serving := d.serving.filter (fun s => waits s.1)
                    jobs := d.jobs.filter (fun j => j.entry != 0 || j.state == .waiting) }
  ends.foldl (fun d s => match s.2 with | some e => d.refuseRemote s.1 e.status (bits e.d0 7 0) | none => d.serve s.1) d

/-- A command's effect, after which served requests go on. -/
def onServing (s : State) (f : Device → Device) : Host.Outcome State Fault Refusal := onDevice s (fun d => (f d).serveAgain)

/-- Whether requests of other devices reach the units here. -/
def Device.serves (d : Device) : Bool := d.clk.stage == .thatched || d.clk.stage == .batten

/-- HOD_READ_REQUEST (R359). -/
def execHodReadRequest (p : Packet) (s : State) : Host.Outcome State Fault Refusal :=
  onDevice s fun d => if d.serves then d.serveHodRead { p with kind := 3 } else d

/-- HOD_REMOTE_WRITE (R359). -/
def execHodRemoteWrite (p : Packet) (s : State) : Host.Outcome State Fault Refusal :=
  onDevice s fun d => if d.serves then d.serveHodWrite { p with kind := 5 } else d

/-- THT_REMOTE_ROW_REQUEST (R172, R173). -/
def execThtRemoteRowRequest (p : Packet) (s : State) : Host.Outcome State Fault Refusal :=
  onDevice s fun d => if d.serves then d.serveRow { p with kind := 1 } else d

end Sys2Proof.Machine
end

