-- ==== Sys2Proof/Machine/Translate.lean ====
section
/-! DEFINITION. Address translation (10): the owner host's answers, resends, the request ring, and the
operations MAP, UNMAP and FLUSH. -/
namespace Sys2Proof.Machine

open Sys2Proof

/-- UNIT of a waiting command: its engine, or the Ridge. -/
def Device.jobUnit (d : Device) (id : Nat) : Nat :=
  match d.job? id with
  | some j => match j.engine with | some e => engUnit e | none => 0
  | none => 0

/-- A waiter's translation has come: it becomes ready (R304, R309). -/
def Device.wake (d : Device) (id : Nat) : Device :=
  match d.job? id with
  | none => d
  | some j => if j.state = .yielded ∨ j.state = .waiting then (d.countWait id).makeReady id else d

/-- A waiter ends with its faulting address (R313, R314). -/
def Device.failWaiter (d : Device) (status cause : Nat) (w : Nat × Nat × Nat × Bool) : Device :=
  d.endJob w.1 (endC status cause (d.jobUnit w.1) 0 w.2.2.1)

/-- Frees a REQID, and misses that waited for one are placed again in order (R312). -/
def Device.freeReq (d : Device) (reqid : Nat) : Device :=
  let waiting := d.xlt.full
  let d := { d with xlt := { d.xlt with
    reqs := d.xlt.reqs.filter (fun r => r.reqid != reqid)
    ringHeld := d.xlt.ringHeld.filter (· != reqid), full := [] } }
  waiting.foldl (fun d w =>
    match w with
    | ((c, id, t, va, wr), time) =>
      match d.job? id with
      | none => d
      | some j => if j.state = .done then d else d.xltPlace id c (d.jobUnit id / 16) t va wr time) d

/-- A request ends and every waiter fails (R313, R314). -/
def Device.failReq (d : Device) (r : XReq) (status cause : Nat) : Device :=
  let d := r.waiters.foldl (fun d w => d.failWaiter status cause w) (d.count Reg.XLT_REFUSED 1)
  d.freeReq r.reqid

/-- Whether a page is backed by HBM in full (R318, R320, R321). -/
def Hbm.populated (h : Hbm) (pa n : Nat) : Bool :=
  decide (pa / 2 ^ 30 < frames) && decide (pa % 2 ^ 30 + n ≤ 512 * (512 - (h.slotOf (pa / 2 ^ 30)).k) * 4096)

/-- The translation that an answer word maps for an address, if Table 10-7 lets it. -/
def Device.answerPage (d : Device) (c va : Nat) (v : Word) : Option Xlation :=
  let size := bits v 13 12
  let pa := bits v 43 21 * 2 ^ 21
  if size = 3 || pa % pageSize size != 0 || !d.hbm.populated pa (pageSize size) then none
  else some { ctx := c, va := va / pageSize size * pageSize size, size := size, pa := pa, wr := bit v 14 }

/-- Installs a translation at the second level in place of any that overlaps it (R314). -/
def Device.install (d : Device) (x : Xlation) : Device :=
  { d with xlt := (d.xlt.remove x.ctx x.va (pageSize x.size)).fillL2 x }

/-- RESULT MAP (Table 10-7). -/
def Device.answerMap (d : Device) (r : XReq) (v : Word) : Device :=
  match d.answerPage r.ctx r.va v with
  | none => d.failReq r stViolation 0x46
  | some x =>
    let d := d.install x
    let d := r.waiters.foldl (fun d w =>
      if w.2.1 < 16 then { d with xlt := d.xlt.fillL1 w.2.1 x } else d) d
    let d := r.waiters.foldl (fun d w =>
      if w.2.2.2 && !x.wr then d.failWaiter stViolation 0x45 w else d.wake w.1) d
    d.freeReq r.reqid

/-- The effect of an answer word (R314). -/
def Device.answer (d : Device) (v : Word) : Device :=
  match d.xlt.reqs.find? (fun r => r.reqid == bits v 11 0) with
  | none => d.count Reg.XLT_ANSWER_LATE 1
  | some r =>
    if r.destroyed then (d.count Reg.XLT_ANSWER_LATE 1).freeReq r.reqid
    else if r.withdrawn then d.count Reg.XLT_ANSWER_LATE 1
    else
      match bits v 17 16 with
      | 0 => d.answerMap r v
      | 1 => d.failReq r stXltFault 0x41
      | 2 => d.failReq r stViolation 0x47
      | _ => d.mapReq r.reqid (fun r => { r with since := d.now, resends := 0 })

/-- A write of XLT_ANSWER; requests of other devices that waited go on (R359). -/
def Device.answerWrite (d : Device) (v : Word) : Device := (d.answer v).serveAgain

/-- XLT_ANSWER (R311, R314). -/
def execXltAnswer (v : Word) (s : State) : Host.Outcome State Fault Refusal :=
  onRegister s Reg.XLT_ANSWER fun d => d.answerWrite v

/-- XLT_CTRL.RESEND in ns, 0 taken as 1 µs (Table 10-14). -/
def Device.resendNs (d : Device) : Nat := max 1 (d.fld Reg.XLT_CTRL Fld.XLT_CTRL_RESEND) * 1000

/-- XLT_RESEND (R313): a request unanswered for RESEND is sent again, or after the last resend its waiters
end. -/
def execXltResend (reqid : Nat) (s : State) : Host.Outcome State Fault Refusal :=
  onServing s fun d =>
    match d.xlt.reqs.find? (fun r => r.reqid == reqid) with
    | none => d
    | some r =>
      if !r.sent || r.withdrawn || r.destroyed || decide (d.now < r.since + d.resendNs) then d
      else if r.resends < d.fld Reg.XLT_CTRL Fld.XLT_CTRL_RETRIES then
        (d.mapReq reqid (fun r => { r with resends := r.resends + 1, resent := true, sent := false })).xltSend reqid
      else d.failReq r stXltFault 0x42

/-- A write of the translation request ring fails (R313): BLOCKED is set, every waiting miss ends, and the fault
log records it. -/
def Device.xltRingFail (d : Device) : Device :=
  let live := d.xlt.reqs.filter (fun r => !r.destroyed)
  let waiting := d.xlt.full
  let c := match live.find? (fun r => r.sent) with | some r => r.ctx | none => 0
  let d := { d with xlt := { d.xlt with
    blocked := true, ringHeld := [], full := [], reqs := d.xlt.reqs.filter (fun r => r.destroyed) } }
  let d := d.log 0x13 0 (unitCode 0 12) c 2 0 (BitVec.ofNat 64 c)
    (BitVec.ofNat 64 (d.fld Reg.XLT_REQ_CFG Fld.XLT_REQ_CFG_QPN))
  let d := live.foldl (fun d r =>
    r.waiters.foldl (fun d w => d.failWaiter stXltFault 0x43 w) (d.count Reg.XLT_REFUSED 1)) d
  waiting.foldl (fun d w => d.failWaiter stXltFault 0x43 w.1.2) d

/-- XLT_RING_WRITE_FAIL (R313). -/
def execXltRingWriteFail (s : State) : Host.Outcome State Fault Refusal := onServing s fun d => d.xltRingFail

/-- A write of XLT_REQ_CONS (R310): taken when it lies between the old count and the records written. -/
def Device.xltConsWrite (d : Device) (v : Word) : Device :=
  let cons := bits v 31 0
  let old := d.fld Reg.XLT_REQ_CONS Fld.XLT_REQ_CONS_CONS
  if (d.xlt.prod + 2 ^ 32 - old) % 2 ^ 32 < (cons + 2 ^ 32 - old) % 2 ^ 32 then d
  else (d.setReg Reg.XLT_REQ_CONS (BitVec.ofNat 64 cons)).xltDrain (d.xlt.ringHeld.length)

/-- XLT_REQ_CONS_WRITE (R310, R312). -/
def execXltReqConsWrite (v : Word) (s : State) : Host.Outcome State Fault Refusal :=
  onRegister s Reg.XLT_REQ_CONS fun d => d.xltConsWrite v

/-- A write of XLT_REQ_CFG (Table 10-16, R313). -/
def Device.xltCfgWrite (d : Device) (v : Word) : Device :=
  if bits v 4 0 < 6 || 12 < bits v 4 0 then d
  else
    let d := d.setReg Reg.XLT_REQ_CFG (v &&& 0xFFFFFFFFFFFFFF1F#64)
    let d := { d with xlt := { d.xlt with blocked := false } }
    d.xltDrain d.xlt.ringHeld.length

/-- XLT_REQ_CFG_WRITE (R313). -/
def execXltReqCfgWrite (v : Word) (s : State) : Host.Outcome State Fault Refusal :=
  onRegister s Reg.XLT_REQ_CFG fun d => d.xltCfgWrite v

/-- XLT_REQID_RECLAIM (R312): the late-answer interval of a REQID withdrawn by DESTROY has passed. -/
def execXltReqidReclaim (reqid : Nat) (s : State) : Host.Outcome State Fault Refusal :=
  onDevice s fun d =>
    match d.xlt.reqs.find? (fun r => r.reqid == reqid) with
    | none => d
    | some r =>
      let late := d.resendNs * (d.fld Reg.XLT_CTRL Fld.XLT_CTRL_RETRIES + 1)
      if r.destroyed && decide (r.since + late ≤ d.now) then d.freeReq reqid else d

/-! ### XLT_OP (R315) -/

def Device.xltOp? (d : Device) (id op : Nat) : Option Job :=
  match d.issued? id 0x32 with
  | some j => if j.cmd.arg 22 19 = op then some j else none
  | none => none

/-- REQID, RESULT and the reserved bits of the answer word in C2. -/
def answerReserved : Nat := span 11 0 + span 15 15 + span 20 16 + span 63 44

/-- XLT_MAP (R315). -/
def execXltMap (j : Nat) (s : State) : Host.Outcome State Fault Refusal :=
  onServing s fun d =>
    match d.xltOp? j 0 with
    | none => d
    | some k =>
      let va := k.cmd.c1.toNat
      if k.cmd.c2.toNat &&& answerReserved ≠ 0 then d.refuse k 0x01
      else if 2 ^ 52 ≤ va then d.endJob j (endC stViolation 0x44 k.cmd.opUnit 0 va)
      else
        match d.answerPage k.ctx va k.cmd.c2 with
        | none => d.endJob j (endC stViolation 0x46 k.cmd.opUnit 0 va)
        | some x => (d.install x).endJob j endOk

/-- Granules [first, first + count) that an UNMAP or FLUSH covers. -/
def Job.covers (j : Job) : Nat × Nat :=
  if j.cmd.arg 22 19 = 2 then (0, 2 ^ 31)
  else
    let a := j.cmd.c1.toNat
    let n := j.cmd.c2.toNat
    if n = 0 then (0, 0) else (a / 2 ^ 21, (a + n - 1) / 2 ^ 21 + 1 - a / 2 ^ 21)

/-- Whether an access in flight of context `c` still has to read within granules [g.1, g.1 + g.2) of the context's
space: lines of a preload (R270), or a row of a look-up (R165), as far as they have not been read (R308). -/
def Device.pinHolds (d : Device) (c : Nat) (g : Nat × Nat) (p : Pin) : Bool :=
  let hits (va n : Nat) : Bool := n != 0 && overlap va n (g.1 * 2 ^ 21) (g.2 * 2 ^ 21)
  match p with
  | .preload t j =>
    (match (d.sof t).preload with
    | some q => q.job == some j && q.acct == c && hits q.vaddr (128 * (q.runs.map (·.2)).sum)
    | none => false)
  | .row tag => d.rowReqs.any (fun r => r.tag == tag && r.ctx == c && r.lines.any (·.2.isNone) && hits r.va r.len)

/-- The accesses in flight that may hold pins. -/
def Device.pinsOut (d : Device) : List Pin :=
  (List.range 16).filterMap (fun t => ((d.sof t).preload.bind (·.job)).map (Pin.preload t)) ++ d.rowReqs.map (fun r => .row r.tag)

/-- Requests that an UNMAP or FLUSH withdraws (R315). -/
def Job.withdraws (j : Job) (r : XReq) : Bool :=
  r.ctx == j.ctx && !r.destroyed && overlap (r.va / 2 ^ 21) 1 j.covers.1 j.covers.2

/-- Completes an UNMAP or FLUSH: the requests it withdrew are sent again (R315). -/
def Device.unmapDone (d : Device) (k : Job) : Device :=
  let d := d.endJob k.id endOk
  let others := d.jobs.filter (fun j => j.cmd.opc == 0x32 && j.state == .waiting && j.id != k.id)
  let again := d.xlt.reqs.filter (fun r => r.withdrawn && k.withdraws r && !others.any (fun j => j.withdraws r))
  let d := { d with xlt := { d.xlt with pins := d.xlt.pins.filter (fun p => p.1 != k.id) } }
  again.foldl (fun d r =>
    (d.mapReq r.reqid (fun r => { r with withdrawn := false, resent := r.sent || r.resent, sent := false })).xltSend r.reqid) d

/-- Removes translations and withdraws requests, and completes at once when nothing is pinned (R315). -/
def Device.unmap (d : Device) (k : Job) : Device :=
  let g := k.covers
  if g.2 = 0 then d.endJob k.id endOk
  else
    let held := (d.pinsOut.filter (d.pinHolds k.ctx g)).map (fun p => (k.id, p))
    let hit := d.xlt.reqs.filter k.withdraws
    let d := { d with xlt := { d.xlt.remove k.ctx (g.1 * 2 ^ 21) (g.2 * 2 ^ 21) with
      reqs := d.xlt.reqs.map (fun r => if k.withdraws r then { r with withdrawn := true } else r)
      ringHeld := d.xlt.ringHeld.filter (fun i => !hit.any (fun r => r.reqid == i))
      pins := d.xlt.pins ++ held } }
    if held.isEmpty then d.unmapDone k else d.mapJob k.id (fun j => { j with state := .waiting })

/-- XLT_UNMAP (R315): a range that reaches beyond 2^52 is an address computation out of range (R306). -/
def execXltUnmap (j : Nat) (s : State) : Host.Outcome State Fault Refusal :=
  onServing s fun d =>
    match d.xltOp? j 1 with
    | none => d
    | some k =>
      if k.cmd.c2 ≠ 0 ∧ 2 ^ 52 < k.cmd.c1.toNat + k.cmd.c2.toNat then
        d.endJob j (endC stViolation 0x44 k.cmd.opUnit 0 k.cmd.c1.toNat)
      else d.unmap k

/-- XLT_FLUSH (R315). -/
def execXltFlush (j : Nat) (s : State) : Host.Outcome State Fault Refusal :=
  onServing s fun d => match d.xltOp? j 2 with | none => d | some k => d.unmap k

/-- XLT_UNMAP_COMPLETE (R315): the last access through a removed translation has issued. -/
def execXltUnmapComplete (j : Nat) (s : State) : Host.Outcome State Fault Refusal :=
  onServing s fun d =>
    match d.job? j with
    | none => d
    | some k =>
      if k.cmd.opc != 0x32 || k.state != .waiting || k.waitFrom.isSome then d
      else if (d.xlt.pins.filter (fun p => p.1 == j)).any (fun p => d.pinHolds k.ctx k.covers p.2) then d
      else d.unmapDone k

end Sys2Proof.Machine
end

