-- ==== Sys2Proof/Machine/Hod.lean ====
section
/-! DEFINITION. The Hod engine (R58 to R70, R273, R274, R359 to R361): transfers that move and convert data
between HBM, Loft and other devices. -/
namespace Sys2Proof.Machine

open Sys2Proof

/-! ### The descriptor (Table 09-6) and the conversion control word (Table 02-6) -/

abbrev HodDesc := List Word

def hodF (w : HodDesc) (k hi lo : Nat) : Nat := bits (wordAt w k) hi lo
def hodSrc (w : HodDesc) : Nat := hodF w 0 3 0
def hodDst (w : HodDesc) : Nat := hodF w 0 7 4
def hodBlk (w : HodDesc) : Nat := blkSize (hodF w 0 9 8)
def hodShare (w : HodDesc) : Bool := hodF w 0 10 10 == 1
def hodCarried (w : HodDesc) : Bool := hodF w 0 11 11 == 1
def hodRecompute (w : HodDesc) : Bool := hodF w 0 12 12 == 1
def hodNfFail (w : HodDesc) : Bool := hodF w 0 13 13 == 1
def hodOvfInf (w : HodDesc) : Bool := hodF w 0 14 14 == 1
def hodETensor (w : HodDesc) : Nat := hodF w 0 23 16
def hodN0 (w : HodDesc) : Nat := hodF w 4 31 0
def hodN1 (w : HodDesc) : Nat := hodF w 4 63 32
def hodN2 (w : HodDesc) : Nat := hodF w 5 31 0
def hodRow0 (w : HodDesc) : Nat := hodF w 13 39 0
def hodStride (w : HodDesc) (k : Nat) : Int := signed 48 (hodF w k 47 0)
/-- Pitch of the source, carried and destination scale streams. -/
def hodPitch (w : HodDesc) (k : Nat) : Nat := hodF w 14 (16 * k + 15) (16 * k)
def hodTotal (w : HodDesc) : Nat := hodN1 w * hodN2 w

/-- A non-zero reserved field. -/
def hodReserved (w : HodDesc) : Bool :=
  hodF w 0 15 15 != 0 || hodF w 0 63 24 != 0 || hodF w 1 63 52 != 0 || hodF w 2 63 52 != 0 || hodF w 3 63 40 != 0
    || hodF w 5 63 32 != 0 || (List.range 4).any (fun k => hodF w (6 + k) 63 48 != 0) || hodF w 10 63 52 != 0
    || hodF w 11 63 52 != 0 || hodF w 12 63 52 != 0 || hodF w 13 63 40 != 0 || hodF w 14 63 49 != 0 || hodF w 15 63 52 != 0

/-- A copy (R59): equal codes that name BYTES or a format. -/
def hodCopy (w : HodDesc) : Bool := hodSrc w == hodDst w && decide (hodSrc w ≤ 0xA)

/-- A pairing of Table 02-7. -/
def hodPaired (w : HodDesc) : Bool :=
  let s := hodSrc w
  let t := hodDst w
  (isFp s && (isShingle t || isQ8 t)) || (s == fmtS4 && t == fmtS8) || (isShingle s && isFp t)
    || (s == fmtAcc && (isFp t || isShingle t || isQ8 t || t == fmtI32))

/-- A conversion that names what the image has not enabled (R60); `caps` is HOD_CAPS. -/
def hodCapsMiss (w : HodDesc) (caps : Nat) : Bool :=
  let s := hodSrc w
  let t := hodDst w
  ((s == fmtS4 || t == fmtS4) && !caps.testBit 4) || ((isQ8 s || isQ8 t) && !caps.testBit 5)
    || ((s == fmtF64 || t == fmtF64) && !caps.testBit 6)
    || ((isShingle s || isShingle t) && !caps.testBit (hodF w 0 9 8))

/-- Streams in use: source scales, carried exponents, destination scales. -/
def hodSrcStream (w : HodDesc) : Bool := !hodCopy w && isShingle (hodSrc w) && hodF w 10 51 0 != 0
def hodCarStream (w : HodDesc) : Bool :=
  !hodCopy w && isShingle (hodDst w) && !isShingle (hodSrc w) && hodCarried w && hodF w 11 51 0 != 0
def hodDstStream (w : HodDesc) : Bool := !hodCopy w && isShingle (hodDst w)

/-- Blocks per row of the transfer. -/
def hodNb (w : HodDesc) : Nat := ceilDiv (hodN0 w) (hodBlk w)

/-- A pitch below its stream's blocks per row (R81). -/
def hodPitchBad (w : HodDesc) : Bool :=
  !hodShare w && ((hodSrcStream w && decide (hodPitch w 0 < hodNb w)) || (hodCarStream w && decide (hodPitch w 1 < hodNb w))
    || (hodDstStream w && decide (hodPitch w 2 < hodNb w)))

/-- The limits of an ACC source (R273); an ACC tile off a 128-byte boundary is moved where it lies, since no refusal is listed
(DESIGN CHOICE, log entry 118). -/
def hodAccBad (w : HodDesc) : Bool :=
  hodSrc w == fmtAcc && (decide (128 < hodN0 w) || hodStride w 6 % 128 != 0 || decide (hodStride w 6 < 8448))

/-- How a descriptor is refused, if it is (R59, R60, R273): the cause. -/
def hodRefusal (w : HodDesc) (caps : Nat) : Option Nat :=
  if hodReserved w || hodPitchBad w || hodAccBad w then some 0x07
  else if hodCopy w then none
  else if !hodPaired w then some 0x11
  else if hodCapsMiss w caps then some 0x12
  else none

/-! ### Units of work (Table 10-3, Table 10-4) -/

/-- Rows (flattened, from 0), elements and logical index of one block or piece. -/
structure HodUnit where
  rows : List Nat
  e0 : Nat
  cnt : Nat
  li : Nat
  deriving DecidableEq, Repr

/-- 0 pieces of up to 4 KiB, 1 blocks of a row, 2 groups of rows, 3 whole tiles. -/
def hodMode (w : HodDesc) : Nat :=
  if hodCopy w then (if hodSrc w = fmtAcc then 3 else 0)
  else if isShingle (hodSrc w) || isShingle (hodDst w) then (if hodShare w then 2 else 1)
  else 0

/-- Elements of a 4 KiB piece. -/
def hodPer (w : HodDesc) : Nat := 4096 * 8 / fmtBits (if hodCopy w then hodSrc w else hodDst w)

/-- What one step moves. A copy from ACC to ACC moves whole tiles of 8,448 bytes whatever N0 and N1 say, DSTR1 apart at the
destination (DESIGN CHOICE, log entry 118). -/
def hodUnit (w : HodDesc) (row piece : Nat) : HodUnit :=
  match hodMode w with
  | 1 =>
    let b := hodBlk w
    ⟨[row], piece * b, min b (hodN0 w - piece * b), (hodRow0 w + row) * hodNb w + piece⟩
  | 2 =>
    let b := hodBlk w
    let n := min (hodTotal w - row) (b - (hodRow0 w + row) % b)
    ⟨(List.range n).map (row + ·), 0, hodN0 w, (hodRow0 w + row) / b⟩
  | 3 =>
    let n := min 8 (hodN1 w - row % max 1 (hodN1 w))
    ⟨(List.range n).map (row + ·), 0, hodN0 w, 0⟩
  | _ =>
    let p := hodPer w
    ⟨[row], piece * p, min p (hodN0 w - piece * p), 0⟩

/-- The place after a unit. -/
def hodNext (w : HodDesc) (row piece : Nat) : Nat × Nat :=
  let u := hodUnit w row piece
  if u.e0 + u.cnt < hodN0 w then (row, piece + 1) else (row + max 1 u.rows.length, 0)

/-- Whether the source is read twice (R63, R88). -/
def hodTwice (w : HodDesc) : Bool :=
  hodMode w == 2 && isShingle (hodDst w) && !isShingle (hodSrc w) && (!hodCarried w || hodRecompute w)

/-! ### Addresses -/

/-- Distance of row `f` from SADDR: rows of an ACC source lie eight to a tile (R54). -/
def hodRowSrc (w : HodDesc) (f : Nat) : Int :=
  let i1 := f % max 1 (hodN1 w)
  let i2 := f / max 1 (hodN1 w)
  if hodSrc w = fmtAcc then i2 * hodStride w 7 + (i1 / 8 : Nat) * hodStride w 6 + (1024 * (i1 % 8) : Nat)
  else i2 * hodStride w 7 + i1 * hodStride w 6

/-- Distance of row `f` from DADDR; a copied tile counts as one row of tiles. -/
def hodRowDst (w : HodDesc) (f : Nat) : Int :=
  let i1 := f % max 1 (hodN1 w)
  let i2 := f / max 1 (hodN1 w)
  if hodMode w = 3 then i2 * hodStride w 9 + (i1 / 8 : Nat) * hodStride w 8 else i2 * hodStride w 9 + i1 * hodStride w 8

/-- Distance of a stream's entry for a unit from its base (R81); `k` is the stream's pitch number. A base off a 2-byte boundary
moves its entries with it (DESIGN CHOICE, log entry 118). -/
def hodEntryOff (w : HodDesc) (k : Nat) (row : Nat) (u : HodUnit) : Nat :=
  if hodShare w then 2 * u.li else 2 * (hodPitch w k * (hodRow0 w + row) + u.e0 / hodBlk w)

/-- What a unit reads: base word of the descriptor, distance, length. In order: for each row its data and,
for ACC, its column exponents; then the stream entry; then the records, read where QADDR says, on an 8-byte boundary or not
(DESIGN CHOICE, log entry 118). -/
def hodReads (w : HodDesc) (row : Nat) (u : HodUnit) : List (Nat × Int × Nat) :=
  let data := u.rows.flatMap fun f =>
    if hodMode w = 3 then (if f = row then [(1, hodRowSrc w f, 8448)] else [])
    else if hodSrc w = fmtAcc then
      [(1, hodRowSrc w f + 8 * u.e0, 8 * u.cnt),
       (1, hodRowSrc w f - (1024 * (f % max 1 (hodN1 w) % 8) : Nat) + 8192 + 2 * u.e0, 2 * u.cnt)]
    else [(1, hodRowSrc w f + (u.e0 * fmtBits (hodSrc w) / 8 : Nat), fmtBytesOf (hodSrc w) u.cnt)]
  let stream :=
    if hodSrcStream w then [(10, (hodEntryOff w 0 row u : Int), 2)]
    else if hodCarStream w then [(11, (hodEntryOff w 1 row u : Int), 2)] else []
  let recs :=
    if !hodCopy w && (isQ8 (hodDst w) || hodDst w == fmtI32) then
      (if hodF w 14 48 48 = 1 then [(15, (8 * u.e0 : Int), 8 * u.cnt)] else [(15, (0 : Int), 8)])
    else []
  data ++ stream ++ recs

/-- Device of a side, when it is another device (R359). -/
def Device.hodFar (d : Device) (w : HodDesc) (dest : Bool) : Option Nat :=
  let on := hodF w 3 (if dest then 3 else 2) (if dest then 3 else 2) == 1
  let dev := if dest then hodF w 3 39 22 else hodF w 3 21 4
  if on && dev != d.devnum then some dev else none

def hodLoft (w : HodDesc) (dest : Bool) : Bool := hodF w 3 (if dest then 1 else 0) (if dest then 1 else 0) == 1

/-- Bytes [a, a + n) out of remote replies, when all of it has come. -/
def fromFetched (fs : List (Nat × List Byte)) (a n : Nat) : Option (List Byte) :=
  (pieces 4096 a n).foldl (fun acc p =>
    match acc, fs.find? (fun f => f.1 == p.1 && f.2.length == p.2) with
    | some bs, some f => some (bs ++ f.2)
    | _, _ => none) (some [])

/-- A Loft pointer moved by a distance; none when it leaves its offset field. -/
def ptrMove (base : Word) (delta : Int) : Option Word :=
  let off : Int := bits base 24 0 + delta
  if off < 0 then none
  else if off.toNat < 2 ^ 25 then some (pack [(0, 25, off.toNat), (25, 39, bits base 63 25)]) else none

/-- A word that is no Loft pointer: a bit outside its fields is set. -/
def badPtr : Word := 0x40000000#64

/-- One read of a unit. -/
def Device.hodRead (d : Device) (c t : Nat) (w : HodDesc) (fs : List (Nat × List Byte)) (r : Nat × Int × Nat) :
    Device × Got (List Byte) :=
  let base := wordAt w r.1
  let unit := unitCode t 1
  if (d.hodFar w false).isSome then
    match fromFetched fs ((base.toNat : Int) + r.2.1).toNat r.2.2 with
    | some bs => (d, .ok bs)
    | none => (d, .fail (endC stRemoteLost 0x51 unit 0 0))
  else if hodLoft w false then
    match ptrMove base r.2.1 with
    | none => (d, .fail (endC stViolation 0 unit 0 0))
    | some p => d.ptrLoad c t unit true p r.2.2
  else d.vload c t unit (base.toNat + r.2.1) r.2.2

def Device.hodReadAll (d : Device) (c t : Nat) (w : HodDesc) (fs : List (Nat × List Byte)) :
    List (Nat × Int × Nat) → Device × Got (List (List Byte))
  | [] => (d, .ok [])
  | r :: rs =>
    match d.hodRead c t w fs r with
    | (d, .ok bs) =>
      match Device.hodReadAll d c t w fs rs with
      | (d, .ok l) => (d, .ok (bs :: l))
      | (d, .miss a x) => (d, .miss a x)
      | (d, .fail e) => (d, .fail e)
    | (d, .miss a x) => (d, .miss a x)
    | (d, .fail e) => (d, .fail e)

/-! ### Converting a unit -/

/-- What a unit comes to: the rows' bytes, the destination entry's exponent, and what it counts. -/
structure HodOut where
  rows : List (List Byte)
  exp : Option Nat
  tally : Tally
  deriving DecidableEq, Repr, Inhabited

/-- A floating-point input; on step A1 a subnormal one is zero and counts a loss (R70). -/
def hodInput (a1 : Bool) (f : Nat) (v : Nat) : FVal × Bool :=
  if a1 && (fpOf f).isSub v then (.fin ((fpOf f).neg v) ⟨0, 0⟩, true) else ((fpOf f).val v, false)

/-- Elements of a row as values, with the losses counted on the way in. -/
def hodValues (a1 : Bool) (w : HodDesc) (u : HodUnit) (f : Nat) (data exps : List Byte) : List (Nat × FVal) × Nat :=
  let s := hodSrc w
  let n := fmtBits s / 8
  let rs := (List.range u.cnt).map fun k =>
    if s = fmtAcc then
      let a := signed 64 (leNat (slice data (8 * k) 8))
      let x := signed 16 (leNat (slice exps (2 * k) 2))
      ((f * hodN0 w + u.e0 + k, FVal.fin (decide (a < 0)) ⟨a, x⟩), false)
    else
      let v := hodInput a1 s (leNat (slice data (n * k) n))
      ((f * hodN0 w + u.e0 + k, v.1), v.2)
  (rs.map (·.1), rs.countP (·.2))

def bytesOfPairs (n : Nat) (vs : List Nat) : List Byte := vs.flatMap (leBytes n)

/-- The record for element `k` of a unit. -/
def hodRec (w : HodDesc) (recs : List Byte) (k : Nat) : Word :=
  bytesWord (slice recs (if hodF w 14 48 48 = 1 then 8 * k else 0) 8)

/-- Converts one unit: `got` is what `hodReads` names, in its order. -/
def hodConvert (a1 : Bool) (w : HodDesc) (tolS8 tolS4 : Nat) (u : HodUnit) (got : List (List Byte)) : HodOut :=
  let s := hodSrc w
  let t := hodDst w
  if hodCopy w then { (default : HodOut) with rows := got }
  else
    let acc := s == fmtAcc
    let per := if acc then 2 else 1
    let nd := per * u.rows.length
    let rowData (i : Nat) : List Byte := got.getD (per * i) []
    let rowExp (i : Nat) : List Byte := got.getD (per * i + 1) []
    let tail := got.drop nd
    let ix := List.range u.rows.length
    if isShingle s then
      let e := if hodSrcStream w then entryExp (leNat (tail.headD [])) else hodETensor w
      if isShingle t then
        { rows := ix.map (fun i => (List.range u.cnt).map (fun k =>
            if e = 0 then 0 else BitVec.ofNat 8 (unsigned 8 (codeAt s (rowData i) k))))
          exp := some e, tally := default }
      else
        let rs := ix.map (fun i => (List.range u.cnt).map (fun k => fpElem t (hodOvfInf w) (codeVal (codeAt s (rowData i) k) e)))
        { rows := rs.map (fun r => bytesOfPairs (fmtBits t / 8) (r.map (·.1))), exp := none
          tally := (rs.flatten).foldl (fun a r => a.join r.2) default }
    else
      let vals := (u.rows.zip ix).map (fun p => hodValues a1 w u p.1 (rowData p.2) (rowExp p.2))
      let lost : Tally := { (default : Tally) with drl := vals.foldl (fun n v => n + v.2) 0 }
      let rows := vals.map (·.1)
      if isShingle t then
        let mode := if hodCarried w then
            .carried (if hodCarStream w then entryExp (leNat (tail.headD [])) else hodETensor w)
              (if t = fmtS8 then tolS8 else tolS4) (hodRecompute w)
          else .computed
        let q := quantBlock t mode rows.flatten
        { rows := (chunks (max 1 u.cnt) (max 1 u.rows.length) q.2.1).map (packCodes t), exp := some q.1, tally := lost.join q.2.2 }
      else if isFp t then
        let rs := rows.map (fun r => r.map (fun x =>
          match x.2 with | .fin _ v => fpElem t (hodOvfInf w) v | _ => (0, default)))
        { rows := rs.map (fun r => bytesOfPairs (fmtBits t / 8) (r.map (·.1))), exp := none
          tally := (rs.flatten).foldl (fun a r => a.join r.2) lost }
      else
        let recs := tail.headD []
        let one (k : Nat) (x : Nat × FVal) : Int × Tally :=
          if acc then
            match x.2 with
            | .fin _ v =>
              let rc := rescaleRec (hodRec w recs k) (t == fmtQ8S)
              let r := rescale (if t = fmtI32 then i32Range else q8Range t) v.n v.e rc.1 rc.2.1 (if t = fmtI32 then 0 else rc.2.2)
              (r.1, { (default : Tally) with sat := b2n r.2.1, drl := b2n r.2.2 })
            | _ => (0, default)
          else q8Elem t (hodRec w recs k) x
        let rs := rows.map (fun r => (r.zip (List.range r.length)).map (fun p => one p.2 p.1))
        let n := fmtBits t / 8
        { rows := rs.map (fun r => r.flatMap (fun x => leBytes n (unsigned (8 * n) x.1))), exp := none
          tally := (rs.flatten).foldl (fun a r => a.join r.2) lost }

/-- The scale entry a unit pairs, when its ordinal differs (R82, R83, R89): operand, data and scale ordinals. -/
def hodSkew (w : HodDesc) (u : HodUnit) (got : List (List Byte)) : Option (Nat × Nat × Nat) :=
  if hodSrcStream w || hodCarStream w then
    let per := if hodSrc w = fmtAcc then 2 else 1
    let ord := entryOrd (leNat (got.getD (per * u.rows.length) []))
    if ord ≠ u.li % 64 then some (if hodSrcStream w then 0 else 1, u.li % 64, ord) else none
  else none

/-! ### Stores -/

/-- Sends one request of a task to another device (R360, R361); false when it cannot be delivered. -/
def Device.sendRequest (d : Device) (j : Job) (t dev kind addr len : Nat) (payload : List Byte) : Device × Bool :=
  let (tag, d) := d.newTag
  let r : Remote :=
    { rtag := tag, job := j.id, truss := t, device := dev, kind := kind
      limit := max 1 (d.fld Reg.LNK_CTRL Fld.LNK_CTRL_HOD_TO) * 1000, deadline := none
      graced := false, bag := 0, pos := 0, sub := 0, addr := addr, len := len }
  let p : Packet :=
    { vc := if kind = 1 then 0 else 2, cls := 0, kind := if kind = 1 then 3 else 5, len := len, src := d.devnum, dst := dev
      addr := BitVec.ofNat 64 addr, ctx := j.ctx, tenant := (d.ctx j.ctx).tenant, rtag := tag, chk := 0, racc := 0
      fseq := 0, tgid := 0, gen := 0, payload := payload, unit := unitCode t 1 }
  ({ d with remotes := d.remotes ++ [r] }).send p

/-- Sends requests for pieces until one cannot be delivered. -/
def Device.sendRequests (d : Device) (j : Job) (t dev kind : Nat) : List (Nat × Nat × List Byte) → Device × Bool
  | [] => (d, true)
  | p :: ps =>
    match d.sendRequest j t dev kind p.1 p.2.1 p.2.2 with
    | (d, true) => Device.sendRequests d j t dev kind ps
    | (d, false) => (d, false)

/-- A task whose request has no way to its device (R362). -/
def Device.lostTask (d : Device) (j : Job) (unit dev : Nat) : Device :=
  (d.endJob j.id (endC stRemoteLost 0x53 unit dev 0)).dropRemotes j.id

/-- One store of a unit: base word, distance, bytes. -/
def Device.hodWrite (d : Device) (j : Job) (t : Nat) (w : HodDesc) (x : Nat × Int × List Byte) : Device × Got Unit :=
  let base := wordAt w x.1
  let unit := unitCode t 1
  match d.hodFar w true with
  | some dev =>
    let a := (base.toNat : Int) + x.2.1
    if !vaOk a x.2.2.length then (d, .fail (endC stViolation 0x44 unit 0 (unsigned 63 a)))
    else
      let a := a.toNat
      let r := d.sendRequests j t dev 2 ((pieces 4096 a x.2.2.length).map (fun p => (p.1, p.2, slice x.2.2 (p.1 - a) p.2)))
      if r.2 then (r.1, .ok ()) else (r.1, .fail (endC stRemoteLost 0x53 unit dev 0))
  | none =>
    if hodLoft w true then
      match ptrMove base x.2.1 with
      | none => (d, .fail (endC stViolation 0 unit 0 0))
      | some p => d.ptrStore j.ctx t unit true p x.2.2
    else d.vstore j.ctx t unit (base.toNat + x.2.1) x.2.2

def Device.hodWriteAll (d : Device) (j : Job) (t : Nat) (w : HodDesc) : List (Nat × Int × List Byte) → Device × Got Unit
  | [] => (d, .ok ())
  | x :: xs =>
    match d.hodWrite j t w x with
    | (d, .ok _) => Device.hodWriteAll d j t w xs
    | (d, .miss a v) => (d, .miss a v)
    | (d, .fail e) => (d, .fail e)

/-- The stores of a converted unit: its rows, then its scale entry (R82). -/
def hodStores (w : HodDesc) (row : Nat) (u : HodUnit) (o : HodOut) : List (Nat × Int × List Byte) :=
  let rows := (u.rows.zip o.rows).map fun p =>
    (2, hodRowDst w p.1 + (u.e0 * fmtBits (if hodCopy w then hodSrc w else hodDst w) / 8 : Nat), p.2)
  match o.exp with
  | some e => rows ++ [(12, (hodEntryOff w 2 row u : Int), leBytes 2 (scaleEntry e (u.li % 64)))]
  | none => rows

/-! ### The task -/

/-- The counters and flags of a converter (Tables 02-10, 02-11, 03-10). -/
def Device.hodCount (d : Device) (t : Nat) (y : Tally) : Device :=
  let d := (((((d.count (Reg.HOD_SAT t) y.sat).count (Reg.HOD_DRL t) y.drl).count (Reg.HOD_NONFINITE t) y.nonfinite).count
    (Reg.HOD_SCALE_MISS_LO t) y.missLo).count (Reg.HOD_SCALE_MISS_HI t) y.missHi)
  let set := hodFlagBits y.flags + 16 * b2n (y.nonfinite != 0)
  if set = 0 then d else d.setReg (Reg.HOD_FP_FLAGS t) (d.reg (Reg.HOD_FP_FLAGS t) ||| BitVec.ofNat 64 set)

/-- A refusal by an engine: its ending, and the fault log's record (kind 0x0C). -/
def Device.engineRefuse (d : Device) (j : Job) (unit cause index : Nat) (info1 : Word) : Device :=
  (d.endJob j.id (endC stInternal cause unit index 0)).log 0x0C 3 unit j.ctx 2 0 (BitVec.ofNat 64 cause) info1

/-- HOD_XFER (R58 to R60, R273): reads and checks the descriptor. -/
def execHodXfer (t : Truss) (s : State) : Host.Outcome State Fault Refusal :=
  onDevice s fun d =>
    match d.active? (.hod t) with
    | none => d
    | some j =>
      if j.run ≠ .none then d
      else
        let unit := unitCode t 1
        if j.cmd.c1.toNat % 8 ≠ 0 then d.engineRefuse j unit 0x06 j.index 0
        else
          Device.andThen (d.ptrLoad j.ctx t unit true j.cmd.c1 128) j.id 1 t fun d bs =>
            let w := bytesWords bs
            match hodRefusal w (d.trussSt t).hodCaps.toNat with
            | some c => d.engineRefuse j unit c j.index (if c = 0x07 then BitVec.ofNat 64 j.index else BitVec.ofNat 64 (hodF w 0 15 0))
            | none =>
              if hodTotal w = 0 ∨ hodN0 w = 0 then d.endJob j.id endOk
              else if (hodLoft w false && (d.hodFar w false).isSome) || (hodLoft w true && (d.hodFar w true).isSome) then
                d.endJob j.id (endC stViolation 0 unit 0 0)
              else
                let tolS8 := d.fld (Reg.HOD_SCALE_TOL t) Fld.HOD_SCALE_TOL_TOL_S8
                let tolS4 := d.fld (Reg.HOD_SCALE_TOL t) Fld.HOD_SCALE_TOL_TOL_S4
                d.mapJob j.id (fun j => { j with run := .hod w 0 0 tolS8 tolS4 [] [] false })

/-- A residue check of a Thatch or Hod datapath that failed (R387, R388); false when the task has ended. -/
def Device.residue (d : Device) (j : Job) (e : Engine) (u : Upset) : Device × Bool :=
  match u with
  | .none => (d, true)
  | .retryPassed _ kind =>
    ((((d.count Reg.FLT_RESIDUE_RETRY_OK 1).noteJob j.id noteRetryOk).log 0x03 2 (engUnit e) j.ctx 1 0 0
      (BitVec.ofNat 64 kind)).suspect (engTruss e), true)
  | .retryFailed site kind =>
    (((d.endJob j.id (endC stAbft 0 (engUnit e) site 0)).log 0x03 0 (engUnit e) j.ctx 2 0 0 (BitVec.ofNat 64 kind)).suspect
      (engTruss e), false)

/-- A scale skew of a Hod engine (R83, R91). -/
def Device.hodSkewed (d : Device) (j : Job) (t : Nat) (u : HodUnit) (k : Nat × Nat × Nat) : Device :=
  let d := d.count (Reg.HOD_SKEW t) 1
  let d := if d.fld (Reg.HOD_SKEW_INFO t) Fld.HOD_SKEW_INFO_VALID = 1 then d
    else d.setReg (Reg.HOD_SKEW_INFO t)
      (pack [(0, 6, k.2.1), (8, 6, k.2.2), (16, 6, j.ctx), (24, 39, u.li), (63, 1, 1)])
  let e := endB k.1 k.2.1 k.2.2 (unitCode t 1) u.li
  (d.endJob j.id e).log 0x08 0 (unitCode t 1) j.ctx 2 0 e.d0 (BitVec.ofNat 64 u.li)

/-- The first `n` bytes of a unit's stores, and the rest (Table 10-3). -/
def splitStores (n : Nat) : List (Nat × Int × List Byte) → List (Nat × Int × List Byte) × List (Nat × Int × List Byte)
  | [] => ([], [])
  | x :: xs =>
    if n = 0 then ([], x :: xs)
    else if x.2.2.length ≤ n then
      let r := splitStores (n - x.2.2.length) xs
      (x :: r.1, r.2)
    else ([(x.1, x.2.1, x.2.2.take n)], (x.1, x.2.1 + n, x.2.2.drop n) :: xs)

/-- A transfer all of whose units are stored: it completes when every remote write is acknowledged (R65, R359). -/
def Device.hodFinish (d : Device) (j : Job) (w : HodDesc) : Device :=
  if d.remotes.any (fun r => r.job == j.id) then d.yieldJob j.id
  else
    let rep := match d.job? j.id with | some j => j.report | none => j.report
    d.endJob j.id (if hodNfFail w && rep.nfIndex.isSome && !hodCopy w then ⟨stNonfinite, 0, 0⟩ else endOk)

/-- Asks the source device for what a unit still lacks (R360); true when all of it is here. A unit that reads its source
twice asks for it again once it has come (R63, R88). -/
def Device.hodFetch (d : Device) (j : Job) (t : Nat) (w : HodDesc) (row : Nat) (u : HodUnit) (fs : List (Nat × List Byte)) :
    Device × Bool :=
  match d.hodFar w false with
  | none => (d, true)
  | some dev =>
    let far := (hodReads w row u).find? (fun r => !vaOk (((wordAt w r.1).toNat : Int) + r.2.1) r.2.2)
    match far with
    | some r =>
      (d.endJob j.id (endC stViolation 0x44 (unitCode t 1) 0 (unsigned 63 (((wordAt w r.1).toNat : Int) + r.2.1))), false)
    | none =>
    let need := (hodReads w row u).flatMap fun r =>
      pieces 4096 (((wordAt w r.1).toNat : Int) + r.2.1).toNat r.2.2
    let short (n : Nat) : List (Nat × Nat) := need.filter fun p => fs.countP (fun f => f.1 == p.1 && f.2.length == p.2) < n
    let missing := if !(short 1).isEmpty then short 1 else if hodTwice w then short 2 else []
    if missing.isEmpty then (d, true)
    else
      let ask := missing.filter (fun p => !d.remotes.any (fun r => r.job == j.id && r.kind == 1 && r.addr == p.1 && r.len == p.2))
      match d.sendRequests j t dev 1 (ask.eraseDups.map (fun p => (p.1, p.2, []))) with
      | (d, true) => (d.yieldJob j.id, false)
      | (d, false) => (d.lostTask j (unitCode t 1) dev, false)

/-- Stores up to 4 KiB of a unit; the task goes on with the rest of it, or with the next unit (R302, Table 10-3). -/
def Device.hodPut (d : Device) (j : Job) (t : Nat) (w : HodDesc) (row piece a b : Nat) (fs : List (Nat × List Byte))
    (stores : List (Nat × Int × List Byte)) : Device :=
  let x := splitStores 4096 stores
  Device.andThen (d.hodWriteAll j t w x.1) j.id 1 t fun d _ =>
    let d := d.charge j.ctx .hodKib (x.1.foldl (fun n y => n + y.2.2.length) 0) t
    if !x.2.isEmpty then d.mapJob j.id (fun j => { j with run := .hod w row piece a b fs x.2 false })
    else
      let n := hodNext w row piece
      let d := d.mapJob j.id (fun j => { j with run := .hod w n.1 n.2 a b [] [] false })
      if hodTotal w ≤ n.1 then d.hodFinish j w else d

/-- A unit that is pre-empted before all of it is stored: one whose exponent comes from a first pass is done again from its
first row (Table 10-3). -/
def Run.hodAgain (r : Run) : Run :=
  match r with
  | .hod w row piece a b _ (_ :: _) _ => if hodTwice w then .hod w row piece a b [] [] true else r
  | _ => r

/-- HOD_TILE (R58, R61 to R70, R77, R82 to R90, R308): a transfer whose writes wait for link credit yields (R304). -/
def execHodTile (t : Truss) (u : Upset) (s : State) : Host.Outcome State Fault Refusal :=
  onDevice s fun d =>
    match d.active? (.hod t) with
    | none => d
    | some j =>
      match j.run with
      | .hod w row piece tolS8 tolS4 fs left again =>
        if hodTotal w ≤ row then d.hodFinish j w
        else if d.unsent j.id then
          Device.yieldJob { d with remotes := d.remotes.map (fun r => if r.job = j.id ∧ r.kind = 2 then { r with sub := 1 } else r) } j.id
        else if !left.isEmpty then d.hodPut j t w row piece tolS8 tolS4 fs left
        else
          let x := hodUnit w row piece
          match d.hodFetch j t w row x fs with
          | (d, false) => d
          | (d, true) =>
            let first := if hodTwice w then d.hodReadAll j.ctx t w fs (hodReads w row x) else (d, .ok [])
            Device.andThen first j.id 1 t fun d _ =>
            Device.andThen (d.hodReadAll j.ctx t w fs.reverse (hodReads w row x)) j.id 1 t fun d got =>
              match hodSkew w x got with
              | some k => d.hodSkewed j t x k
              | none =>
                match d.residue j (.hod t) u with
                | (d, false) => d
                | (d, true) =>
                  let o := hodConvert (d.fls.silicon == 0xA1) w tolS8 tolS4 x got
                  let d := if again then d else (d.hodCount t o.tally).report j.id o.tally.report
                  (d.mapJob j.id (fun j => { j with run := .hod w row piece tolS8 tolS4 fs [] true })).hodPut j t w row piece
                    tolS8 tolS4 fs (hodStores w row x o)
      | _ => d

/-- A remote access has ended; the task goes on, a transfer when none of that kind is outstanding, unless it waits for
a translation (R304). -/
def Device.remoteDone (d : Device) (r : Remote) : Device :=
  let d := { d with remotes := d.remotes.filter (fun q => q.rtag != r.rtag) }
  let forData := match d.job? r.job with | some j => j.waitFrom.isNone | none => false
  if (r.kind != 0 && d.remotes.any (fun q => q.job == r.job && q.kind == r.kind)) || !forData then d else d.wake r.job

/-- A Hod run with remote source bytes that have come. -/
def Run.withFetched (run : Run) (addr : Nat) (bs : List Byte) : Run :=
  match run with
  | .hod w row piece a b fs l g => .hod w row piece a b (fs ++ [(addr, bs)]) l g
  | x => x

/-- HOD_READ_REPLY (R360). -/
def execHodReadReply (rtag : Nat) (data : List Byte) (s : State) : Host.Outcome State Fault Refusal :=
  onDevice s fun d =>
    match d.remote? rtag with
    | none => d
    | some r =>
      if r.kind ≠ 1 then d
      else
        (d.mapJob r.job (fun j => { j with run := j.run.withFetched r.addr (slice data 0 r.len) })).remoteDone r

/-- HOD_REMOTE_WRITE_ACK (R359). -/
def execHodRemoteWriteAck (rtag : Nat) (s : State) : Host.Outcome State Fault Refusal :=
  onDevice s fun d =>
    match d.remote? rtag with
    | none => d
    | some r => if r.kind ≠ 2 then d else d.remoteDone r

/-- HOD_REMOTE_TIMEOUT (R361, R362). -/
def execHodRemoteTimeout (t : Truss) (s : State) : Host.Outcome State Fault Refusal :=
  onDevice s fun d =>
    let due (r : Remote) : Bool := r.truss == t && (r.kind == 1 || r.kind == 2) && r.late d.now
    match d.remotes.find? due with
    | none => d
    | some r => d.failRemote r.rtag stRemoteLost 0x51

end Sys2Proof.Machine
end

