-- ==== Sys2Proof/Machine/Ballast.lean ====
section
/-! DEFINITION. The ballast of the Rafter arrays: how it is counted and charged, and how ramps start (R122 to R125). -/
namespace Sys2Proof.Machine

open Sys2Proof

def Device.rafa (d : Device) (t a : Nat) : RafArray := tget d.raf (4 * t + a) default

def Device.mapRafa (d : Device) (t a : Nat) (f : RafArray → RafArray) : Device :=
  { d with raf := tmap d.raf (4 * t + a) default f }

/-- RAF_CTRL in force: while an instruction is under way, what it found at its start (Table 04-11). -/
def Device.rafCtrl (d : Device) (t a : Nat) : Word :=
  let r := d.rafa t a
  let midway (j : Job) : Bool :=
    j.state == .running &&
      (match j.engine, j.run with
      | some (.raf u b), .raf _ _ q _ => u.val == t && b.val == a && q.streams.any (·.begun)
      | _, _ => false)
  if r.inflight.isEmpty && !d.jobs.any midway then d.reg (Reg.RAF_CTRL t a) else r.ctrl.getD (d.reg (Reg.RAF_CTRL t a))

/-! ### Ballast while rows are missing (R122, R124) -/

/-- Up to when an array fills its slots: to now in a ramp-down, else to the end of the window. -/
def Device.fillEnd (d : Device) (t a : Nat) : Nat :=
  let r := d.rafa t a
  if r.rampDown then d.now else min d.now (r.lastRow + d.fld (Reg.RAF_BALLAST t a) Fld.RAF_BALLAST_WINDOW)

/-- Time in ns for which ballast has run and is not yet counted. -/
def Device.fillNs (d : Device) (t a : Nat) : Nat :=
  let r := d.rafa t a
  if r.duty = 0 || Fld.RAF_CTRL_BALLAST_EN.of (d.rafCtrl t a) = 0 then 0 else d.fillEnd t a - r.filled

/-- The ballast rows of that time: the duty's fraction of its slots (R122, R124). -/
def Device.fillRows (d : Device) (t a : Nat) : Nat := d.fillNs t a * d.mhzNow t * (d.rafa t a).duty / 16000

/-- Ballast rows that `ns` took: counted, and their energy and cycles charged to the device account (R122). -/
def Device.ballast (d : Device) (t a rows ns : Nat) : Device :=
  if rows = 0 then d
  else
    let x := d.takeFree
    let d := (x.2.mapRafa t a (fun r => { r with lfsr := BitVec.ofNat 32 x.1 })).count (Reg.RAF_BALLAST_ROWS t a) rows
    let d := d.charge deviceAccount .engineUs ns t
    { d with meter := d.meter.charge deviceAccount MQ.energy.num (Config.energyCoeff MQ.rafMac.num t * (rows * 16384)) }

/-- The ballast up to now is counted and charged. -/
def Device.fillCount (d : Device) (t a : Nat) : Device :=
  if d.fillRows t a = 0 then d
  else (d.ballast t a (d.fillRows t a) (d.fillNs t a)).mapRafa t a (fun r => { r with filled := d.fillEnd t a })

/-- A ramp-up starts, with the step length of this moment, unless one runs or the duty is full; a ramp-down stops at once
(R125). -/
def Device.rampUp (d : Device) (t a : Nat) : Device :=
  d.mapRafa t a fun r =>
    { r with
      rampDown := false
      rampUp := r.rampUp || decide (r.duty < 16)
      upStep := if r.rampUp then r.upStep else max 64 (d.fld (Reg.RAF_BALLAST t a) Fld.RAF_BALLAST_UP_STEP)
      lastStep := if r.rampUp then r.lastStep else d.now }

/-- Valid rows enter (R122, R125): the ballast since the last one ends; at full duty ballast fills the bubbles too. -/
def Device.rowsEnter (d : Device) (t a bubbles : Nat) : Device :=
  let d := (d.fillCount t a).rampUp t a
  let d := if (d.rafa t a).duty = 16 && Fld.RAF_CTRL_BALLAST_EN.of (d.rafCtrl t a) = 1 then
      d.ballast t a bubbles (bubbles * 1000 / max 1 (d.mhzNow t)) else d
  d.mapRafa t a fun r => { r with lastRow := d.now, filled := d.now }

/-- The ballast of every array up to now is counted and charged. -/
def Device.fillAll (d : Device) : Device := d.raf.foldl (fun d p => d.fillCount (p.1 / 4) (p.1 % 4)) d

end Sys2Proof.Machine
end

