-- ==== Sys2Proof/Machine/Metering.lean ====
section
/-! DEFINITION. Metering (14): charges of each µs, metering records, snapshots and audits. -/
namespace Sys2Proof.Machine

open Sys2Proof

def accounts : Nat := 65
def quantities : Nat := 32

def Device.trussIds : List Nat := List.range 16

/-- Granules of a truss's share region that contexts hold. -/
def TrussSt.heldGr (x : TrussSt) : Nat := x.slots.foldl (fun n p => if p.2.valid then n + p.2.size else n) 0

/-- The charges of one µs for a truss's share region (R420). -/
def Device.tickTruss (d : Device) (t : Nat) : Device :=
  let x := d.trussSt t
  if x.state = 1 then
    let d := x.slots.foldl (fun d p => if p.2.valid then d.charge p.2.ctx .loftGus p.2.size t else d) d
    d.charge deviceAccount .loftGus (x.shareGr - x.heldGr) t
  else d.charge deviceAccount .loftGus x.shareGr t

/-- METER_TICK (R420): one µs's granules, leakage and clock energy, and the measured energy. -/
def execMeterTick (s : State) : Host.Outcome State Fault Refusal :=
  onDevice s fun d =>
    if d.now < d.meter.lastTick + 1000 then d
    else
      let d := Device.trussIds.foldl (fun d t => d.tickTruss t) d.fillAll
      let n := d.meter.ticks
      let m := d.meter.charge deviceAccount MQ.energy.num (Config.leakage n)
      { d with meter := { m with
          ticks := n + 1, lastTick := m.lastTick + 1000
          measured := min (m.measured + Config.energyMeasured n) counterMax } }

/-! ### Metering records (R421) -/

def Device.meterEn (d : Device) : Bool := d.fld Reg.MTR_RING_CFG Fld.MTR_RING_CFG_EN == 1

def Device.meterFree (d : Device) : Nat :=
  2 ^ d.fld Reg.MTR_RING_CFG Fld.MTR_RING_CFG_SIZE_LOG2 - ((d.reg Reg.MTR_RING_PROD).toNat - (d.reg Reg.MTR_RING_CONS).toNat)

/-- A record's contents at capture: kind, account, tenant and quantities (Table 14-4). -/
structure MeterRec where
  kind : Nat
  account : Nat
  tenant : Nat
  snap : Nat
  time : Nat
  q : List Nat

/-- Quantities 0 to 27 of an account. -/
def Meter.acctQs (m : Meter) (a : Nat) : List Nat := (List.range 28).map (fun q => (tget m.acct (32 * a + q) default).whole)

def Device.acctRec (d : Device) (kind a snap : Nat) : MeterRec :=
  { kind := kind, account := a, tenant := if a < 64 then (d.ctx a).tenant else 0, snap := snap, time := d.now
    q := d.meter.acctQs a }

/-- The 256 bytes of a record numbered `n`. -/
def MeterRec.bytes (r : MeterRec) (n : Nat) : List Byte :=
  let ovf := r.q.any (fun x => x == counterMax)
  wordsBytes ([pack [(0, 8, r.kind), (8, 7, r.account), (15, 16, r.tenant), (31, 1, b2n ovf)],
    BitVec.ofNat 64 n, BitVec.ofNat 64 r.time, BitVec.ofNat 64 r.snap] ++ r.q.map (BitVec.ofNat 64))

/-- Writes a record to its slot; one that HBM refuses counts as written. The device account pays the write. -/
def Device.meterWrite (d : Device) (r : MeterRec) : Device :=
  let n := (d.reg Reg.MTR_RING_PROD).toNat
  let size := 2 ^ d.fld Reg.MTR_RING_CFG Fld.MTR_RING_CFG_SIZE_LOG2
  let addr := d.fld Reg.MTR_RING_BASE Fld.MTR_RING_BASE_ADDR * 256 + 256 * (n % size)
  let d := (d.hbmStore 0 deviceAccount addr (r.bytes n)).1
  (d.setReg Reg.MTR_RING_PROD (BitVec.ofNat 64 (n + 1))).count Reg.MTR_RECORDS 1

/-- A periodic record, skipped when the ring is full or off (R421, Table 14-9). -/
def Device.meterPeriodic1 (d : Device) (r : MeterRec) : Device :=
  if d.meterEn && d.meterFree != 0 then d.meterWrite r else d.count Reg.MTR_SKIPPED 1

/-- METER_PERIODIC (R421): at multiples of PERIOD, one record for each live account and the device account. -/
def execMeterPeriodic (s : State) : Host.Outcome State Fault Refusal :=
  onDevice s fun d =>
    let ns := d.fld Reg.MTR_CTRL Fld.MTR_CTRL_PERIOD * 1000000
    if ns = 0 || decide (d.now / ns ≤ d.meter.lastPeriod / ns) then d
    else
      let live := (List.range 64).filter (fun c => (d.ctx c).state != 0) ++ [deviceAccount]
      let rs := live.map (fun a => d.acctRec 0 a 0)
      let d := { d with meter := { d.meter with lastPeriod := d.now } }
      rs.foldl (fun d r => d.meterPeriodic1 r) d

/-- A snapshot's 67 records, captured at one instant. -/
def Device.snapRecs (d : Device) (snap : Nat) : List MeterRec :=
  (List.range accounts).map (fun a => d.acctRec 2 a snap) ++
    [{ kind := 3, account := 127, tenant := 0, snap := snap, time := d.now
       q := (List.range 28).map (fun q => tget d.meter.total q 0) },
     { kind := 4, account := 127, tenant := 0, snap := snap, time := d.now
       q := (List.range 28).map (fun q => tget d.meter.retired q 0) }]

/-- A write of MTR_SNAP (R421). -/
def Device.meterSnapWrite (d : Device) (v : Word) : Device :=
  let d := if bit v 2 then d.setFld Reg.MTR_SNAP Fld.MTR_SNAP_REFUSED 0 else d
  if !bit v 0 then d
  else if !d.meterEn || decide (d.meterFree < 67) then d.setFld Reg.MTR_SNAP Fld.MTR_SNAP_REFUSED 1
  else
    let n := d.meter.snap + 1
    let rs := d.snapRecs n
    let d := { d with meter := { d.meter with snap := n } }
    rs.foldl (fun d r => d.meterWrite r) d

/-- METER_SNAPSHOT (R421): MTR_SNAP written with GO. -/
def execMeterSnapshot (s : State) : Host.Outcome State Fault Refusal :=
  onRegister s Reg.MTR_SNAP fun d => d.meterSnapWrite 1

/-- A write of MTR_RING_CONS (Table 14-9): taken when it lies between the old count and PROD. -/
def Device.meterConsWrite (d : Device) (v : Word) : Device :=
  let old := (d.reg Reg.MTR_RING_CONS).toNat
  if old ≤ v.toNat && decide (v.toNat ≤ (d.reg Reg.MTR_RING_PROD).toNat) then d.setReg Reg.MTR_RING_CONS v else d

/-- MTR_RING_CONS_WRITE (R421). -/
def execMtrRingConsWrite (v : Word) (s : State) : Host.Outcome State Fault Refusal :=
  onRegister s Reg.MTR_RING_CONS fun d => d.meterConsWrite v

/-- A write of a ring's SIZE_LOG2 in [3:0] and EN in [4]: out of range it is discarded whole (R473), and while EN is 1
the size stays (Tables 13-14, 14-9). -/
def Device.ringCfgWrite (d : Device) (off lo hi : Nat) (v : Word) : Device :=
  let sz := bits v 3 0
  if sz < lo || hi < sz then d
  else if bit (d.reg off) 4 then d.setReg off ((d.reg off &&& 0xF#64) ||| (v &&& 0x10#64))
  else d.setReg off (v &&& 0x1F#64)

/-- A write of MTR_RING_CFG (Table 14-9). -/
def Device.meterCfgWrite (d : Device) (v : Word) : Device := d.ringCfgWrite Reg.MTR_RING_CFG 7 14 v

/-- The final record and the retirement of an account (R421, R422); none while the ring has no slot or is
off. -/
def Device.meterFinal (d : Device) (c : Nat) : Option Device :=
  if !d.meterEn || d.meterFree = 0 then none
  else
    let d := d.meterWrite (d.acctRec 1 c 0)
    some { d with meter := (List.range quantities).foldl (fun m q => m.retire c q) d.meter }

/-! ### Audits (R425) -/

/-- R423 for one quantity: the difference, 0 when it holds or when a value is at its maximum. -/
def Meter.defect (m : Meter) (q : Nat) : Nat :=
  let tot := tget m.total q 0
  let ret := tget m.retired q 0
  let vals := (List.range accounts).map (fun a => (tget m.acct (32 * a + q) default).whole)
  let sum := vals.foldl (· + ·) 0 + ret
  if tot = counterMax || ret = counterMax || vals.any (· == counterMax) then 0
  else if tot ≤ sum then sum - tot else tot - sum

/-- Held and free granules against the share region (Table 14-5). -/
def TrussSt.defect (x : TrussSt) : Nat :=
  let lo := x.stageGr + x.soffitGr
  let free := (List.range x.shareGr).countP (fun g => x.slots.all (fun p => !p.2.valid || !overlap (lo + g) 1 p.2.base p.2.size))
  let sum := x.heldGr + free
  if x.shareGr ≤ sum then sum - x.shareGr else x.shareGr - sum

/-- ISSUED against WRITTEN and HELD of a Gutter ring (Table 14-10). -/
def Gutter.defect (g : Gutter) : Nat :=
  let sum := g.written + g.held.length
  if g.issued ≤ sum then sum - g.issued else g.issued - sum

/-- A failed check sets its bit, counts, and writes a record of kind 0x16. -/
def Device.auditFail (d : Device) (b diff : Nat) : Device :=
  if diff = 0 then d
  else
    let d := d.setReg Reg.MTR_AUDIT (d.reg Reg.MTR_AUDIT ||| BitVec.ofNat 64 (2 ^ b))
    (d.count Reg.MTR_AUDIT_ERR 1).log 0x16 0 0 noCtx 0 0 (BitVec.ofNat 64 b) (BitVec.ofNat 64 diff)

/-- METER_AUDIT (R425): once per ms. -/
def execMeterAudit (s : State) : Host.Outcome State Fault Refusal :=
  onDevice s fun d =>
    if d.fld Reg.MTR_CTRL Fld.MTR_CTRL_AUDIT_EN = 0 || decide (d.now < d.meter.lastAudit + 1000000) then d
    else
      let loft := Device.trussIds.foldl (fun n t => n + (d.trussSt t).defect) 0
      let gut := d.gut.foldl (fun n p => n + p.2.defect) 0
      let met := (List.range quantities).foldl (fun n q => n + d.meter.defect q) 0
      let d := { d with meter := { d.meter with lastAudit := d.now } }
      ((d.auditFail 0 loft).auditFail 1 gut).auditFail 2 met

end Sys2Proof.Machine
end

