-- ==== Sys2Proof/Machine/Trusses.lean ====
section
/-! DEFINITION. Truss tests, quarantine and steps (13), and the clock controls of R390, R410 and R445. -/
namespace Sys2Proof.Machine

open Sys2Proof

def Device.susp (d : Device) (t : Nat) : Suspect := tget d.suspects t default

def Device.setSusp (d : Device) (t : Nat) (u : Suspect) : Device := { d with suspects := tset d.suspects t u }

/-- HOLDERS of a truss. -/
def Device.holders (d : Device) (t : Nat) : Nat := ((d.trussSt t).slots.filter (fun p => p.2.valid)).length

/-- The registers of a truss's block other than its counters (R452). -/
def Device.resetTrussRegs (d : Device) (t : Nat) : Device :=
  { d with regs := d.regs.filter (fun p =>
      p.1 / 0x100000 != 16 + t || (match regRowAt p.1 with | some r => r.counter | none => false)) }

/-- A Soffit slice that is off and empty. -/
def Soffit.off (s : Soffit) : Soffit := { (default : Soffit) with ways := s.ways, sets := s.sets, nextMiss := s.nextMiss }

/-- The truss reset of Table 15-11: its arithmetic and its Loft slice control; counters stay (R415). -/
def Device.resetTruss (d : Device) (t : Nat) : Device :=
  let d := d.resetTrussRegs t
  { d with
    raf := d.raf.filter (fun p => p.1 / 4 != t)
    lth := d.lth.filter (fun p => p.1 / 2 != t)
    atn := tdel d.atn t
    soffit := tset d.soffit t (tget d.soffit t default).off }

/-! ### Truss tests (R395, R396) -/

/-- Starts the test of truss `t`: STATE 3 and the truss reset. -/
def Device.beginTest (d : Device) (t : Nat) : Device :=
  let u := d.susp t
  let d := d.setSusp t { u with testWait := false, testing := true }
  ((d.resetTruss t).setTruss t { d.trussSt t with state := 3 }).count Reg.FLT_TESTS 1

/-- The waiting test of a tile that comes first and whose truss no context holds. -/
def Device.nextTest (d : Device) (tile : Nat) : Option Nat :=
  let ready := ((List.range 4).map (4 * tile + ·)).filter (fun t => (d.susp t).testWait && d.holders t == 0)
  ready.foldl (fun m t =>
    match m with
    | none => some t
    | some b => if (d.susp t).testAt < (d.susp b).testAt then some t else some b) none

/-- Starts waiting tests, at most one running on each compute tile (R395). -/
def Device.startTests (d : Device) : Device :=
  (List.range 4).foldl (fun d tile =>
    if (List.range 4).any (fun i => (d.susp (4 * tile + i)).testing) then d
    else match d.nextTest tile with | some t => d.beginTest t | none => d) d

/-- Queues a test; it starts at once where it may. -/
def Device.askTest (d : Device) (t for_ : Nat) : Device :=
  let last := d.suspects.foldl (fun m p => max m p.2.testAt) 0
  (d.setSusp t { d.susp t with testWait := true, testAt := last + 1, testFor := for_ }).startTests

/-- Whether context `c` owns a finished-tile queue that holds entries (R137). -/
def LthEngine.owns (q : LthEngine) (c : Nat) : Bool := q.qowner == some c && !q.queue.isEmpty

/-- RELEASE_COMPLETE (R298): the slot is free once no started task of the context is left on the truss and
it owns no finished-tile queue there; under FORCE the queued entries are discarded.
A test that waits for the truss may start (R395). -/
def execReleaseComplete (c : Ctx) (t : Truss) (s : State) : Host.Outcome State Fault Refusal :=
  onDevice s fun d =>
    let x := d.trussSt t
    let mine := x.releasing.filter (fun r => r.1 == c.val)
    match d.slotOf? c t with
    | none => d
    | some (i, sl) =>
      if mine.isEmpty || !sl.ready || d.jobs.any (fun j => j.startedTask && j.ctx == c.val && j.onTruss t) then d
      else
        let d := if mine.any (fun r => r.2.1) then d.discardQueues c t else d
        if [0, 1].any (fun e => (tget d.lth (2 * t.val + e) default).owns c.val) then d
        else
          let x := d.trussSt t
          let d := d.setTruss t { x with
            slots := tdel x.slots i, releasing := x.releasing.filter (fun r => r.1 != c.val) }
          (mine.foldl (fun d r => match r.2.2 with | some j => d.endJob j endOk | none => d) d).startTests

/-- A truss's slice is disabled and invalidated (R392, R395). -/
def Device.sliceOff (d : Device) (t : Nat) : Device :=
  { d with soffit := tset d.soffit t (tget d.soffit t default).off }.setFld (Reg.SOF_CTRL t) Fld.SOF_CTRL_ENABLE 0

/-- A truss's arrays send no ballast any more (R392): what ran until now is counted, and the duty falls to 0. -/
def Device.ballastOff (d : Device) (t : Nat) : Device :=
  (List.range 4).foldl (fun d a =>
    if thas d.raf (4 * t + a) then
      (d.fillCount t a).mapRafa t a (fun r => { r with duty := 0, rampDown := false, rampUp := false })
    else d) d

/-- A truss leaves service (R392, R396): its slice is off and empty, its arrays send no ballast, the store keeps it
(R391), and a TEST that waits for its release falls away: only UNQUARANTINE tests a quarantined truss. -/
def Device.quarantine (d : Device) (t n : Nat) : Device :=
  let d := (d.setSusp t { d.susp t with qpend := false, testWait := false }).sliceOff t
  let d := d.ballastOff t
  let d := { d.setTruss t { d.trussSt t with state := 4 } with
    fls := { d.fls with storedQuar := d.fls.storedQuar ||| (1#16 <<< t) } }
  (d.count Reg.FLT_QUARANTINES 1).log 0x0F 0 (unitCode t 0) noCtx 5 0 (d.fltTruss t) (BitVec.ofNat 64 n)

/-- QUARANTINE_APPLY (R392). -/
def execQuarantineApply (t : Truss) (s : State) : Host.Outcome State Fault Refusal :=
  onDevice s fun d =>
    if (d.susp t).qpend && d.holders t == 0 && (d.trussSt t).state == 1 then d.quarantine t (d.windowed (d.susp t).events).length else d

/-- QUARANTINE_FORCE (R392): QWAIT after quarantine became pending, every holder releases by force. -/
def execQuarantineForce (t : Truss) (s : State) : Host.Outcome State Fault Refusal :=
  onDevice s fun d =>
    let w := d.fld Reg.FLT_CTRL Fld.FLT_CTRL_QWAIT
    if (d.susp t).qpend && w != 0 && decide ((d.susp t).qpendAt + w * 10 ^ 9 ≤ d.now) then
      (d.trussSt t).slots.foldl (fun d p =>
        if p.2.valid && !(d.trussSt t).releasing.any (fun r => r.1 == p.2.ctx && r.2.1) then d.startRelease p.2.ctx t true none
        else d) d
    else d

/-- A write of FLT_TRUSS_CMD keeps UNIT and OP (Table 13-12); GO issues the operation `op`. -/
def Device.trussCmd (d : Device) (v : Word) (op : Nat) (act : Device → Nat → Device) : Device :=
  if bits v 7 5 ≠ op then d
  else
    let d := d.setReg Reg.FLT_TRUSS_CMD (v &&& 0xFF#64)
    if bit v 63 then act d (bits v 4 0) else d

/-- TEST: waits until HOLDERS is 0 (R395); one already waiting or running stands. -/
def Device.opTest (d : Device) (u : Nat) : Device :=
  if u < 16 && (d.trussSt u).state == 1 && !(d.susp u).testWait then d.askTest u 0 else d

/-- TEST_FORCE: refused with RESULT 3 when the truss is held (R395). -/
def Device.opTestForce (d : Device) (u : Nat) : Device :=
  if 16 ≤ u || (d.trussSt u).state != 1 then d
  else if d.holders u ≠ 0 then d.setSusp u { d.susp u with result := 3 }
  else if (d.susp u).testWait then d
  else d.askTest u 0

/-- A truss returns to step 0 (R391); during a Flashing restart voltages and ceilings stay, and the partition acts
once it is back, in arrival order (R410): 32 + the truss waits among the held events. -/
def Device.toStep0 (d : Device) (t : Nat) : Device :=
  if d.fls.restarting then { d with fls := { d.fls with heldEvents := d.fls.heldEvents ++ [32 + t] } }
  else d.applyStep t 0

/-- RELAX: an available truss with no quarantine pending returns to step 0 (R396). -/
def Device.opRelax (d : Device) (u : Nat) : Device :=
  if u < 16 && (d.trussSt u).state == 1 && !(d.susp u).qpend then d.toStep0 u else d

/-- UNQUARANTINE: tests a quarantined truss (R396) or returns a collective engine to use (R394). -/
def Device.opUnquarantine (d : Device) (u : Nat) : Device :=
  if u < 16 then
    (if (d.trussSt u).state = 4 ∧ !(d.susp u).testWait then d.askTest u 1 else d)
  else if u < 18 then
    { d with colq := d.colq &&& ~~~ (1#2 <<< (u - 16)), suspects := tset d.suspects u { d.susp u with events := [] } }
  else d

/-- TEST (R395). -/
def execTest (v : Word) (s : State) : Host.Outcome State Fault Refusal :=
  onRegister s Reg.FLT_TRUSS_CMD fun d => d.trussCmd v 1 Device.opTest

/-- TEST_FORCE (R395). -/
def execTestForce (v : Word) (s : State) : Host.Outcome State Fault Refusal :=
  onRegister s Reg.FLT_TRUSS_CMD fun d => d.trussCmd v 2 Device.opTestForce

/-- RELAX (R396). -/
def execRelax (v : Word) (s : State) : Host.Outcome State Fault Refusal :=
  onRegister s Reg.FLT_TRUSS_CMD fun d => d.trussCmd v 3 Device.opRelax

/-- UNQUARANTINE (R394, R396). -/
def execUnquarantine (v : Word) (s : State) : Host.Outcome State Fault Refusal :=
  onRegister s Reg.FLT_TRUSS_CMD fun d => d.trussCmd v 4 Device.opUnquarantine

/-- What a test leaves (R395, R396): Loft zero, the slice invalid, RESULT, a record of kind 0x10, and the
truss available, back at step 0, or quarantined. -/
def Device.endTest (d : Device) (t : Nat) (pass : Bool) (funit micros : Nat) : Device :=
  let u := d.susp t
  let d := d.setSusp t { u with testing := false, result := if pass then 1 else 2, funit := if pass then 0 else funit % 16 }
  let d := (d.loftZero t 0 loftSize).sliceOff t
  let d := d.charge deviceAccount .engineUs (micros * 1000) t
  let d := if pass then d.setTruss t { d.trussSt t with state := 1 } else d.suspect t
  let d :=
    if pass && u.testFor == 1 then
      let d := d.toStep0 t
      { d with fls := { d.fls with storedQuar := d.fls.storedQuar &&& ~~~ (1#16 <<< t) } }
    else d
  let d := d.log 0x10 (if pass then 3 else 0) (unitCode t 0) noCtx (if pass then 0 else 5) 0
    (pack [(0, 8, if pass then 1 else 2), (8, 8, if pass then 0 else funit)]) (BitVec.ofNat 64 micros)
  let d :=
    if pass then d
    else if u.testFor == 1 then d.setTruss t { d.trussSt t with state := 4 }
    else d.quarantine t (d.windowed (d.susp t).events).length
  d.startTests

/-! ### Clocks (R390, R410, R445) -/

/-- Moves a truss clock by one step of 100 MHz, at most one per 100 µs; the truss holds while it relocks. -/
def Device.moveClock (d : Device) (t : Nat) (dir : ClockDir) : Device :=
  let m := tget d.clk.mhz t 0
  let lim := stepCeil (d.trussStep t)
  let m' := match dir with | .down => if 1300 ≤ m then m - 100 else m | .up => if m + 100 ≤ lim then m + 100 else m
  if m' = m || (thas d.clk.lastMove t && decide (d.now < tget d.clk.lastMove t 0 + 100000)) then d
  else
    { d with clk := { d.clk with
        mhz := tset d.clk.mhz t m', lastMove := tset d.clk.lastMove t d.now
        locked := d.clk.locked &&& ~~~ (1#16 <<< t) } }

def Device.atCeiling (d : Device) (t : Nat) : Bool := decide (stepCeil (d.trussStep t) ≤ tget d.clk.mhz t 0)

/-- The package power limit (R445). -/
def Device.powerLimit (d : Device) : Nat := min 1800 d.fls.plimit

/-- POWER_CONTROL_STEP (R4, R445): down while the package draws more than the limit, up while it does not and
the truss is held; the partition moves nothing while it restarts (R410). -/
def execPowerControlStep (t : Truss) (dir : ClockDir) (watts : Nat) (s : State) : Host.Outcome State Fault Refusal :=
  onDevice s fun d =>
    if !d.windowOpen Reg.FLT_CTRL || d.fls.restarting then d
    else
      let d := { d with clk := { d.clk with watts := watts } }
      match dir with
      | .down =>
        if watts ≤ d.powerLimit then d
        else
          let d := d.moveClock t .down
          { d with clk := { d.clk with powerHeld := d.clk.powerHeld ||| (1#16 <<< t.val) } }
      | .up =>
        if d.powerLimit < watts || !d.clk.powerHeld.toNat.testBit t || d.clk.thermHeld.toNat.testBit (t / 4) then d
        else
          let d := d.moveClock t .up
          if d.atCeiling t then { d with clk := { d.clk with powerHeld := d.clk.powerHeld &&& ~~~ (1#16 <<< t.val) } } else d

/-- THERM_THROTTLE (R445): a sensor above 105 °C. -/
def execThermThrottle (tile : Tile) (celsius : Nat) (s : State) : Host.Outcome State Fault Refusal :=
  onDevice s fun d =>
    if !d.windowOpen Reg.FLT_CTRL || celsius ≤ 105 || 115 ≤ celsius || d.fls.restarting then d
    else
      let d := { d with clk := { d.clk with
        temps := tset d.clk.temps tile celsius, thermHeld := d.clk.thermHeld ||| (1#4 <<< tile.val)
        coolSince := tdel d.clk.coolSince tile } }
      (List.range 4).foldl (fun d i => d.moveClock (4 * tile.val + i) .down) d

/-- THERM_RESTORE (R445): the tile's sensor at most 102 °C; once it has stayed so for 10 ms the clocks rise. -/
def execThermRestore (tile : Tile) (celsius : Nat) (s : State) : Host.Outcome State Fault Refusal :=
  onDevice s fun d =>
    if !d.windowOpen Reg.FLT_CTRL || d.fls.restarting || !d.clk.thermHeld.toNat.testBit tile then d
    else
      let d := { d with clk := { d.clk with temps := tset d.clk.temps tile celsius } }
      if 102 < celsius then { d with clk := { d.clk with coolSince := tdel d.clk.coolSince tile } }
      else if !thas d.clk.coolSince tile then { d with clk := { d.clk with coolSince := tset d.clk.coolSince tile d.now } }
      else if d.now < tget d.clk.coolSince tile 0 + 10000000 then d
      else
        let mine := (List.range 4).map (4 * tile.val + ·)
        let d := mine.foldl (fun d t => if d.clk.powerHeld.toNat.testBit t then d else d.moveClock t .up) d
        if mine.all (fun t => d.atCeiling t || d.clk.powerHeld.toNat.testBit t) then
          { d with clk := { d.clk with thermHeld := d.clk.thermHeld &&& ~~~ (1#4 <<< tile.val)
                                       coolSince := tdel d.clk.coolSince tile } }
        else d

/-- CLOCK_RELOCKED (R390): the truss clock has relocked and its engines continue. -/
def execClockRelocked (t : Truss) (s : State) : Host.Outcome State Fault Refusal :=
  onDevice s fun d =>
    if d.windowOpen Reg.FLT_CTRL && d.clk.coreOk then
      { d with clk := { d.clk with locked := d.clk.locked ||| (1#16 <<< t.val) } }
    else d

/-- ANALOG_CURRENT_LIMITER (R410): it acts only during a Flashing restart. -/
def execAnalogCurrentLimiter (past : Bool) (s : State) : Host.Outcome State Fault Refusal :=
  onDevice s fun d =>
    if !d.windowOpen Reg.FLT_CTRL then d
    else { d with clk := { d.clk with limiter := past && d.fls.restarting } }

/-! ### The fault-log ring's consumer count (R407) -/

/-- A write of FLT_LOG_CONS (Table 13-14): taken when it lies between the old count and PROD. -/
def Device.logConsWrite (d : Device) (v : Word) : Device :=
  let old := (d.reg Reg.FLT_LOG_CONS).toNat
  if old ≤ v.toNat && decide (v.toNat ≤ (d.reg Reg.FLT_LOG_PROD).toNat) then d.setReg Reg.FLT_LOG_CONS v else d

/-- FLT_LOG_CONS_WRITE (R407). -/
def execFltLogConsWrite (v : Word) (s : State) : Host.Outcome State Fault Refusal :=
  onRegister s Reg.FLT_LOG_CONS fun d => d.logConsWrite v

end Sys2Proof.Machine
end

