-- ==== Sys2Proof/Machine/Lath.lean ====
section
/-! DEFINITION. The Lath engines (05): registers of a bank, instruction fields and refusals (R140 to R143), how an
instruction retires, and the rows that act on the task, the queue and fences. -/
namespace Sys2Proof.Machine

open Sys2Proof

/-! ### Banks (R130) -/

def lanes : List Nat := List.range 128

def LthBank.vec (b : LthBank) (r : Nat) : List (BitVec 32) := tget b.v r (List.replicate 128 0)

/-- Lanes of a register as signed integers. -/
def LthBank.ints (b : LthBank) (r : Nat) : List Int := (b.vec r).map BitVec.toInt

/-- Lanes of a pair as signed 64-bit integers. -/
def LthBank.pairs (b : LthBank) (r : Nat) : List Int :=
  ((b.vec r).zip (b.vec (r + 1))).map (fun p => signed 64 (p.1.toNat + 2 ^ 32 * p.2.toNat))

/-- Lanes of a tracked group. -/
def LthBank.group (b : LthBank) (r : Nat) : List Tracked :=
  ((b.pairs r).zip (b.vec (r + 2))).map (fun p => ⟨p.1, signed 16 p.2.toNat⟩)

/-- A mask register; MK0 reads all ones. -/
def LthBank.maskReg (b : LthBank) (k : Nat) : BitVec 128 := if k % 8 = 0 then BitVec.allOnes 128 else tget b.mask (k % 8) 0

/-- A scalar register; S0 reads zero. -/
def LthBank.s (b : LthBank) (k : Nat) : Word := if k % 16 = 0 then 0 else tget b.sr (k % 16) 0

def LthBank.setS (b : LthBank) (k : Nat) (w : Word) : LthBank :=
  if k % 16 = 0 then b else { b with sr := tset b.sr (k % 16) w }

/-- Writes the lanes that the mask names; the others keep their value or take zero (R141). -/
def LthBank.setVec (b : LthBank) (r : Nat) (m : BitVec 128) (mz : Bool) (xs : List (BitVec 32)) : LthBank :=
  let old := b.vec r
  let new := lanes.map fun i => if m.getLsbD i then xs.getD i 0 else if mz then 0 else old.getD i 0
  { b with v := tset b.v (r % 32) new }

def LthBank.setInts (b : LthBank) (r : Nat) (m : BitVec 128) (mz : Bool) (xs : List Int) : LthBank :=
  b.setVec r m mz (xs.map (BitVec.ofInt 32))

def LthBank.setPairs (b : LthBank) (r : Nat) (m : BitVec 128) (mz : Bool) (xs : List Int) : LthBank :=
  let u := xs.map (unsigned 64)
  (b.setVec r m mz (u.map (BitVec.ofNat 32))).setVec (r + 1) m mz (u.map (fun n => BitVec.ofNat 32 (n / 2 ^ 32)))

def LthBank.setGroup (b : LthBank) (r : Nat) (m : BitVec 128) (mz : Bool) (xs : List Tracked) : LthBank :=
  (b.setPairs r m mz (xs.map (·.a))).setInts (r + 2) m mz (xs.map (·.x))

/-- Writes a mask register; MK0 is never written. -/
def LthBank.setMask (b : LthBank) (k : Nat) (m : BitVec 128) (mz : Bool) (bits : BitVec 128) : LthBank :=
  if k % 8 = 0 then b
  else { b with mask := tset b.mask (k % 8) ((bits &&& m) ||| (if mz then 0 else b.maskReg k &&& ~~~ m)) }

/-- The mask of the lanes that `f` holds for. -/
def maskOf (f : Nat → Bool) : BitVec 128 := BitVec.ofNat 128 (lanes.foldl (fun n i => if f i then n + 2 ^ i else n) 0)

def LthBank.raise (b : LthBank) (f : Flags) : LthBank := { b with flags := b.flags ||| f }

/-! ### Instructions (R140) -/

structure LthIns where
  opc : Nat
  vd : Nat
  va : Nat
  vb : Nat
  vc : Nat
  lm : Nat
  mz : Bool
  t : Nat
  ib : Bool
  rsv : Nat
  imm : Int

def lthDecode (w : Word) : LthIns where
  opc := bits w 7 0
  vd := bits w 12 8
  va := bits w 17 13
  vb := bits w 22 18
  vc := bits w 27 23
  lm := bits w 30 28
  mz := bit w 31
  t := bits w 35 32
  ib := bit w 36
  rsv := bits w 39 37
  imm := signed 24 (bits w 63 40)

/-- What a register field names. -/
inductive LthKind where
  | none | vec | pair | group | scalar | mask
  deriving DecidableEq, Repr

/-- The operands an instruction takes: the kinds of VD, VA, VB and VC; whether MK, MZ and IB have a use; whether IMM
is used by itself; and whether the value of T is one it has. -/
structure LthForm where
  vd : LthKind
  va : LthKind
  vb : LthKind
  vc : LthKind
  lm : Bool
  mz : Bool
  ib : Bool
  imm : Bool
  tOk : Bool

def wide (t : Nat) : LthKind := if t.testBit 3 then .pair else .vec

/-- The source and the destination of FCVT (R151): 0 binary32, 1 binary64, 2 I32, 3 pair, 4 tracked group. Which value
of IMM[3:0] selects which is not given: a free choice (log entry 40). -/
def fcvtSel (imm : Int) : Nat × Nat :=
  let v := Config.fcvtSelect (unsigned 4 imm) % 25
  (v / 5, v % 5)

def fcvtKind (k : Nat) : LthKind := if k = 0 || k = 2 then .vec else if k = 4 then .group else .pair

/-- Forms of Table 05-3. -/
def lthForm (i : LthIns) : Option LthForm :=
  let t := i.t
  let t0 := decide (t = 0)
  let t8 := decide (t = 0) || decide (t = 8)
  let alu (pairOk : Bool) : LthForm :=
    let k := if pairOk then wide t else .vec
    ⟨k, k, k, .none, true, true, true, false, if pairOk then t8 else t0⟩
  let two (k : LthKind) (ok : Bool) : LthForm := ⟨k, k, .none, .none, true, true, false, false, ok⟩
  let fp (vc : LthKind) (vb : LthKind) : LthForm := ⟨wide t, wide t, vb, vc, true, true, false, false, !t.testBit 2⟩
  match i.opc with
  | 0x00 | 0x01 => some ⟨.none, .none, .none, .none, false, false, false, false, t0⟩
  | 0x02 => some ⟨.none, if t0 then .none else .scalar, .none, .none, false, false, false, true, decide (t < 4)⟩
  | 0x03 => some ⟨.none, .scalar, .scalar, if t = 1 then .scalar else .none, false, false, false, false, decide (t < 2)⟩
  | 0x08 | 0x09 | 0x0A => some ⟨.scalar, .scalar, .scalar, .none, false, false, true, false, t0⟩
  | 0x0B => some ⟨.scalar, .scalar, .none, .none, false, false, false, true, t0⟩
  | 0x0C => some ⟨.none, .scalar, .scalar, .none, false, false, false, true, t0⟩
  | 0x0D => some ⟨.scalar, .vec, .none, .none, false, false, false, true, t0⟩
  | 0x0E => some ⟨.vec, .scalar, .none, .none, true, true, false, false, t0⟩
  | 0x10 | 0x11 | 0x18 | 0x19 | 0x1D | 0x1F | 0x20 => some (alu true)
  | 0x12 | 0x13 | 0x14 | 0x15 | 0x1A | 0x1B | 0x1C | 0x1E => some (alu false)
  | 0x16 => some { alu false with vc := .vec }
  | 0x17 => some (two .vec t0)
  | 0x21 => some ⟨.mask, wide t, wide t, .none, true, true, true, false, decide (t % 8 < 6)⟩
  | 0x22 => some { alu false with vc := .mask }
  | 0x23 => some (two (wide t) t8)
  | 0x24 | 0x25 => some ⟨.vec, .none, .none, .none, true, true, false, true, t0⟩
  | 0x26 | 0x27 => some ⟨.mask, .mask, .mask, .none, true, true, false, false, t0⟩
  | 0x28 => some ⟨.mask, .mask, .none, .none, true, true, false, false, t0⟩
  | 0x29 => some ⟨if t = 0 then .pair else .vec, if t = 0 then .vec else .pair, .none, .none, true, true, false, false, decide (t < 2)⟩
  | 0x30 => some ⟨.group, .group, .group, .none, true, true, false, false, t0⟩
  | 0x31 => some ⟨.group, if t = 1 then .pair else .vec, .none, .none, true, true, false, true, decide (t < 2)⟩
  | 0x32 => some (two .group t0)
  | 0x33 => some ⟨.vec, .group, .vec, .vec, true, true, false, false, true⟩
  | 0x34 => some ⟨.pair, .group, if t.testBit 3 then .vec else .none, .none, true, true, t.testBit 3, false, true⟩
  | 0x35 => some ⟨.pair, .scalar, .none, .none, true, true, false, true, decide (t < 2)⟩
  | 0x38 => some ⟨.pair, .vec, .none, .none, true, true, false, false, decide (t < 4)⟩
  | 0x39 | 0x3A => some (two .vec (decide (t < 4)))
  | 0x3B | 0x3C | 0x3D | 0x3E => some { two .vec t0 with imm := true }
  | 0x40 => some ⟨if t = 5 then .pair else .vec, .scalar, .none, .none, true, true, false, true, decide (t < 6)⟩
  | 0x41 => some ⟨if t = 5 then .pair else .vec, .scalar, .none, .none, true, false, false, true, decide (t < 6)⟩
  | 0x42 => some ⟨.vec, .scalar, .scalar, .none, true, true, false, true, decide (t < 4)⟩
  | 0x43 => some ⟨.scalar, .vec, .scalar, .none, true, false, false, true, decide (t < 4)⟩
  | 0x44 => some ⟨.group, .none, .none, .none, true, true, false, false, t0⟩
  | 0x45 => some ⟨.scalar, .none, .none, .none, false, false, false, false, t0⟩
  | 0x46 => some ⟨.none, .scalar, .none, .none, false, false, false, true, t0⟩
  | 0x50 | 0x51 | 0x52 | 0x54 => some (fp .none (wide t))
  | 0x53 => some (fp (wide t) (wide t))
  | 0x55 => some (fp .none .none)
  | 0x56 | 0x57 => some { fp .none (wide t) with tOk := true }
  | 0x58 => some ⟨.mask, wide t, wide t, .none, true, true, false, false, decide (t % 8 < 5)⟩
  | 0x59 => some ⟨fcvtKind (fcvtSel i.imm).2, fcvtKind (fcvtSel i.imm).1, .none, .none, true, true, false, true, decide (t < 4)⟩
  | _ => none

/-- A register field outside what its kind reads (R140). -/
def fieldBad (k : LthKind) (v : Nat) : Bool :=
  match k with
  | .none => v != 0
  | .scalar => decide (15 < v)
  | .mask => decide (7 < v)
  | _ => false

/-- A pair or a group on a register that cannot hold one. -/
def oddReg (k : LthKind) (v : Nat) : Bool :=
  match k with
  | .pair => v % 2 != 0
  | .group => v % 4 != 0
  | _ => false

/-- The width in bytes that a Loft address must be a multiple of (R142, R144, R145), and the scalar that holds it. -/
def lthAccess (i : LthIns) : Option (Nat × Nat) :=
  match i.opc with
  | 0x0B | 0x0C | 0x35 | 0x46 => some (8, i.va)
  | 0x40 | 0x41 => some (if i.t = 0 then 4 else if i.t = 3 then 2 else if i.t = 5 then 8 else 1, i.va)
  | 0x42 => some (2, i.va)
  | 0x43 => some (2, i.vd)
  | _ => none

/-- The pointer of an access: S[r] + IMM; LDTBL adds nothing. -/
def lthPtr (i : LthIns) (b : LthBank) (r : Nat) : Word :=
  if i.opc = 0x46 then b.s r else b.s r + BitVec.ofInt 64 i.imm

/-- How an instruction is refused, if it is (Table 05-4). -/
def lthCause (i : LthIns) (b : LthBank) (pc len : Nat) : Option Nat :=
  match lthForm i with
  | none => some 0x01
  | some f =>
    let immUsed := f.imm || (f.ib && i.ib && i.opc != 0x34)
    let vb := if f.ib && i.ib && i.opc ≠ 0x34 then LthKind.none else f.vb
    if !f.tOk || i.rsv != 0 || fieldBad f.vd i.vd || fieldBad f.va i.va || fieldBad vb i.vb || fieldBad f.vc i.vc
        || (!f.lm && i.lm != 0) || (!f.mz && i.mz) || (!f.ib && i.ib) || (!immUsed && i.imm != 0) then some 0x01
    else if oddReg f.vd i.vd || oddReg f.va i.va || oddReg vb i.vb || oddReg f.vc i.vc
        || (f.vd == .mask && i.vd == 0) then some 0x02
    else if (i.opc == 0x33 && !(i.t == 5 || i.t == 6 || i.t == 8)) || (i.opc == 0x59 && (fcvtSel i.imm).1 == (fcvtSel i.imm).2) then
      some 0x03
    else
      match lthAccess i with
      | some (n, r) => if (lthPtr i b r).toNat % n ≠ 0 then some 0x04 else none
      | none =>
        if i.opc == 0x02 && !(decide (0 ≤ (pc : Int) + i.imm) && decide ((pc : Int) + i.imm < len)) then some 0x05 else none

/-! ### The task -/

def lthUnit (t e : Nat) : Nat := unitCode t (6 + e)

def Device.lthe (d : Device) (t e : Nat) : LthEngine := tget d.lth (2 * t + e) default

def Device.setLthe (d : Device) (t e : Nat) (x : LthEngine) : Device := { d with lth := tset d.lth (2 * t + e) x }

/-- The bank a context uses: the one numbered by its share slot (R19). -/
def Device.lthSlot (d : Device) (t c : Nat) : Nat := d.slotNo c t

def Device.lthBank (d : Device) (t e slot : Nat) : LthBank := tget (d.lthe t e).bank slot default

def Device.setLthBank (d : Device) (t e slot : Nat) (b : LthBank) : Device :=
  d.setLthe t e { d.lthe t e with bank := tset (d.lthe t e).bank slot b }

/-- The running task, its bank, and the instruction it has come to. -/
structure LthTask where
  t : Truss
  e : LathNo
  job : Job
  len : Nat
  tolS8 : Nat
  tolS4 : Nat
  waitFrom : Option Nat
  slot : Nat
  bank : LthBank
  ins : LthIns

def LthTask.pc (x : LthTask) : Nat := x.bank.pc.toNat
def LthTask.unit (x : LthTask) : Nat := lthUnit x.t x.e
def LthTask.mask (x : LthTask) : BitVec 128 := x.bank.maskReg x.ins.lm

/-- Active lanes, in order. -/
def LthTask.on (x : LthTask) : List Nat := let m := x.mask; lanes.filter (fun i => m.getLsbD i)

def Device.lthWait (d : Device) (t e w : Nat) : Device := d.setLthe t e { d.lthe t e with wait := w }

/-- The end of a Lath task; nothing waits any more. -/
def Device.lthEnd (d : Device) (x : LthTask) (e : Ending) : Device := (d.endJob x.job.id e).lthWait x.t x.e 0

/-- A refusal at decode (R143). -/
def Device.lthRefuse (d : Device) (x : LthTask) (cause : Nat) : Device :=
  ((d.count (Reg.LTH_REFUSED x.t x.e) 1).engineRefuse x.job x.unit cause x.pc (BitVec.ofNat 64 x.pc)).lthWait x.t x.e 0

/-- Holds a failure in LTH_ERR_INFO unless one is held (R156). -/
def Device.lthErrInfo (d : Device) (x : LthTask) (lane kind : Nat) (retried : Bool) : Device :=
  if d.fld (Reg.LTH_ERR_INFO x.t x.e) Fld.LTH_ERR_INFO_VALID = 1 then d
  else d.setReg (Reg.LTH_ERR_INFO x.t x.e)
    (pack [(0, 8, x.ins.opc), (8, 7, lane), (16, 6, x.job.ctx), (24, 16, x.pc), (40, 4, kind), (44, 1, b2n retried), (63, 1, 1)])

/-- Operations whose results carry a residue or a parity (R154). -/
def lthChecked (opc : Nat) : Bool :=
  (decide (0x10 ≤ opc) && decide (opc ≤ 0x29)) || [0x30, 0x32, 0x33, 0x34, 0x38, 0x39, 0x3A, 0x3B, 0x3C].contains opc

/-- Registers that a field names. -/
def LthKind.regs (k : LthKind) (v : Nat) : List LathReg :=
  match k with
  | .none => []
  | .vec => [.vec (Fin.ofNat 32 v)]
  | .pair => (List.range 2).map (fun i => .vec (Fin.ofNat 32 (v + i)))
  | .group => (List.range 3).map (fun i => .vec (Fin.ofNat 32 (v + i)))
  | .scalar => [.scalar (Fin.ofNat 16 v)]
  | .mask => [.mask (Fin.ofNat 8 v)]

/-- Registers that an instruction reads: its sources and its mask, and VD where that is a source too (LIMMH, ST, STSC); S0
and MK0 are constants. -/
def LthIns.reads (i : LthIns) : List LathReg :=
  match lthForm i with
  | none => []
  | some f =>
    (f.va.regs i.va ++ (if f.ib && i.ib && i.opc != 0x34 then [] else f.vb.regs i.vb) ++ f.vc.regs i.vc
      ++ (if [0x25, 0x41, 0x43].contains i.opc then f.vd.regs i.vd else []) ++ (if f.lm then [LathReg.mask (Fin.ofNat 8 i.lm)] else [])).filter
      (fun r => r != LathReg.scalar 0 && r != LathReg.mask 0)

/-- Lane results that an instruction counts (R419): its active lanes where a vector takes part, a wide lane included. -/
def LthTask.laneResults (x : LthTask) : Nat :=
  let vecs : Bool := match lthForm x.ins with
    | some f => [f.vd, f.va, f.vb].any (fun k => k == .vec || k == .pair || k == .group)
    | none => false
  if vecs then x.on.length else 0

/-- The number of a register in its own file. -/
def regNo : LathReg → Nat
  | .vec n => n
  | .scalar n => n
  | .mask n => n

/-- What the checks of an instruction met (R132, R155, R388); false when the task has ended. The device account pays for
the instruction that is executed once more (Table 14-2). -/
def Device.lthUpset (d : Device) (x : LthTask) (u : LathUpset) : Device × Bool :=
  let fails (lane : Nat) (parity passes : Bool) : Device × Bool :=
    if !lthChecked x.ins.opc || d.fld (Reg.LTH_CTRL x.t x.e) Fld.LTH_CTRL_RESIDUE_EN = 0 then (d, true)
    else
      let again := d.fld (Reg.LTH_CTRL x.t x.e) Fld.LTH_CTRL_RETRY == 1
      let ok := passes && again
      let d := if again then d.charge deviceAccount .lthOps x.laneResults x.t else d
      let d := d.count (if ok then Reg.LTH_RESIDUE_RETRY_OK x.t x.e else Reg.LTH_RESIDUE_ERR x.t x.e) 1
      let d := d.lthErrInfo x lane (if parity then 2 else 1) ok
      let d := (d.log 0x03 (if ok then 2 else 0) x.unit x.job.ctx (if ok then 1 else 2) 0 (d.reg (Reg.LTH_ERR_INFO x.t x.e))
        (BitVec.ofNat 64 x.ins.opc)).suspect x.t
      if ok then (d.noteJob x.job.id noteRetryOk, true) else (d.lthEnd x (endC stAbft 0 x.unit x.pc 0), false)
  match u with
  | .none => (d, true)
  | .regCorrected r => if x.ins.reads.contains r then (d.count (Reg.LTH_REG_ECC_CORR x.t x.e) 1, true) else (d, true)
  | .regUncorrectable r lane =>
    if !x.ins.reads.contains r then (d, true)
    else
      let d := d.lthErrInfo x lane 3 false
      let d := (d.log 0x04 0 x.unit x.job.ctx 2 0 (BitVec.ofNat 64 (regNo r)) (BitVec.ofNat 64 x.job.ctx)).suspect x.t
      (d.lthEnd x (endC stUncorr 0 x.unit 0 0), false)
  | .retryPassed lane p => fails lane p true
  | .retryFailed lane p => fails lane p false

/-- The instruction that the engine's task has come to, when its operation is `want`. An instruction that Table 05-4
refuses is refused by whichever row meets it. -/
def Device.lthMeet (d : Device) (t : Truss) (e : LathNo) (want : Nat) : Device × Option LthTask :=
  match d.active? (.lth t e) with
  | none => (d, none)
  | some j =>
    match j.run with
    | .lth ptr len a b wf =>
      let slot := d.lthSlot t j.ctx
      let bank := d.lthBank t e slot
      let task (i : LthIns) : LthTask := ⟨t, e, j, len, a, b, wf, slot, bank, i⟩
      let at_ := (ptrMove ptr (8 * bank.pc.toNat : Nat)).getD badPtr
      match d.ptrLoad j.ctx t (lthUnit t e) false at_ 8 with
      | (d, .ok bs) =>
        let x := task (lthDecode (bytesWord bs))
        match lthCause x.ins bank bank.pc.toNat len with
        | some c => (d.lthRefuse x c, none)
        | none => if x.ins.opc = want then (d, some x) else (d, none)
      | (d, .fail f) => (d.lthEnd (task (lthDecode 0)) f, none)
      | (d, .miss _ _) => (d, none)
    | _ => (d, none)

/-- Runs `k` on the instruction the task has come to when its operation is `want`. -/
def lthRow (t : Truss) (e : LathNo) (want : Nat) (s : State) (k : Device → LthTask → Device) : Host.Outcome State Fault Refusal :=
  onDevice s fun d =>
    match d.lthMeet t e want with
    | (d, some x) => k d x
    | (d, none) => d

/-- What an instruction comes to: the bank it leaves and what it counts. -/
structure LthOut where
  bank : LthBank
  tally : Tally

def outOf (b : LthBank) : LthOut := ⟨b, default⟩

/-- An output whose lanes counted saturations and losses. -/
def outSat (b : LthBank) (sat drl : Nat) : LthOut := ⟨b, { (default : Tally) with sat := sat, drl := drl }⟩

/-- The instruction has executed: its bank and counts stand, and the task goes to `pc` (R133, R152). -/
def Device.lthRetireTo (d : Device) (x : LthTask) (o : LthOut) (pc : Nat) : Device :=
  let d := d.setLthBank x.t x.e x.slot { o.bank.raise o.tally.flags with pc := BitVec.ofNat 16 pc }
  let d := d.count (Reg.LTH_INSTR x.t x.e) 1
  let d := d.charge x.job.ctx .lthOps x.laneResults x.t
  let y := o.tally
  let d := (((d.count (Reg.LTH_SAT x.t x.e) y.sat).count (Reg.LTH_DRL x.t x.e) y.drl).count
    (Reg.LTH_SCALE_MISS_LO x.t x.e) y.missLo).count (Reg.LTH_SCALE_MISS_HI x.t x.e) y.missHi
  let d := if y.flags = 0 then d
    else d.setReg (Reg.LTH_FP_FLAGS x.t x.e) (d.reg (Reg.LTH_FP_FLAGS x.t x.e) ||| BitVec.ofNat 64 y.flags.toNat)
  let d := d.report x.job.id y.report
  if x.len ≤ pc then d.lthEnd x endOk else d

def Device.lthRetire (d : Device) (x : LthTask) (o : LthOut) : Device := d.lthRetireTo x o (x.pc + 1)

/-- An instruction whose effect is on its bank alone. -/
def lthPure (t : Truss) (e : LathNo) (u : LathUpset) (want : Nat) (s : State) (f : LthTask → LthOut) :
    Host.Outcome State Fault Refusal :=
  lthRow t e want s fun d x =>
    match d.lthUpset x u with
    | (d, true) => d.lthRetire x (f x)
    | (d, false) => d

/-- An instruction that reaches Loft: `f` answers what the access came to. -/
def lthLoft (t : Truss) (e : LathNo) (u : LathUpset) (want : Nat) (s : State) (f : Device → LthTask → Device × Got LthOut) :
    Host.Outcome State Fault Refusal :=
  lthRow t e want s fun d x =>
    match d.lthUpset x u with
    | (d, true) =>
      match f d x with
      | (d, .ok o) => d.lthRetire x o
      | (d, .fail g) => d.lthEnd x g
      | (d, .miss _ _) => d
    | (d, false) => d

/-! ### The task's own rows -/

/-- LTH_TASK (R131, R133, R145): S1 to S7 take their initial values and the program starts; an empty program ends. -/
def execLthTask (t : Truss) (e : LathNo) (s : State) : Host.Outcome State Fault Refusal :=
  onDevice s fun d =>
    match d.active? (.lth t e) with
    | none => d
    | some j =>
      if j.run ≠ .none then d
      else if j.cmd.c1.toNat % 8 ≠ 0 then d.engineRefuse j (lthUnit t e) 0x06 j.index 0
      else
        let got := if j.cmd.c3 = 0 then (d, Got.ok (List.replicate 56 0)) else d.ptrLoad j.ctx t (lthUnit t e) false j.cmd.c3 56
        Device.andThen got j.id (6 + e) t fun d bs =>
          let slot := d.lthSlot t j.ctx
          let ws := bytesWords bs
          let b := (List.range 7).foldl (fun b i => b.setS (i + 1) (wordAt ws i)) { d.lthBank t e slot with pc := 0 }
          let d := d.setLthBank t e slot b
          let len := bits j.cmd.c2 15 0
          if len = 0 then d.endJob j.id endOk
          else
            let tolS8 := d.fld (Reg.HOD_SCALE_TOL t) Fld.HOD_SCALE_TOL_TOL_S8
            let tolS4 := d.fld (Reg.HOD_SCALE_TOL t) Fld.HOD_SCALE_TOL_TOL_S4
            d.mapJob j.id (fun j => { j with run := .lth j.cmd.c1 len tolS8 tolS4 none })

/-- LTH_NOP (Table 05-3). -/
def execLthNop (t : Truss) (e : LathNo) (u : LathUpset) (s : State) : Host.Outcome State Fault Refusal :=
  lthPure t e u 0x00 s fun x => outOf x.bank

/-- LTH_END (R133). -/
def execLthEnd (t : Truss) (e : LathNo) (u : LathUpset) (s : State) : Host.Outcome State Fault Refusal :=
  lthRow t e 0x01 s fun d x =>
    match d.lthUpset x u with
    | (d, true) => d.lthRetireTo x (outOf x.bank) x.len
    | (d, false) => d

/-- LTH_BR (Table 05-3, R143). -/
def execLthBr (t : Truss) (e : LathNo) (u : LathUpset) (s : State) : Host.Outcome State Fault Refusal :=
  lthRow t e 0x02 s fun d x =>
    match d.lthUpset x u with
    | (d, true) =>
      let v := x.bank.s x.ins.va
      let taken := if x.ins.t = 0 then true else if x.ins.t = 1 then v == 0 else if x.ins.t = 2 then v != 0 else v.msb
      d.lthRetireTo x (outOf x.bank) (if taken then ((x.pc : Int) + x.ins.imm).toNat else x.pc + 1)
    | (d, false) => d

/-- Adds a trigger to an armed slot (R373); none when the slot is free or armed by another context. -/
def Device.trigger (d : Device) (ctx : Nat) (v : Word) : Option Device :=
  let k := bits v 8 8
  let eng := tget d.cols k default
  match eng.armed.find? (fun a => a.slot == bits v 7 0) with
  | none => none
  | some a =>
    if a.ctx ≠ ctx then none
    else
      let up := eng.armed.map (fun b => if b.slot = a.slot then { b with count := b.count + 1 } else b)
      some { d with cols := tset d.cols k { eng with armed := up } }

/-- LTH_FSIG (R136, R266, R373): stores of this model are visible at once, so the signal goes out; with T = 1 the slot takes a
trigger. -/
def execLthFsig (t : Truss) (e : LathNo) (u : LathUpset) (s : State) : Host.Outcome State Fault Refusal :=
  lthRow t e 0x03 s fun d x =>
    match d.lthUpset x u with
    | (d, true) =>
      let f := (x.bank.s x.ins.va).toNat
      if 4095 < f then d.lthEnd x (endC stInternal 0x07 x.unit x.pc 0)
      else
        let trig := if x.ins.t = 1 then d.trigger x.job.ctx (x.bank.s x.ins.vc) else some d
        match trig with
        | none => d.lthEnd x (endC stViolation 0x55 x.unit 0 0)
        | some d =>
          let r := d.signal x.job.ctx f (x.bank.s x.ins.vb)
          let d := if r.2 then r.1.noteJob x.job.id noteFenceStale else r.1
          d.lthRetire x (outOf x.bank)
    | (d, false) => d

/-! ### The finished-tile queue (R137 to R139) -/

/-- Whether the task may take from the queue now: it holds entries and the context owns it. -/
def Device.tqReady (d : Device) (x : LthTask) : Bool :=
  let q := d.lthe x.t x.e
  !q.queue.isEmpty && q.qowner == some x.job.ctx

/-- The task waits: it takes an empty queue over, and yields while another context owns it (R137). -/
def Device.tqWait (d : Device) (x : LthTask) : Device :=
  let q := d.lthe x.t x.e
  let mark (r : Run) : Run := match r with
    | .lth p n a b none => .lth p n a b (some d.now)
    | r => r
  let d := d.mapJob x.job.id (fun j => { j with run := mark j.run })
  if q.queue.isEmpty then d.setLthe x.t x.e { q with qowner := some x.job.ctx, wait := 1 }
  else (d.lthWait x.t x.e 0).yieldJob x.job.id

/-- The wait is over: its cycles are counted (R139). -/
def Device.tqGo (d : Device) (x : LthTask) : Device :=
  match x.waitFrom with
  | none => d
  | some f =>
    let mark (r : Run) : Run := match r with
      | .lth p n a b _ => .lth p n a b none
      | r => r
    let d := d.mapJob x.job.id (fun j => { j with run := mark j.run })
    (d.count (Reg.LTH_TQ_WAIT x.t x.e) ((d.now - f) * d.mhzNow x.t / 1000)).lthWait x.t x.e 0

/-- The word that TQHDR writes (R138). -/
def tqHeader (q : TileEntry) : Word :=
  pack [(0, 2, q.array), (2, 6, q.ctx), (8, 8, q.tag), (16, 1, q.half), (17, 13, q.seq), (30, 8, q.rowmask.toNat), (38, 1, b2n q.last),
        (39, 1, b2n q.empty), (40, 3, q.popped)]

/-- The next row of an entry as a tracked group's lanes. -/
def tileRow (q : TileEntry) : List Tracked :=
  lanes.map fun i => ⟨if q.rowmask.getLsbD q.popped then (q.rows.getD q.popped []).getD i 0 else 0, q.xs.getD i (-32768)⟩

/-- LTH_TQPOP (R137, R138). -/
def execLthTqpop (t : Truss) (e : LathNo) (u : LathUpset) (s : State) : Host.Outcome State Fault Refusal :=
  lthRow t e 0x44 s fun d x =>
    match (d.lthe t e).queue with
    | [] => d.tqWait x
    | h :: rest =>
      if !d.tqReady x then d.tqWait x
      else
        match d.lthUpset x u with
        | (d, true) =>
          let d := d.tqGo x
          let q := d.lthe t e
          let whole := h.popped == 7
          let left := if whole then rest else { h with popped := h.popped + 1 } :: rest
          let d := d.setLthe t e { q with queue := left, qowner := if left.isEmpty then none else q.qowner }
          let d := if left.isEmpty then d.wakeQueue t e else d
          (d.count (Reg.LTH_TQ_POPS t e) 1).lthRetire x (outOf (x.bank.setGroup x.ins.vd x.mask x.ins.mz (tileRow h)))
        | (d, false) => d

/-- LTH_TQHDR (R138). -/
def execLthTqhdr (t : Truss) (e : LathNo) (u : LathUpset) (s : State) : Host.Outcome State Fault Refusal :=
  lthRow t e 0x45 s fun d x =>
    match (d.lthe t e).queue with
    | [] => d.tqWait x
    | h :: _ =>
      if !d.tqReady x then d.tqWait x
      else
        match d.lthUpset x u with
        | (d, true) => (d.tqGo x).lthRetire x (outOf (x.bank.setS x.ins.vd (tqHeader h)))
        | (d, false) => d

/-- LTH_TQ_TIMEOUT (R139): ends a task that has waited for the queue too long. -/
def execLthTqTimeout (t : Truss) (e : LathNo) (s : State) : Host.Outcome State Fault Refusal :=
  onDevice s fun d =>
    let limit := max 1 (d.fld (Reg.LTH_CTRL t e) Fld.LTH_CTRL_TQ_TIMEOUT) * 1000
    let from_ (j : Job) : Option Nat :=
      if j.engine == some (.lth t e) then (match j.run with | .lth _ _ _ _ f => f | _ => none) else none
    match d.jobs.find? (fun j => match from_ j with | some f => decide (f + limit < d.now) | none => false) with
    | none => d
    | some j =>
      let pc := (d.lthBank t e (d.lthSlot t j.ctx)).pc.toNat
      (d.endJob j.id (endC stInternal 0x06 (lthUnit t e) pc 0)).lthWait t e 0

end Sys2Proof.Machine
end

