-- ==== Sys2Proof/Machine/LathScalar.lean ====
section
/-! DEFINITION. Lath instructions on scalar and mask registers, and moves between lanes and scalars (Table 05-3). -/
namespace Sys2Proof.Machine

open Sys2Proof

/-- The second scalar source: S[VB], or IMM when IB = 1. -/
def LthTask.sb (x : LthTask) : Word := if x.ins.ib then BitVec.ofInt 64 x.ins.imm else x.bank.s x.ins.vb

def LthTask.sa (x : LthTask) : Word := x.bank.s x.ins.va

/-- LTH_SADD. -/
def execLthSadd (t : Truss) (e : LathNo) (u : LathUpset) (s : State) : Host.Outcome State Fault Refusal :=
  lthPure t e u 0x08 s fun x => outOf (x.bank.setS x.ins.vd (x.sa + x.sb))

/-- LTH_SSUB. -/
def execLthSsub (t : Truss) (e : LathNo) (u : LathUpset) (s : State) : Host.Outcome State Fault Refusal :=
  lthPure t e u 0x09 s fun x => outOf (x.bank.setS x.ins.vd (x.sa - x.sb))

/-- LTH_SSHL: by the low 6 bits. -/
def execLthSshl (t : Truss) (e : LathNo) (u : LathUpset) (s : State) : Host.Outcome State Fault Refusal :=
  lthPure t e u 0x0A s fun x => outOf (x.bank.setS x.ins.vd (x.sa <<< (x.sb.toNat % 64)))

/-- LTH_SLD (R135). -/
def execLthSld (t : Truss) (e : LathNo) (u : LathUpset) (s : State) : Host.Outcome State Fault Refusal :=
  lthLoft t e u 0x0B s fun d x =>
    match d.ptrLoad x.job.ctx t x.unit false (lthPtr x.ins x.bank x.ins.va) 8 with
    | (d, .ok bs) => (d, .ok (outOf (x.bank.setS x.ins.vd (bytesWord bs))))
    | (d, .fail f) => (d, .fail f)
    | (d, .miss a w) => (d, .miss a w)

/-- LTH_SST (R135). -/
def execLthSst (t : Truss) (e : LathNo) (u : LathUpset) (s : State) : Host.Outcome State Fault Refusal :=
  lthLoft t e u 0x0C s fun d x =>
    match d.ptrStore x.job.ctx t x.unit false (lthPtr x.ins x.bank x.ins.va) (wordBytes (x.bank.s x.ins.vb)) with
    | (d, .ok _) => (d, .ok (outOf x.bank))
    | (d, .fail f) => (d, .fail f)
    | (d, .miss a w) => (d, .miss a w)

/-- LTH_VEXT: lane IMM[6:0], sign-extended. -/
def execLthVext (t : Truss) (e : LathNo) (u : LathUpset) (s : State) : Host.Outcome State Fault Refusal :=
  lthPure t e u 0x0D s fun x =>
    outOf (x.bank.setS x.ins.vd (BitVec.ofInt 64 ((x.bank.ints x.ins.va).getD (unsigned 7 x.ins.imm) 0)))

/-- LTH_VBCAST. -/
def execLthVbcast (t : Truss) (e : LathNo) (u : LathUpset) (s : State) : Host.Outcome State Fault Refusal :=
  lthPure t e u 0x0E s fun x =>
    outOf (x.bank.setVec x.ins.vd x.mask x.ins.mz (List.replicate 128 (x.sa.setWidth 32)))

/-- A mask operation's result. -/
def LthTask.toMask (x : LthTask) (m : BitVec 128) : LthOut := outOf (x.bank.setMask x.ins.vd x.mask x.ins.mz m)

/-- LTH_MAND. -/
def execLthMand (t : Truss) (e : LathNo) (u : LathUpset) (s : State) : Host.Outcome State Fault Refusal :=
  lthPure t e u 0x26 s fun x => x.toMask (x.bank.maskReg x.ins.va &&& x.bank.maskReg x.ins.vb)

/-- LTH_MOR. -/
def execLthMor (t : Truss) (e : LathNo) (u : LathUpset) (s : State) : Host.Outcome State Fault Refusal :=
  lthPure t e u 0x27 s fun x => x.toMask (x.bank.maskReg x.ins.va ||| x.bank.maskReg x.ins.vb)

/-- LTH_MNOT. -/
def execLthMnot (t : Truss) (e : LathNo) (u : LathUpset) (s : State) : Host.Outcome State Fault Refusal :=
  lthPure t e u 0x28 s fun x => x.toMask (~~~ x.bank.maskReg x.ins.va)

end Sys2Proof.Machine
end

