-- ==== Sys2Proof/Machine/LathVector.lean ====
section
/-! DEFINITION. Lath instructions on integer lanes, pairs and tracked groups (Table 05-3, R144 to R149, R474). -/
namespace Sys2Proof.Machine

open Sys2Proof

/-! ### Lanes -/

/-- Lanes are pairs: T[3] = 1 in the operations that have that form. -/
def LthTask.isPair (x : LthTask) : Bool := x.ins.t.testBit 3
def LthTask.width (x : LthTask) : Nat := if x.isPair then 64 else 32

def LthTask.read (x : LthTask) (r : Nat) : List Int := if x.isPair then x.bank.pairs r else x.bank.ints r

/-- The second source: lanes of VB, or IMM in every lane. -/
def LthTask.srcB (x : LthTask) : List Int := if x.ins.ib then List.replicate 128 x.ins.imm else x.read x.ins.vb

def LthTask.write (x : LthTask) (xs : List Int) : LthBank :=
  if x.isPair then x.bank.setPairs x.ins.vd x.mask x.ins.mz xs else x.bank.setInts x.ins.vd x.mask x.ins.mz xs

/-- A lane-wise operation of two sources, wrapping to the lane width as it is written. -/
def LthTask.map2 (x : LthTask) (f : Int → Int → Int) : LthOut :=
  outOf (x.write (((x.read x.ins.va).zip x.srcB).map (fun p => f p.1 p.2)))

def LthTask.map1 (x : LthTask) (f : Int → Int) : LthOut := outOf (x.write ((x.read x.ins.va).map f))

/-- Results with a mark for a counted saturation and a counted loss; only active lanes count (R141). -/
def LthTask.counted (x : LthTask) (rs : List (Int × Bool × Bool)) (put : List Int → LthBank) : LthOut :=
  let on := x.on
  outSat (put (rs.map (·.1))) (on.countP (fun i => (rs.getD i default).2.1)) (on.countP (fun i => (rs.getD i default).2.2))

def satI32 (v : Int) : Int × Bool × Bool := let r := clampTo i32Range v; (r, r != v, false)

def LthTask.put32 (x : LthTask) (xs : List Int) : LthBank := x.bank.setInts x.ins.vd x.mask x.ins.mz xs

/-- A saturating operation of two sources on I32 lanes. -/
def LthTask.sat2 (x : LthTask) (f : Int → Int → Int) : LthOut :=
  x.counted (((x.bank.ints x.ins.va).zip x.srcB).map (fun p => satI32 (f p.1 p.2))) x.put32

/-- LTH_ADD. -/
def execLthAdd (t : Truss) (e : LathNo) (u : LathUpset) (s : State) : Host.Outcome State Fault Refusal :=
  lthPure t e u 0x10 s fun x => x.map2 (· + ·)

/-- LTH_SUB. -/
def execLthSub (t : Truss) (e : LathNo) (u : LathUpset) (s : State) : Host.Outcome State Fault Refusal :=
  lthPure t e u 0x11 s fun x => x.map2 (· - ·)

/-- LTH_ADDS. -/
def execLthAdds (t : Truss) (e : LathNo) (u : LathUpset) (s : State) : Host.Outcome State Fault Refusal :=
  lthPure t e u 0x12 s fun x => x.sat2 (· + ·)

/-- LTH_SUBS. -/
def execLthSubs (t : Truss) (e : LathNo) (u : LathUpset) (s : State) : Host.Outcome State Fault Refusal :=
  lthPure t e u 0x13 s fun x => x.sat2 (· - ·)

/-- LTH_MUL. -/
def execLthMul (t : Truss) (e : LathNo) (u : LathUpset) (s : State) : Host.Outcome State Fault Refusal :=
  lthPure t e u 0x14 s fun x => x.map2 (· * ·)

/-- LTH_MULH. -/
def execLthMulh (t : Truss) (e : LathNo) (u : LathUpset) (s : State) : Host.Outcome State Fault Refusal :=
  lthPure t e u 0x15 s fun x => x.map2 (fun a b => a * b / 2 ^ 32)

/-- LTH_MADD. -/
def execLthMadd (t : Truss) (e : LathNo) (u : LathUpset) (s : State) : Host.Outcome State Fault Refusal :=
  lthPure t e u 0x16 s fun x =>
    outOf (x.put32 ((((x.bank.ints x.ins.va).zip x.srcB).zip (x.bank.ints x.ins.vc)).map (fun p => p.1.1 * p.1.2 + p.2)))

/-- LTH_ABS. -/
def execLthAbs (t : Truss) (e : LathNo) (u : LathUpset) (s : State) : Host.Outcome State Fault Refusal :=
  lthPure t e u 0x17 s fun x => x.counted ((x.bank.ints x.ins.va).map (fun a => satI32 a.natAbs)) x.put32

/-- LTH_MIN. -/
def execLthMin (t : Truss) (e : LathNo) (u : LathUpset) (s : State) : Host.Outcome State Fault Refusal :=
  lthPure t e u 0x18 s fun x => x.map2 min

/-- LTH_MAX. -/
def execLthMax (t : Truss) (e : LathNo) (u : LathUpset) (s : State) : Host.Outcome State Fault Refusal :=
  lthPure t e u 0x19 s fun x => x.map2 max

/-- A bitwise operation on I32 lanes. -/
def LthTask.bits2 (x : LthTask) (f : BitVec 32 → BitVec 32 → BitVec 32) : LthOut :=
  x.map2 (fun a b => (f (BitVec.ofInt 32 a) (BitVec.ofInt 32 b)).toInt)

/-- LTH_AND. -/
def execLthAnd (t : Truss) (e : LathNo) (u : LathUpset) (s : State) : Host.Outcome State Fault Refusal :=
  lthPure t e u 0x1A s fun x => x.bits2 (· &&& ·)

/-- LTH_OR. -/
def execLthOr (t : Truss) (e : LathNo) (u : LathUpset) (s : State) : Host.Outcome State Fault Refusal :=
  lthPure t e u 0x1B s fun x => x.bits2 (· ||| ·)

/-- LTH_XOR. -/
def execLthXor (t : Truss) (e : LathNo) (u : LathUpset) (s : State) : Host.Outcome State Fault Refusal :=
  lthPure t e u 0x1C s fun x => x.bits2 (· ^^^ ·)

/-- The shift count b[5:0]. -/
def shiftOf (b : Int) : Nat := unsigned 6 b

/-- LTH_SHL: a count of the lane width or more gives 0. -/
def execLthShl (t : Truss) (e : LathNo) (u : LathUpset) (s : State) : Host.Outcome State Fault Refusal :=
  lthPure t e u 0x1D s fun x => x.map2 (fun a b => if x.width ≤ shiftOf b then 0 else a * 2 ^ shiftOf b)

/-- LTH_SHR: logical, on I32 lanes. -/
def execLthShr (t : Truss) (e : LathNo) (u : LathUpset) (s : State) : Host.Outcome State Fault Refusal :=
  lthPure t e u 0x1E s fun x => x.map2 (fun a b => ((unsigned 32 a / 2 ^ shiftOf b : Nat) : Int))

/-- LTH_SRA: a count of the lane width or more gives the sign fill. -/
def execLthSra (t : Truss) (e : LathNo) (u : LathUpset) (s : State) : Host.Outcome State Fault Refusal :=
  lthPure t e u 0x1F s fun x => x.map2 (fun a b => a / 2 ^ shiftOf b)

/-- LTH_SRAR: round_rne(a ÷ 2^b[5:0]). -/
def execLthSrar (t : Truss) (e : LathNo) (u : LathUpset) (s : State) : Host.Outcome State Fault Refusal :=
  lthPure t e u 0x20 s fun x => x.map2 (fun a b => rneShift a (shiftOf b))

/-- The conditions of CMP. -/
def cmpHolds (c w : Nat) (a b : Int) : Bool :=
  if c = 0 then a == b else if c = 1 then a != b else if c = 2 then decide (a < b) else if c = 3 then decide (a ≤ b)
  else if c = 4 then decide (unsigned w a < unsigned w b) else decide (unsigned w a ≤ unsigned w b)

/-- LTH_CMP. -/
def execLthCmp (t : Truss) (e : LathNo) (u : LathUpset) (s : State) : Host.Outcome State Fault Refusal :=
  lthPure t e u 0x21 s fun x =>
    let ab := (x.read x.ins.va).zip x.srcB
    x.toMask (maskOf (fun i => let p := ab.getD i (0, 0); cmpHolds (x.ins.t % 8) x.width p.1 p.2))

/-- SEL: VA where MK[VC] holds, else VB or IMM. -/
def LthTask.sel (x : LthTask) : LthOut :=
  let m := x.bank.maskReg x.ins.vc
  let a := x.bank.ints x.ins.va
  let b := x.srcB
  outOf (x.put32 (lanes.map (fun i => if m.getLsbD i then a.getD i 0 else b.getD i 0)))

/-- LTH_SEL. -/
def execLthSel (t : Truss) (e : LathNo) (u : LathUpset) (s : State) : Host.Outcome State Fault Refusal :=
  lthPure t e u 0x22 s LthTask.sel

/-- LTH_MOV. -/
def execLthMov (t : Truss) (e : LathNo) (u : LathUpset) (s : State) : Host.Outcome State Fault Refusal :=
  lthPure t e u 0x23 s fun x => x.map1 (fun a => a)

/-- LTH_LIMM. -/
def execLthLimm (t : Truss) (e : LathNo) (u : LathUpset) (s : State) : Host.Outcome State Fault Refusal :=
  lthPure t e u 0x24 s fun x => outOf (x.put32 (List.replicate 128 x.ins.imm))

/-- LIMMH: the top byte of each lane. -/
def LthTask.limmh (x : LthTask) : LthOut :=
  let top := unsigned 8 x.ins.imm
  outOf (x.bank.setVec x.ins.vd x.mask x.ins.mz
    ((x.bank.vec x.ins.vd).map (fun v => BitVec.ofNat 32 (v.toNat % 2 ^ 24 + 2 ^ 24 * top))))

/-- LTH_LIMMH. -/
def execLthLimmh (t : Truss) (e : LathNo) (u : LathUpset) (s : State) : Host.Outcome State Fault Refusal :=
  lthPure t e u 0x25 s LthTask.limmh

/-- LTH_CVT: I32 to a pair, or a pair to I32, saturating. -/
def execLthCvt (t : Truss) (e : LathNo) (u : LathUpset) (s : State) : Host.Outcome State Fault Refusal :=
  lthPure t e u 0x29 s fun x =>
    if x.ins.t = 0 then outOf (x.bank.setPairs x.ins.vd x.mask x.ins.mz (x.bank.ints x.ins.va))
    else x.counted ((x.bank.pairs x.ins.va).map satI32) x.put32

/-! ### Tracked groups (R55, R144 to R146, R474) -/

/-- A group result with marks for saturations and losses. -/
def LthTask.groupOut (x : LthTask) (rs : List (Tracked × Bool × Bool)) : LthOut :=
  let on := x.on
  outSat (x.bank.setGroup x.ins.vd x.mask x.ins.mz (rs.map (·.1)))
    (on.countP (fun i => (rs.getD i default).2.1)) (on.countP (fun i => (rs.getD i default).2.2))

/-- LTH_XADD. -/
def execLthXadd (t : Truss) (e : LathNo) (u : LathUpset) (s : State) : Host.Outcome State Fault Refusal :=
  lthPure t e u 0x30 s fun x =>
    x.groupOut (((x.bank.group x.ins.va).zip (x.bank.group x.ins.vb)).map (fun p => let r := alignedAdd p.1 p.2; (r.1, r.2, false)))

/-- XCVT of one lane (R474). -/
def xcvt (a imm : Int) : Tracked × Bool × Bool :=
  if a = 0 then (tzero, false, false)
  else if 32767 < imm then (⟨if a < 0 then -maxI64 else maxI64, 32767⟩, true, false)
  else if imm < -32767 then
    let r := rneScale a (imm + 32767)
    if r = 0 then (tzero, false, true) else (⟨r, -32767⟩, false, false)
  else (⟨a, imm⟩, false, false)

/-- LTH_XCVT. -/
def execLthXcvt (t : Truss) (e : LathNo) (u : LathUpset) (s : State) : Host.Outcome State Fault Refusal :=
  lthPure t e u 0x31 s fun x =>
    x.groupOut ((if x.ins.t = 1 then x.bank.pairs x.ins.va else x.bank.ints x.ins.va).map (fun a => xcvt a x.ins.imm))

/-- Aligned adds of neighbours, and their saturations. -/
def addPairs : List Tracked → List Tracked × Nat
  | a :: b :: r =>
    let s := alignedAdd a b
    let t := addPairs r
    (s.1 :: t.1, t.2 + b2n s.2)
  | l => (l, 0)

/-- The binary tree of R146. -/
def addTree : Nat → List Tracked × Nat → List Tracked × Nat
  | 0, p => p
  | f + 1, p => let r := addPairs p.1; addTree f (r.1, p.2 + r.2)

/-- The lanes that a reduction writes: all of them, masked off or not (R146; DEDUCED, log entry 117). -/
def allLanes : BitVec 128 := BitVec.allOnes 128

/-- XRSUM: the tree of R146 over the active lanes, its sum in lane 0. -/
def LthTask.xrsum (x : LthTask) : LthOut :=
  let m := x.mask
  let g := x.bank.group x.ins.va
  let r := addTree 7 (lanes.map (fun i => if m.getLsbD i then g.getD i tzero else tzero), 0)
  outSat (x.bank.setGroup x.ins.vd allLanes false (r.1.headD tzero :: List.replicate 127 tzero)) r.2 0

/-- LTH_XRSUM. -/
def execLthXrsum (t : Truss) (e : LathNo) (u : LathUpset) (s : State) : Host.Outcome State Fault Refusal :=
  lthPure t e u 0x32 s LthTask.xrsum

/-- RESC of every lane: the rescale of R77 with the lane's multiplier and its record. -/
def LthTask.resc (x : LthTask) : LthOut :=
  let f := x.ins.t
  let rg := if f = fmtI32 then i32Range else q8Range f
  let c := x.bank.vec x.ins.vc
  let one (i : Nat) (g : Tracked) (m : Int) : Int × Bool × Bool :=
    let w := (c.getD i 0).toNat
    let zp : Int := if f = fmtI32 then 0 else if f = fmtQ8S then signed 8 (w / 256) else ((w / 256 % 256 : Nat) : Int)
    rescale rg g.a g.x m (w % 64) zp
  x.counted ((lanes.zip ((x.bank.group x.ins.va).zip (x.bank.ints x.ins.vb))).map (fun p => one p.1 p.2.1 p.2.2)) x.put32

/-- LTH_RESC (R77, R78, R144). -/
def execLthResc (t : Truss) (e : LathNo) (u : LathUpset) (s : State) : Host.Outcome State Fault Refusal :=
  lthPure t e u 0x33 s LthTask.resc

/-- REQ: the blocks of B lanes, each quantised with its exponent (R61, R62, R86). -/
def LthTask.req (x : LthTask) : LthOut :=
  let b := blkSize x.ins.t
  let f := if x.ins.t.testBit 2 then fmtS4 else fmtS8
  let m := x.mask
  let g := x.bank.group x.ins.va
  let carried := x.bank.vec x.ins.vb
  let block (k : Nat) : List (Nat × Int × Nat) × Tally :=
    let on := ((List.range b).map (k * b + ·)).filter (fun i => m.getLsbD i)
    if on.isEmpty then ([], default)
    else
      let mode := if x.ins.t.testBit 3 then
          ExpMode.carried ((carried.getD (k * b) 0).toNat % 256) (if f = fmtS4 then x.tolS4 else x.tolS8) x.ins.ib
        else .computed
      let q := quantBlock f mode (on.map (fun i => let v := g.getD i tzero; (i, FVal.fin (decide (v.a < 0)) ⟨v.a, v.x⟩)))
      ((on.zip q.2.1).map (fun p => (p.1, p.2, q.1)), q.2.2)
  let bs := (List.range (128 / b)).map block
  let cells := (bs.map (·.1)).flatten
  let at_ (i : Nat) : Int × Nat := match cells.find? (fun c => c.1 == i) with | some c => c.2 | none => (0, 0)
  let bank := (x.bank.setInts x.ins.vd m x.ins.mz (lanes.map (fun i => (at_ i).1))).setInts (x.ins.vd + 1) m x.ins.mz
    (lanes.map (fun i => ((at_ i).2 : Int)))
  ⟨bank, bs.foldl (fun y p => y.join p.2) default⟩

/-- LTH_REQ (R61, R62, R86, R87, R145): blocks of B lanes; masked-off lanes take no part. -/
def execLthReq (t : Truss) (e : LathNo) (u : LathUpset) (s : State) : Host.Outcome State Fault Refusal :=
  lthPure t e u 0x34 s LthTask.req

/-- The active lanes of each segment, reduced, in every lane of the segment (R146). -/
def LthTask.reduce (x : LthTask) (f : List Int → Int) : List Int :=
  let n := blkSize x.ins.t
  let m := x.mask
  let a := x.bank.ints x.ins.va
  (List.range (128 / n)).flatMap fun k =>
    List.replicate n (f ((((List.range n).map (k * n + ·)).filter (fun i => m.getLsbD i)).map (fun i => a.getD i 0)))

/-- LTH_RSUM. -/
def execLthRsum (t : Truss) (e : LathNo) (u : LathUpset) (s : State) : Host.Outcome State Fault Refusal :=
  lthPure t e u 0x38 s fun x => outOf (x.bank.setPairs x.ins.vd allLanes false (x.reduce (fun l => l.foldl (· + ·) 0)))

/-- LTH_RMIN. -/
def execLthRmin (t : Truss) (e : LathNo) (u : LathUpset) (s : State) : Host.Outcome State Fault Refusal :=
  lthPure t e u 0x39 s fun x => outOf (x.bank.setInts x.ins.vd allLanes false (x.reduce (fun l => l.foldl min (2 ^ 31 - 1))))

/-- LTH_RMAX. -/
def execLthRmax (t : Truss) (e : LathNo) (u : LathUpset) (s : State) : Host.Outcome State Fault Refusal :=
  lthPure t e u 0x3A s fun x => outOf (x.bank.setInts x.ins.vd allLanes false (x.reduce (fun l => l.foldl max (-(2 ^ 31)))))

/-! ### Table functions and helpers (R147 to R149) -/

/-- TBL of one lane (R147). -/
def tblEval (tb : LthTable) (a : Int) : Int × Bool × Bool :=
  let top : Int := 2 ^ (tb.sh + 8) - 1
  let u := clampTo (0, top) (a - tb.x0.toInt)
  let i := (u / 2 ^ tb.sh).toNat
  let f := u - i * 2 ^ tb.sh
  let en := tb.entries.getD i (0, 0)
  satI32 (en.1.toInt + rneShift (en.2.toInt * f) tb.sh)

/-- LTH_TBL. -/
def execLthTbl (t : Truss) (e : LathNo) (u : LathUpset) (s : State) : Host.Outcome State Fault Refusal :=
  lthPure t e u 0x3B s fun x =>
    x.counted ((x.bank.ints x.ins.va).map (tblEval (tget x.bank.tbl (unsigned 2 x.ins.imm) default))) x.put32

/-- The largest `k` below 2^`f` above `r` with (2k − 1)^1024 at most `n`, bit by bit. -/
def root1024 : Nat → Nat → Nat → Nat
  | 0, _, r => r
  | f + 1, n, r =>
    let k := r + 2 ^ f
    root1024 f n (if (2 * k - 1) ^ 1024 ≤ n then k else r)

/-- T[i] = round_rne(2^(i ÷ 1,024) × 2^30) (R148). -/
def expEntry (i : Nat) : Nat := root1024 32 (2 ^ (31 * 1024 + i)) 0

/-- EXP2's y30 and n of a Q15.16 value (R148). -/
def exp2Parts (a : Int) : Int × Int :=
  let f := (a % 2 ^ 16).toNat
  let i : Nat := f / 64
  let r : Nat := f % 64
  let t0 : Int := expEntry i
  let t1 : Int := expEntry (i + 1)
  (t0 + rneShift ((t1 - t0) * (r : Int)) 6, a / 2 ^ 16)

/-- LTH_EXP2. -/
def execLthExp2 (t : Truss) (e : LathNo) (u : LathUpset) (s : State) : Host.Outcome State Fault Refusal :=
  lthPure t e u 0x3C s fun x =>
    let f := unsigned 6 x.ins.imm
    x.counted ((x.bank.ints x.ins.va).map (fun a => let y := exp2Parts a; satI32 (rneScale y.1 (y.2 + f - 30)))) x.put32

/-- RCP of one lane (R149). -/
def rcp (f : Nat) (a : Int) : Int × Bool × Bool :=
  if a = 0 then (2 ^ 31 - 1, true, false)
  else
    let q := satI32 (rndRat 0 false (2 ^ f) a.natAbs).1
    (if a < 0 then -q.1 else q.1, q.2)

/-- RSQRT of one lane (R149). -/
def rsqrt (f : Nat) (a : Int) : Int × Bool × Bool :=
  if a ≤ 0 then (2 ^ 31 - 1, true, false)
  else
    let n := 2 ^ (2 * f)
    let q := isqrtFrom 64 (n / a.toNat) 0
    satI32 ((if (2 * q + 1) * (2 * q + 1) * a.toNat < 4 * n then q + 1 else q : Nat) : Int)

/-- LTH_RCP. -/
def execLthRcp (t : Truss) (e : LathNo) (u : LathUpset) (s : State) : Host.Outcome State Fault Refusal :=
  lthPure t e u 0x3D s fun x => x.counted ((x.bank.ints x.ins.va).map (rcp (unsigned 6 x.ins.imm))) x.put32

/-- LTH_RSQRT. -/
def execLthRsqrt (t : Truss) (e : LathNo) (u : LathUpset) (s : State) : Host.Outcome State Fault Refusal :=
  lthPure t e u 0x3E s fun x => x.counted ((x.bank.ints x.ins.va).map (rsqrt (unsigned 6 x.ins.imm))) x.put32

end Sys2Proof.Machine
end

