-- ==== Sys2Proof/Machine/Nma.lean ====
section
/-! DEFINITION. The near-memory adders (11, R325 to R327). -/
namespace Sys2Proof.Machine

open Sys2Proof

/-- What an operation does to a sector of 32 bytes, and what it returns to its issuer: the old value of the
single forms, the clamps of the saturating forms, the flags of FADD32. -/
structure NmaOut where
  sector : List Byte
  old : Nat
  clamps : Nat
  flags : Flags
  deriving DecidableEq, Repr

/-- `bs` with the bytes of `new` whose enable bit in `mask` is 1. -/
def masked (mask : BitVec 32) (old new : List Byte) : List Byte :=
  (List.range 32).map (fun i => if mask.toNat.testBit i then new.getD i 0 else old.getD i 0)

/-- Sum of each `n`-byte element modulo its width. -/
def vadd (n : Nat) (a b : List Byte) : List Byte :=
  ((chunks n 32 (slice a 0 32)).zip (chunks n 32 (slice b 0 32))).flatMap (fun p => leBytes n (leNat p.1 + leNat p.2))

/-- binary32 sum of each element (R56, R57): the memory's value is the first operand. Flags are those of the elements
with an enabled byte. -/
def vfadd (mask : BitVec 32) (a b : List Byte) : List Byte × Flags :=
  let rs := ((chunks 4 32 (slice a 0 32)).zip (chunks 4 32 (slice b 0 32))).map (fun p => f32.add (leNat p.1) (leNat p.2))
  let on (k : Nat) : Bool := (List.range 4).any (fun i => mask.toNat.testBit (4 * k + i))
  (rs.flatMap (fun r => leBytes 4 r.1), rs.zipIdx.foldl (fun f r => if on r.2 then f ||| r.1.2 else f) 0)

/-- Code + delta, clamped, for each element of the sector; the delta is a signed 16-bit number. -/
def vsat (kind : Nat) (mask : BitVec 32) (a : List Byte) (v : List Int) : List Byte × Nat :=
  let n := if kind = 2 then 64 else 32
  let per := if kind = 2 then 2 else 1
  let old (k : Nat) : Int :=
    if kind = 2 then ((a.getD (k / 2) 0).toNat / 16 ^ (k % 2) % 16 : Nat)
    else if kind = 1 then (a.getD k 0).toNat else signed 8 (a.getD k 0).toNat
  let rs := (List.range n).map fun k =>
    let s := old k + signed 16 (unsigned 16 (v.getD k 0))
    let q := clampTo (codeRange kind) s
    if mask.toNat.testBit (k / per) then (q, q != s) else (old k, false)
  let bytes := if kind = 2 then (chunks 2 64 rs).map (fun p => BitVec.ofNat 8 (((p.getD 0 (0, false)).1).toNat + 16 * ((p.getD 1 (0, false)).1).toNat))
    else rs.map (fun r => BitVec.ofNat 8 (unsigned 8 r.1))
  (bytes, rs.countP (·.2))
where
  codeRange (kind : Nat) : Int × Int := if kind = 1 then (0, 255) else if kind = 2 then (0, 15) else (-127, 127)

/-- Puts `n` bytes at offset `off` of a sector. -/
def putAt (a : List Byte) (off : Nat) (b : List Byte) : List Byte := slice a 0 off ++ b ++ (slice a 0 32).drop (off + b.length)

/-- One operation on the sector `a`, at offset `off` for the single forms (Table 11-4). -/
def nmaOn (op : NmaOp) (a : List Byte) (off : Nat) : NmaOut :=
  match op with
  | .add32 v =>
    let o := leNat (slice a off 4)
    ⟨putAt a off (leBytes 4 (o + v.toNat)), o, 0, 0⟩
  | .add64 v =>
    let o := leNat (slice a off 8)
    ⟨putAt a off (leBytes 8 (o + v.toNat)), o, 0, 0⟩
  | .fadd32 v =>
    let o := leNat (slice a off 4)
    let r := f32.add o v.toNat
    ⟨putAt a off (leBytes 4 r.1), o, 0, r.2⟩
  | .vadd32 m v => ⟨masked m a (vadd 4 a v), 0, 0, 0⟩
  | .vadd64 m v => ⟨masked m a (vadd 8 a v), 0, 0, 0⟩
  | .vfadd32 m v => let r := vfadd m a v; ⟨masked m a r.1, 0, 0, r.2⟩
  | .vaddU8S m v => let r := vsat 1 m a v; ⟨r.1, 0, r.2, 0⟩
  | .vaddU4S m v => let r := vsat 2 m a v; ⟨r.1, 0, r.2, 0⟩
  | .vaddS8S m v => let r := vsat 3 m a v; ⟨r.1, 0, r.2, 0⟩
  | .put m v => ⟨masked m a v, 0, 0, 0⟩

/-- Width in bytes that an operation's address is aligned on (R325). -/
def nmaAlign : NmaOp → Nat
  | .add32 _ | .fadd32 _ => 4
  | .add64 _ => 8
  | _ => 32

/-- Whether an operation is of a vector form. -/
def nmaVector : NmaOp → Bool
  | .add32 _ | .add64 _ | .fadd32 _ => false
  | _ => true

/-- One operation at its alignment, or a group of up to eight vector operations in one aligned 256-byte block
(R325, R326). -/
def nmaGroupOk (ops : List (Nat × NmaOp)) : Bool :=
  ops.all (fun p => p.1 % nmaAlign p.2 == 0) &&
    (ops.length == 1 || (!ops.isEmpty && decide (ops.length ≤ 8) &&
      ops.all (fun p => nmaVector p.2 && p.1 / 256 == (ops.headD (0, .put 0 [])).1 / 256)))

/-- Performs an operation at its sector for account `acct` (R325 to R327): not on an uncorrectable sector. -/
def Device.nma (d : Device) (action acct addr : Nat) (op : NmaOp) : Device × Except MemErr NmaOut :=
  let s := addr / 32 * 32
  if !d.hbm.reachable s then (d, .error .violation)
  else if d.hbm.sectorBad s then (d.noteUncorr action s, .error (.uncorrectable s))
  else
    let out := nmaOn op (memRead d.hbm.mem s 32) (addr - s)
    let d := (d.hbmStore action acct s out.sector).1
    ((d.count Reg.MEM_NMA_OPS 1).count Reg.MEM_NMA_SAT out.clamps, .ok out)

end Sys2Proof.Machine
end

