-- ==== Sys2Proof/Machine/Tables.lean ====
section
/-! DEFINITION. Table operations (R175 to R177, R186, R187), the acceptance of delta batches and markers (R182, R183)
and the application of rounds (R184, R185). -/
namespace Sys2Proof.Machine

open Sys2Proof

/-! ### Bound tasks and slots (R175 to R178) -/

/-- Tasks of this device bound to a slot (THT_TBOUND): a bound task keeps what R178 gave it until it ends. -/
def Device.boundTasks (d : Device) (n : Nat) (b : Bool) : Nat :=
  d.jobs.countP (fun j => match j.run with | .tht _ t s _ _ _ => t == n && s == b | _ => false)

def Device.mapSlot (d : Device) (n : Nat) (b : Bool) (f : VSlot → VSlot) : Device :=
  let t := d.table n
  d.setTable n (t.setSlot b (f (t.slot b)))

/-- What one row of a batch says: the physical row, then its coded deltas or its whole row. -/
def updBytes : RowUpdate → List Byte
  | .add r ds => leBytes 8 r ++ ds.flatMap (fun x => leBytes 4 (unsigned 32 x))
  | .put r im => leBytes 8 (r + 2 ^ 40) ++ im

/-- A batch as it is sent and staged: its layout is not stated (`Config.deltaBytes`), and it takes at most 128 bytes beyond
its rows' (DESIGN CHOICE, log entry 53). -/
def batchBytes (b : DeltaBatch) : List Byte :=
  let rows := b.rows.flatMap updBytes
  (Config.deltaBytes b.source b.round b.seq rows).take (128 + rows.length)

/-- The parts of the staging area that a table's slots hold batches in: offset and length. -/
def Table.staged (t : Table) : List (Nat × Nat) := ((t.a.rounds ++ t.b.rounds).flatMap Round.places).map (fun p => p.2.2)

/-- The lowest offset at which `n` bytes of the staging area are free (R182; DESIGN CHOICE, log entry 53). -/
def Table.stageAt (t : Table) (n : Nat) : Option Nat :=
  let free (o : Nat) : Bool := decide (o + n ≤ t.stageKb * 1024) && !t.staged.any (fun p => overlap p.1 p.2 o n)
  ((0 :: t.staged.map (fun p => p.1 + p.2)).filter free).foldl (fun m o => match m with | none => some o | some q => some (min q o)) none

/-- The open rounds in ascending order begin with this one. -/
def VSlot.lowest (v : VSlot) : Option Round :=
  v.rounds.foldl (fun m r => match m with | none => some r | some q => if r.number < q.number then some r else some q) none

def VSlot.round? (v : VSlot) (n : Nat) : Option Round := v.rounds.find? (fun r => r.number == n)

/-- A round put in place of the one with its number. -/
def VSlot.putRound (v : VSlot) (r : Round) : VSlot :=
  { v with rounds := v.rounds.filter (fun q => q.number != r.number) ++ [r] }

/-- Closed by CLOSE_ROUND, or with the markers of all its sources: enough for the lowest open round (R182). -/
def Round.complete (r : Round) : Bool :=
  let n := if r.nsrc = 0 then r.said else r.nsrc
  r.closed || (n != 0 && decide (n ≤ r.markers.length))

/-! ### Acknowledgements (R183, R381) -/

/-- One acknowledgement has come for a batch: a failing one ends the task, and a refused batch is a refusal of the task
(R166); the batch is done with its last, and the task with its last batch. -/
def Device.batchAck (d : Device) (rtag status cause : Nat) : Device :=
  match d.remote? rtag with
  | none => d
  | some r =>
    if r.kind ≠ 3 then d
    else if status ≠ stOk then
      let d := d.failRemote rtag status cause
      if status ≠ stInternal then d
      else
        let c := match d.job? r.job with | some j => j.ctx | none => 0
        (d.count (Reg.THT_REFUSED r.truss) 1).log 0x0C 3 (unitCode r.truss 8) c 2 0 (BitVec.ofNat 64 cause) (BitVec.ofNat 64 r.bag)
    else if 1 < r.pos then { d with remotes := d.remotes.map (fun q => if q.rtag = rtag then { q with pos := q.pos - 1 } else q) }
    else
      let d := { d with remotes := d.remotes.filter (fun q => q.rtag != rtag) }
      if d.remotes.any (fun q => q.job == r.job) then d else d.endJob r.job endOk

/-- Tells a batch's source what became of it. -/
def Device.tellSource (d : Device) (b : DeltaBatch) (status cause : Nat) : Device :=
  if b.source = d.devnum then d.batchAck b.rtag status cause
  else
    let kind := if status = stOk then 0x06 else 0x0E
    d.sendAnswer { d.note kind b.source 0 b.rtag (if status = stOk then [] else [BitVec.ofNat 8 status, BitVec.ofNat 8 cause])
               with tgid := b.tgid, unit := unitCode 0 10 }

/-- DELTA_BATCH_ACK (R183). -/
def execDeltaBatchAck (rtag status cause : Nat) (s : State) : Host.Outcome State Fault Refusal :=
  onDevice s fun d => d.batchAck rtag (status % 256) (cause % 256)

/-! ### Acceptance (R182, R183) -/

/-- What becomes of a batch or marker that arrives. -/
inductive Accept where
  | taken
  /-- Discarded (R356) -/
  | duplicate
  | refused (status cause : Nat)
  | waits
  deriving DecidableEq, Repr

/-- Slots that accept deltas (Table 06-5). -/
def acceptingStates : List Nat := [vLoading, vStandby, vCurrent]

/-- The row of an update. -/
def updRow : RowUpdate → Nat
  | .add r _ => r
  | .put r _ => r

/-- Whether a batch's row lies in the slot (R163). -/
def Table.hasRow (t : Table) (p : Nat) : Bool := match t.place p with | some (_, l) => decide (l < t.nlocal) | none => false

/-- Where work of a table's own that lacks a translation asks for it. -/
def Device.askFor (d : Device) (ctx t va : Nat) (wr : Bool) : Device := d.ownMiss ctx 8 t va wr

/-- Writes an accepted batch into the staging area (R182): at the table's cost, on its home truss. -/
def Device.stageBatch (d : Device) (n : Nat) (s : Bool) (t : Table) (r : Round) (b : DeltaBatch) : Device × Accept :=
  let bs := batchBytes b
  match t.stageAt bs.length with
  | none => (d, .waits)
  | some o =>
    let home := d.homeOf t
    let va := t.f 11 51 0 + o
    if !vaOk va bs.length then (d, .refused stViolation 0x44)
    else
      match d.translateAll t.ctx home (unitCode home 8) true (pieces (2 ^ 21) va bs.length) with
      | (d, .miss a wr) => (d.askFor t.ctx home a wr, .waits)
      | (d, .fail e) => (d, .refused e.status (bits e.d0 7 0))
      | (d, .ok _) =>
        match d.vstore t.ctx home (unitCode home 8) va bs with
        | (d, .fail e) => (d, .refused e.status (bits e.d0 7 0))
        | (d, _) =>
          (d.mapSlot n s (fun v => v.putRound { r with nsrc := b.nsrc, batches := r.batches ++ [b]
                                                       places := r.places ++ [(b.source, b.seq, o, bs.length)] }), .taken)

/-- Takes a batch into staging, refuses it, or leaves it at its source. -/
def Device.acceptBatch (d : Device) (b : DeltaBatch) : Device × Accept :=
  match d.tableOf b.tgid with
  | none => (d, .refused stViolation 0)
  | some (n, t) =>
    if t.tenant ≠ b.tenant then (d, .refused stViolation 0)
    else
      match t.slotOfGen b.gen acceptingStates with
      | none => (d.count (Reg.THT_VERSION_REFUSED (d.homeOf t)) 1, .refused stRetired 0)
      | some s =>
        let v := t.slot s
        let r := v.round? b.round
        let closed := match r with
          | some r => r.closed || (r.complete && (v.lowest).map Round.number == some r.number)
          | none => false
        let other := match r with | some r => r.nsrc != 0 && r.nsrc != b.nsrc | none => false
        let r := match r with | some r => r | none => { (default : Round) with number := b.round }
        if r.batches.any (fun c => c.source == b.source && c.seq == b.seq) || v.seen.contains (b.source, b.round, b.seq) then
          (d, .duplicate)
        else if b.round ≤ v.applied || closed then (d, .refused stInternal 0x07)
        else if other then (d, .refused stInternal 0x08)
        else if !b.rows.all (fun u => t.hasRow (updRow u)) then (d, .refused stViolation 0)
        else if v.applied + 4 < b.round then (d, .waits)
        else d.stageBatch n s t r b

/-- Takes an end-of-round marker: its source has contributed to the round. -/
def Device.acceptMarker (d : Device) (b : DeltaBatch) : Device × Accept :=
  match d.tableOf b.tgid with
  | none => (d, .taken)
  | some (n, t) =>
    match t.slotOfGen b.gen acceptingStates with
    | none => (d, .taken)
    | some s =>
      let v := t.slot s
      let r := match v.round? b.round with | some r => r | none => { (default : Round) with number := b.round }
      if b.round ≤ v.applied || r.closed then (d, .taken)
      else if v.applied + 4 < b.round then (d, .waits)
      else if r.markers.contains b.source then (d, .taken)
      else
        let said := if r.markers.isEmpty then b.nsrc else r.said
        (d.mapSlot n s (fun v => v.putRound { r with markers := r.markers ++ [b.source], said := said }), .taken)

/-- A batch from this device for itself: taken, refused or kept waiting. -/
def Device.deliverLocal (d : Device) (x : Bool × DeltaBatch) : Device :=
  match (if x.1 then d.acceptMarker x.2 else d.acceptBatch x.2) with
  | (d, .waits) => { d with heldLocal := d.heldLocal ++ [x] }
  | (d, .taken) => if x.1 then d else d.tellSource x.2 stOk 0
  | (d, .duplicate) => d
  | (d, .refused st c) => d.tellSource x.2 st c

/-- Offers again what waits at this device. -/
def Device.retryLocal (d : Device) : Device :=
  d.heldLocal.foldl Device.deliverLocal { d with heldLocal := [] }

/-- DELTA_BATCH (R182, R183): one that waits at its source changes nothing here. -/
def execDeltaBatch (b : DeltaBatch) (s : State) : Host.Outcome State Fault Refusal :=
  onDevice s fun d =>
    if !d.serves then d
    else
      match d.acceptBatch b with
      | (d, .taken) => d.tellSource b stOk 0
      | (d, .duplicate) => d
      | (d, .refused st c) => d.tellSource b st c
      | (d, .waits) => d

/-- END_OF_ROUND_MARKER (R182). -/
def execEndOfRoundMarker (source tgid gen round nsrc : Nat) (s : State) : Host.Outcome State Fault Refusal :=
  onDevice s fun d =>
    if !d.serves then d
    else (d.acceptMarker { source := source, tgid := tgid, tenant := 0, gen := gen, round := round, nsrc := nsrc, seq := 0, rtag := 0
                           dfence := false, wait := false, rows := [] }).1

/-! ### Applying a round (R182, R184, R185) -/

/-- Insertion by an order given as a Boolean "before". -/
def insertBy {α : Type} (before : α → α → Bool) (x : α) : List α → List α
  | [] => [x]
  | y :: r => if before x y then x :: y :: r else y :: insertBy before x r

/-- Sorts, keeping the order of equals. -/
def sortBy {α : Type} (before : α → α → Bool) (l : List α) : List α := l.foldl (fun a x => insertBy before x a) []

/-- The row updates of a round, each with the source and SEQ of its batch, in the order of R182: sources, then SEQ, then
rows, ascending. -/
def Round.updates (r : Round) : List ((Nat × Nat) × RowUpdate) :=
  (sortBy (fun a b => decide (a.source < b.source) || (a.source == b.source && decide (a.seq < b.seq))) r.batches).flatMap
    (fun b => (sortBy (fun x y => decide (updRow x < updRow y)) b.rows).map (fun u => ((b.source, b.seq), u)))

/-- A delta in the 16 bits that a near-memory operation takes: every code range is narrower, so the clamped sum is the
same. -/
def delta16 (x : Int) : Int := clampTo (-32768, 32767) x

/-- Byte mask of sector `s` of a row for its bytes from `lo` up to `hi`. -/
def sectorMask (s lo hi : Nat) : BitVec 32 :=
  BitVec.ofNat 32 ((List.range 32).foldl (fun n k => if lo ≤ 32 * s + k ∧ 32 * s + k < hi then n + 2 ^ k else n) 0)

/-- The near-memory operation that makes an update in sector `s` of its row (R184, Table 11-4). -/
def updOp (t : Table) (u : RowUpdate) (s : Nat) : NmaOp :=
  match u with
  | .put _ im => .put (sectorMask s 0 t.rowLen) (slice im (32 * s) 32)
  | .add _ ds =>
    let m := sectorMask s 8 t.rowLen
    let at_ (b : Nat) : Int := if b < 8 then 0 else delta16 (ds.getD (b - 8) 0)
    if t.kind = 2 then
      .vaddU4S m ((List.range 64).map (fun n =>
        let b := 32 * s + n / 2
        if b < 8 then 0 else delta16 (ds.getD (2 * (b - 8) + n % 2) 0)))
    else if t.kind = 1 then .vaddU8S m ((List.range 32).map (fun k => at_ (32 * s + k)))
    else .vaddS8S m ((List.range 32).map (fun k => at_ (32 * s + k)))

/-- A row's bytes as they lie in HBM, piece by piece. -/
def Device.rowBytes (d : Device) (ps : List (Nat × Nat)) : List Byte := ps.flatMap (fun p => memRead d.hbm.mem p.1 p.2)

/-- The physical address of distance `k` into translated pieces. -/
def pieceAddr : List (Nat × Nat) → Nat → Nat
  | [], k => k
  | p :: ps, k => if k < p.2 then p.1 + k else pieceAddr ps (k - p.2)

/-- Makes one row update of batch `key` at translated pieces, with the digest kept in step (R184, R186); an uncorrectable
sector stays as it is, and spoils the batch (R327). -/
def Device.writeRow (d : Device) (n : Nat) (s : Bool) (t : Table) (key : Nat × Nat) (u : RowUpdate) (ps : List (Nat × Nat)) :
    Device :=
  let home := d.homeOf t
  let old := d.rowBytes ps
  let w := (List.range (ceilDiv t.rowLen 32)).foldl (fun (x : Device × Bool) k =>
    match x.1.nma 2 t.ctx (pieceAddr ps (32 * k)) (updOp t u k) with
    | (d, .ok out) => (d.count (Reg.THT_DELTA_SAT home) out.clamps, x.2)
    | (d, .error _) => (d, true)) (d, false)
  let d := w.1
  let d := d.reaskRows (fun l => ps.any (fun p => overlap (128 * l) 128 p.1 p.2))
  let new := d.rowBytes ps
  let d := d.mapSlot n s (fun v =>
    { v with digest := v.digest - BitVec.ofNat 64 (rowHash (updRow u) old) + BitVec.ofNat 64 (rowHash (updRow u) new)
             rounds := v.rounds.map (fun r => if some r.number = (v.lowest).map Round.number then
               { r with made := r.made + 1, spoilt := if w.2 then r.spoilt ++ [key] else r.spoilt } else r) })
  (d.count (Reg.THT_DELTA_ROWS home) 1).charge t.ctx .thtRows 1 home

/-- Makes the updates of a round one after another; true when all are made. -/
def Device.writeRows (d : Device) (n : Nat) (s : Bool) (t : Table) : List ((Nat × Nat) × RowUpdate) → Device × Bool
  | [] => (d, true)
  | u :: us =>
    match t.place (updRow u.2) with
    | none => Device.writeRows d n s t us
    | some (_, l) =>
      let home := d.homeOf t
      match d.translateAll t.ctx home (unitCode home 8) true (pieces (2 ^ 21) (t.rowAddr s 0 l) t.rowLen) with
      | (d, .ok ps) => Device.writeRows (d.writeRow n s t u.1 u.2 ps) n s t us
      | (d, .miss va wr) => (d.askFor t.ctx home va wr, false)
      | (d, .fail _) => (d, false)

/-- The applied round becomes `r` (R182, R402), and tasks that wait for it hear of it, or of the uncorrectable sector
that a batch of theirs met (R327). -/
def Device.roundDone (d : Device) (n : Nat) (s : Bool) (r : Round) : Device :=
  let stride := max 1 (d.fld Reg.REP_CTRL Fld.REP_CTRL_RSTRIDE)
  let d := d.mapSlot n s (fun v =>
    let v := { v with applied := r.number, seen := v.seen ++ r.batches.map (fun b => (b.source, r.number, b.seq)), rounds := v.rounds.filter (fun q => decide (r.number < q.number)) }
    if r.number % stride = 0 then { v with cpDigest := v.digest, cpRound := r.number } else v)
  ((r.batches.filter DeltaBatch.wait).foldl (fun d b =>
    d.tellSource b (if r.spoilt.contains (b.source, b.seq) then stUncorr else stOk) 0) d).retryLocal

/-- ROUND_APPLY (R182, R184 to R186): held while a digest is built. -/
def execRoundApply (table : Nat) (slotB : Bool) (s : State) : Host.Outcome State Fault Refusal :=
  onServing s fun d =>
    let t := d.table table
    let v := t.slot slotB
    if !d.serves || !t.valid || v.build.isSome || v.state == vEmpty then d
    else
      match v.lowest with
      | none => d
      | some r =>
        if !r.complete then d
        else
          match d.writeRows table slotB t (r.updates.drop r.made) with
          | (d, true) => d.roundDone table slotB r
          | (d, false) => d

/-! ### Table operations (R176, Table 06-6) -/

def Cmd.slotB (c : Cmd) : Bool := c.arg 23 23 == 1
def Cmd.tableNo (c : Cmd) : Nat := c.arg 35 24

/-- The command, if it is this table operation and waits to be carried out. -/
def Device.tableOp? (d : Device) (id op : Nat) : Option Job :=
  match d.issued? id 0x28 with
  | some j => if j.cmd.arg 22 19 = op then some j else none
  | none => none

/-- An operation refused as not permitted (R176, R252): no cause applies (Table 09-12). -/
def Device.notPermitted (d : Device) (j : Nat) : Device :=
  match d.job? j with
  | none => d
  | some k => d.refuse k 0

/-- An operation on a loaded table, by the table's context or context 0 (R176). -/
def Device.onTable (d : Device) (k : Job) (f : Device → Table → Device) : Device :=
  let t := d.table k.cmd.tableNo
  if !t.valid then d.refuse k 0x01
  else if k.ctx ≠ 0 ∧ k.ctx ≠ t.ctx then d.denied k
  else f d t

/-- Whether DESC refuses a descriptor (R159), with its reserved fields zero. -/
def descBad (ws : List Word) : Bool :=
  let t : Table := { (default : Table) with desc := ws }
  let f := t.f
  let reserved := f 1 47 46 != 0 || f 4 23 19 != 0 || f 5 63 52 != 0 || f 6 63 52 != 0 || f 7 63 52 != 0 || f 9 63 52 != 0
    || f 10 63 52 != 0 || f 11 63 52 != 0 || wordAt ws 13 != 0 || wordAt ws 14 != 0 || wordAt ws 15 != 0
  reserved || t.kind == 0 || decide (4 < t.kind) || t.own == 3 || decide (t.dim < 8) || decide (1024 < t.dim)
    || decide (t.pitch < t.rowLen) || f 3 0 0 == 0
    || (t.isQr && (t.own != 0 || t.nq == 0 || t.nr == 0 || decide (t.nq * t.nr < t.nlog)))
    || t.nlog == 0 || t.nshard == 0 || (t.own == 0 && t.nshard != 1)
    || f 6 7 0 != 0 || f 7 7 0 != 0 || (t.isQr && (f 9 7 0 != 0 || f 10 7 0 != 0))

/-- DESC (R158, R159, R176): the entry is read in context 0's space, and the owner list in the table's. -/
def execDesc (j : Nat) (s : State) : Host.Outcome State Fault Refusal :=
  onDevice s fun d =>
    match d.tableOp? j 0 with
    | none => d
    | some k =>
      let n := k.cmd.tableNo
      let t := d.table n
      if t.a.state ≠ vEmpty ∨ t.b.state ≠ vEmpty then d.notPermitted j
      else
        let at_ := d.fld Reg.THT_TDT_BASE Fld.THT_TDT_BASE_ADDR * 128 + 128 * n
        Device.andThenIn (d.vload 0 16 k.cmd.opUnit at_ 128) 0 j 0 16 fun d bs =>
          let u : Table := { t with desc := bytesWords bs }
          if k.ctx ≠ 0 ∧ k.ctx ≠ u.ctx then d.denied k
          else if descBad u.desc then d.notPermitted j
          else
            Device.andThenIn (if u.own = 0 then (d, .ok []) else d.vload u.ctx 16 k.cmd.opUnit (u.f 5 51 0) (4 * u.nshard)) u.ctx j 0 16
              fun d os =>
                let owners := (chunks 4 os.length os).map (fun c => leNat c % 2 ^ 18)
                (d.setTable n { u with owners := owners, valid := true }).endJob j endOk

/-- OPEN (R175, R176, Table 06-6). -/
def execOpenSlot (j : Nat) (s : State) : Host.Outcome State Fault Refusal :=
  onDevice s fun d =>
    match d.tableOp? j 1 with
    | none => d
    | some k => d.onTable k fun d t =>
      let b := k.cmd.slotB
      let gen := bits k.cmd.c1 31 0
      if (t.slot b).state ≠ vEmpty || (t.slot (!b)).gen == gen then d.notPermitted j
      else (d.setTable k.cmd.tableNo (t.setSlot b { (default : VSlot) with state := vLoading, gen := gen })).endJob j endOk

/-- Starts a digest build: 1 SEAL, 2 REBUILD (R186). -/
def Device.startBuild (d : Device) (k : Job) (kind : Nat) : Device :=
  (d.mapSlot k.cmd.tableNo k.cmd.slotB (fun v => { v with build := some (kind, k.id) })).mapJob k.id (fun j => { j with state := .waiting })

/-- SEAL (R176, R186). -/
def execSealSlot (j : Nat) (s : State) : Host.Outcome State Fault Refusal :=
  onDevice s fun d =>
    match d.tableOp? j 2 with
    | none => d
    | some k => d.onTable k fun d t =>
      let v := t.slot k.cmd.slotB
      if v.state ≠ vLoading || v.build.isSome then d.notPermitted j else d.startBuild k 1

/-- PUBLISH (R176, Table 06-6). -/
def execPublish (j : Nat) (s : State) : Host.Outcome State Fault Refusal :=
  onDevice s fun d =>
    match d.tableOp? j 3 with
    | none => d
    | some k => d.onTable k fun d t =>
      let b := k.cmd.slotB
      if (t.slot b).state ≠ vStandby then d.notPermitted j
      else
        let o := t.slot (!b)
        let t := t.setSlot b { t.slot b with state := vCurrent }
        let t := if o.state = vCurrent then t.setSlot (!b) { o with state := vRetiring } else t
        (d.setTable k.cmd.tableNo t).endJob j endOk

/-- Empties a slot; a build of it ends as not permitted. -/
def Device.emptySlot (d : Device) (n : Nat) (b : Bool) : Device :=
  let v := (d.table n).slot b
  let d := d.mapSlot n b (fun v => { v with state := vEmpty, rounds := [], build := none })
  match v.build with
  | some (_, k) => d.notPermitted k
  | none => d

/-- DROP (R176, R183, Table 06-6): staged batches are refused, and what waited here is offered again. -/
def execDropSlot (j : Nat) (s : State) : Host.Outcome State Fault Refusal :=
  onDevice s fun d =>
    match d.tableOp? j 4 with
    | none => d
    | some k => d.onTable k fun d t =>
      let v := t.slot k.cmd.slotB
      if v.state ≠ vLoading ∧ v.state ≠ vStandby then d.notPermitted j
      else
        let d := d.emptySlot k.cmd.tableNo k.cmd.slotB
        let bs := v.rounds.flatMap Round.batches
        let d := (bs.foldl (fun d b => d.tellSource b stRetired 0) d).count (Reg.THT_VERSION_REFUSED (d.homeOf t)) bs.length
        d.retryLocal.endJob j endOk

/-- REBUILD (R176, R186). -/
def execRebuild (j : Nat) (s : State) : Host.Outcome State Fault Refusal :=
  onDevice s fun d =>
    match d.tableOp? j 5 with
    | none => d
    | some k => d.onTable k fun d t =>
      let v := t.slot k.cmd.slotB
      if v.state ≠ vStandby && v.state ≠ vCurrent && v.state ≠ vRetiring || v.build.isSome then d.notPermitted j
      else d.startBuild k 2

/-- CLOSE_ROUND (R176, R182). -/
def execCloseRound (j : Nat) (s : State) : Host.Outcome State Fault Refusal :=
  onDevice s fun d =>
    match d.tableOp? j 6 with
    | none => d
    | some k => d.onTable k fun d t =>
      match (t.slot k.cmd.slotB).round? (bits k.cmd.c2 31 0) with
      | none => d.notPermitted j
      | some r =>
        if r.closed then d.notPermitted j
        else (d.mapSlot k.cmd.tableNo k.cmd.slotB (fun v => v.putRound { r with closed := true })).endJob j endOk

/-- The local rows of a slot: sub-table, row number in the digest, local row (R186). -/
def Device.localRows (d : Device) (t : Table) : List (Nat × Nat × Nat) :=
  if t.isQr then (List.range (min t.nq t.nlocal)).map (fun l => (0, l, l)) ++ (List.range (min t.nr t.nlocal)).map (fun l => (1, t.nq + l, l))
  else
    let s := d.ownShard t
    (List.range t.nlocal).map (fun l => (0, t.physical s l, l))

/-- The sum of R186 over rows; stops at a miss or an unreadable row. -/
def Device.digestRows (d : Device) (t : Table) (b : Bool) : List (Nat × Nat × Nat) → Word → Device × Got Word
  | [], acc => (d, .ok acc)
  | r :: rs, acc =>
    match d.vload t.ctx (d.homeOf t) (unitCode (d.homeOf t) 8) (t.rowAddr b r.1 r.2.2) t.rowLen with
    | (d, .ok bs) => Device.digestRows d t b rs (acc + BitVec.ofNat 64 (rowHash r.2.1 bs))
    | (d, .miss a w) => (d, .miss a w)
    | (d, .fail e) => (d, .fail e)

/-- The build is over: delta application goes on (R186). -/
def Device.endBuild (d : Device) (n : Nat) (b : Bool) : Device := d.mapSlot n b (fun v => { v with build := none })

/-- DIGEST_BUILD_DONE (R186, R187): a row that cannot be read ends the operation, and a SEAL leaves its slot LOADING. -/
def execDigestBuildDone (table : Nat) (slotB : Bool) (s : State) : Host.Outcome State Fault Refusal :=
  onDevice s fun d =>
    let t := d.table table
    let v := t.slot slotB
    match v.build with
    | none => d
    | some (kind, j) =>
      match d.digestRows t slotB (d.localRows t) 0 with
      | (d, .miss va wr) => d.askFor t.ctx (d.homeOf t) va wr
      | (d, .fail e) => (d.endBuild table slotB).endJob j e
      | (d, .ok sum) =>
        let d := d.endBuild table slotB
        if kind = 1 then (d.mapSlot table slotB (fun v => { v with digest := sum, state := vStandby })).endJob j endOk
        else
          let d := d.mapSlot table slotB (fun v => { v with digest := sum })
          if sum = v.digest then d.endJob j endOk
          else (d.endJob j (endC stAbft 0 0 table 0)).log 0x0B 0 (unitCode (d.homeOf t) 8) t.ctx 2 0 v.digest sum

/-- SLOT_RELEASE (R177): no request of another device for the generation waits here, no task is bound, nothing is
staged. -/
def execSlotRelease (table : Nat) (slotB : Bool) (s : State) : Host.Outcome State Fault Refusal :=
  onDevice s fun d =>
    let t := d.table table
    let v := t.slot slotB
    let served := d.serving.any (fun p => p.2.kind == 1 && p.2.tgid == t.tgid && p.2.gen == v.gen)
    if v.state ≠ vRetiring || d.boundTasks table slotB != 0 || served || v.rounds.any (fun r => !r.batches.isEmpty) then d
    else d.emptySlot table slotB

end Sys2Proof.Machine
end

