-- ==== Sys2Proof/Machine/Thatch.lean ====
section
/-! DEFINITION. The Thatch engine (06): look-up tasks (R164 to R174, R178) and delta tasks (R180, R181, R183). -/
namespace Sys2Proof.Machine

open Sys2Proof

/-! ### The look-up descriptor (Table 06-2) -/

abbrev ThtDesc := List Word

def thtF (w : ThtDesc) (k hi lo : Nat) : Nat := bits (wordAt w k) hi lo
def thtTable (w : ThtDesc) : Nat := thtF w 0 11 0
def thtMean (w : ThtDesc) : Bool := thtF w 0 14 13 == 1
def thtWtd (w : ThtDesc) : Bool := thtF w 0 15 15 == 1
def thtS8 (w : ThtDesc) : Bool := thtF w 0 16 16 == 1
def thtBlk (w : ThtDesc) : Nat := blkSize (thtF w 0 18 17)
def thtGen (w : ThtDesc) : Nat := thtF w 0 63 32
def thtBags (w : ThtDesc) : Nat := thtF w 1 16 0
def thtOffs (w : ThtDesc) : Nat := thtF w 1 63 32
def thtIdx (w : ThtDesc) : Nat := thtF w 2 31 0
def thtWts (w : ThtDesc) : Nat := thtF w 2 63 32
def thtOut (w : ThtDesc) : Nat := thtF w 3 31 0
def thtOsAddr (w : ThtDesc) : Nat := thtF w 4 31 0
def thtOsPitch (w : ThtDesc) : Nat := thtF w 4 47 32

/-- Blocks per S8 output row (R170). -/
def thtNb (w : ThtDesc) (t : Table) : Nat := ceilDiv t.dim (thtBlk w)

/-- A non-zero reserved field of a look-up descriptor. -/
def thtReserved (w : ThtDesc) : Bool :=
  thtF w 0 31 19 != 0 || thtF w 1 31 17 != 0 || thtF w 3 63 56 != 0 || thtF w 4 63 48 != 0 || thtF w 5 63 40 != 0
    || wordAt w 6 != 0 || wordAt w 7 != 0

/-- The checks of a look-up's start after its context's (Table 06-3): 0x02, then 0x09. -/
def thtStartCause (w : ThtDesc) (t : Table) : Option Nat :=
  if thtBags w = 0 || decide (65536 < thtBags w) || decide (1 < thtF w 0 14 13) || thtReserved w
      || (thtS8 w && decide (thtOsPitch w < thtNb w t)) then some 0x02
  else if thtOffs w % 4 != 0 || thtIdx w % 8 != 0 || (thtWtd w && thtWts w % 2 != 0) || (thtS8 w && thtOsAddr w % 2 != 0)
      || (!thtS8 w && thtOut w % 128 != 0) then some 0x09
  else none

/-- A Thatch task is refused (R166): INTERNAL, counted and logged. -/
def Device.thtRefuse (d : Device) (j : Job) (t cause index : Nat) : Device :=
  (d.engineRefuse j (unitCode t 8) cause index (BitVec.ofNat 64 index)).count (Reg.THT_REFUSED t) 1

/-- A Loft pointer of a descriptor moved by a distance, none out of its offset field. -/
def thtPtr (base delta : Nat) : Option Word := ptrMove (BitVec.ofNat 64 base) delta

def Device.thtLoad (d : Device) (j : Job) (t base delta n : Nat) : Device × Got (List Byte) :=
  if n = 0 then (d, .ok [])
  else
    match thtPtr base delta with
    | none => (d, .fail (endC stViolation 0 (unitCode t 8) 0 0))
    | some p => d.ptrLoad j.ctx t (unitCode t 8) false p n

def Device.thtStore (d : Device) (j : Job) (t base delta : Nat) (bs : List Byte) : Device × Got Unit :=
  match thtPtr base delta with
  | none => (d, .fail (endC stViolation 0 (unitCode t 8) 0 0))
  | some p => d.ptrStore j.ctx t (unitCode t 8) false p bs

def Device.setTht (d : Device) (j : Job) (r : Run) : Device := d.mapJob j.id (fun j => { j with run := r })

/-! ### Pooling (R167 to R170) -/

/-- The normalisation of R55 on an exact value: its own exponent where it fits, or the least one above that does. -/
def normalise (v : Dyad) : Tracked :=
  if v.n = 0 then tzero
  else
    let r := alignLoop 3 v (max v.e (floorLog2 v.n v.e - 63))
    ⟨r.1, r.2⟩

/-- Element `k` of an item, times its weight, with 18 spare low bits so that the sums of R167 are exact. -/
def ThtItem.term (t : Table) (i : ThtItem) (k : Nat) : Tracked :=
  let v (n : Nat) : Dyad := rowElem t.kind (((i.rows.getD n default).data).getD []) k
  let e := if t.isQr then (if t.qrop = 0 then (v 0).mul (v 1) else (v 0).add (v 1)) else v 0
  normalise ⟨e.n * i.weight * 2 ^ 18, e.e - 18⟩

/-- ⌈log2 n⌉ for n > 0. -/
def ceilLog2 (n : Nat) : Nat := if n ≤ 1 then 0 else log2Aux 64 (n - 1) + 1

/-- The mean over n items (R168). -/
def meanOf (s : Tracked) (n : Nat) : Tracked :=
  let l := ceilLog2 n
  let r := rneDiv (2 ^ (32 + l)) n
  normalise ⟨s.a * r, s.x - 32 - l⟩
where
  /-- a ÷ b to the nearest integer, ties to even. -/
  rneDiv (a b : Nat) : Int :=
    let q := a / b
    let m := 2 * (a % b)
    if m < b then q else if b < m then q + 1 else q + q % 2

/-- The pooled elements of a bag in position order, each with its saturations (R55, R167, R168). -/
def ThtBag.pooled (t : Table) (mean : Bool) (b : ThtBag) : List (Tracked × Nat) :=
  (List.range t.dim).map fun k =>
    let s := alignedSum tzero (b.items.map (fun i => i.term t k))
    (if mean && !b.items.isEmpty then meanOf s.1 b.items.length else s.1, s.2)

/-- One chunk of a pooled row (R169): 128 elements of A, the chunk exponent, zeros. -/
def accChunk (es : List Tracked) : List Byte :=
  let live := es.filter (fun e => e.a != 0)
  let cells := es.map (fun e => (⟨e.a, false, e.x⟩ : AccCell))
  let r : Int × List Int :=
    match live with
    | [] => (-32768, es.map (fun _ => 0))
    | _ =>
      let x0 := live.foldl (fun (m : Int) e => max m (floorLog2 e.a e.x - 63)) (-32767)
      let x := narrowLoop cells 3 x0
      (x, cells.map (fun c => c.roundAt x))
  slice (r.2.flatMap (fun a => leBytes 8 (unsigned 64 a))) 0 1024 ++ leBytes 2 (unsigned 16 r.1) ++ List.replicate 126 0

def ThtBag.ready (b : ThtBag) : Bool := b.items.all (fun i => i.rows.all (fun r => r.data.isSome))

/-- What a bag stores: base, distance and bytes, and the tally of its codes (R169, R170). -/
def thtOutput (w : ThtDesc) (t : Table) (b : ThtBag) : List (Nat × Nat × List Byte) × Tally :=
  let ps := b.pooled t (thtMean w)
  let es := ps.map (·.1)
  let sums : Tally := { (default : Tally) with sat := ps.foldl (fun n p => n + p.2) 0 }
  let row := b.bag * thtF w 3 55 32
  if !thtS8 w then
    ((chunks 128 es.length es).zipIdx.map (fun c => (thtOut w, row + 1152 * c.2, accChunk c.1)), sums)
  else
    let blocks := (chunks (thtBlk w) es.length es).map (fun c => quantBlock fmtS8 .computed (c.map (fun e => (0, FVal.fin (decide (e.a < 0)) ⟨e.a, e.x⟩))))
    let r := thtF w 5 39 0 + b.bag
    ((thtOut w, row, packCodes fmtS8 (blocks.flatMap (fun q => q.2.1))) ::
      blocks.zipIdx.map (fun q => (thtOsAddr w, 2 * (thtOsPitch w * b.bag + q.2), leBytes 2 (scaleEntry q.1.1 ((r * thtNb w t + q.2) % 64)))),
     blocks.foldl (fun a q => a.join q.2.2) sums)

/-- Stores one after another. -/
def Device.thtStores (d : Device) (j : Job) (t : Nat) : List (Nat × Nat × List Byte) → Device × Got Unit
  | [] => (d, .ok ())
  | x :: xs =>
    match d.thtStore j t x.1 x.2.1 x.2.2 with
    | (d, .ok _) => Device.thtStores d j t xs
    | r => r

/-- Ends a look-up whose every bag is stored. -/
def Device.thtMaybeEnd (d : Device) (id : Nat) : Device :=
  match d.job? id with
  | none => d
  | some j =>
    match j.run with
    | .tht w _ _ _ next bags => if thtBags w ≤ next && bags.isEmpty then d.endJob id endOk else d
    | _ => d

/-- Stores a complete bag (R167 to R170) and closes it. -/
def Device.bagDone (d : Device) (id t : Nat) (b : ThtBag) : Device :=
  match d.job? id with
  | none => d
  | some j =>
    match j.run with
    | .tht w n s g next bags =>
      let o := thtOutput w (d.table n) b
      Device.andThen (d.thtStores j t o.1) id 8 t fun d _ =>
        let d := ((d.count (Reg.THT_SAT t) o.2.sat).count (Reg.THT_DRL t) o.2.drl).report id o.2.report
        let d := if b.items.isEmpty then d.noteJob id noteEmptyBag else d
        d.setTht j (.tht w n s g next (bags.filter (fun c => c.bag != b.bag)))
    | _ => d

/-- Stores every complete bag of a running look-up. -/
def Device.bagsDone (d : Device) (id t : Nat) : Device :=
  match d.job? id with
  | none => d
  | some j =>
    match j.state, j.run with
    | .running, .tht _ _ _ _ _ bags => ((bags.filter ThtBag.ready).foldl (fun d b => d.bagDone id t b) d).thtMaybeEnd id
    | _, _ => d

/-! ### Asking for rows (R163, R171) -/

/-- Where a row lies: here at a local row, or on another device; none when out of range. -/
inductive RowHome where
  | here (l : Nat)
  | far (device : Nat)
  deriving DecidableEq, Repr

def Device.rowHome (d : Device) (t : Table) (p : Nat) : Option RowHome :=
  if t.own = 0 then some (.here p)
  else
    match t.place p with
    | none => none
    | some (s, l) =>
      if t.nshard ≤ s then none
      else
        let dev := t.owners.getD s 0
        some (if dev = d.devnum then .here l else .far dev)

/-- An index that gives no row: at or above NLOG, or beyond the last shard (R164). -/
def Device.outOfRange (d : Device) (t : Table) (i : Nat) : Bool :=
  decide (t.nlog ≤ i) || (t.rowsOf i).any (fun r => (d.rowHome t r.2).isNone)

def nullIndex : Nat := 0xFFFFFFFFFF

/-- Changes a row of an open bag. -/
def setRow (bag pos sub : Nat) (f : ThtRow → ThtRow) : Run → Run
  | .tht w n s g next bags =>
    .tht w n s g next (bags.map (fun b => if b.bag = bag then
      { b with items := b.items.map (fun i => if i.pos = pos then
          { i with rows := i.rows.map (fun r => if r.sub = sub then f r else r) } else i) } else b))
  | r => r

def Device.mapRow (d : Device) (id bag pos sub : Nat) (f : ThtRow → ThtRow) : Device :=
  d.mapJob id (fun j => { j with run := setRow bag pos sub f j.run })

/-- Rows of an open bag not yet asked for: bag, position, row. -/
def unasked (bags : List ThtBag) : List (Nat × Nat × ThtRow) :=
  bags.flatMap fun b => b.items.flatMap fun i => (i.rows.filter (fun r => !r.asked)).map (fun r => (b.bag, i.pos, r))

/-- A local row's read goes out (R21, R29). -/
def Device.askHere (d : Device) (j : Job) (t : Nat) (x : Table) (s : Bool) (bag pos : Nat) (r : ThtRow) (l : Nat) :
    Device × Bool :=
  let unit := unitCode t 8
  let out := d.rowReqs.countP (fun q => q.truss == t && (match d.job? q.job with | some k => k.state != .done | none => false))
  if x.nlocal ≤ l then (d.endJob j.id (endC stViolation 0 unit bag 0), false)
  else if (if x.cache then 64 else 128) ≤ out then (d, false)
  else
    let n := if x.cache then x.rowLen else x.readLen
    match d.translateAll j.ctx t unit false (pieces (2 ^ 21) (x.rowAddr s r.sub l) n) with
    | (d, .miss va wr) => (d.xltMiss j.id 8 t va wr, false)
    | (d, .fail e) => (d.endJob j.id e, false)
    | (d, .ok ps) =>
      let (tag, d) := d.newTag
      let first := (ps.headD (0, 0)).1
      let d := d.mapRow j.id bag pos r.sub (fun r => { r with asked := true })
      let q : RowReq := { tag := tag, job := j.id, truss := t, bag := bag, pos := pos, sub := r.sub, addr := first, len := x.rowLen, lines := []
                          ctx := j.ctx, va := x.rowAddr s r.sub l, serve := none }
      if x.cache then
        let lines := ps.flatMap (fun p => (pieces 128 p.1 p.2).map (fun y => y.1 / 128))
        let d := { d with rowReqs := d.rowReqs ++ [{ q with lines := lines.map (fun y => (y, none)) }] }
        (lines.foldl (fun d y => d.sofDemand t y j.ctx j.ctx tag) d, true)
      else
        let got := d.readRow j.ctx ps
        let data := got.2.map (fun bs => List.replicate (first % 128) 0 ++ bs)
        ({ got.1 with rowReqs := got.1.rowReqs ++ [{ q with lines := [(first / 128, some data)] }] }, true)

/-- Remote row requests that an engine has outstanding (R171). -/
def Device.farOut (d : Device) (t : Nat) : Nat :=
  d.remotes.countP (fun q => q.kind == 0 && q.truss == t && (match d.job? q.job with | some k => k.state != .done | none => false))

/-- A remote row's request goes out (R171, R174). -/
def Device.askFar (d : Device) (j : Job) (t : Nat) (x : Table) (gen bag pos : Nat) (r : ThtRow) (dev : Nat) : Device × Bool :=
  if 256 ≤ d.farOut t then (d, false)
  else
    let (tag, d) := d.newTag
    let q : Remote :=
      { rtag := tag, job := j.id, truss := t, device := dev, kind := 0
        limit := max 1 (d.fld Reg.THT_CTRL Fld.THT_CTRL_REMOTE_TO) * 1000, deadline := none
        graced := false, bag := bag, pos := pos, sub := r.sub, addr := 0, len := x.rowLen }
    let p : Packet :=
      { vc := 0, cls := 0, kind := 1, len := 0, src := d.devnum, dst := dev
        addr := pack [(0, 40, r.row), (40, 4, x.home)], ctx := j.ctx, tenant := (d.ctx j.ctx).tenant, rtag := tag
        chk := 0, racc := 0, fseq := 0, tgid := x.tgid, gen := gen, payload := [], unit := unitCode t 8 }
    let d := d.mapRow j.id bag pos r.sub (fun r => { r with asked := true })
    match (({ d with remotes := d.remotes ++ [q] }).count (Reg.THT_ROWS_REMOTE t) 1).send p with
    | (d, true) => (d, true)
    | (d, false) => ((d.lostTask j (unitCode t 8) dev).count (Reg.THT_REMOTE_LOST t) 1, false)

/-- Whether a look-up's next row is another device's and the engine's remote requests are at their limit. -/
def Device.farFull (d : Device) (j : Job) (t : Nat) (x : Table) : Bool :=
  match j.run with
  | .tht _ _ _ _ _ bags =>
    match (unasked bags).head? with
    | some r =>
      (match d.rowHome x r.2.2.row with | some (.far _) => true | _ => false) && decide (256 ≤ d.farOut t)
    | none => false
  | _ => false

/-- Asks for rows in order until a limit, a miss or an end. -/
def Device.askRows (d : Device) (j : Job) (t : Nat) (x : Table) (s : Bool) (gen : Nat) : List (Nat × Nat × ThtRow) → Device
  | [] => d
  | (bag, pos, r) :: rs =>
    let step := match d.rowHome x r.row with
      | some (.here l) => d.askHere j t x s bag pos r l
      | some (.far dev) => d.askFar j t x gen bag pos r dev
      | none => (d.endJob j.id (endC stViolation 0 (unitCode t 8) bag 0), false)
    if step.2 then Device.askRows step.1 j t x s gen rs else step.1

/-! ### Opening a bag (R164, R166, R167) -/

/-- The items of a bag's index words from position `pos`, with null and out-of-range indices skipped and counted;
a cause when one is refused, `none` status when out of range fails the task. -/
def Device.bagItems (d : Device) (j : Job) (t bag : Nat) (x : Table) (wts : List Byte) :
    Nat → List Word → List ThtItem → Device × Option (List ThtItem)
  | _, [], acc => (d, some acc)
  | pos, w :: ws, acc =>
    let i := bits w 39 0
    if bits w 63 40 ≠ 0 then (d.thtRefuse j t 0x04 bag, none)
    else if i = nullIndex then Device.bagItems (d.count (Reg.THT_NULL t) 1) j t bag x wts (pos + 1) ws acc
    else if d.outOfRange x i then
      if x.oorFail then (d.endJob j.id (endC stViolation 0 (unitCode t 8) bag 0), none)
      else
        let d := (d.count (Reg.THT_OOR t) 1).report j.id (({ (default : Report) with skipped := 1 }).note noteSkipped)
        Device.bagItems d j t bag x wts (pos + 1) ws acc
    else
      let wt : Int := if wts.isEmpty then 1 else signed 16 (leNat (slice wts (2 * pos) 2))
      let rows := (x.rowsOf i).map (fun r => (⟨r.1, r.2, false, none⟩ : ThtRow))
      Device.bagItems d j t bag x wts (pos + 1) ws (acc ++ [⟨pos, wt, rows⟩])

/-- Opens the next bag: reads its offsets, weights and indices. -/
def Device.openBag (d : Device) (j : Job) (t : Nat) : Device :=
  match j.run with
  | .tht w n s g next bags =>
    let x := d.table n
    Device.andThen (d.thtLoad j t (thtOffs w) (4 * next) 8) j.id 8 t fun d os =>
      let lo := leNat (slice os 0 4)
      let hi := leNat (slice os 4 4)
      if hi < lo ∨ 4096 < hi - lo then d.thtRefuse j t 0x03 next
      else
        Device.andThen (d.thtLoad j t (thtIdx w) (8 * lo) (8 * (hi - lo))) j.id 8 t fun d is =>
        Device.andThen (d.thtLoad j t (thtWts w) (2 * lo) (if thtWtd w then 2 * (hi - lo) else 0)) j.id 8 t fun d ws =>
          match d.bagItems j t next x ws 0 (bytesWords is) [] with
          | (d, none) => d
          | (d, some items) => d.setTht j (.tht w n s g (next + 1) (bags ++ [⟨next, items⟩]))
  | _ => d

/-! ### The look-up task -/

/-- The slot a look-up binds (R178). -/
def Table.bindSlot (t : Table) (w : ThtDesc) : Option Bool :=
  if thtF w 0 12 12 = 0 then [false, true].find? (fun b => (t.slot b).state == vCurrent)
  else t.slotOfGen (thtGen w) [vStandby, vCurrent, vRetiring]

/-- A look-up starts (R165, R166, R178, R404). -/
def Device.thtStart (d : Device) (j : Job) (t : Nat) : Device :=
  Device.andThen (d.ptrLoad j.ctx t (unitCode t 8) false j.cmd.c1 64) j.id 8 t fun d bs =>
    let w := bytesWords bs
    let n := thtTable w
    let x := d.table n
    if !x.valid then d.thtRefuse j t 0x01 0
    else if j.ctx ≠ x.ctx then d.endJob j.id (endC stViolation 0 (unitCode t 8) 0 0)
    else
      match thtStartCause w x with
      | some c => d.thtRefuse j t c 0
      | none =>
        match x.bindSlot w with
        | none => (d.count (Reg.THT_VERSION_REFUSED t) 1).endJob j.id (endC stRetired 0 (unitCode t 8) (thtGen w) 0)
        | some s =>
          if d.tableExpelled n then d.endJob j.id (endC stAbft 0x70 (unitCode t 8) 0 0)
          else d.setTht j (.tht w n s (x.slot s).gen 0 [])

/-- A look-up goes on: complete bags are stored, rows asked for, the next bag opened; with nothing to issue and a
remote row awaited it yields (R304), also at the limit of remote rows (R171). -/
def Device.thtGo (d : Device) (j : Job) (t : Nat) : Device :=
  let d := d.bagsDone j.id t
  match d.job? j.id with
  | none => d
  | some j =>
    match j.state, j.run with
    | .running, .tht w n s g next bags =>
      let left := unasked bags
      let x := d.table n
      if left.isEmpty then
        if next < thtBags w then (d.openBag j t).bagsDone j.id t
        else if d.remotes.any (fun q => q.job == j.id) then d.yieldJob j.id
        else d
      else
        let d := d.askRows j t x s g left
        match d.job? j.id with
        | some j => if j.state = .running && d.farFull j t x then d.yieldJob j.id else d
        | none => d
    | _, _ => d

/-- THT_TASK (R162 to R166, R171, R178): the first step binds, and each further one issues. -/
def execThtTask (t : Truss) (s : State) : Host.Outcome State Fault Refusal :=
  onDevice s fun d =>
    match d.active? (.tht t) with
    | none => d
    | some j =>
      if bit j.cmd.c0 19 then d
      else
        match j.run with
        | .none => if j.cmd.c1.toNat % 8 ≠ 0 then d.thtRefuse j t 0x06 0 else d.thtStart j t
        | .tht _ _ _ _ _ _ => d.thtGo j t
        | _ => d

/-- How a look-up ends when a line of a local row could not be read (R330, R321): the address is the virtual one of
the first bad sector. -/
def Device.rowFail (d : Device) (j : Job) (r : RowReq) : Ending :=
  let k := (r.lines.findIdx? (fun l => l.2 == some none)).getD 0
  let b := (r.lines.getD k default).1 * 128
  let lo := if k = 0 then r.addr else b
  let va0 := match j.run with
    | .tht _ n s _ _ bags =>
      let x := d.table n
      let row := (((bags.find? (fun c => c.bag == r.bag)).bind (fun c => c.items.find? (fun i => i.pos == r.pos))).bind
        (fun i => i.rows.find? (fun y => y.sub == r.sub))).map ThtRow.row
      match row.bind x.place with
      | some (_, l) => x.rowAddr s r.sub l
      | none => 0
    | _ => 0
  let va := if k = 0 then va0 else (va0 / 128 + k) * 128
  let skip := match (pieces 32 lo (if r.lines.length = 1 then r.len else b + 128 - lo)).find? (fun p => d.hbm.sectorBad p.1) with
    | some p => p.1 - lo
    | none => 0
  if d.hbm.reachable lo then endC stUncorr 0 (unitCode r.truss 8) 0 (va + skip)
  else endC stViolation 0x46 (unitCode r.truss 8) 0 va

/-- THT_ROW_ARRIVE (R167 to R170, R387). -/
def execThtRowArrive (t : Truss) (rtag : Nat) (u : Upset) (s : State) : Host.Outcome State Fault Refusal :=
  onDevice s fun d =>
    match d.rowReqs.find? (fun r => r.tag == rtag && r.truss == t.val && r.serve.isNone) with
    | none => d
    | some r =>
      if !r.settled then d
      else
        let d := { d with rowReqs := d.rowReqs.filter (fun q => q.tag != rtag) }
        match d.job? r.job with
        | none => d
        | some j =>
          if j.state = .done then d
          else
            match r.bytes with
            | none => d.endJob j.id (d.rowFail j r)
            | some bs =>
              match d.residue j (.tht t) u with
              | (d, false) => d
              | (d, true) =>
                ((((d.count (Reg.THT_ROWS_LOCAL t) 1).charge j.ctx .thtRows 1 t).mapRow j.id r.bag r.pos r.sub
                  (fun x => { x with data := some bs })).bagsDone j.id t)

/-- THT_REMOTE_REPLY (R171, R174): one that comes after its task has ended is discarded. -/
def execThtRemoteReply (rtag : Nat) (data : List Byte) (s : State) : Host.Outcome State Fault Refusal :=
  onDevice s fun d =>
    match d.remote? rtag with
    | none => { d with remotes := d.remotes.filter (fun r => r.rtag != rtag) }
    | some r =>
      if r.kind ≠ 0 then d
      else
        let c := match d.job? r.job with | some j => j.ctx | none => 0
        ((((d.mapRow r.job r.bag r.pos r.sub (fun x => { x with data := some (slice data 0 r.len) })).charge c .thtRows 1
          r.truss).remoteDone r).bagsDone r.job r.truss)

/-- THT_REMOTE_TIMEOUT (R174, R361). -/
def execThtRemoteTimeout (t : Truss) (s : State) : Host.Outcome State Fault Refusal :=
  onDevice s fun d =>
    match d.remotes.find? (fun r => r.truss == t.val && r.kind == 0 && r.late d.now) with
    | none => d
    | some r => d.failRemote r.rtag stRemoteLost 0x51

/-! ### Delta tasks (R180, R181, R183) -/

/-- A folded record: owner, position of its first record in the task's, and update with its physical row. -/
abbrev Folded := Nat × Nat × RowUpdate

/-- One record folded after another of the same row (R181). -/
def foldUpd (t : Table) (a b : RowUpdate) : RowUpdate :=
  match a, b with
  | _, .put r im => .put r im
  | .add r x, .add _ y => .add r ((x.zip y).map (fun p => p.1 + p.2))
  | .put r im, .add _ y => .put r (addDeltas t.kind t.dim im y).1

/-- Adds a record to the folded ones. -/
def foldInto (t : Table) (l : List Folded) (owner i : Nat) (u : RowUpdate) : List Folded :=
  if l.any (fun f => f.1 == owner && updRow f.2.2 == updRow u) then
    l.map (fun f => if f.1 = owner ∧ updRow f.2.2 = updRow u then (owner, f.2.1, foldUpd t f.2.2 u) else f)
  else insertBy (fun (a b : Folded) => decide (a.1 < b.1) || (a.1 == b.1 && decide (updRow a.2.2 < updRow b.2.2))) (owner, i, u) l

/-- Reads and folds `n` records from distance `off` (R180, R181), as number `i` of the batch. -/
def Device.deltaRecords (d : Device) (j : Job) (t base : Nat) (x : Table) :
    Nat → Nat → Nat → List Folded → Device × Option (List Folded)
  | 0, _, _, acc => (d, some acc)
  | n + 1, off, i, acc =>
    match d.thtLoad j t base off 8 with
    | (d, .miss _ _) => (d, none)
    | (d, .fail e) => (d.endJob j.id e, none)
    | (d, .ok hs) =>
      let h := bytesWord hs
      let kind := bits h 41 40
      let len := if kind = 0 then x.dim else x.rowLen
      if 1 < kind ∨ bits h 63 42 ≠ 0 then (d.thtRefuse j t 0x06 i, none)
      else
        match d.thtLoad j t base (off + 8) len with
        | (d, .miss _ _) => (d, none)
        | (d, .fail e) => (d.endJob j.id e, none)
        | (d, .ok bs) =>
          let ix := bits h 39 0
          let next := off + 8 + ceilDiv len 8 * 8
          if ix = nullIndex then Device.deltaRecords (d.count (Reg.THT_NULL t) 1) j t base x n next (i + 1) acc
          else if d.outOfRange x ix then
            if x.oorFail then (d.endJob j.id (endC stViolation 0 (unitCode t 8) i 0), none)
            else
              let d := (d.count (Reg.THT_OOR t) 1).report j.id (({ (default : Report) with skipped := 1 }).note noteSkipped)
              Device.deltaRecords d j t base x n next (i + 1) acc
          else
            let p := ((x.rowsOf ix).headD (0, 0)).2
            let owner := match d.rowHome x p with | some (.far dev) => dev | _ => d.devnum
            let u := if kind = 0 then .add p (bs.map (fun b => b.toInt)) else .put p bs
            Device.deltaRecords d j t base x n next (i + 1) (foldInto x acc owner i u)

/-- Whether a command has ended in failure. -/
def Device.taskFailed (d : Device) (id : Nat) : Bool :=
  match d.job? id with | some k => (match k.ending with | some e => e.failed | none => false) | none => false

/-- Distinct owners of a table (R181): this device alone under OWN = 0. -/
def Device.ownersOf (d : Device) (t : Table) : List Nat := if t.own = 0 then [d.devnum] else t.owners.eraseDups

/-- The packets of a batch or marker on virtual channel 2 (R381), in pieces of 4,096 bytes. -/
def Device.sendBatch (d : Device) (c dev kind : Nat) (b : DeltaBatch) : Device × Bool :=
  let bs := batchBytes b
  (List.range (max 1 (ceilDiv bs.length 4096))).foldl (fun (r : Device × Bool) i =>
    if !r.2 then r
    else
      let part := (bs.drop (4096 * i)).take 4096
      r.1.send { vc := 2, cls := 0, kind := kind, len := part.length, src := r.1.devnum, dst := dev, addr := 0, ctx := c
                 tenant := b.tenant, rtag := b.rtag, chk := 0, racc := 0, fseq := 0, tgid := b.tgid, gen := b.gen, payload := part
                 unit := unitCode 0 10 })
    (d, true)

/-- Opens the reservation of one owner's batch: its acknowledgements are awaited (R183). -/
def Device.deltaOpen (d : Device) (j : Job) (t : Nat) (b : DeltaBatch) (fs : List Folded) (dev : Nat) : Device × DeltaBatch :=
  let (tag, d) := d.newTag
  let mine := fs.filter (fun f => f.1 == dev)
  let q : Remote :=
    { rtag := tag, job := j.id, truss := t, device := dev, kind := 3, limit := 0, deadline := none, graced := false
      bag := mine.foldl (fun m f => min m f.2.1) 65536, pos := if b.wait then 2 else 1, sub := 0, addr := 0, len := 0 }
  ({ d with remotes := d.remotes ++ [q] }, { b with rtag := tag, rows := mine.map (·.2.2) })

/-- Opens the reservations of all owners' batches. -/
def Device.deltaOpens (d : Device) (j : Job) (t : Nat) (b : DeltaBatch) (fs : List Folded) : List Nat → Device × List (Nat × DeltaBatch)
  | [] => (d, [])
  | o :: os =>
    let x := d.deltaOpen j t b fs o
    let r := Device.deltaOpens x.1 j t b fs os
    (r.1, (o, x.2) :: r.2)

/-- Hands the batches to collective engine 0 owner by owner (R381), until one cannot be delivered or is refused here. -/
def Device.deltaSends (d : Device) (j : Job) (t : Nat) : List (Nat × DeltaBatch) → Device
  | [] => d
  | x :: xs =>
    let d := d.count (Reg.COL_DELTA_BATCHES 0) 1
    let r := if x.1 = d.devnum then (d.deliverLocal (false, x.2), true) else d.sendBatch j.ctx x.1 0x07 x.2
    if !r.2 then (r.1.lostTask j (unitCode t 8) x.1).count (Reg.THT_REMOTE_LOST t) 1
    else if r.1.taskFailed j.id then r.1
    else Device.deltaSends r.1 j t xs

/-- Sends the end-of-round markers (R181), until one cannot be delivered (R362). -/
def Device.markers (d : Device) (j : Job) (t : Nat) (b : DeltaBatch) : List Nat → Device
  | [] => d
  | o :: os =>
    let r := if o = d.devnum then (d.deliverLocal (true, b), true) else d.sendBatch j.ctx o 0x08 b
    let gone := match d.job? j.id with | some k => k.state == .done | none => true
    if r.2 || gone then Device.markers r.1 j t b os else (r.1.lostTask j (unitCode t 8) o).count (Reg.THT_REMOTE_LOST t) 1

/-- The checks of a delta task's start after its context's (Table 06-3). -/
def deltaStartCause (w : ThtDesc) (t : Table) : Option Nat :=
  if thtF w 0 31 15 ≠ 0 || thtF w 1 63 51 != 0 || thtF w 2 31 16 != 0 || thtF w 2 63 49 != 0 || thtF w 3 63 32 != 0 then some 0x02
  else if t.isQr || thtF w 2 48 32 == 0 then some 0x05
  else if thtF w 3 31 0 % 8 ≠ 0 then some 0x09
  else none

/-- The fields of a delta task's batches (Table 06-8). -/
def Device.deltaBase (d : Device) (j : Job) (w : ThtDesc) (t : Table) : DeltaBatch :=
  { source := d.devnum, tgid := t.tgid, tenant := (d.ctx j.ctx).tenant, gen := thtF w 0 63 32, round := thtF w 1 31 0
    nsrc := thtF w 1 50 32, seq := thtF w 2 15 0, rtag := 0, dfence := thtF w 0 13 13 == 1, wait := thtF w 0 14 14 == 1, rows := [] }

/-- THT_DELTA_TASK (R166, R180, R181): reads and folds the records, and sends batches and markers; the task then waits
for its acknowledgements (R183). -/
def execThtDeltaTask (t : Truss) (s : State) : Host.Outcome State Fault Refusal :=
  onDevice s fun d =>
    match d.active? (.tht t) with
    | none => d
    | some j =>
      if !bit j.cmd.c0 19 || j.run != .none then d
      else if j.cmd.c1.toNat % 8 ≠ 0 then d.thtRefuse j t 0x06 0
      else
        Device.andThen (d.ptrLoad j.ctx t (unitCode t 8) false j.cmd.c1 32) j.id 8 t fun d bs =>
          let w := bytesWords bs
          let x := d.table (thtTable w)
          if !x.valid then d.thtRefuse j t 0x01 0
          else if j.ctx ≠ x.ctx then d.endJob j.id (endC stViolation 0 (unitCode t 8) 0 0)
          else
            match deltaStartCause w x with
            | some c => d.thtRefuse j t c 0
            | none =>
              match d.deltaRecords j t (thtF w 3 31 0) x (thtF w 2 48 32) 0 0 [] with
              | (d, none) => d
              | (d, some fs) =>
                let b := d.deltaBase j w x
                let d := d.setTht j (.delta w)
                let o := d.deltaOpens j t b fs ((fs.map (·.1)).eraseDups)
                let d := o.1.deltaSends j t o.2
                let d := if thtF w 0 12 12 = 1 && !d.taskFailed j.id then d.markers j t b (d.ownersOf x) else d
                match d.job? j.id with
                | none => d
                | some k =>
                  if k.state = .done then d
                  else if d.remotes.any (fun q => q.job == j.id) then d.yieldJob j.id
                  else d.endJob j.id endOk

end Sys2Proof.Machine
end

