-- ==== Sys2Proof/Machine/AttentionForm.lean ====
section
/-! DEFINITION. The arithmetic and the forms of the attention engine (07): descriptors, roots, rotary encoding, scores,
the integer softmax, and outputs. -/
namespace Sys2Proof.Machine

open Sys2Proof

/-! ### The task descriptor (Table 07-5) -/

abbrev AtnDesc := List Word

def atnF (w : AtnDesc) (k hi lo : Nat) : Nat := bits (wordAt w k) hi lo
def atnMode (w : AtnDesc) : Nat := atnF w 0 1 0
def atnPacked (w : AtnDesc) : Bool := atnF w 0 2 2 == 1
def atnPart (w : AtnDesc) : Bool := atnF w 0 3 3 == 1
def atnS8 (w : AtnDesc) : Bool := atnF w 0 4 4 == 1
def atnOblk (w : AtnDesc) : Nat := blkSize (atnF w 0 6 5)
def atnRope (w : AtnDesc) : Bool := atnF w 0 7 7 == 1
def atnHalf (w : AtnDesc) : Bool := atnF w 0 8 8 == 1
def atnDhc (w : AtnDesc) : Nat := atnF w 0 10 9
def dhOf (dhc : Nat) : Nat := 64 * 2 ^ dhc
def atnDh (w : AtnDesc) : Nat := dhOf (atnDhc w)
def atnNb (w : AtnDesc) : Nat := atnDh w / 32
def atnQpg (w : AtnDesc) : Nat := atnF w 0 21 16
def atnTag (w : AtnDesc) : Nat := atnF w 0 63 32
def atnLayer (w : AtnDesc) : Nat := atnF w 1 7 0
def atnKvh (w : AtnDesc) : Nat := atnF w 1 15 8
def atnRows (w : AtnDesc) : Nat := atnF w 1 28 16
def atnNseg (w : AtnDesc) : Nat := atnF w 1 44 32
def atnNkey (w : AtnDesc) : Nat := atnF w 10 44 32
/-- Ranges and range of the task: one range without PART (R212). -/
def atnNr (w : AtnDesc) : Nat := if atnMode w = 0 && !atnPart w then 1 else atnF w 1 52 48
def atnRidx (w : AtnDesc) : Nat := if atnMode w = 0 && !atnPart w then 0 else atnF w 1 56 53
/-- Chunks of an output row and bytes of a partial record (R214). -/
def atnChunks (w : AtnDesc) : Nat := ceilDiv (atnDh w) 128
def atnZ (w : AtnDesc) : Nat := 1152 * atnChunks w + 128

/-- Whether the task walks sequences' pages. -/
def atnWalks (w : AtnDesc) : Bool := (atnMode w == 0 && !atnPacked w) || atnMode w == 1

/-- A non-zero reserved field. -/
def atnReserved (w : AtnDesc) : Bool :=
  atnF w 0 15 11 != 0 || atnF w 0 31 22 != 0 || atnF w 1 31 29 != 0 || atnF w 1 47 45 != 0
    || atnF w 1 63 57 != 0 || atnF w 2 63 56 != 0 || atnF w 4 63 56 != 0 || atnF w 6 63 38 != 0 || atnF w 7 63 32 != 0
    || atnF w 10 63 45 != 0 || (List.range 5).any (fun i => wordAt w (11 + i) != 0)

/-- Whether v lies outside lo to hi. -/
def beyond (v lo hi : Nat) : Bool := decide (v < lo) || decide (hi < v)

/-- The checks of a task's start (Table 07-7), whatever the mode but for the range of NKEY, which only PACKED has (Table
07-5). -/
def atnStartCause (w : AtnDesc) : Option Nat :=
  let attend := atnMode w == 0
  let off (k hi lo n : Nat) : Bool := atnF w k hi lo % n != 0
  if atnMode w == 3 || atnDhc w == 3 || atnReserved w || (!attend && (atnPacked w || atnPart w)) then some 0x01
  else if beyond (atnQpg w) 1 32 || beyond (atnRows w) 1 4096 || beyond (atnNseg w) 1 4096
      || beyond (atnF w 1 52 48) 1 16 || (attend && atnPacked w && beyond (atnNkey w) 1 4096)
      || decide (atnF w 1 52 48 ≤ atnF w 1 56 53) then some 0x02
  else if off 2 31 0 32 || off 8 31 0 32 || off 8 63 32 32 || off 4 31 0 (if atnS8 w then 32 else 128)
      || off 3 31 0 2 || off 5 31 0 2 || off 9 31 0 2 || off 9 63 32 2
      || off 3 63 32 8 || off 10 31 0 8 || off 7 31 0 8 || off 5 63 32 128 then some 0x04
  else none

/-- A segment record (R205). -/
def segOf (ws : List Word) : AtnSeg :=
  { segno := bits (wordAt ws 0) 15 0, seq := bits (wordAt ws 0) 30 16, start := bits (wordAt ws 0) 51 32
    first := bits (wordAt ws 1) 12 0, nrow := bits (wordAt ws 1) 28 16 }

def segReserved (ws : List Word) : Bool :=
  bit (wordAt ws 0) 31 || bits (wordAt ws 0) 63 52 != 0 || bits (wordAt ws 1) 15 13 != 0 || bits (wordAt ws 1) 63 29 != 0

/-- The first segment that Table 07-7 refuses, with its cause, among segment records. -/
def segRefusal (rows : Nat) : Nat → List AtnSeg → List (List Word) → Option (Nat × Nat)
  | _, _, [] => none
  | i, seen, r :: rs =>
    let s := segOf r
    if segReserved r then some (0x01, i)
    else if s.segno == 0xFFFF || s.nrow == 0 || decide (rows < s.first + s.nrow) || decide (2 ^ 20 < s.start + s.nrow)
        || seen.any (fun q => overlap q.first q.nrow s.first s.nrow) then some (0x03, i)
    else segRefusal rows (i + 1) (s :: seen) rs

/-! ### Roots (Table 07-2) -/

abbrev Root := List Word

def rootPt (r : Root) : Nat := bits (wordAt r 0) 51 0
def rootPages (r : Root) : Nat := bits (wordAt r 1) 14 0
def rootLayers (r : Root) : Nat := bits (wordAt r 1) 23 16
def rootHeads (r : Root) : Nat := bits (wordAt r 1) 31 24
def rootDhc (r : Root) : Nat := bits (wordAt r 1) 33 32
def rootLo (r : Root) : Nat := bits (wordAt r 2) 51 0
def rootHi (r : Root) : Nat := bits (wordAt r 3) 51 0
def rootStride (r : Root) : Nat := bits (wordAt r 4) 31 0

/-- The checks of a walk's start (cause 0x05). -/
def rootBad (w : AtnDesc) (r : Root) : Bool :=
  rootDhc r != atnDhc w || decide (rootLayers r ≤ atnLayer w) || decide (rootHeads r ≤ atnKvh w)
    || rootStride r % 128 != 0 || decide (rootStride r < 136 * dhOf (rootDhc r))

/-- Whether all pages of a set lie in the window (R200). -/
def setInWindow (r : Root) (addr : Nat) : Bool :=
  decide (rootLo r ≤ addr) &&
    decide (addr + (rootLayers r * rootHeads r - 1) * rootStride r + 136 * dhOf (rootDhc r) ≤ rootHi r)

/-- A valid page-table entry (R194). -/
def pteOk (p : Word) : Bool := bit p 0 && bits p 6 1 == 0 && bits p 63 52 == 0

def pteAddr (p : Word) : Nat := bits p 51 7 * 128
def pteWord (addr : Nat) : Word := BitVec.ofNat 64 (addr + 1)

/-! ### Rotary encoding (R207) -/

/-- A vector of S8 codes with its block exponents, B = 32. -/
structure AtnVec where
  codes : List Int
  exps : List Nat
  deriving DecidableEq, Repr, Inhabited

/-- π × 2^128, rounded to nearest. -/
def piFix : Nat := 0x3243F6A8885A308D313198A2E03707345

/-- The Taylor series of the cosine in units of 2^−128, from term `n` with value `t`, for x² in the same units. -/
def cosSeries (x2 : Nat) : Nat → Nat → Int → Int
  | 0, _, _ => 0
  | f + 1, n, t => t + cosSeries x2 f (n + 1) (-(t * x2 / 2 ^ 128) / (((2 * n + 1) * (2 * n + 2) : Nat) : Int))

/-- C[k] for k in the first quarter turn. -/
def cosQuarter (k : Nat) : Int :=
  let x := piFix * k / 2048
  rneShift (cosSeries (x * x / 2 ^ 128) 24 0 (2 ^ 128)) 98

/-- C[k] = round_rne(cos(2πk ÷ 4,096) × 2^30), k from 0 to 4,096. -/
def cosRom (k : Nat) : Int :=
  let k := k % 4096
  if k ≤ 1024 then cosQuarter k
  else if k ≤ 2048 then -cosQuarter (2048 - k)
  else if k ≤ 3072 then -cosQuarter (k - 2048)
  else cosQuarter (4096 - k)

/-- rot of a phase (R207). -/
def rot (ph : Nat) : Int :=
  let k : Nat := ph / 2 ^ 52
  let fr : Nat := ph / 2 ^ 36 % 2 ^ 16
  cosRom k + rneShift ((cosRom (k + 1) - cosRom k) * fr) 16

/-- Element `k` of a vector. -/
def AtnVec.elem (v : AtnVec) (k : Nat) : Dyad := codeVal (v.codes.getD k 0) (v.exps.getD (k / 32) 0)

/-- A vector rotated to position `t` and requantised, with its counts (R207). -/
def AtnVec.rotate (v : AtnVec) (dh : Nat) (half : Bool) (phi : List Word) (t : Nat) : AtnVec × Tally :=
  let n := dh / 2
  let cs := (List.range n).map fun i =>
    let ph : Nat := t * (wordAt phi i).toNat % 2 ^ 64
    (rot ph, rot ((ph + 2 ^ 64 - 2 ^ 62) % 2 ^ 64))
  let out (k : Nat) : Dyad :=
    let i := if half then k % n else k / 2
    let second := if half then decide (n ≤ k) else k % 2 == 1
    let a := v.elem (if half then i else 2 * i)
    let b := v.elem (if half then i + n else 2 * i + 1)
    let r := cs.getD i (0, 0)
    let c : Dyad := ⟨r.1, -30⟩
    let s : Dyad := ⟨r.2, -30⟩
    if second then (a.mul s).add (b.mul c) else (a.mul c).add (b.mul s).neg
  let blocks := (chunks 32 dh ((List.range dh).map out)).map fun b =>
    quantBlock fmtS8 .computed (b.map (fun d => (0, FVal.fin (decide (d.n < 0)) d)))
  (⟨blocks.flatMap (fun q => q.2.1), blocks.map (fun q => q.1)⟩, blocks.foldl (fun a q => a.join q.2.2) default)

/-! ### Scores and softmax (R208, R209) -/

/-- The exact dot product, block by block. -/
def dot (q k : AtnVec) : Dyad :=
  (List.range q.exps.length).foldl (fun (acc : Dyad) j =>
    let eq := q.exps.getD j 0
    let ek := k.exps.getD j 0
    if eq = 0 ∨ ek = 0 then acc
    else
      let p := (List.range 32).foldl (fun (n : Int) i => n + q.codes.getD (32 * j + i) 0 * k.codes.getD (32 * j + i) 0) 0
      acc.add ⟨p, (eq : Int) + ek - 254⟩) ⟨0, 0⟩

/-- The score of a key, and whether it saturated (R208). -/
def score (w : AtnDesc) (q k : AtnVec) : Int × Bool :=
  let p := dot q k
  let r := rneScale (p.n * atnF w 6 31 0) (p.e - atnF w 6 37 32)
  let z := clampTo i32Range r
  (z, z != r)

/-- The weight p of a key with score `z` under page exponent `m` (R209, steps 2 to 4). -/
def keyWeight (z m : Int) : Int :=
  let y := exp2Parts (z - 2 ^ 16 * m)
  rneScale (rneShift y.1 14) (y.2 + 25)

/-- Aligned adds element by element, with their saturations (R55). -/
def alignedAdds (ps qs : List Tracked) : List Tracked × Nat :=
  let rs := (ps.zip qs).map (fun p => alignedAdd p.1 p.2)
  (rs.map (·.1), rs.countP (·.2))

/-- What one page adds to a row: counts of keys, saturations and underflows with the new state (R209, R210). -/
structure PageOut where
  state : RowState
  keys : Nat
  sat : Nat
  under : Nat
  deriving DecidableEq, Repr, Inhabited

/-- One page's visible keys and values, in slot order, for one row and head. -/
def pageStep (w : AtnDesc) (q : AtnVec) (kvs : List (AtnVec × AtnVec)) (s : RowState) : PageOut :=
  let zs := kvs.map (fun kv => score w q kv.1)
  match zs with
  | [] => ⟨s, 0, 0, 0⟩
  | z :: r =>
    let m := -((-(r.foldl (fun (m : Int) y => max m y.1) z.1)) / 2 ^ 16)
    let ps := zs.map (fun y => keyWeight y.1 m)
    let l : Tracked := ⟨ps.foldl (· + ·) 0, m - 41⟩
    let page := (List.range (atnDh w)).map fun k =>
      alignedSum tzero ((ps.zip kvs).map fun p =>
        let e := p.2.2.exps.getD (k / 32) 0
        if e = 0 then tzero else ⟨p.1 * p.2.2.codes.getD k 0, (e : Int) - 127 + m - 41⟩)
    let sum := alignedAdd s.l l
    let acc := alignedAdds s.acc (page.map (·.1))
    { state := { s with l := sum.1, acc := acc.1, any := true }
      keys := zs.length, sat := zs.countP (·.2) + page.foldl (fun n v => n + v.2) 0 + b2n sum.2 + acc.2
      under := ps.countP (· == 0) }

def RowState.fresh (w : AtnDesc) (row head : Nat) : RowState := ⟨row, head, tzero, List.replicate (atnDh w) tzero, false⟩

/-! ### Outputs (R211, R214) -/

/-- Elements (A, Xc) of the chunks of a narrowed accumulator (R210). -/
def narrowedAcc (acc : List Tracked) : List Tracked :=
  (chunks 128 acc.length acc).flatMap fun c =>
    let bs := accChunk c
    let x := signed 16 (leNat (slice bs 1024 2))
    (List.range c.length).map (fun k => ⟨signed 64 (leNat (slice bs (8 * k) 8)), x⟩)

/-- The elements of an output row from its combined pair (R211). -/
def outputElems (l : Tracked) (acc : List Tracked) : List Tracked :=
  if l.a ≤ 0 then acc.map (fun _ => tzero)
  else
    let sh := 62 - floorLog2 l.a 0
    let l' := (l.a * 2 ^ sh.toNat).toNat
    let r := meanOf.rneDiv (2 ^ 94) l'
    acc.map (fun a => ⟨a.a * r, a.x + sh - l.x - 94⟩)

/-- A partial record (R214). -/
def partialRecord (w : AtnDesc) (s : RowState) : List Byte :=
  slice ((chunks 128 s.acc.length s.acc).flatMap accChunk) 0 (1152 * atnChunks w)
    ++ leBytes 8 (unsigned 64 s.l.a) ++ leBytes 2 (unsigned 16 s.l.x) ++ [0, 0] ++ leBytes 4 (atnTag w)
    ++ [BitVec.ofNat 8 (1 + 2 * b2n (s.l.a == 0))] ++ List.replicate 111 0

/-- The pair of a partial record. -/
def partialPair (w : AtnDesc) (bs : List Byte) : Tracked × List Tracked :=
  let z := atnZ w
  (⟨signed 64 (leNat (slice bs (z - 128) 8)), signed 16 (leNat (slice bs (z - 120) 2))⟩,
   (List.range (atnDh w)).map fun k =>
     let c := k / 128
     ⟨signed 64 (leNat (slice bs (1152 * c + 8 * (k % 128)) 8)), signed 16 (leNat (slice bs (1152 * c + 1024) 2))⟩)

/-- Stores of an output row: base, distance, bytes, and the tally of its codes (R204, R211). -/
def outputStores (w : AtnDesc) (row head : Nat) (es : List Tracked) : List (Nat × Nat × List Byte) × Tally :=
  let pitch := atnF w 4 55 32
  let out := atnF w 4 31 0
  if !atnS8 w then
    ((chunks 128 es.length es).zipIdx.map (fun c => (out, row * pitch + head * 1152 * atnChunks w + 1152 * c.2, accChunk c.1)), default)
  else
    let blocks := (chunks (atnOblk w) es.length es).map (fun c =>
      quantBlock fmtS8 .computed (c.map (fun e => (0, FVal.fin (decide (e.a < 0)) ⟨e.a, e.x⟩))))
    ((out, row * pitch + head * atnDh w, packCodes fmtS8 (blocks.flatMap (fun q => q.2.1))) ::
      blocks.zipIdx.map (fun q =>
        let i := (row * atnQpg w + head) * atnDh w / atnOblk w + q.2
        (atnF w 5 31 0, 2 * i, leBytes 2 (scaleEntry q.1.1 (i % 64)))),
     blocks.foldl (fun a q => a.join q.2.2) default)

/-- Rows of the task in no segment (padding, R205). -/
def paddingRows (w : AtnDesc) (segs : List AtnSeg) : List Nat :=
  (List.range (atnRows w)).filter (fun r => !segs.any (fun s => decide (s.first ≤ r) && decide (r < s.first + s.nrow)))

/-- Pages of a segment and the range of the task: first page and one past the last (R214). -/
def segRange (w : AtnDesc) (s : AtnSeg) : Nat × Nat :=
  let p := if atnPacked w then ceilDiv (atnNkey w) 64 else ceilDiv (s.start + s.nrow) 64
  (atnRidx w * p / max 1 (atnNr w), (atnRidx w + 1) * p / max 1 (atnNr w))

/-- Rows and heads of group `g` of a segment, 16 to a step (R221). -/
def atnGroupRows (w : AtnDesc) (s : AtnSeg) (g : Nat) : List (Nat × Nat) :=
  let n := s.nrow * atnQpg w
  ((List.range (min 16 (n - 16 * g))).map (16 * g + ·)).map (fun i => (s.first + i / max 1 (atnQpg w), i % max 1 (atnQpg w)))

end Sys2Proof.Machine
end

