-- ==== Sys2Proof/Machine/Attention.lean ====
section
/-! DEFINITION. The attention engine and its Purlin walker (07): tasks, page steps, appended rows and combination. -/
namespace Sys2Proof.Machine

open Sys2Proof

def Device.atnSt (d : Device) (t : Nat) : AtnEngine := tget d.atn t default
def Device.setAtnSt (d : Device) (t : Nat) (a : AtnEngine) : Device := { d with atn := tset d.atn t a }

/-! ### Sequences (R194, R198, R202) -/

def Device.seq (d : Device) (e : Nat) : SeqEntry := tget d.seqs e default
def Device.setSeq (d : Device) (e : Nat) (x : SeqEntry) : Device := { d with seqs := tset d.seqs e x }

/-- The address of an entry's root record, when it holds one (R194, Table 08-4). -/
def Device.rootAddr (d : Device) (e : Nat) : Option Nat :=
  let x := d.seq e
  match x.root with
  | some i => if x.state = 0 then none else some (bits (wordAt (tget d.models x.model default).words 2) 51 0 + 64 * i)
  | none => none

/-- The walk counter of a sequence: the tasks, started and not ended, that walk it (R198). -/
def Device.walks (d : Device) (e : Nat) : Nat :=
  d.jobs.countP (fun j => match j.run with | .atn _ rs _ _ _ _ => rs.any (fun r => r.1 == e) | _ => false)

/-- Whether an edit of R202 waits on a sequence. -/
def Device.editPending (d : Device) (e : Nat) : Bool := d.kvEdits.any (fun k => k.seqs.contains e)

/-! ### Loft operands -/

def Device.atnLoad (d : Device) (j : Job) (t base delta n : Nat) : Device × Got (List Byte) :=
  if n = 0 then (d, .ok [])
  else
    match ptrMove (BitVec.ofNat 64 base) delta with
    | none => (d, .fail (endC stViolation 0 (unitCode t 9) 0 0))
    | some p => d.ptrLoad j.ctx t (unitCode t 9) false p n

def Device.atnStore (d : Device) (j : Job) (t base delta : Nat) (bs : List Byte) : Device × Got Unit :=
  match ptrMove (BitVec.ofNat 64 base) delta with
  | none => (d, .fail (endC stViolation 0 (unitCode t 9) 0 0))
  | some p => d.ptrStore j.ctx t (unitCode t 9) false p bs

def Device.atnStores (d : Device) (j : Job) (t : Nat) : List (Nat × Nat × List Byte) → Device × Got Unit
  | [] => (d, .ok ())
  | x :: xs =>
    match d.atnStore j t x.1 x.2.1 x.2.2 with
    | (d, .ok _) => Device.atnStores d j t xs
    | r => r

/-- A scale mismatch: operand, data and scale ordinals, logical index (R219). -/
structure AtnSkew where
  operand : Nat
  dataOrd : Nat
  scaleOrd : Nat
  logical : Nat
  deriving DecidableEq, Repr

/-- The exponents of scale entries from logical index `l0` on, or the first mismatch (R82, R192). -/
def entryExps (operand : Nat) : Nat → List Nat → List Nat → Except AtnSkew (List Nat)
  | _, [], acc => .ok acc
  | l, e :: es, acc =>
    if entryOrd e ≠ l % 64 then .error ⟨operand, l % 64, entryOrd e, l⟩ else entryExps operand (l + 1) es (acc ++ [entryExp e])

/-- A vector from its code and scale bytes. -/
def atnVecOf (operand l0 dh : Nat) (codes scales : List Byte) : Except AtnSkew AtnVec :=
  match entryExps operand l0 ((chunks 2 scales.length scales).map leNat) [] with
  | .error k => .error k
  | .ok es => .ok ⟨(List.range dh).map (codeAt fmtS8 codes), es⟩

/-- Ends the task with SCALE_SKEW (R83, R219). -/
def Device.atnSkewed (d : Device) (j : Job) (t : Nat) (k : AtnSkew) : Device :=
  let e := endB k.operand k.dataOrd k.scaleOrd (unitCode t 9) k.logical
  ((d.count (Reg.ATN_SKEW t) 1).endJob j.id e).log 0x08 0 (unitCode t 9) j.ctx 2 0 e.d0 (BitVec.ofNat 64 k.logical)

/-- Loads a vector from Loft: codes at base and distance, entries of the stream at `sbase` from logical index `l`. -/
def Device.atnVec (d : Device) (j : Job) (t : Nat) (w : AtnDesc) (base delta sbase l operand : Nat)
    (k : Device → AtnVec → Device) : Device :=
  Device.andThen (d.atnLoad j t base delta (atnDh w)) j.id 9 t fun d cs =>
  Device.andThen (d.atnLoad j t sbase (2 * l) (2 * atnNb w)) j.id 9 t fun d ss =>
    match atnVecOf operand l (atnDh w) cs ss with
    | .error x => d.atnSkewed j t x
    | .ok v => k d v

/-- Loads several vectors: (base, distance, stream base, logical index, operand). -/
def Device.atnVecs (d : Device) (j : Job) (t : Nat) (w : AtnDesc) :
    List (Nat × Nat × Nat × Nat × Nat) → List AtnVec → (Device → List AtnVec → Device) → Device
  | [], acc, k => k d acc
  | x :: xs, acc, k => d.atnVec j t w x.1 x.2.1 x.2.2.1 x.2.2.2.1 x.2.2.2.2 (fun d v => Device.atnVecs d j t w xs (acc ++ [v]) k)

/-! ### Failures (R218 to R220, R223) -/

def Device.atnRefuse (d : Device) (j : Job) (t cause index : Nat) : Device :=
  (d.engineRefuse j (unitCode t 9) cause index (BitVec.ofNat 64 index)).count (Reg.ATN_REFUSED t) 1

/-- Holds a failure in ATN_ERR_INFO unless one is held (R223). -/
def Device.atnErrInfo (d : Device) (t seq page ctx kind : Nat) (retried : Bool) : Device :=
  if d.fld (Reg.ATN_ERR_INFO t) Fld.ATN_ERR_INFO_VALID = 1 then d
  else d.setReg (Reg.ATN_ERR_INFO t) (pack [(0, 15, seq), (16, 14, page), (30, 6, ctx), (36, 4, kind), (40, 1, b2n retried), (63, 1, 1)])

/-- A breach of R196 ends the task. -/
def Device.atnExtent (d : Device) (j : Job) (t seq page kind : Nat) : Device :=
  ((d.atnErrInfo t seq page j.ctx kind false).count (Reg.ATN_EXTENT t) 1).endJob j.id (endC stViolation 0 (unitCode t 9) page 0)

/-- The residue and parity checks of a step of `pairs` pairs (R220); false when the task has ended. The device account
pays for the step that is computed once more (Table 14-2). -/
def Device.atnResidue (d : Device) (j : Job) (t seq page step pairs : Nat) (u : Upset) : Device × Bool :=
  if d.fld Reg.ATN_CTRL Fld.ATN_CTRL_RESIDUE_EN = 0 then (d, true)
  else
    let retry := d.fld Reg.ATN_CTRL Fld.ATN_CTRL_RETRY == 1
    let again (d : Device) : Device := if retry then d.charge deviceAccount .atnPairs pairs t else d
    let bad (d : Device) (site kind : Nat) : Device × Bool :=
      let d := ((again d).atnErrInfo t seq page j.ctx kind false).count (Reg.ATN_RESIDUE_ERR t) 1
      (((d.endJob j.id (endC stAbft 0 (unitCode t 9) site 0)).log 0x03 0 (unitCode t 9) j.ctx 2 0
        (d.reg (Reg.ATN_ERR_INFO t)) (BitVec.ofNat 64 step)).suspect t, false)
    match u with
    | .none => (d, true)
    | .retryPassed site kind =>
      if !retry then bad d site kind
      else
        let d := ((again d).atnErrInfo t seq page j.ctx kind true).count (Reg.ATN_RESIDUE_RETRY_OK t) 1
        (((d.noteJob j.id noteRetryOk).log 0x03 2 (unitCode t 9) j.ctx 1 0 (d.reg (Reg.ATN_ERR_INFO t)) (BitVec.ofNat 64 step)).suspect t, true)
    | .retryFailed site kind => bad d site kind

/-! ### The walker (R196, R197) -/

/-- The root of a sequence as the task holds it. -/
def rootOf (rs : List (Nat × List Word)) (seq : Nat) : Root := match rs.find? (fun r => r.1 == seq) with | some r => r.2 | none => []

def Device.mapRoots (d : Device) (id : Nat) (f : Nat × List Word → Nat × List Word) : Device :=
  d.mapJob id (fun j => { j with run := match j.run with | .atn w rs ss a b c => .atn w (rs.map f) ss a b c | r => r })

/-- Looks a page-table entry up in the LAB, or reads it through the Soffit cache. -/
def Device.labRead (d : Device) (j : Job) (t seq page : Nat) (r : Root) (k : Device → Word → Device) : Device :=
  let a := d.atnSt t
  match a.lab.find? (fun e => e.seq == seq && e.page == page) with
  | some e =>
    k ((d.setAtnSt t { a with lab := e :: a.lab.filter (· != e) }).count (Reg.ATN_LAB_HIT t) 1) e.pte
  | none =>
    let va := rootPt r + 8 * page
    let unit := unitCode t 9
    if !vaOk va 8 then d.endJob j.id (endC stViolation 0x44 unit page (unsigned 63 va))
    else
      Device.andThen (d.translate j.ctx t unit va false) j.id 9 t fun d pa =>
        match d.walkerRead t (pa / 128) j.ctx j.ctx with
        | (d, .waits) => d
        | (d, .failed) => d.endJob j.id (if d.hbm.allReachable pa 8 then endC stUncorr 0 unit 0 va else endC stViolation 0x46 unit page va)
        | (d, .got bs) =>
          let e : LabEntry := ⟨seq, page, bytesWord (slice bs (pa % 128) 8)⟩
          let a := d.atnSt t
          k ((d.setAtnSt t { a with lab := (e :: a.lab).take 128 }).count (Reg.ATN_LAB_MISS t) 1) e.pte

/-- Checks 2 and 3 of R196; goes on with the page's address. -/
def Device.walkEntry (d : Device) (j : Job) (t : Nat) (w : AtnDesc) (seq page : Nat) (r : Root) (k : Device → Nat → Device) : Device :=
  d.labRead j t seq page r fun d pte =>
    let at_ := pteAddr pte + (atnLayer w * rootHeads r + atnKvh w) * rootStride r
    if !pteOk pte then d.atnExtent j t seq page 2
    else if at_ < rootLo r ∨ rootHi r < at_ + 136 * atnDh w then d.atnExtent j t seq page 3
    else k d at_

/-- The walk to a page (R196): a page index beyond the held NPAGES makes the walker read the root once more. -/
def Device.walk (d : Device) (j : Job) (t : Nat) (w : AtnDesc) (rs : List (Nat × List Word)) (seq page : Nat)
    (k : Device → Nat → Device) : Device :=
  let r := rootOf rs seq
  if page < rootPages r then d.walkEntry j t w seq page r k
  else
    match d.rootAddr seq with
    | none => d.atnExtent j t seq page 1
    | some a =>
      Device.andThen (d.vload j.ctx t (unitCode t 9) a 64) j.id 9 t fun d bs =>
        let n := rootPages (bytesWords bs)
        let r' := r.set 1 (pack [(0, 15, n), (15, 49, bits (wordAt r 1) 63 15)])
        let d := d.mapRoots j.id (fun x => if x.1 = seq then (seq, r') else x)
        if page < n then d.walkEntry j t w seq page r' k else d.atnExtent j t seq page 1

/-! ### Starting a task -/

/-- Reads the roots of a started task's sequences (R196), in the issuing context's space; a root that is refused names its
sequence's first segment. -/
def Device.readRoots (d : Device) (j : Job) (t : Nat) (w : AtnDesc) (segs : List AtnSeg) : List Nat → Device
  | [] => d
  | s :: ss =>
    match d.rootAddr s with
    | none => d.atnExtent j t s 0 1
    | some a =>
      Device.andThen (d.vload j.ctx t (unitCode t 9) a 64) j.id 9 t fun d bs =>
        let r := bytesWords bs
        if rootBad w r then d.atnRefuse j t 0x05 (segs.findIdx (fun g => g.seq == s))
        else Device.readRoots (d.mapRoots j.id (fun x => if x.1 = s then (s, r) else x)) j t w segs ss

/-- Sequences of a started task whose roots have not come. -/
def rootless (rs : List (Nat × List Word)) : List Nat := (rs.filter (fun r => r.2.isEmpty)).map (·.1)

/-- ATN_TASK (R196, R198, R202, R204, R205, R218): a task starts, which raises the walk counters of its sequences, and its
roots are read; one that waits for a root reads those that have not come. -/
def execAtnTask (t : Truss) (s : State) : Host.Outcome State Fault Refusal :=
  onDevice s fun d =>
    match d.active? (.atn t) with
    | none => d
    | some j =>
      match j.run with
      | .atn w rs segs _ _ _ => d.readRoots j t w segs (rootless rs)
      | _ =>
      if j.cmd.c1.toNat % 8 ≠ 0 then d.atnRefuse j t 0x06 0
      else
        Device.andThen (d.ptrLoad j.ctx t (unitCode t 9) false j.cmd.c1 128) j.id 9 t fun d bs =>
          let w := bytesWords bs
          match atnStartCause w with
          | some c => d.atnRefuse j t c 0
          | none =>
            Device.andThen (d.atnLoad j t (atnF w 3 63 32) 0 (16 * atnNseg w)) j.id 9 t fun d ss =>
              let recs := (chunks 16 ss.length ss).map bytesWords
              match segRefusal (atnRows w) 0 [] recs with
              | some (c, i) => d.atnRefuse j t c i
              | none =>
                let segs := recs.map segOf
                let seqs := if atnWalks w then (segs.map AtnSeg.seq).eraseDups else []
                let busy := seqs.filter (fun e => d.editPending e || decide (65535 ≤ d.walks e))
                let a := d.atnSt t
                if !busy.isEmpty then d.setAtnSt t { a with held := busy }
                else
                  ((d.setAtnSt t { a with held := [] }).mapJob j.id (fun j =>
                    { j with run := .atn w (seqs.map (fun e => (e, []))) segs 0 0 0 })).readRoots j t w segs seqs

/-! ### Outputs -/

/-- Counts what a conversion of this engine tallied. -/
def Device.atnTally (d : Device) (j : Job) (t : Nat) (y : Tally) : Device :=
  ((d.count (Reg.ATN_SAT t) y.sat).count (Reg.ATN_DRL t) y.drl).report j.id y.report

/-- Writes one output row and head from its combined pair (R206, R211). -/
def Device.atnOutput (d : Device) (j : Job) (t : Nat) (w : AtnDesc) (row head : Nat) (l : Tracked) (acc : List Tracked)
    (k : Device → Device) : Device :=
  let o := outputStores w row head (outputElems l acc)
  Device.andThen (d.atnStores j t o.1) j.id 9 t fun d _ =>
    let d := (d.atnTally j t o.2).count (Reg.ATN_ROWS t) 1
    k (if l.a = 0 then (d.noteJob j.id noteEmptyRow).count (Reg.ATN_EMPTY t) 1 else d)

/-- Zero outputs of the padding rows, then the end of the task (R205). -/
def Device.atnFinish (d : Device) (j : Job) (t : Nat) (w : AtnDesc) (segs : List AtnSeg) : Device :=
  let zero := List.replicate (atnDh w) tzero
  let rows := if atnMode w = 1 || atnPart w then [] else paddingRows w segs
  let stores := rows.flatMap (fun r => (List.range (atnQpg w)).flatMap (fun g => (outputStores w r g zero).1))
  Device.andThen (d.atnStores j t stores) j.id 9 t fun d _ =>
    let d := d.setAtnSt t { d.atnSt t with store := (d.atnSt t).store.filter (fun p => p.1 / 4 != j.id) }
    (d.count (Reg.ATN_ROWS t) (rows.length * atnQpg w)).endJob j.id endOk

/-- Writes what the rows of a group came to: partial records, or outputs of the narrowed range (R210, R211, R214). -/
def Device.groupOut (d : Device) (j : Job) (t : Nat) (w : AtnDesc) : List RowState → (Device → Device) → Device
  | [], k => k d
  | s :: ss, k =>
    if atnPart w then
      let i := (s.row * atnQpg w + s.head) * atnF w 1 52 48 + atnRidx w
      Device.andThen (d.atnStore j t (atnF w 5 63 32) (i * atnZ w) (partialRecord w s)) j.id 9 t fun d _ =>
        Device.groupOut (d.count (Reg.ATN_ROWS t) 1) j t w ss k
    else d.atnOutput j t w s.row s.head s.l (narrowedAcc s.acc) (fun d => Device.groupOut d j t w ss k)

/-- Moves a task to a place, or to its end after the last segment. -/
def Device.atnTo (d : Device) (j : Job) (t : Nat) (w : AtnDesc) (segs : List AtnSeg) (seg grp page : Nat) : Device :=
  let d := d.mapJob j.id (fun j => { j with run := match j.run with | .atn w rs ss _ _ _ => .atn w rs ss seg grp page | r => r })
  if segs.length ≤ seg then d.atnFinish j t w segs else d

/-! ### Page steps (R206 to R211, R221) -/

/-- The rotary phase increments. -/
def Device.phis (d : Device) (j : Job) (t : Nat) (w : AtnDesc) (k : Device → List Word → Device) : Device :=
  if atnRope w then
    Device.andThen (d.atnLoad j t (atnF w 7 31 0) 0 (4 * atnDh w)) j.id 9 t fun d bs => k d (bytesWords bs)
  else k d []

def AtnVec.roped (v : AtnVec) (w : AtnDesc) (phi : List Word) (pos : Nat) : AtnVec × Tally :=
  if atnRope w then v.rotate (atnDh w) (atnHalf w) phi pos else (v, default)

/-- Keys and values of a sequence's page up to slot `n`, as (position, K, V); operands 1 and 2 (R191, R192, R219). -/
def pageKvs (dh page n : Nat) (kc vc ks vs : List Byte) : Except AtnSkew (List (Nat × AtnVec × AtnVec)) :=
  let nb := dh / 32
  (List.range n).foldl (fun (acc : Except AtnSkew (List (Nat × AtnVec × AtnVec))) s =>
    match acc with
    | .error k => .error k
    | .ok l =>
      match atnVecOf 1 (s * nb) dh (slice kc (s * dh) dh) (slice ks (2 * s * nb) (2 * nb)),
            atnVecOf 2 (s * nb) dh (slice vc (s * dh) dh) (slice vs (2 * s * nb) (2 * nb)) with
      | .error k, _ => .error k
      | _, .error k => .error k
      | .ok a, .ok b => .ok (l ++ [(64 * page + s, a, b)])) (.ok [])

/-- Reads the slots of a page that some row of the group sees. -/
def Device.pagedKeys (d : Device) (j : Job) (t : Nat) (w : AtnDesc) (rs : List (Nat × List Word)) (seq page top : Nat)
    (k : Device → List (Nat × AtnVec × AtnVec) → Device) : Device :=
  let dh := atnDh w
  let nb := atnNb w
  let n := min 64 (top + 1 - 64 * page)
  let unit := unitCode t 9
  if n = 0 then k d []
  else
    d.walk j t w rs seq page fun d base =>
      Device.andThen (d.vload j.ctx t unit base (n * dh)) j.id 9 t fun d kc =>
      Device.andThen (d.vload j.ctx t unit (base + 64 * dh) (n * dh)) j.id 9 t fun d vc =>
      Device.andThen (d.vload j.ctx t unit (base + 128 * dh) (2 * n * nb)) j.id 9 t fun d ks =>
      Device.andThen (d.vload j.ctx t unit (base + 132 * dh) (2 * n * nb)) j.id 9 t fun d vs =>
        match pageKvs dh page n kc vc ks vs with
        | .error x => d.atnSkewed j t x
        | .ok l => k d l

/-- The packed keys of one run of 64 that belong to a segment (R206); rotated under ROPE, counted with the first group. -/
def Device.packedKeys (d : Device) (j : Job) (t : Nat) (w : AtnDesc) (phi : List Word) (segno page grp : Nat)
    (k : Device → List (Nat × AtnVec × AtnVec) → Device) : Device :=
  let lo := 64 * page
  let n := min 64 (atnNkey w - lo)
  Device.andThen (d.atnLoad j t (atnF w 10 31 0) (8 * lo) (8 * n)) j.id 9 t fun d ms =>
    let metas := (bytesWords ms).zipIdx.filter (fun m => bits m.1 15 0 == segno)
    let us := metas.map (fun m => lo + m.2)
    d.atnVecs j t w (us.map (fun u => (atnF w 8 31 0, u * atnDh w, atnF w 9 31 0, u * atnNb w, 3))) [] fun d ks =>
    d.atnVecs j t w (us.map (fun u => (atnF w 8 63 32, u * atnDh w, atnF w 9 63 32, u * atnNb w, 4))) [] fun d vs =>
      let ps := metas.map (fun m => bits m.1 35 16)
      let rot := (ps.zip ks).map (fun p => p.2.roped w phi p.1)
      let d := if grp = 0 then d.atnTally j t (rot.foldl (fun a r => a.join r.2) default) else d
      k d (ps.zip ((rot.map (·.1)).zip vs))

/-- The running pairs of the group's rows after a page (R209, R210). -/
def groupStep (w : AtnDesc) (seg : AtnSeg) (qs : List (RowState × AtnVec)) (kvs : List (Nat × AtnVec × AtnVec)) : List PageOut :=
  qs.map fun p =>
    let pos := seg.start + (p.1.row - seg.first)
    pageStep w p.2 ((kvs.filter (fun x => decide (x.1 ≤ pos))).map (·.2)) p.1

/-- Visible pairs of a page step (R419). -/
def pairsOf (outs : List PageOut) : Nat := outs.foldl (fun n o => n + o.keys) 0

/-- What a page step counts and charges: keys, saturations and underflows (R208, R209, R423). -/
def Device.pageCounts (d : Device) (j : Job) (t : Nat) (outs : List PageOut) : Device :=
  let keys := pairsOf outs
  let d := d.atnTally j t { (default : Tally) with sat := outs.foldl (fun n o => n + o.sat) 0 }
  ((d.count (Reg.ATN_KEYS t) keys).charge j.ctx .atnPairs keys t).count (Reg.ATN_UNDERFLOW t)
    (outs.foldl (fun n o => n + o.under) 0)

/-- The slot store takes the group's pairs, and the task goes to the next page, or writes the group out and goes to the
next group or segment (R210, R221). -/
def Device.pageFinish (d : Device) (j : Job) (t slot : Nat) (w : AtnDesc) (segs : List AtnSeg) (seg grp page : Nat)
    (states : List RowState) : Device :=
  let s := segs.getD seg default
  let range := segRange w s
  let d := d.setAtnSt t { d.atnSt t with store := tset (d.atnSt t).store (4 * j.id + slot) states }
  if range.1 + page + 1 < range.2 then d.atnTo j t w segs seg grp (page + 1)
  else
    d.groupOut j t w states fun d =>
      if 16 * (grp + 1) < s.nrow * atnQpg w then d.atnTo j t w segs seg (grp + 1) 0 else d.atnTo j t w segs (seg + 1) 0 0

/-- One page step of a running task. -/
def Device.pageGo (d : Device) (j : Job) (t slot : Nat) (w : AtnDesc) (rs : List (Nat × List Word)) (segs : List AtnSeg)
    (seg grp page : Nat) (u : Upset) : Device :=
  let s := segs.getD seg default
  let range := segRange w s
  let rows := atnGroupRows w s grp
  let pg := range.1 + page
  let states := if page = 0 then rows.map (fun r => RowState.fresh w r.1 r.2) else tget (d.atnSt t).store (4 * j.id + slot) []
  let top := rows.foldl (fun m r => max m (s.start + (r.1 - s.first))) 0
  if range.2 ≤ range.1 then d.pageFinish j t slot w segs seg grp page states
  else
    d.phis j t w fun d phi =>
    d.atnVecs j t w (rows.map (fun r => (atnF w 2 31 0, r.1 * atnF w 2 55 32 + r.2 * atnDh w, atnF w 3 31 0,
        (r.1 * atnQpg w + r.2) * atnNb w, 0))) [] fun d qs =>
      let rot := (rows.zip qs).map (fun p => p.2.roped w phi (s.start + (p.1.1 - s.first)))
      let go (d : Device) (kvs : List (Nat × AtnVec × AtnVec)) : Device :=
        let outs := groupStep w s (states.zip (rot.map (·.1))) kvs
        match d.atnResidue j t s.seq pg page (pairsOf outs) u with
        | (d, false) => d
        | (d, true) =>
          let d := if page = 0 then d.atnTally j t (rot.foldl (fun a r => a.join r.2) default) else d
          (d.pageCounts j t outs).pageFinish j t slot w segs seg grp page (outs.map PageOut.state)
      if atnPacked w then d.packedKeys j t w phi s.segno pg grp go else d.pagedKeys j t w rs s.seq pg top go

/-- The running attention task of a truss in a mode, with its share slot. -/
def Device.atnRun? (d : Device) (t : Truss) (mode : Nat) : Option (Job × Nat) :=
  match d.active? (.atn t) with
  | none => none
  | some j =>
    match j.run with
    | .atn w rs _ _ _ _ => if atnMode w = mode ∧ rootless rs = [] then some (j, d.slotNo j.ctx t) else none
    | _ => none

/-- ATN_PAGE_STEP (R206 to R214, R219 to R221). -/
def execAtnPageStep (t : Truss) (u : Upset) (s : State) : Host.Outcome State Fault Refusal :=
  onDevice s fun d =>
    match d.atnRun? t 0 with
    | none => d
    | some (j, slot) =>
      match j.run with
      | .atn w rs segs seg grp page => d.pageGo j t slot w rs segs seg grp page u
      | _ => d

/-! ### APPEND (R216) -/

/-- Writes one row of K, V and their entries into its slot, at class P2. -/
def Device.putSlot (d : Device) (j : Job) (t : Nat) (w : AtnDesc) (base slot : Nat) (kv : AtnVec × AtnVec) (k : Device → Device) : Device :=
  let dh := atnDh w
  let nb := atnNb w
  let unit := unitCode t 9
  let entries (v : AtnVec) : List Byte := v.exps.zipIdx.flatMap (fun e => leBytes 2 (scaleEntry e.1 ((slot * nb + e.2) % 64)))
  Device.andThen (d.vstore j.ctx t unit (base + slot * dh) (packCodes fmtS8 kv.1.codes)) j.id 9 t fun d _ =>
  Device.andThen (d.vstore j.ctx t unit (base + 64 * dh + slot * dh) (packCodes fmtS8 kv.2.codes)) j.id 9 t fun d _ =>
  Device.andThen (d.vstore j.ctx t unit (base + 128 * dh + 2 * slot * nb) (entries kv.1)) j.id 9 t fun d _ =>
  Device.andThen (d.vstore j.ctx t unit (base + 132 * dh + 2 * slot * nb) (entries kv.2)) j.id 9 t fun d _ => k d

/-- ATN_APPEND_ROW (R207, R216). -/
def execAtnAppendRow (t : Truss) (u : Upset) (s : State) : Host.Outcome State Fault Refusal :=
  onDevice s fun d =>
    match d.atnRun? t 1 with
    | none => d
    | some (j, _) =>
      match j.run with
      | .atn w rs segs seg grp _ =>
        let g := segs.getD seg default
        let row := g.first + grp
        let pos := g.start + grp
        let pg := pos / 64
        d.walk j t w rs g.seq pg fun d base =>
        d.phis j t w fun d phi =>
        d.atnVec j t w (atnF w 8 31 0) (row * atnDh w) (atnF w 9 31 0) (row * atnNb w) 3 fun d k =>
        d.atnVec j t w (atnF w 8 63 32) (row * atnDh w) (atnF w 9 63 32) (row * atnNb w) 4 fun d v =>
          match d.atnResidue j t g.seq pg grp 0 u with
          | (d, false) => d
          | (d, true) =>
            let r := k.roped w phi pos
            d.putSlot j t w base (pos % 64) (r.1, v) fun d =>
              let d := (d.atnTally j t r.2).count (Reg.ATN_APPENDED t) 1
              if grp + 1 < g.nrow then d.atnTo j t w segs seg (grp + 1) 0 else d.atnTo j t w segs (seg + 1) 0 0
      | _ => d

/-! ### COMBINE (R215) -/

/-- Reads and clears the partials of a row and head in ascending range order, adding them up (R211). -/
def Device.combine (d : Device) (j : Job) (t : Nat) (w : AtnDesc) (row head : Nat) :
    Nat → Nat → Tracked × List Tracked → (Device → Tracked × List Tracked → Device) → Device
  | 0, _, acc, k => k d acc
  | n + 1, i, acc, k =>
    let off := ((row * atnQpg w + head) * atnNr w + i) * atnZ w
    let base := atnF w 5 63 32
    Device.andThen (d.atnLoad j t base off (atnZ w)) j.id 9 t fun d bs =>
      let z := atnZ w
      let flags := (bs.getD (z - 112) 0).toNat
      if flags % 2 = 0 ∨ leNat (slice bs (z - 116) 4) ≠ atnTag w then d.atnRefuse j t 0x07 row
      else
        Device.andThen (d.atnStore j t base (off + z - 112) [BitVec.ofNat 8 (flags - 1)]) j.id 9 t fun d _ =>
          let p := partialPair w bs
          let l := alignedAdd acc.1 p.1
          let sum := alignedAdds acc.2 p.2
          let d := d.atnTally j t { (default : Tally) with sat := b2n l.2 + sum.2 }
          Device.combine d j t w row head n (i + 1) (l.1, sum.1) k

/-- ATN_COMBINE_STEP (R211, R214, R215). -/
def execAtnCombineStep (t : Truss) (u : Upset) (s : State) : Host.Outcome State Fault Refusal :=
  onDevice s fun d =>
    match d.atnRun? t 2 with
    | none => d
    | some (j, _) =>
      match j.run with
      | .atn w _ segs seg grp _ =>
        let g := segs.getD seg default
        let row := g.first + grp / max 1 (atnQpg w)
        let head := grp % max 1 (atnQpg w)
        match d.atnResidue j t g.seq 0 grp 0 u with
        | (d, false) => d
        | (d, true) =>
          d.combine j t w row head (atnNr w) 0 (tzero, List.replicate (atnDh w) tzero) fun d p =>
            d.atnOutput j t w row head p.1 p.2 fun d =>
              if grp + 1 < g.nrow * atnQpg w then d.atnTo j t w segs seg (grp + 1) 0 else d.atnTo j t w segs (seg + 1) 0 0
      | _ => d

end Sys2Proof.Machine
end

