-- ==== Sys2Proof/Machine/RafterSets.lean ====
section
/-! DEFINITION. Rafter instructions and stationary sets (04): the encoding of Tables 04-2 and 04-3, reading operands,
zero points and scale entries from Loft (R72 to R74, R82), and the sums of one output element (R47 to R51). -/
namespace Sys2Proof.Machine

open Sys2Proof

/-! ### Instructions (R99) -/

abbrev RafIns := List Word

def rafF (w : RafIns) (k hi lo : Nat) : Nat := bits (wordAt w k) hi lo
def rafOpc (w : RafIns) : Nat := rafF w 0 7 0
def rafTag (w : RafIns) : Nat := rafF w 0 15 8
def rafRsl (w : RafIns) : Bool := rafF w 0 16 16 == 1
def rafAcm (w : RafIns) : Nat := rafF w 0 18 17
def rafSfmt (w : RafIns) : Nat := rafF w 0 23 20
def rafM (w : RafIns) : Nat := rafF w 0 47 32
def rafAccRow (w : RafIns) : Nat := rafF w 0 54 48
def sldShape (w : RafIns) : Nat := rafF w 0 18 16
def sldKrows (w : RafIns) : Nat := rafF w 0 40 32
def sldNcols (w : RafIns) : Nat := rafF w 0 48 41

def opNop : Nat := 0x00
def opMx128 : Nat := 0x10
def opMx64p : Nat := 0x11
def opMx256k : Nat := 0x12
def opMt128 : Nat := 0x13
def opSload : Nat := 0x20
def opEnd : Nat := 0x3F

/-- A compute instruction (R99). -/
def rafCompute (opc : Nat) : Bool := decide (0x10 ≤ opc) && decide (opc ≤ 0x13)

def rafKnown (opc : Nat) : Bool := rafCompute opc || opc == opNop || opc == opSload || opc == opEnd

/-- The half that a compute instruction names; 0 for whole-array shapes. -/
def rafHalf (w : RafIns) : Nat := if rafOpc w = opMx64p then rafF w 0 19 19 else 0

/-- SHAPE of the set that a compute instruction runs on. -/
def rafShape (w : RafIns) : Nat :=
  if rafOpc w = opMx64p then 1 + rafHalf w else if rafOpc w = opMx256k then 4 else if rafOpc w = opMt128 then 3 else 0

/-- The half that an SLOAD loads. -/
def sldHalf (w : RafIns) : Nat := if sldShape w = 2 then 1 else 0

/-- Whether a SHAPE is one of the two halves of MX.64P. -/
def halfShape (shape : Nat) : Bool := shape == 1 || shape == 2

/-! ### Operands in Loft -/

/-- The fields of W2 for one operand, with its stream's base. -/
structure Feed where
  addr : Nat
  saddr : Nat
  pitch : Nat
  spitch : Nat
  b : Nat
  share : Nat
  ord0 : Nat
  nbp : Nat
  fmt : Nat

/-- The operand that a word W1 and W2 and a format describe; only the shingle formats carry exponents (R46). -/
def feedOf (w : RafIns) (fmt : Nat) : Feed where
  addr := rafF w 1 31 0
  saddr := rafF w 1 63 32
  pitch := rafF w 2 23 0
  spitch := rafF w 2 39 24
  b := blkSize (rafF w 2 41 40)
  share := if fmt = fmtS8 then rafF w 2 43 42 else 0
  ord0 := rafF w 2 49 44
  nbp := rafF w 2 56 50
  fmt := fmt

/-- Formats of Table 02-2 as the arrays name them. -/
def rafFmt (f : Nat) : Bool := f == fmtS8 || f == fmtQ8U || f == fmtQ8S || f == fmtI16

/-- Bytes of an element. -/
def rafSize (f : Nat) : Nat := if f = fmtI16 then 2 else 1

/-- The element code in its own format (R72). -/
def rafCode (f : Nat) (bs : List Byte) (i : Nat) : Int :=
  if f = fmtI16 then signed 16 (leNat (slice bs (2 * i) 2))
  else if f = fmtQ8U then (bs.getD i 0).toNat
  else signed 8 (bs.getD i 0).toNat

/-- A zero point in the operand's format; 0 for formats without one. -/
def rafZp (f v : Nat) : Int := if f = fmtQ8U then (v : Int) else if f = fmtQ8S then signed 8 v else 0

/-- How an array's access to Loft, or its pairing of a scale entry, ends. -/
inductive Fed (α : Type) where
  | ok (v : α)
  | fail (e : Ending)
  /-- Operand, data ordinal, scale ordinal, position of the entry (R109) -/
  | skew (operand dord sord pos : Nat)

/-- Reads `n` bytes at an offset of the context's share (R20, R99). -/
def Device.rafRead (d : Device) (c t unit off n : Nat) : Device × Fed (List Byte) :=
  if n = 0 then (d, .ok [])
  else if 2 ^ 25 ≤ off then (d, .fail (endC stViolation 0 unit 0 0))
  else
    match d.ptrLoad c t unit false (BitVec.ofNat 64 off) n with
    | (d, .ok bs) => (d, .ok bs)
    | (d, .fail e) => (d, .fail e)
    | (d, .miss _ _) => (d, .fail (endC stViolation 0 unit 0 0))

/-- Reads a list of (offset, length). -/
def Device.rafReads (d : Device) (c t unit : Nat) : List (Nat × Nat) → Device × Fed (List (List Byte))
  | [] => (d, .ok [])
  | p :: ps =>
    match d.rafRead c t unit p.1 p.2 with
    | (d, .ok bs) =>
      match Device.rafReads d c t unit ps with
      | (d, .ok l) => (d, .ok (bs :: l))
      | (d, .fail e) => (d, .fail e)
      | (d, .skew a b x y) => (d, .skew a b x y)
    | (d, .fail e) => (d, .fail e)
    | (d, .skew a b x y) => (d, .skew a b x y)

/-- Position from the stream base and ordinal of each scale entry of row, column or vector `i` (R99, Table 04-2). -/
def Feed.entries (f : Feed) (k i : Nat) : List (Nat × Nat) :=
  if k = 0 then []
  else if f.share = 1 then
    (List.range (ceilDiv k f.b)).map (fun j => (i * f.spitch + j, (f.ord0 + i * f.nbp + j) % 64))
  else if f.share = 2 then
    let g := (f.nbp + i) / f.b
    [(g, (f.ord0 + g) % 64)]
  else []

/-- Reads and pairs scale entries (R82, R109), where they lie: a base off a 2-byte boundary is not refused (DESIGN CHOICE, log
entry 118). -/
def Device.rafScales (d : Device) (c t unit operand base : Nat) : List (Nat × Nat) → Device × Fed (List Nat)
  | [] => (d, .ok [])
  | p :: ps =>
    match d.rafRead c t unit (base + 2 * p.1) 2 with
    | (d, .ok bs) =>
      let v := leNat bs
      if entryOrd v ≠ p.2 then (d, .skew operand p.2 (entryOrd v) p.1)
      else
        match Device.rafScales d c t unit operand base ps with
        | (d, .ok l) => (d, .ok (entryExp v :: l))
        | (d, .fail e) => (d, .fail e)
        | (d, .skew a b x y) => (d, .skew a b x y)
    | (d, .fail e) => (d, .fail e)
    | (d, .skew a b x y) => (d, .skew a b x y)

/-- The scale entries of rows, columns or vectors `is`, each `k` long. -/
def Device.rafScaleRows (d : Device) (c t unit operand : Nat) (f : Feed) (k : Nat) : List Nat → Device × Fed (List (List Nat))
  | [] => (d, .ok [])
  | i :: is =>
    match d.rafScales c t unit operand f.saddr (f.entries k i) with
    | (d, .ok e) =>
      match Device.rafScaleRows d c t unit operand f k is with
      | (d, .ok l) => (d, .ok (e :: l))
      | (d, .fail e) => (d, .fail e)
      | (d, .skew a b x y) => (d, .skew a b x y)
    | (d, .fail e) => (d, .fail e)
    | (d, .skew a b x y) => (d, .skew a b x y)

/-! ### Loading a set (R95) -/

/-- What an SLOAD says of its set before anything is read: all that Table 04-6 asks of it. -/
def setShell (c : Nat) (w : RafIns) : RafSet :=
  let f := feedOf w (rafF w 0 23 20)
  { shape := sldShape w, krows := sldKrows w, ncols := sldNcols w, wfmt := f.fmt, wshare := f.share, blk := f.b, wnbp := f.nbp
    vals := [], exps := [], ctx := c, source := w }

/-- Loads the set that an SLOAD names. -/
def Device.loadSet (d : Device) (c t unit : Nat) (w : RafIns) : Device × Fed RafSet :=
  let fmt := rafF w 0 23 20
  let f := feedOf w fmt
  let k := sldKrows w
  let n := sldNcols w
  let z := rafSize fmt
  let mt := sldShape w == 3
  let rows := if mt then n else k
  let len := if mt then k else n
  let ranges := (List.range rows).map (fun i => (f.addr + i * f.pitch, len * z))
  let zpc := !mt && rafF w 0 19 19 == 1 && isQ8 fmt
  match d.rafReads c t unit ranges with
  | (d, .fail e) => (d, .fail e)
  | (d, .skew a b x y) => (d, .skew a b x y)
  | (d, .ok data) =>
    match d.rafRead c t unit (rafF w 3 31 0) (if zpc then 128 else 0) with
    | (d, .fail e) => (d, .fail e)
    | (d, .skew a b x y) => (d, .skew a b x y)
    | (d, .ok zs) =>
      let zp (i : Nat) : Int := rafZp fmt (if zpc then (zs.getD i 0).toNat else rafF w 0 31 24)
      let vals := (List.range n).map (fun i => (List.range k).map (fun j =>
        (if mt then rafCode fmt (data.getD i []) j else rafCode fmt (data.getD j []) i) - zp i))
      match d.rafScaleRows c t unit 1 f k (List.range n) with
      | (d, .fail e) => (d, .fail e)
      | (d, .skew a b x y) => (d, .skew a b x y)
      | (d, .ok exps) =>
        (d, .ok { setShell c w with vals := vals, exps := exps })

/-! ### One output element (R47 to R51) -/

/-- The K-block length (R49). -/
def kBlock (x w : Side) : Nat :=
  if x.share = 1 then (if w.share = 1 then min x.b w.b else x.b) else if w.share = 1 then w.b else 128

def blockDot : List Int → List Int → Int
  | x :: xs, y :: ys => x * y + blockDot xs ys
  | _, _ => 0

/-- A K-sharing operand's exponent in the block that starts at element `k0`; none when it does not share along K. -/
def Side.kExp (x : Side) (k0 : Nat) : Option Nat := if x.share = 1 then some (x.exps.getD (k0 / x.b) 0) else none

/-- The partial sum P of K-block `j` of length `bk` (R49). -/
def partialSum (bk : Nat) (x w : List Int) (j : Nat) : Int := blockDot ((x.drop (j * bk)).take bk) ((w.drop (j * bk)).take bk)

/-- The K-blocks of one element that are not empty: partial sum, off by `err` of the block, and block exponent (R49). -/
def kBlocksOff (err : Nat → Int) (x w : Side) : List (Int × Int) :=
  let bk := kBlock x w
  (List.range (ceilDiv x.vals.length bk)).filterMap fun j =>
    let es := (x.kExp (j * bk)).toList ++ (w.kExp (j * bk)).toList
    if es.contains 0 then none
    else some (partialSum bk x.vals w.vals j + err j, es.foldl (fun (s : Int) (e : Nat) => s + ((e : Int) - 127)) 0)

/-- The exponent an operand brings to its output rows or columns (R53, step 1); none when it is 0. -/
def Side.rowExp (x : Side) : Option Int :=
  if x.share = 2 then (match x.exps with | [] => some 0 | e :: _ => if e = 0 then none else some ((e : Int) - 127)) else some 0

/-- The aligned accumulator of one element with its row exponent Y (R50, R51, R53), its partial sums off by `err`. -/
def accOff (err : Nat → Int) (x w : Side) : AccCell :=
  match kBlocksOff err x w, x.rowExp, w.rowExp with
  | p :: ps, some ex, some ew =>
    let xg := ps.foldl (fun m q => max m q.2) p.2
    let term (q : Int × Int) : Int × Bool :=
      let dj := xg - q.2
      if dj ≤ 40 then (q.1 * 2 ^ (41 - dj).toNat, false)
      else
        let k := (dj - 41).toNat
        (q.1 / 2 ^ k, q.1 % 2 ^ k != 0)
    let ts := (p :: ps).map term
    ⟨ts.foldl (fun s q => s + q.1) 0, ts.any (·.2), xg - 41 + ex + ew⟩
  | _, _, _ => ⟨0, false, 0⟩

/-- A set's column or vector `n` as a side. -/
def RafSet.side (s : RafSet) (n : Nat) : Side := ⟨s.vals.getD n [], s.exps.getD n [], s.wshare, s.blk⟩

def zeroCell : AccCell := ⟨0, false, 0⟩

/-! ### Entries and their checks (R110, R118, R119) -/

def PendEntry.mt (p : PendEntry) : Bool := rafOpc p.w == opMt128

/-- All the streamed rows that the entry takes are in. -/
def PendEntry.full (p : PendEntry) : Bool := decide (p.want ≤ p.xs.length)

/-- Output rows of the entry. -/
def PendEntry.rows (p : PendEntry) : Nat := if p.mt then min 8 (p.set.ncols - p.firstRow) else p.want

/-- Columns of the entry that hold output: NCOLS, or the streamed vectors of its group (R110). -/
def PendEntry.cols (p : PendEntry) : Nat := if p.mt then p.want else p.set.ncols

def errAt (errs : List CellErr) (row col kblk : Nat) : Int :=
  errs.foldl (fun s e => if e.row = row ∧ e.col = col ∧ e.kblk = kblk then s + e.delta else s) 0

/-- The accumulators of an entry, row by row, with the wrong partial sums `errs` (R94, R102, R110). -/
def PendEntry.cells (p : PendEntry) (errs : List CellErr) : List (List AccCell) :=
  (List.range 8).map fun r => (List.range 128).map fun col =>
    if p.rows ≤ r || p.cols ≤ col then zeroCell
    else
      let i := if p.mt then col else r
      let n := if p.mt then p.firstRow + r else col
      match p.xs[i]? with
      | some x => accOff (errAt errs i n) x (p.set.side n)
      | none => zeroCell

/-- Adds up `f` of the first `n` numbers, modulo 2^32 as the checksum cells do. -/
def sum32 (n : Nat) (f : Nat → Int) : Int := (List.range n).foldl (fun s i => (s + f i) % 2 ^ 32) 0

/-- c[k]: the sum over the active columns of W[k][n] (R118). -/
def RafSet.check (s : RafSet) : List Int :=
  (List.range s.krows).map fun k => sum32 s.ncols (fun n => (s.vals.getD n []).getD k 0)

/-- s[k]: the sum over the entry's valid rows of x[k] (R119). -/
def PendEntry.rowSum (p : PendEntry) : List Int :=
  (List.range p.set.krows).map fun k => sum32 p.xs.length (fun i => match p.xs[i]? with | some x => x.vals.getD k 0 | none => 0)

/-- K-block length of an entry's partial sums; 128 where no row is in. -/
def PendEntry.bk (p : PendEntry) : Nat := match p.xs with | x :: _ => kBlock x (p.set.side 0) | [] => 128

/-- P of streamed row `i`, column `n` and K-block `j`, as the cells formed it. -/
def PendEntry.psum (p : PendEntry) (errs : List CellErr) (i n j : Nat) : Int :=
  match p.xs[i]? with
  | some x => partialSum p.bk x.vals (p.set.vals.getD n []) j + errAt errs i n j
  | none => 0

/-- What the checksum column forms for row `i` (R118) and what the checksum row forms for column `n` (R119). -/
def PendEntry.colSide (p : PendEntry) (errs : List CellErr) (i j : Nat) : Int :=
  (match p.xs[i]? with | some x => partialSum p.bk x.vals p.set.check j | none => 0) + errAt errs i 128 j

def PendEntry.rowSide (p : PendEntry) (errs : List CellErr) (n j : Nat) : Int :=
  partialSum p.bk p.rowSum (p.set.vals.getD n []) j + errAt errs 128 n j

/-- Rows whose column check, and columns whose row check, fails for K-block `j`; and whether the corner check does. -/
def PendEntry.badRows (p : PendEntry) (errs : List CellErr) (j : Nat) : List Nat :=
  (List.range p.xs.length).filter fun i => (p.colSide errs i j - sum32 p.set.ncols (fun n => p.psum errs i n j)) % 2 ^ 32 != 0

def PendEntry.badCols (p : PendEntry) (errs : List CellErr) (j : Nat) : List Nat :=
  (List.range p.set.ncols).filter fun n => (p.rowSide errs n j - sum32 p.xs.length (fun i => p.psum errs i n j)) % 2 ^ 32 != 0

def PendEntry.badCorner (p : PendEntry) (errs : List CellErr) (j : Nat) : Bool :=
  let c := partialSum p.bk p.rowSum p.set.check j + errAt errs 128 128 j
  (c - sum32 p.xs.length (fun i => p.colSide errs i j)) % 2 ^ 32 != 0 ||
    (c - sum32 p.set.ncols (fun n => p.rowSide errs n j)) % 2 ^ 32 != 0

/-- A failing check: row of the instruction, the column it locates, K-block and KIND (Table 04-14). -/
structure Mismatch where
  row : Nat
  col : Option Nat
  kblk : Nat
  kind : Nat
  deriving DecidableEq, Repr

/-- The checks of one K-block. -/
def PendEntry.checkBlock (p : PendEntry) (errs : List CellErr) (j : Nat) : Option Mismatch :=
  let rs := p.badRows errs j
  let cs := p.badCols errs j
  let col := match cs with | [n] => some n | _ => none
  let at_ (kind : Nat) : Option Mismatch := some ⟨p.row0 + rs.headD 0, col, j, kind⟩
  if !rs.isEmpty && !cs.isEmpty then at_ 3
  else if !rs.isEmpty then at_ 1
  else if !cs.isEmpty then at_ 2
  else if p.badCorner errs j then at_ 4
  else none

/-- The checks of R118 and R119 on an entry, in the order of K-blocks; with no wrong sum every check compares a sum with
itself. The residue checks and codes stay when the others are off (R121). -/
def PendEntry.check (p : PendEntry) (en : Bool) (u : AbftRun) : Option Mismatch :=
  let m := if en && !u.errs.isEmpty then (List.range (ceilDiv p.set.krows p.bk)).findSome? (p.checkBlock u.errs) else none
  match m, u.code with
  | some m, _ => some m
  | none, some q => some ⟨(if p.mt then p.row0 + q.2 else p.row0 + q.1), some (if p.mt then p.firstRow + q.1 else q.2), 0, 6⟩
  | none, none => none

/-! ### The bank (R105, R106) -/

def zeroBank : BankEntry := ⟨List.replicate 8 (List.replicate 128 0), List.replicate 128 (-32768)⟩

/-- Key of a bank entry: share slot and entry. -/
def bankKey (slot e : Nat) : Nat := 16 * slot + e

def colLoop (s : List Dyad) : Nat → Int → Int
  | 0, x => x
  | f + 1, x => if s.all (fun v => fitsI64 (rneScale v.n (v.e - x))) then x else colLoop s f (x + 1)

/-- The column add (R106), with its saturations. -/
def columnAdd (prev new : List Int × Int) : List Int × Int × Nat :=
  let s := (prev.1.zip new.1).map (fun p => (⟨p.1, prev.2⟩ : Dyad).add ⟨p.2, new.2⟩)
  if s.all (fun v => v.n == 0) then (s.map (fun _ => 0), -32768, 0)
  else
    let has (c : List Int × Int) : Bool := c.1.any (· != 0)
    let x0 := if !has prev then new.2 else if !has new then prev.2 else max prev.2 new.2
    let x := colLoop s 4 x0
    if 32767 < x then
      (s.map (fun v => if v.n = 0 then 0 else if v.n < 0 then -maxI64 else maxI64), 32767, s.countP (fun v => v.n != 0))
    else (s.map (fun v => rneScale v.n (v.e - x)), x, 0)

/-- Column `c` of 8 rows. -/
def colOf (rows : List (List Int)) (c : Nat) : List Int := rows.map (fun r => r.getD c 0)

/-- Rows of a list of columns. -/
def rowsOfCols (n : Nat) (cols : List (List Int)) : List (List Int) :=
  (List.range n).map (fun r => cols.map (fun c => c.getD r 0))

/-- The column add of whole entries, with its saturations. -/
def bankAdd (prev new : BankEntry) : BankEntry × Nat :=
  let cols := (List.range 128).map fun c => columnAdd (colOf prev.rows c, prev.xs.getD c (-32768)) (colOf new.rows c, new.xs.getD c (-32768))
  (⟨rowsOfCols 8 (cols.map (·.1)), cols.map (·.2.1)⟩, cols.foldl (fun n c => n + c.2.2) 0)

/-- An entry as it goes to the queue: rows that are no output rows and columns that hold none are 0, and a column of
zeros has exponent −32,768 (R110). -/
def BankEntry.masked (b : BankEntry) (rows cols : Nat) : BankEntry :=
  let rs := (List.range 8).map fun r => (List.range 128).map fun c => if rows ≤ r || cols ≤ c then 0 else (b.rows.getD r []).getD c 0
  ⟨rs, (List.range 128).map fun c => if (colOf rs c).all (· == 0) then -32768 else b.xs.getD c (-32768)⟩

/-- Narrows the accumulators of an entry, row by row (R53). -/
def narrowEntry (cells : List (List AccCell)) : BankEntry :=
  let cols := (List.range 128).map fun c => narrowColumn (cells.map (fun r => r.getD c ⟨0, false, 0⟩))
  ⟨rowsOfCols 8 (cols.map (·.2)), cols.map (·.1)⟩

end Sys2Proof.Machine
end

