-- ==== Sys2Proof/Machine/Collectives.lean ====
section
/-! DEFINITION. Collectives (R369 to R383). Each member sends the blocks of its contribution to the members whose share of
the result needs them, and forms its own share in the order of R375 and R376; in an all-reduce it then sends that share to the
others (R382, log entry 70). -/
namespace Sys2Proof.Machine

open Sys2Proof

/-! ### The descriptor (Table 12-9) -/

def Collective.f (c : Collective) (w hi lo : Nat) : Nat := bits (wordAt c.words w) hi lo
/-- 0 ALL_REDUCE, 1 REDUCE_SCATTER, 2 ALL_GATHER -/
def Collective.op (c : Collective) : Nat := c.f 0 1 0
/-- 0 I32, 1 I64, 2 ACC chunks -/
def Collective.elem (c : Collective) : Nat := c.f 0 3 2
def Collective.src (c : Collective) : Nat := c.f 1 51 0
def Collective.dst (c : Collective) : Nat := if c.f 0 4 4 = 1 then c.src else c.f 2 51 0
def Collective.n (c : Collective) : Nat := c.f 3 39 0
def Collective.size (c : Collective) : Nat := if c.elem = 0 then 4 else if c.elem = 1 then 8 else 1152
/-- Bytes of a contribution. -/
def Collective.len (c : Collective) : Nat := c.n * c.size
def Collective.nmem (c : Collective) : Nat := c.group.length
/-- Payload bytes of one packet: 4 KiB, or three whole chunks. -/
def Collective.block (c : Collective) : Nat := if c.elem = 2 then 3456 else 4096
/-- This device's place in the list. -/
def Device.placeIn (d : Device) (c : Collective) : Nat := c.group.idxOf d.devnum
/-- S of R375. -/
def Collective.shard (c : Collective) : Nat := ceilDiv c.n (max 1 c.nmem)

/-- First element and count of the contributions that member `i` needs: its share of a reduction (R375), or all. -/
def Collective.part (c : Collective) (i : Nat) : Nat × Nat :=
  if c.op = 2 then (0, c.n) else (min (i * c.shard) c.n, min ((i + 1) * c.shard) c.n - min (i * c.shard) c.n)

/-- Blocks of a contribution that member `i` needs. -/
def Collective.blocksFor (c : Collective) (i : Nat) : List Nat :=
  let p := c.part i
  if p.2 = 0 then []
  else (List.range (ceilDiv ((p.1 + p.2) * c.size) c.block)).filter (fun b => decide (p.1 * c.size < (b + 1) * c.block))

/-- Blocks that a contribution has. -/
def Collective.blocks (c : Collective) : Nat := ceilDiv c.len c.block

/-- Blocks of member `i`'s share of a reduction. -/
def Collective.shareBlocks (c : Collective) (i : Nat) : Nat := if c.op = 2 then 0 else ceilDiv ((c.part i).2 * c.size) c.block

/-! ### Checksums (R377) -/

def colPrime : Nat := 2 ^ 61 - 1

/-- chk of a run of whole elements. -/
def chkOf (elem : Nat) (bs : List Byte) : Nat :=
  if elem = 0 then ((chunks 4 bs.length bs).foldl (fun s b => s + leNat b) 0) % 2 ^ 32
  else if elem = 1 then ((chunks 8 bs.length bs).foldl (fun s b => s + leNat b) 0) % 2 ^ 64
  else
    (chunks 1152 bs.length bs).foldl (fun s c =>
      let x := signed 16 (leNat (slice c 1024 2))
      let m : Int := (chunks 8 128 (c.take 1024)).foldl (fun (t : Int) a => t + signed 64 (leNat a)) 0
      ((s : Int) + (m % (colPrime : Int)) * ((2 ^ (x % 61).toNat : Nat) : Int)).toNat % colPrime) 0

/-! ### The reduction (R375 to R377) -/

/-- A chunk as its 128 integers and exponent (R169). -/
def chunkVals (c : List Byte) : List Int × Int :=
  ((chunks 8 128 (slice c 0 1024)).map (fun a => signed 64 (leNat a)), signed 16 (leNat (slice c 1024 2)))

/-- A chunk's bytes. -/
def chunkBytes (v : List Int × Int) : List Byte :=
  v.1.flatMap (fun a => leBytes 8 (unsigned 64 a)) ++ leBytes 2 (unsigned 16 v.2) ++ List.replicate 126 0

/-- A unit of an add: a chunk, or a run of integers. -/
def colVals (elem : Nat) (bs : List Byte) : List Int × Int :=
  if elem = 2 then chunkVals bs
  else ((chunks (if elem = 0 then 4 else 8) bs.length bs).map (fun a => (leNat a : Int)), 0)

def colBytes (elem : Nat) (v : List Int × Int) : List Byte :=
  if elem = 2 then chunkBytes v else v.1.flatMap (fun a => leBytes (if elem = 0 then 4 else 8) (unsigned (if elem = 0 then 32 else 64) a))

/-- The modulus of a format's checksum. -/
def colMod (elem : Nat) : Nat := if elem = 0 then 2 ^ 32 else if elem = 1 then 2 ^ 64 else colPrime

/-- chk of a unit. -/
def chkVals (elem : Nat) (v : List Int × Int) : Nat :=
  let m : Int := v.1.foldl (· + ·) 0 % (colMod elem : Int)
  (if elem = 2 then m.toNat * 2 ^ (v.2 % 61).toNat else m.toNat) % colMod elem

/-- The pairwise add with its saturations: the chunk add (the column add of R106 over 128 elements), or the sum modulo the
element's width. -/
def pairAdd (elem : Nat) (a b : List Int × Int) : (List Int × Int) × Nat :=
  if elem = 2 then
    let r := columnAdd a b
    ((r.1, r.2.1), r.2.2)
  else ((((a.1.zip b.1).map (fun p => (p.1 + p.2) % (colMod elem : Int))), 0), 0)

/-- A partial: its values, saturations, the place of its first member, its rounding account, and the checks that failed on
the way: kind, and whether the step computed again passed. -/
structure Partial where
  v : List Int × Int
  sat : Nat
  leaf : Nat
  racc : Nat
  bad : List (Nat × Bool)
  deriving DecidableEq, Repr

/-- Values with the errors of one add (of unit `u`, right-hand operand `r`). -/
def withAddErrs (l : List AddErr) (u r : Nat) (v : List Int × Int) : List Int × Int :=
  ((l.filter (fun e => e.unit == u && e.right == r)).foldl (fun (xs : List Int) e => xs.set e.elem (xs.getD e.elem 0 + e.off)) v.1, v.2)

/-- The check that a step fails, if any: the shadow path, where the block takes it, and the identity with the step's
rounding (R377). -/
def addFails (elem : Nat) (shadow : Bool) (ins delta : Nat) (exact got : List Int × Int) : Option Nat :=
  if shadow && got != exact then some 1
  else if ins % colMod elem != (chkVals elem got + delta) % colMod elem then some 3
  else none

/-- One checked add of unit `u`: a step that fails is computed once more from its inputs (R377, R378). -/
def addChecked (elem : Nat) (shadow : Bool) (first again : List AddErr) (u : Nat) (a b : Partial) : Partial :=
  let r := pairAdd elem a.v b.v
  let ins := chkVals elem a.v + chkVals elem b.v
  let delta := (((ins : Int) - chkVals elem r.1) % (colMod elem : Int)).toNat
  let out (v : List Int × Int) (bad : List (Nat × Bool)) : Partial :=
    { v := v, sat := a.sat + b.sat + r.2, leaf := a.leaf, racc := (a.racc + b.racc + delta) % colMod elem, bad := a.bad ++ b.bad ++ bad }
  let one := withAddErrs first u b.leaf r.1
  let two := withAddErrs again u b.leaf r.1
  match addFails elem shadow ins delta r.1 one with
  | none => out one []
  | some k =>
    match addFails elem shadow ins delta r.1 two with
    | none => out two [(k, true)]
    | some k => out r.1 [(k, false)]

/-- One level of a binary tree; an odd result passes up unpaired. -/
def treeLevel {α : Type} (f : α → α → α) : List α → List α
  | a :: b :: r => f a b :: treeLevel f r
  | l => l

/-- A binary tree over a list, by fuel. -/
def treeFold {α : Type} (f : α → α → α) : Nat → List α → List α
  | 0, l => l
  | n + 1, l => if l.length ≤ 1 then l else treeFold f n (treeLevel f l)

/-- The near groups of a list (R370). -/
def nearGroups {α : Type} (ng : Nat) (l : List (Nat × α)) : List (List (Nat × α)) := chunks (max 1 ng) l.length l

/-- Contributions in ascending device number. -/
def byDevice {α : Type} (l : List (Nat × α)) : List (Nat × α) :=
  l.foldr (fun a acc => acc.takeWhile (fun b => decide (b.1 < a.1)) ++ a :: acc.dropWhile (fun b => decide (b.1 < a.1))) []

/-- The reduction of one unit (R376): within near groups, then across them in list order; integers in any order. -/
def reduceUnit (elem ng : Nat) (add : Partial → Partial → Partial) (l : List (Nat × Partial)) : Partial :=
  let ts := (nearGroups ng l).filterMap (fun g => (treeFold add 4 ((byDevice g).map (·.2))).head?)
  match ts with
  | [] => ⟨(if elem = 2 then List.replicate 128 0 else [], if elem = 2 then -32768 else 0), 0, 0, 0, []⟩
  | t :: r => r.foldl add t

/-- What a formed block comes to. -/
structure FormedBlock where
  bytes : List Byte
  racc : Nat
  sum : Nat
  sat : Nat
  bad : List (Nat × Bool)
  deriving DecidableEq, Repr

/-- Forms block `j` of a member's share, whose first element is `at_` and whose elements are `n` (R375 to R377). -/
def Collective.form (c : Collective) (sample : Nat) (first again : List AddErr) (j at_ n : Nat) (contribs : List (Nat × List Byte)) :
    FormedBlock :=
  let units := if c.elem = 2 then (List.range (min n (3 * j + 3) - 3 * j)).map (3 * j + ·) else [j]
  let run (u : Nat) (p : List Byte) : List Byte :=
    if c.elem = 2 then slice p (1152 * (at_ + u)) 1152
    else slice p (at_ * c.size + j * c.block) (min c.block (n * c.size - j * c.block))
  let shadow := sample != 0 && (j + Config.samplePhase) % sample == 0
  let one (u : Nat) : Partial × Nat :=
    let leaves := contribs.zipIdx.map (fun p => (p.1.1, (⟨colVals c.elem (run u p.1.2), 0, p.2, 0, []⟩ : Partial)))
    (reduceUnit c.elem c.ng (addChecked c.elem shadow first again u) leaves,
     leaves.foldl (fun s p => (s + chkVals c.elem p.2.v) % colMod c.elem) 0)
  let us := units.map one
  { bytes := us.flatMap (fun p => colBytes c.elem p.1.v)
    racc := us.foldl (fun s p => (s + p.1.racc) % colMod c.elem) 0
    sum := us.foldl (fun s p => (s + p.2) % colMod c.elem) 0
    sat := us.foldl (fun s p => s + p.1.sat) 0
    bad := us.flatMap (fun p => p.1.bad) }

/-- The check from end to end of a reduced block (R377): chk(result) + RACC is the sum of the contributions'. -/
def endToEnd (elem : Nat) (bs : List Byte) (racc sum : Nat) : Bool := (chkOf elem bs + racc) % colMod elem == sum % colMod elem

/-! ### Engines and their lists -/

def Device.mapCol (d : Device) (job : Nat) (f : Collective → Collective) : Device :=
  { d with cols := tupd d.cols (fun _ x => { x with running := x.running.map (fun c => if c.job = job then f c else c) }) }

/-! ### Starting -/

/-- Whether block `b` of member `i` has come: of its contribution, or beyond those of its share. -/
def Collective.has (c : Collective) (i b : Nat) : Bool := c.got.any (fun g => g.1 == i && g.2.1 == b)

/-- Whether every contribution that member `me` needs has come. -/
def Collective.fed (c : Collective) (me : Nat) : Bool :=
  (List.range c.nmem).all (fun i => (c.blocksFor me).all (fun b => c.has i b))

/-- Blocks still missing of member `i`, at member `me`. -/
def Collective.missing (c : Collective) (me i : Nat) : Bool :=
  !(c.blocksFor me).all (fun b => c.has i b) ||
    (c.op == 0 && i != me && !(List.range (c.shareBlocks i)).all (fun j => c.has i (c.blocks + j)))

/-- Whether the result is all here. -/
def Collective.complete (c : Collective) (me : Nat) : Bool :=
  c.shareBlocks me ≤ c.formed.length && !(List.range c.nmem).any (fun i => c.missing me i)

/-- A member's contribution as far as it has come. -/
def Collective.contribution (c : Collective) (i : Nat) : List Byte :=
  (List.range c.blocks).flatMap (fun b =>
    match c.got.find? (fun g => g.1 == i && g.2.1 == b) with
    | some g => slice g.2.2 0 (min c.block (c.len - b * c.block))
    | none => List.replicate (min c.block (c.len - b * c.block)) 0)

/-- All members' contributions by device number, in list order. -/
def Collective.contribs (c : Collective) : List (Nat × List Byte) :=
  (List.range c.nmem).map (fun i => (c.group.getD i 0, c.contribution i))

/-- This member's share of the reduction. -/
def Collective.mine (c : Collective) : List Byte := c.formed.flatMap (·.1)

/-- The result at this member (R375). -/
def Collective.result (c : Collective) (me : Nat) : List Byte :=
  if c.op = 2 then c.contribs.flatMap (·.2)
  else if c.op = 1 then c.mine
  else (List.range c.nmem).flatMap (fun i => if i = me then c.mine
    else (List.range (c.shareBlocks i)).flatMap (fun j =>
      match c.got.find? (fun g => g.1 == i && g.2.1 == c.blocks + j) with | some g => g.2.2 | none => []))

/-- Completes a collective whose data are all there. -/
def Device.colFinish (d : Device) (e : Nat) (c : Collective) : Device :=
  let me := d.placeIn c
  if !c.sent || !c.complete me then d
  else
    let r := c.result me
    match d.job? c.job with
    | none => d.dropCol c.job
    | some j =>
      if j.state != .running then d
      else
        match (if r.isEmpty then (d, .ok ()) else d.vstore c.ctx 16 (unitCode e 10) c.dst r) with
        | (d, .miss va wr) => d.xltMiss c.job 10 16 va wr
        | (d, .fail x) => (d.sendAborts e c 0x54).colFail e c 6 d.devnum x
        | (d, .ok _) =>
          let d := (d.count (Reg.COL_SAT e) c.sat).report c.job (reportCounts c.sat 0)
          let d := ((d.count (Reg.COL_COMPLETED e) 1).endJob c.job endOk).dropCol c.job
          let x := d.colEng e
          d.setColEng e { x with done := x.done.filter (fun k => !(k.colid == c.colid && k.ctx == c.ctx)) ++ [c] }

/-- The devices of a group record. -/
def groupDevs (n : Nat) (bs : List Byte) : List Nat := (chunks 4 n bs).map (fun b => leNat b % 2 ^ 18)

/-- Blocks of this member's contribution, for itself and for another member. -/
def ownBlocks (c : Collective) (data : List Byte) (i : Nat) : List (Nat × List Byte) :=
  (c.blocksFor i).map (fun b => (b, slice data (b * c.block) (min c.block (c.len - b * c.block))))

/-- Sends a data packet of a collective (R347, R377). -/
def Device.colSend (d : Device) (e : Nat) (c : Collective) (dev idx : Nat) (bs : List Byte) (racc sum : Nat) : Device × Bool :=
  d.send { d.colPacket e c 0x09 3 dev idx (chkOf c.elem bs) bs with racc := BitVec.ofNat 64 racc, sum := sum }

/-- Sends one block to each of some members; the first that cannot be reached is named. -/
def Device.colSendAll (d : Device) (e : Nat) (c : Collective) (idx : Nat) (bs : List Byte) (racc sum : Nat) :
    List Nat → Device × Option Nat
  | [] => (d, none)
  | dev :: ds =>
    match d.colSend e c dev idx bs racc sum with
    | (d, true) => Device.colSendAll d e c idx bs racc sum ds
    | (d, false) => (d, some dev)

/-- Sends a contribution to every other member; the first that cannot be reached is named. -/
def Device.sendShare (d : Device) (e : Nat) (c : Collective) : List Nat → Device × Option Nat
  | [] => (d, none)
  | i :: is =>
    let dev := c.group.getD i 0
    if dev = d.devnum then Device.sendShare d e c is
    else
      let r := (ownBlocks c c.own i).foldl (fun (a : Device × Bool) b => if a.2 then a.1.colSend e c dev b.1 b.2 0 0 else a) (d, true)
      if r.2 then Device.sendShare r.1 e c is else (r.1, some dev)

/-- Whether an engine's adder can go on with a collective (R380): it has what its next block needs. -/
def Device.colReady (d : Device) (c : Collective) : Bool :=
  let me := d.placeIn c
  c.sent && c.formed.length < c.shareBlocks me && c.fed me &&
    (match d.job? c.job with | some j => j.state == .running | none => false)

/-- The collective that an engine's adder goes to (R272, R380). -/
def Device.colNext (d : Device) (e : Nat) : Option Collective :=
  let at_ (c : Collective) : Nat := match d.job? c.job with | some j => j.readyAt | none => 0
  let before (a b : Collective) : Bool :=
    decide ((d.ctx b.ctx).prio < (d.ctx a.ctx).prio) || ((d.ctx a.ctx).prio == (d.ctx b.ctx).prio && decide (at_ a < at_ b))
  ((d.colEng e).running.filter d.colReady).foldl (fun m c => match m with | none => some c | some b => if before c b then some c else m) none

/-- A check that failed: held, counted (R377, R383). -/
def Device.colCheckErr (d : Device) (e : Nat) (c : Collective) (dev kind : Nat) : Device :=
  (d.colErrInfo e c.colid dev kind false).count (Reg.COL_CHECK_ERR e) 1

/-- A failed check that a retry cured (R378, R388). -/
def Device.colRetryOk (d : Device) (e : Nat) (c : Collective) (dev kind : Nat) : Device :=
  let held := d.reg (Reg.COL_ERR_INFO e)
  let d := if held = pack [(0, 32, c.colid), (32, 18, dev), (50, 4, kind), (63, 1, 1)]
    then d.setFld (Reg.COL_ERR_INFO e) Fld.COL_ERR_INFO_RETRIED 1 else d
  (((d.count (Reg.COL_RETRY_OK e) 1).noteJob c.job noteRetryOk).log 0x0A 2 (unitCode e 10) c.ctx 1 0 (d.reg (Reg.COL_ERR_INFO e)) 0).suspectCol e

/-- The adder forms the next block of the collective it goes to, and sends it where others need it (R376, R377, R380, R382). -/
def Device.colStep (d : Device) (e : Nat) (first again : List AddErr) : Device :=
  match d.colNext e with
  | none => d
  | some c =>
    let me := d.placeIn c
    let p := c.part me
    let j := c.formed.length
    let f := c.form (d.fld Reg.COL_CTRL Fld.COL_CTRL_SAMPLE) first again j p.1 p.2 c.contribs
    -- partials of I32 and I64 are added by the near-memory adders (R375)
    let d := d.count Reg.MEM_NMA_OPS (if c.elem = 2 then 0 else (c.nmem - 1) * ceilDiv f.bytes.length 32)
    let d := f.bad.foldl (fun d b =>
      let d := d.colCheckErr e c d.devnum b.1
      if b.2 then d.colRetryOk e c d.devnum b.1 else d.count (Reg.COL_CHECK_ERR e) 1) d
    match f.bad.find? (fun b => !b.2) with
    | some b => d.colAbort e c b.1 d.devnum stAbft 0x56 d.devnum
    | none =>
      if !endToEnd c.elem f.bytes f.racc f.sum then (d.colCheckErr e c d.devnum 3).colAbort e c 3 d.devnum stAbft 0x56 d.devnum
      else
        let d := d.mapCol c.job (fun c => { c with formed := c.formed ++ [(f.bytes, f.racc, f.sum)], sat := c.sat + f.sat })
        if c.op ≠ 0 then d
        else
          match d.colSendAll e c (c.blocks + j) f.bytes f.racc f.sum (c.group.filter (· != d.devnum)) with
          | (d, none) => d
          | (d, some dev) => d.colLost e c dev 0x53

/-- The adder takes its next block, and the collective that it worked on completes when all its data are there. -/
def Device.colWork (d : Device) (e : Nat) (first again : List AddErr) : Device :=
  let d := d.colStep e first again
  ((d.colEng e).running).foldl (fun d c =>
    match d.colOf? (fun k => k.job == c.job) with
    | some (e, c) => d.colFinish e c
    | none => d) d

/-! ### Data (R374, R377, R378) -/

/-- The receive buffer that holds a packet empties, and its credits go back (R353, R374). -/
def Device.takeHeld (d : Device) (p : Packet) : Device :=
  match d.links.find? (fun e => e.2.rxHeld.contains p) with
  | some (l, x) => (d.setLink l { x with rxHeld := x.rxHeld.erase p }).giveBack l p.vc p.cls (flitsOf p)
  | none => d

/-- What a duplicate of a data packet is known by (R356). -/
def colKey (p : Packet) : Nat × Nat × Nat × Nat × Nat := (p.ctx, bits p.addr 63 32, p.src, bits p.addr 31 0, p.fseq)

/-- Whether a data packet has come before: taken, or staged. -/
def Device.colSeen (d : Device) (p : Packet) : Bool :=
  [0, 1].any (fun e => (d.colEng e).seen.contains (colKey p) || (d.colEng e).staged.any (fun q => q.kind == 0x09 && colKey q == colKey p))

/-- Notes a data packet as taken, in place of the last one of its COLID, source and offset. -/
def Device.markSeen (d : Device) (e : Nat) (p : Packet) : Device :=
  let x := d.colEng e
  let k := colKey p
  let same (q : Nat × Nat × Nat × Nat × Nat) : Bool := q.1 == k.1 && q.2.1 == k.2.1 && q.2.2.1 == k.2.2.1 && q.2.2.2.1 == k.2.2.2.1
  d.setColEng e { x with seen := x.seen.filter (fun q => !same q) ++ [k] }

/-- A data packet of a running collective (R371, R374, R377, R378). -/
def Device.colData (d : Device) (e : Nat) (c : Collective) (p : Packet) : Device :=
  let i := c.group.idxOf p.src
  let b := bits p.addr 31 0
  let d := (d.markSeen e p).mapCol c.job (fun c => { c with lastProgress := d.now })
  if c.nmem ≤ i || c.has i b then d
  else if p.gen % 2 ^ 32 ≠ c.shape % 2 ^ 32 then d.colAbort e c 4 p.src stInternal 0x57 0x05
  else if p.chk.toNat ≠ chkOf c.elem p.payload then
    let d := d.colCheckErr e c p.src 2
    if c.again.contains (i, b) then d.colAbort e c 2 p.src stAbft 0x56 d.devnum
    else
      -- the packet is asked for once more
      let d := d.mapCol c.job (fun c => { c with again := c.again ++ [(i, b)] })
      (d.send (d.colPacket e c 0x0A 1 p.src b 0 [1])).1
  else
    let d := if c.again.contains (i, b) then d.colRetryOk e c p.src 2 else d
    let share := c.blocks ≤ b
    if share && !endToEnd c.elem p.payload p.racc.toNat p.sum then
      (d.colCheckErr e c p.src 3).colAbort e c 3 p.src stAbft 0x56 d.devnum
    else
      let d := if c.op = 2 || share then d else d.count (Reg.COL_BYTES e) p.payload.length
      let d := d.mapCol c.job (fun c => { c with got := c.got ++ [(i, b, p.payload)] })
      (d.send (d.colPacket e c 0x0A 1 p.src b 0 [])).1

/-- Sends again a packet that a member has asked for (R378): from a collective in hand, or the last of its COLID. -/
def Device.colAgain (d : Device) (p : Packet) : Device :=
  let mine (c : Collective) : Bool := c.colid == bits p.addr 63 32 && c.ctx == p.ctx
  let found := match d.colOf? mine with
    | some x => some x
    | none => [0, 1].findSome? (fun e => ((d.colEng e).done.find? mine).map (fun c => (e, c)))
  match found with
  | none => d
  | some (e, c) =>
    let b := bits p.addr 31 0
    if b < c.blocks then
      (d.colSend e c p.src b (slice c.own (b * c.block) (min c.block (c.len - b * c.block))) 0 0).1
    else
      match c.formed[b - c.blocks]? with
      | some f => (d.colSend e c p.src b f.1 f.2.1 f.2.2).1
      | none => d

/-- An abort of a running collective by another member (R378). -/
def Device.colAborted (d : Device) (e : Nat) (c : Collective) (p : Packet) : Device :=
  let check := (p.payload.headD 0).toNat == 0x56
  d.colFail e c 6 p.src (endC (if check then stAbft else stRemoteLost) (if check then 0x56 else 0x54) (unitCode e 10) p.src 0)

/-- What came before the local start is taken up (R374). -/
def Device.unstage (d : Device) (c : Collective) : Device :=
  let mine (p : Packet) : Bool := bits p.addr 63 32 == c.colid && p.ctx == c.ctx
  let ps := ((d.colEng 0).staged ++ (d.colEng 1).staged).filter mine
  let d := { d with cols := tupd d.cols (fun _ x => { x with staged := x.staged.filter (fun p => !mine p) }) }
  ps.foldl (fun d p =>
    let d := d.takeHeld p
    match d.colFor p with
    | some (e, c) => if p.kind = 0x0D then d.colAborted e c p else d.colData e c p
    | none => d) d

/-- Tags for the packets of a collective, one for each other member (R360). -/
def Device.colTags (d : Device) : List Nat → Device × List (Nat × Nat)
  | [] => (d, [])
  | dev :: ds =>
    if dev = d.devnum then Device.colTags d ds
    else
      let t := d.newTag
      let r := Device.colTags t.2 ds
      (r.1, (t.1, dev) :: r.2)

/-- A collective's next move: it reads and sends its contribution, takes up what has come, and then its engine works. -/
def Device.colGo (d : Device) (e : Nat) (c : Collective) (first again : List AddErr) : Device :=
  if c.sent then d.colWork e first again
  else
    match (if c.len = 0 then (d, .ok []) else d.vload c.ctx 16 (unitCode e 10) c.src c.len) with
    | (d, .miss va wr) => d.xltMiss c.job 10 16 va wr
    | (d, .fail x) => (d.sendAborts e c 0x54).colFail e c 6 d.devnum x
    | (d, .ok data) =>
      let me := d.placeIn c
      let mine := (ownBlocks c data me).map (fun b => (me, b.1, b.2))
      let t := d.colTags c.group
      let set (c : Collective) : Collective :=
        { c with sent := true, own := data, tags := t.2, got := c.got ++ mine, lastProgress := d.now }
      let d := t.1.mapCol c.job set
      match d.sendShare e (set c) (List.range c.nmem) with
      | (d, some dev) => d.colLost e (set c) dev 0x53
      | (d, none) => (d.unstage c).colWork e first again

/-- Starts a collective on engine `e`. -/
def Device.colStart (d : Device) (e : Nat) (c : Collective) (first again : List AddErr) : Device :=
  let d := d.count (Reg.COL_STARTED e) 1
  if c.n = 0 then ((d.count (Reg.COL_COMPLETED e) 1).endJob c.job endOk).dropCol c.job
  else
    let c := { c with lastProgress := d.now }
    let x := d.colEng e
    let d := d.setColEng e { x with running := x.running ++ [c] }
    let d := { d with cols := tupd d.cols (fun _ (x : ColEngine) =>
      { x with armed := x.armed.map (fun (a : Armed) => if a.col.job = c.job then { a with started := true } else a) }) }
    let d := d.mapJob c.job (fun j =>
      { j with state := .running, since := d.now, run := .col c.colid, engine := some (.col (Fin.ofNat 2 e)), waitFrom := none })
    d.colGo e c first again

/-! ### The command (R369, R372, R373, R394) -/

def Job.colEngine (j : Job) : Nat := j.cmd.arg 19 19
def Job.colArm (j : Job) : Bool := j.cmd.arg 20 20 == 1
def Job.colSlot (j : Job) : Nat := j.cmd.arg 28 21
def Job.colTrig (j : Job) : Nat := j.cmd.arg 38 29

/-- The engine that runs a command: the one it names unless that is quarantined (R394). -/
def Device.colPick (d : Device) (j : Job) : Option Nat :=
  let q (e : Nat) : Bool := d.colq.toNat.testBit e
  if !q j.colEngine then some j.colEngine else if !q (1 - j.colEngine) then some (1 - j.colEngine) else none

/-- The sub-cause of a refusal (Table 12-10), from the descriptor and group record. -/
def colCause (c0 : Word) (c : Collective) (head : Word) (devnum : Nat) (slotTaken full : Bool) : Option Nat :=
  if c.op = 3 ∨ c.elem = 3 ∨ bits head 24 23 = 3 ∨ bits c0 63 39 ≠ 0 ∨ c.f 0 31 5 ≠ 0 ∨ c.f 1 63 52 ≠ 0 ∨ c.f 2 63 52 ≠ 0
      ∨ c.f 3 63 40 ≠ 0 ∨ c.f 4 63 52 ≠ 0 ∨ bits head 63 25 ≠ 0 ∨ (c.words.drop 5).any (· != 0) then some 0x01
  else if slotTaken || full then some 0x02
  else if c.nmem = 0 ∨ 262144 < c.nmem ∨ c.ng = 0 ∨ 8 < c.ng ∨ c.group.count devnum ≠ 1 then some 0x03
  else if c.src % 128 ≠ 0 ∨ c.dst % 128 ≠ 0 then some 0x04
  else none

/-- Refuses a collective (R372). -/
def Device.colRefuse (d : Device) (j : Job) (e sub : Nat) : Device :=
  d.engineRefuse j (unitCode e 10) 0x57 sub (BitVec.ofNat 64 j.index)

/-- Takes up a new command: checks it, then arms its slot or starts. -/
def Device.colNew (d : Device) (e : Nat) (j : Job) (first again : List AddErr) : Device :=
  let unit := unitCode e 10
  if j.cmd.c1.toNat % 128 ≠ 0 then d.engineRefuse j unit 0x06 j.index 0
  else
    Device.andThen (d.ptrLoad j.ctx j.cmd.truss unit true j.cmd.c1 128) j.id 10 16 fun d bs =>
      let ws := bytesWords bs
      let at_ := bits (wordAt ws 4) 51 0
      if at_ % 8 ≠ 0 then d.colRefuse j e 0x04
      else
        Device.andThen (d.vload j.ctx 16 unit at_ 8) j.id 10 16 fun d hb =>
        let n := bits (bytesWord hb) 18 0
        -- a list that is too long is refused unread
        let n := if n ≤ 262144 then n else 0
        Device.andThen (d.vload j.ctx 16 unit (at_ + 8) (4 * n)) j.id 10 16 fun d es =>
          let head := bytesWord hb
          let c : Collective :=
            { colid := bits (wordAt ws 0) 63 32, job := j.id, ctx := j.ctx, words := ws, group := groupDevs n es
              ng := bits head 22 19, shape := 0, got := [], again := [], sent := false, lastProgress := d.now, tags := [], own := []
              formed := [], sat := 0 }
          let c := { c with shape := Config.shapeDigest c.op c.elem c.n (hb ++ es) % 2 ^ 32 }
          let named := d.colEng j.colEngine
          let taken := j.colArm && named.armed.any (fun a => a.slot == j.colSlot)
          let full := !j.colArm && decide (16 ≤ (d.colEng e).running.length)
          match colCause j.cmd.c0 c head d.devnum taken full with
          | some sub => d.colRefuse j e sub
          | none =>
            if j.colArm then
              (d.setColEng j.colEngine { named with armed := named.armed ++
                [{ slot := j.colSlot, ctx := j.ctx, trig := j.colTrig, count := 0, started := false, col := c }] }).mapJob j.id
                (fun j => { j with state := .waiting })
            else d.colStart e c first again

/-- COL_TASK (R369 to R373, R394): a command is taken up, an armed slot whose triggers have come starts, and a
collective that waited for a translation goes on. -/
def execColTask (e : ColNo) (x : ColRun) (s : State) : Host.Outcome State Fault Refusal :=
  onDevice s fun d =>
    let j := x.job
    match d.job? j with
    | none => d
    | some k =>
      if k.cmd.opc != 0x25 || k.state == .done || k.waitFrom.isSome || d.clk.stage != .thatched then d
      else
        match d.colOf? (fun c => c.job == j) with
        | some (e', c) => (d.mapJob j (fun k => { k with state := .running, since := if k.state = .running then k.since else d.now })).colGo e' c x.adds.first x.adds.again
        | none =>
          match d.colPick k with
          | none => if k.state == .issued then d.colRefuse k e.val 0x06 else d
          | some p =>
            if p ≠ e.val then d
            else
              match [0, 1].findSome? (fun m => (d.colEng m).armed.find? (fun a => a.col.job == j)) with
              | some a => if !a.started && decide (a.trig ≤ a.count) && decide ((d.colEng e).running.length < 16) then d.colStart e a.col x.adds.first x.adds.again else d
              | none => if k.state == .issued then d.colNew e k x.adds.first x.adds.again else d

/-- COL_DATA_RX (R374 to R378, R380): data of a collective, or another member's call to send a packet again; a duplicate is
discarded (R356). -/
def execColDataRx (e : ColNo) (p : Packet) (u : AddRuns) (s : State) : Host.Outcome State Fault Refusal :=
  onDevice s fun d =>
    if !d.serves then d
    else if p.kind = 0x0A then (if p.payload = [1] then d.colAgain p else d)
    else
      let p := { p with kind := 0x09, via := none }
      if d.colSeen p then d.takeHeld p
      else
        match d.colFor p with
        | none => d.setColEng e { d.colEng e with staged := (d.colEng e).staged ++ [p] }
        | some (e', c) => ((d.takeHeld p).colData e' c p).colWork e' u.first u.again

/-- COL_TIMEOUT (R374, R378). -/
def execColTimeout (e : ColNo) (colid : Nat) (s : State) : Host.Outcome State Fault Refusal :=
  onDevice s fun d =>
    match (d.colEng e).running.find? (fun c => c.colid == colid
        && decide (c.lastProgress + max 1 (d.fld Reg.COL_CTRL Fld.COL_CTRL_TIMEOUT) * 1000000 ≤ d.now)) with
    | none => d
    | some c =>
      let me := d.placeIn c
      let late := (List.range c.nmem).find? (fun i => c.missing me i)
      let dev := match late with | some i => c.group.getD i 0 | none => d.devnum
      d.colAbort e c 5 dev stRemoteLost 0x54 dev

/-- COL_ABORT_RX (R378). -/
def execColAbortRx (e : ColNo) (p : Packet) (s : State) : Host.Outcome State Fault Refusal :=
  onDevice s fun d =>
    if !d.serves then d
    else
      let p := { p with kind := 0x0D }
      match d.colFor p with
      | none => d.setColEng e { d.colEng e with staged := (d.colEng e).staged ++ [p] }
      | some (e', c) => d.colAborted e' c p

end Sys2Proof.Machine
end

