-- ==== Sys2Proof/Machine/Kv.lean ====
section
/-! DEFINITION. Edits of a sequence's pages (R200 to R203): APPEND, TRUNCATE, RELOCATE and FORK. -/
namespace Sys2Proof.Machine

open Sys2Proof

/-- Operands of a KV_EDIT command (Table 09-4). -/
def kvSeq (j : Job) : Nat := j.cmd.arg 36 22
def kvDst (j : Job) : Nat := j.cmd.arg 51 37
def kvAddr (j : Job) : Nat := j.cmd.c1.toNat
def kvN (j : Job) : Nat := bits j.cmd.c2 14 0

/-- The command, if it is this sequence operation and waits to be carried out. -/
def Device.kvOp? (d : Device) (id op : Nat) : Option Job :=
  match d.issued? id 0x29 with
  | some j => if j.cmd.arg 21 19 = op && !d.kvEdits.any (fun e => e.job == id) then some j else none
  | none => none

/-- The walker refuses an operation (R218); the counter is that of the truss its command names. -/
def Device.kvRefuse (d : Device) (j : Job) (cause index : Nat) : Device :=
  (d.engineRefuse j (unitCode j.cmd.truss 9) cause index (BitVec.ofNat 64 index)).count (Reg.ATN_REFUSED j.cmd.truss) 1

/-- Reads a sequence's root, at `at_`, in its own context's space. -/
def Device.kvRootAt (d : Device) (j : Job) (e : Nat) (at_ : Option Nat) (k : Device → Nat → Root → Device) : Device :=
  match at_ with
  | none => d.kvRefuse j 0x08 0
  | some a =>
    let c := (d.seq e).ctx
    Device.andThenIn (d.vload c 16 j.cmd.opUnit a 64) c j.id 0 16 fun d bs => k d a (bytesWords bs)

def Device.kvRoot (d : Device) (j : Job) (e : Nat) (k : Device → Nat → Root → Device) : Device := d.kvRootAt j e (d.rootAddr e) k

/-- Writes bytes in a sequence's context. -/
def Device.kvStore (d : Device) (j : Job) (e : Nat) (va : Nat) (bs : List Byte) (k : Device → Device) : Device :=
  let c := (d.seq e).ctx
  Device.andThenIn (d.vstore c 16 j.cmd.opUnit va bs) c j.id 0 16 fun d _ => k d

/-- Writes NPAGES of a root. -/
def Device.setPages (d : Device) (j : Job) (e a : Nat) (r : Root) (n : Nat) (k : Device → Device) : Device :=
  d.kvStore j e (a + 8) (wordBytes (pack [(0, 15, n), (15, 49, bits (wordAt r 1) 63 15)])) k

/-- Removes a sequence's entries from every look-aside buffer (R197). -/
def Device.dropLab (d : Device) (e : Nat) : Device :=
  { d with atn := tupd d.atn (fun _ a => { a with lab := a.lab.filter (fun x => x.seq != e) }) }

/-- Whether the issuing context may edit a sequence: its owner or context 0. -/
def Device.mayEdit (d : Device) (j : Job) (e : Nat) : Bool := j.ctx == 0 || j.ctx == (d.seq e).ctx

/-- Parked in the sense of the Course builder (R202, R253): it is left out of every course from now on. -/
def SeqEntry.parked (x : SeqEntry) : Bool := x.state == 4 || x.pendPark

/-- An address that a page set cannot take (cause 0x0A). -/
def badSet (r : Root) (addr : Nat) : Bool := addr % 128 != 0 || decide (2 ^ 52 ≤ addr) || !setInWindow r addr

/-- The effect of an APPEND on a root and its page table (Table 07-3). -/
def Device.appendSet (d : Device) (j : Job) (e a : Nat) (r : Root) (addr : Nat) (k : Device → Device) : Device :=
  let n := rootPages r
  d.kvStore j e (rootPt r + 8 * n) (wordBytes (pteWord addr)) fun d => d.setPages j e a r (n + 1) k

/-- KV_APPEND (R200, R201): at any time. -/
def execKvAppend (j : Nat) (s : State) : Host.Outcome State Fault Refusal :=
  onDevice s fun d =>
    match d.kvOp? j 0 with
    | none => d
    | some k =>
      let e := kvSeq k
      if !d.mayEdit k e then d.denied k
      else
        d.kvRoot k e fun d a r =>
          if 16384 ≤ rootPages r then d.kvRefuse k 0x09 (rootPages r)
          else if badSet r (kvAddr k) then d.kvRefuse k 0x0A (rootPages r)
          else d.appendSet k e a r (kvAddr k) (fun d => (d.dropLab e).endJob j endOk)

/-- Accepts an edit of R202, which waits for its walks. -/
def Device.acceptEdit (d : Device) (j : Job) (op : Nat) (seqs : List Nat) : Device :=
  let limit := max 1 (d.fld Reg.ATN_CTRL Fld.ATN_CTRL_EDIT_TO) * 1000
  let e : KvEdit := { job := j.id, op := op, seqs := seqs, n := kvN j, addr := kvAddr j, deadline := d.now + limit }
  ({ d with kvEdits := d.kvEdits ++ [e] }).mapJob j.id (fun j => { j with state := .waiting })

/-- TRUNCATE (R202). -/
def execTruncate (j : Nat) (s : State) : Host.Outcome State Fault Refusal :=
  onDevice s fun d =>
    match d.kvOp? j 1 with
    | none => d
    | some k =>
      let e := kvSeq k
      if !d.mayEdit k e then d.denied k
      else if !(d.seq e).parked then d.kvRefuse k 0x08 0
      else
        d.kvRoot k e fun d _ r =>
          if rootPages r < kvN k then d.kvRefuse k 0x09 (kvN k) else d.acceptEdit k 1 [e]

/-- RELOCATE (R202). -/
def execRelocate (j : Nat) (s : State) : Host.Outcome State Fault Refusal :=
  onDevice s fun d =>
    match d.kvOp? j 2 with
    | none => d
    | some k =>
      let e := kvSeq k
      if !d.mayEdit k e then d.denied k
      else if !(d.seq e).parked then d.kvRefuse k 0x08 0
      else
        d.kvRoot k e fun d _ r =>
          if rootPages r ≤ kvN k then d.kvRefuse k 0x09 (kvN k)
          else if badSet r (kvAddr k) then d.kvRefuse k 0x0A (kvN k)
          else d.acceptEdit k 2 [e]

/-- Roots of a model's pool that no entry holds (R237): the lowest. -/
def Device.freeRoot (d : Device) (m : Nat) : Option Nat :=
  let x := tget d.models m default
  (List.range (bits (wordAt x.words 3) 15 0)).find? (fun i => !x.rootsUsed.contains i)

/-- An entry takes a root of its model's pool. -/
def Device.takeRoot (d : Device) (e i : Nat) : Device :=
  let x := d.seq e
  { (d.setSeq e { x with root := some i }) with
    models := tmap d.models x.model default (fun m => { m with rootsUsed := m.rootsUsed ++ [i] }) }

/-- The root that a WAITING destination of FORK takes when the FORK has its effect, as at admission (log entry 52). -/
def Device.forkRoot (d : Device) (e : Nat) : Option Nat :=
  let x := d.seq e
  if x.state = 1 && x.root.isNone then d.freeRoot x.model else none

/-- The address of FORK's destination root: the one it holds, or the one it is to take. -/
def Device.forkAddr (d : Device) (e : Nat) : Option Nat :=
  match d.forkRoot e with
  | some i => some (bits (wordAt (tget d.models (d.seq e).model default).words 2) 51 0 + 64 * i)
  | none => d.rootAddr e

/-- Reads page-table entries 0 to n − 1 of a root. -/
def Device.readTable (d : Device) (j : Job) (e : Nat) (r : Root) (n : Nat) (k : Device → List Word → Device) : Device :=
  let c := (d.seq e).ctx
  Device.andThenIn (if n = 0 then (d, .ok []) else d.vload c 16 j.cmd.opUnit (rootPt r) (8 * n)) c j.id 0 16 fun d bs => k d (bytesWords bs)

/-- The checks of FORK against both roots: the cause of a refusal, and the page (Table 07-3). -/
def forkCause (src dst : Root) (n : Nat) (ptes : List Word) : Option (Nat × Nat) :=
  if rootPages src < n ∨ rootPt src = rootPt dst ∨ 16384 < n then some (0x09, n)
  else if ptes.any (fun p => !setInWindow dst (pteAddr p)) then
    some (0x0A, ptes.findIdx (fun p => !setInWindow dst (pteAddr p)))
  else none

/-- FORK (R200, R202). -/
def execFork (j : Nat) (s : State) : Host.Outcome State Fault Refusal :=
  onDevice s fun d =>
    match d.kvOp? j 3 with
    | none => d
    | some k =>
      let src := kvSeq k
      let dst := kvDst k
      if !d.mayEdit k src || !d.mayEdit k dst then d.denied k
      else if !(d.seq src).parked || !((d.seq dst).parked || (d.seq dst).state == 1) then d.kvRefuse k 0x08 0
      else
        d.kvRootAt k dst (d.forkAddr dst) fun d _ rd =>
        d.kvRoot k src fun d _ rs =>
          d.readTable k src rs (min (kvN k) (rootPages rs)) fun d ptes =>
            match forkCause rs rd (kvN k) ptes with
            | some c => d.kvRefuse k c.1 c.2
            | none => d.acceptEdit k 3 [src, dst]

/-- The edit of a command. -/
def Device.edit? (d : Device) (j : Nat) : Option (Job × KvEdit) :=
  match d.job? j, d.kvEdits.find? (fun e => e.job == j) with
  | some k, some e => some (k, e)
  | _, _ => none

/-- An edit leaves the list of those that wait. -/
def Device.dropEdit (d : Device) (j : Nat) : Device := { d with kvEdits := d.kvEdits.filter (fun e => e.job != j) }

/-- An edit has its effect: look-aside entries go, and held tasks may start. -/
def Device.editDone (d : Device) (j : Nat) (e : KvEdit) : Device :=
  ((e.seqs.foldl (fun d s => d.dropLab s) d).dropEdit j).endJob j endOk

/-- The sequence shares page sets with another. -/
def Device.markShared (d : Device) (e : Nat) : Device := d.setSeq e { d.seq e with shared := true }

/-- What an edit does to memory (Table 07-3), checked again against the roots as they now stand. -/
def Device.applyEdit (d : Device) (k : Job) (e : KvEdit) : Device :=
  let src := e.seqs.headD 0
  let refuse (d : Device) (c page : Nat) : Device := (d.dropEdit k.id).kvRefuse k c page
  d.kvRoot k src fun d a r =>
    match e.op with
    | 1 => if rootPages r < e.n then refuse d 0x09 e.n else d.setPages k src a r e.n (fun d => d.editDone k.id e)
    | 2 =>
      if rootPages r ≤ e.n then refuse d 0x09 e.n
      else if badSet r e.addr then refuse d 0x0A e.n
      else d.kvStore k src (rootPt r + 8 * e.n) (wordBytes (pteWord e.addr)) (fun d => d.editDone k.id e)
    | _ =>
      let dst := (e.seqs.drop 1).headD 0
      d.kvRootAt k dst (d.forkAddr dst) fun d b rd =>
        d.readTable k src r (min e.n (rootPages r)) fun d ptes =>
          match forkCause r rd e.n ptes with
          | some c => refuse d c.1 c.2
          | none =>
            let d := match d.forkRoot dst with | some i => d.takeRoot dst i | none => d
            d.kvStore k dst (rootPt rd) (wordsBytes ptes) fun d =>
              d.setPages k dst b rd e.n fun d =>
                ((d.markShared src).markShared dst).editDone k.id e

/-- KV_EDIT_APPLY (R202): once no task walks the sequences. -/
def execKvEditApply (j : Nat) (s : State) : Host.Outcome State Fault Refusal :=
  onDevice s fun d =>
    match d.edit? j with
    | none => d
    | some (k, e) =>
      if k.state = .done then d.dropEdit j
      else if e.seqs.any (fun q => d.walks q != 0) || k.waitFrom.isSome then d
      else d.applyEdit k e

/-- KV_EDIT_TIMEOUT (R202). -/
def execKvEditTimeout (j : Nat) (s : State) : Host.Outcome State Fault Refusal :=
  onDevice s fun d =>
    match d.edit? j with
    | none => d
    | some (k, e) =>
      if k.state = .done then d.dropEdit j
      else if decide (d.now < e.deadline) || !e.seqs.any (fun q => d.walks q != 0) then d
      else (d.dropEdit j).kvRefuse k 0x0B 0

end Sys2Proof.Machine
end

