-- ==== Sys2Proof/Machine/Attempts.lean ====
section
/-! DEFINITION. Accesses that units make outside any command (lanes of the Course builder, replica groups, weight
regions): a whole step is attempted, and a translation that it lacks is asked for instead (log entry 60). -/
namespace Sys2Proof.Machine

open Sys2Proof

/-- A translation that an attempt lacks. -/
structure Miss where
  ctx : Nat
  va : Nat
  wr : Bool
  deriving DecidableEq, Repr

/-- An attempt: what it comes to, or the translation it lacks. -/
abbrev Att (α : Type) := Except Miss α

/-- Bytes of context `c`'s space read at the cost of account `acct`; none when they cannot be read. -/
def Device.tryLoad (d : Device) (acct c va n : Nat) : Att (Device × Option (List Byte)) :=
  if !vaOk va n then .ok (d, none)
  else
    match d.translateAll c 16 0 false (pieces (2 ^ 21) va n) with
    | (_, .miss a wr) => .error ⟨c, a, wr⟩
    | (d, .fail _) => .ok (d, none)
    | (d, .ok ps) =>
      match d.readPieces acct 0 va ps with
      | (d, .ok bs) => .ok (d, some bs)
      | (d, _) => .ok (d, none)

/-- Physical pieces written one after another; whether all of them were. -/
def Device.storeList (d : Device) (acct : Nat) (bs : List Byte) : List (Nat × Nat) → Nat → Device × Bool
  | [], _ => (d, true)
  | p :: ps, off =>
    let r := d.hbmStore 0 acct p.1 (slice bs off p.2)
    let q := Device.storeList r.1 acct bs ps (off + p.2)
    (q.1, r.2.isNone && q.2)

/-- Stores bytes to context `c`'s space; whether all of them were stored. -/
def Device.tryStore (d : Device) (acct c va : Nat) (bs : List Byte) : Att (Device × Bool) :=
  if !vaOk va bs.length then .ok (d, false)
  else
    match d.translateAll c 16 0 true (pieces (2 ^ 21) va bs.length) with
    | (_, .miss a wr) => .error ⟨c, a, wr⟩
    | (d, .fail _) => .ok (d, false)
    | (d, .ok ps) => .ok (d.storeList acct bs ps 0)

/-- Asks the owner host for a translation of unit kind 0 (Ridge), unless it has been asked for. -/
def Device.ask (d : Device) (m : Miss) : Device :=
  d.ownMiss m.ctx 0 16 m.va m.wr

/-- Whether the stand-in of a translation asked for still waits. -/
def Device.stillAsked (d : Device) (a : Option (Nat × Nat)) : Bool :=
  match a with
  | some p => (match d.job? p.1 with | some k => k.state == .waiting | none => false)
  | none => false

/-- Carries an attempt through, or asks for what it lacks and leaves all else as it was. -/
def Device.attempt (d : Device) (r : Att Device) : Device :=
  match r with
  | .ok d' => d'
  | .error m => d.ask m

end Sys2Proof.Machine
end

