-- ==== Sys2Proof/Machine/ReplicaForm.lean ====
section
/-! DEFINITION. Replica groups (R400 to R402): their records, and the beginning of an epoch. -/
namespace Sys2Proof.Machine

open Sys2Proof

def Device.group (d : Device) (g : Nat) : Group := tget d.groups g default
def Device.setGroup (d : Device) (g : Nat) (x : Group) : Device := { d with groups := tset d.groups g x }

/-- The groups, 0 to 7. -/
def groupNos : List Nat := List.range 8

/-- The members and item list that a group record and its items name, when they are well formed (R370, R400). -/
def groupForm (head : Word) (entries items : List Byte) : Option (List Nat × List Word) :=
  let n := bits head 18 0
  let ws := bytesWords items
  if n < 2 ∨ bits head 63 25 ≠ 0 ∨ ws.isEmpty ∨ 14 < ws.length ∨ ws.any (fun w => bits w 63 13 != 0) then none
  else some (((chunks 4 n entries).map leNat).map (· % 2 ^ 18), ws)

/-- Reads the record, item list and area of a group (R370, R400). -/
def Device.loadGroup (d : Device) (g : Nat) : Att Device := do
  let at_ := d.fld (Reg.REP_GROUP g) Fld.REP_GROUP_ADDR * 8
  let items := d.fld (Reg.REP_ITEMS g) Fld.REP_ITEMS_ADDR * 8
  let (d, head) ← d.tryLoad deviceAccount 0 at_ 8
  let h := bytesWord (head.getD [])
  let (d, entries) ← d.tryLoad deviceAccount 0 (at_ + 8) (4 * bits h 18 0)
  let (d, ws) ← d.tryLoad deviceAccount 0 items (8 * d.fld (Reg.REP_CFG g) Fld.REP_CFG_NITEM)
  let x := d.group g
  match groupForm h (entries.getD []) (ws.getD []) with
  | none => .ok (d.setGroup g { x with loaded := false })
  | some (ms, is) =>
    .ok (d.setGroup g { x with loaded := true, members := ms, items := is
                               area := d.fld (Reg.REP_AREA g) Fld.REP_AREA_ADDR * 256 })

/-- Digest and stamp of an item (Table 13-6): 0xFFFF_FFFF_FFFF_FFFF for a region with no completed scan. A table
without a CURRENT slot has none that the manual states: both are free values (log entry 3). -/
def Device.itemRecord (d : Device) (w : Word) : Device × Word × Word :=
  let i := bits w 11 0
  if bit w 12 then
    let t := tget d.tables i default
    match ([t.a, t.b].find? (fun v => v.state == vCurrent)) with
    | some v => (d, v.cpDigest, pack [(0, 32, v.gen), (32, 32, v.cpRound)])
    | none =>
      let f := d.takeFree
      let g := f.2.takeFree
      (g.2, BitVec.ofNat 64 f.1, BitVec.ofNat 64 g.1)
  else
    let r := tget d.regions i default
    match r.scanned with
    | some v => (d, v, pack [(0, 32, r.gen)])
    | none => (d, 0, 0xFFFFFFFFFFFFFFFF#64)

/-- Items of a record, one after another. -/
def Device.itemWords (d : Device) : List Word → Device × List Word
  | [] => (d, [])
  | w :: ws =>
    let r := d.itemRecord w
    let q := Device.itemWords r.1 ws
    (q.1, r.2.1 :: r.2.2 :: q.2)

/-- The replica record of epoch `e`, 256 bytes (Table 13-6). -/
def Device.replicaRecord (d : Device) (x : Group) (e : Nat) : Device × List Byte :=
  let r := d.itemWords x.items
  (r.1, slice (wordsBytes ([BitVec.ofNat 64 e, pack [(0, 18, d.devnum), (32, 32, x.items.length)], 0, 0] ++ r.2)) 0 256)

/-- Address of slot (e mod 4, i) of a replica area (R401). -/
def Group.slotAt (x : Group) (e i : Nat) : Nat := x.area + 256 * (e % 4 * x.members.length + i)

/-- A write to another member's area: a remote write of context 0 (R359, R401). -/
def Device.recordTo (d : Device) (dev addr : Nat) (bs : List Byte) : Device :=
  if dev = d.devnum then d
  else
    let (tag, d) := d.newTag
    let p : Packet :=
      { vc := 2, cls := 0, kind := 5, len := bs.length, src := d.devnum, dst := dev, addr := BitVec.ofNat 64 addr
        ctx := 0, tenant := (d.ctx 0).tenant, rtag := tag, chk := 0, racc := 0, fseq := 0, tgid := 0, gen := 0, payload := bs }
    (d.send p).1

/-- Writes the record of the epoch that is due (R401): locally, then to every other member. -/
def Device.writeRecord (d : Device) (g e : Nat) : Att Device := do
  let x := d.group g
  let i := x.members.idxOf d.devnum
  if x.members.length ≤ i then .ok (d.setGroup g { x with due := none })
  else
    let (d, bs) := d.replicaRecord x e
    let (d, _) ← d.tryStore deviceAccount 0 (x.slotAt e i) bs
    let d := x.members.foldl (fun d m => d.recordTo m (x.slotAt e i) bs) d
    .ok (d.setGroup g { x with due := none, sent := x.sent ++ [(e, d.now)] })

/-- Goes on with a group: reads it if EN = 1 has not yet done so, and writes the record that is due. -/
def Device.groupGo (d : Device) (g : Nat) : Device :=
  let d := if (d.group g).loaded then d else d.attempt (d.loadGroup g)
  let x := d.group g
  match x.due with
  | some e => if x.loaded && !x.expelled then d.attempt (d.writeRecord g e) else d
  | none => d

/-- Courses of a lane in an epoch (R401). -/
def Device.repPeriod (d : Device) (g : Nat) : Nat := max 1 (d.fld (Reg.REP_CFG g) Fld.REP_CFG_PERIOD)

/-- Whether a group takes part. -/
def Device.groupOn (d : Device) (g : Nat) : Bool := d.fld (Reg.REP_CFG g) Fld.REP_CFG_EN == 1

/-- The outcomes of a lane's course have been applied: epochs that it paces begin (R401). -/
def Device.epochs (d : Device) (lane course : Nat) : Device :=
  groupNos.foldl (fun d g =>
    if d.groupOn g && d.fld (Reg.REP_CFG g) Fld.REP_CFG_LANE == lane && !(d.group g).expelled && course % d.repPeriod g == 0 then
      (d.setGroup g { d.group g with due := some (course / d.repPeriod g) }).groupGo g
    else d) d

/-- Whether an expelled group serves a lane (R404). -/
def Device.laneExpelled (d : Device) (l : Nat) : Bool :=
  groupNos.any (fun g => (d.group g).expelled && (d.fld (Reg.REP_CFG g) Fld.REP_CFG_LANES).testBit l)

end Sys2Proof.Machine
end

