-- ==== Sys2Proof/Machine/CourseForm.lean ====
section
/-! DEFINITION. The Course builder's forms (08): request headers, model records, costs, predictions, results and
the ends of entries. -/
namespace Sys2Proof.Machine

open Sys2Proof

/-- States of Table 08-3. -/
def sqFree : Nat := 0
def sqWaiting : Nat := 1
def sqPrefill : Nat := 2
def sqDecode : Nat := 3
def sqParked : Nat := 4
def sqFinished : Nat := 5
def sqAbandoned : Nat := 6

/-- Causes of Table 08-7. -/
def caDeadline : Nat := 1
def caCourse : Nat := 2
def caDetach : Nat := 3

def SeqEntry.final (x : SeqEntry) : Bool := x.state == sqFinished || x.state == sqAbandoned

def Device.client (d : Device) (c : Nat) : Client := tget d.clients c default
def Device.setClient (d : Device) (c : Nat) (x : Client) : Device := { d with clients := tset d.clients c x }
def Device.model (d : Device) (m : Nat) : Model := tget d.models m default
def Device.setModel (d : Device) (m : Nat) (x : Model) : Device := { d with models := tset d.models m x }
def freshLane : LaneSt := { (default : LaneSt) with factor := 1024 }
def Device.lane (d : Device) (l : Nat) : LaneSt := tget d.lanes l freshLane
def Device.setLane (d : Device) (l : Nat) (x : LaneSt) : Device := { d with lanes := tset d.lanes l x }

/-- A note of the course that a lane lays or runs. -/
def Device.laneNote (d : Device) (l n : Nat) : Device := d.setLane l { d.lane l with notes := (d.lane l).notes ||| 1#32 <<< n }

/-- CRS_CTRL.ENABLE. -/
def Device.crsOn (d : Device) : Bool := d.clk.stage == .thatched && d.fld Reg.CRS_CTRL Fld.CRS_CTRL_ENABLE == 1

/-- Receives are posted while ENABLE is 1, and after it until no course runs (Table 08-9). -/
def Device.crsReceives (d : Device) : Bool := d.crsOn || (d.clk.stage == .thatched && d.lanes.any (fun p => p.2.running))

/-! ### Model records (Table 08-4) -/

def Model.f (m : Model) (w hi lo : Nat) : Nat := bits (wordAt m.words w) hi lo
def Model.kind (m : Model) : Nat := m.f 0 0 0
def Model.latepol (m : Model) : Nat := m.f 0 1 1
def Model.keep (m : Model) : Bool := m.f 0 2 2 == 1
def Model.lane (m : Model) : Nat := m.f 0 4 3
def Model.ctx (m : Model) : Nat := m.f 0 10 5
def Model.fallback (m : Model) : Nat := m.f 0 18 11
def Model.margin (m : Model) : Nat := m.f 1 39 0
def Model.chunk (m : Model) : Nat := m.f 1 55 40
def Model.rootPool (m : Model) : Nat := m.f 2 51 0
def Model.pagePool (m : Model) : Nat := m.f 4 51 0
def Model.nring (m : Model) : Nat := m.f 5 31 0
/-- Place and address of entry `i` after the head of a model's page ring (R231, R237). -/
def Model.ringPlace (m : Model) (i : Nat) : Nat := (m.head + i) % max 1 m.nring
def Model.ringAt (m : Model) (i : Nat) : Nat := m.pagePool + 8 * m.ringPlace i
def Model.cFix (m : Model) : Nat := m.f 6 31 0
def Model.cDec (m : Model) : Nat := m.f 6 63 32
def Model.cKey (m : Model) : Nat := m.f 7 31 0
def Model.cPf (m : Model) : Nat := m.f 7 63 32
def Model.cRank (m : Model) : Nat := m.f 8 31 0
def Model.cBag (m : Model) : Nat := m.f 8 63 32

/-- A non-zero reserved field of a model record. -/
def modelReserved (ws : List Word) : Bool :=
  bits (wordAt ws 0) 63 19 != 0 || bits (wordAt ws 1) 63 56 != 0 || bits (wordAt ws 2) 63 52 != 0
    || bits (wordAt ws 3) 63 16 != 0 || bits (wordAt ws 4) 63 52 != 0 || bits (wordAt ws 5) 63 32 != 0
    || (ws.drop 9).any (· != 0)

/-- CHUNK of a sequence model: a multiple of 64, 64 to 65,472. -/
def chunkBad (m : Model) : Bool :=
  m.kind == 1 && (m.chunk % 64 != 0 || decide (m.chunk < 64) || decide (65472 < m.chunk))

/-- Whether the fields that may not change while entries name the model differ (R232). -/
def modelMoved (a b : Model) : Bool :=
  a.kind != b.kind || a.lane != b.lane || a.ctx != b.ctx || a.f 2 51 0 != b.f 2 51 0 || a.f 3 15 0 != b.f 3 15 0
    || a.f 4 51 0 != b.f 4 51 0 || a.nring != b.nring

/-- Whether MODEL `m` refuses a record (R232). -/
def Device.modelBad (d : Device) (m : Nat) (new : Model) : Bool :=
  let fb := d.model new.fallback
  modelReserved new.words || chunkBad new
    || new.ctx != d.fld (Reg.CRS_LANE_CFG new.lane) Fld.CRS_LANE_CFG_CTX
    || (new.fallback != 0xFF && (!fb.loaded || fb.kind != new.kind || fb.ctx != new.ctx || new.fallback == m))
    || (d.seqs.any (fun p => p.2.model == m) && modelMoved (d.model m) new)

/-! ### Costs (R236) and predictions (R242) -/

/-- The chunk that an entry would take alone (R235). -/
def chunkOf (m : Model) (x : SeqEntry) : Nat :=
  let c := min x.premain m.chunk
  if c < x.premain then c - c % 64 else c

/-- delta of a decode row, a prefill chunk of `c` tokens and a ranking request (R236). -/
def deltaDecode (m : Model) (x : SeqEntry) : Nat := m.cDec + m.cKey * (x.pos + 1) / 1024
def deltaPrefill (m : Model) (x : SeqEntry) (c : Nat) : Nat := m.cPf * c + m.cKey * c * (2 * x.pos + c + 1) / 2048
def deltaRank (m : Model) (x : SeqEntry) : Nat := m.cRank + m.cBag * x.nitem / 1024

/-- delta of an entry's next course under a model. -/
def nextDelta (m : Model) (x : SeqEntry) : Nat :=
  if x.kind = 0 then deltaRank m x else if x.premain = 0 then deltaDecode m x else deltaPrefill m x (chunkOf m x)

/-- n: the courses that an entry still needs under a model (R242). -/
def coursesLeft (m : Model) (x : SeqEntry) : Nat :=
  if x.kind = 0 then 1
  else
    let dec := if x.premain = 0 then x.maxtok - x.ntok else x.maxtok - 1
    max 1 (ceilDiv x.premain (max 1 m.chunk) + dec)

/-- Whether a prediction of `p` ÷ 1,024 ns from now is late (R242). -/
def lateAt (now p : Nat) (m : Model) (x : SeqEntry) : Bool :=
  x.budget != 0 && decide ((((x.arrival + x.budget : Nat) : Int) - (m.margin : Int) - (now : Int)) * 1024 < (p : Int))

/-- P of an entry being laid in a course of duration `dur`. -/
def predictLaid (f dur : Nat) (m : Model) (x : SeqEntry) : Nat := f * (coursesLeft m x * dur)

/-- P of an entry not laid in a course of duration `dur`. -/
def predictWait (f dur : Nat) (m : Model) (x : SeqEntry) : Nat := f * (dur + coursesLeft m x * (dur + nextDelta m x))

/-- Length of announced maintenance holds that fall in a course of duration `dur` laid now (R335): 4 µs each. -/
def Device.holdIn (d : Device) (dur : Nat) : Nat :=
  if d.fld Reg.MEM_MAINT Fld.MEM_MAINT_EN = 0 then 0
  else 4000 * d.hbm.announced.countP (fun t => decide (d.now ≤ t) && decide (t < d.now + dur))

/-- Whether an entry is late under the fallback model and its lane (R242, R243). -/
def Device.lateThere (d : Device) (m : Model) (x : SeqEntry) : Bool :=
  let l := d.lane m.lane
  lateAt d.now (predictWait l.factor (max l.pred m.cFix) m x) m x

/-- The lane's order (R235): priority, then slack, then index. -/
def before (now : Nat) (a b : Nat × SeqEntry) : Bool :=
  let slack (x : SeqEntry) : Option Int := if x.budget = 0 then none else some ((x.arrival + x.budget : Nat) - (now : Int))
  if a.2.prio ≠ b.2.prio then decide (b.2.prio < a.2.prio)
  else
    match slack a.2, slack b.2 with
    | some s, some t => decide (s < t) || (s == t && decide (a.1 < b.1))
    | some _, none => true
    | none, some _ => false
    | none, none => decide (a.1 < b.1)

def insertCand (now : Nat) (a : Nat × SeqEntry) : List (Nat × SeqEntry) → List (Nat × SeqEntry)
  | [] => [a]
  | b :: r => if before now a b then a :: b :: r else b :: insertCand now a r

def sortCands (now : Nat) (l : List (Nat × SeqEntry)) : List (Nat × SeqEntry) := l.foldr (insertCand now) []

/-! ### Results (R246 to R250) -/

/-- Whether a client still takes writes: attached, not detaching, its queue pair good. -/
def Device.clientOk (d : Device) (c : Nat) : Bool :=
  let x := d.client c
  x.attached && !x.detaching && thas d.qps x.qpn && !(tget d.qps x.qpn default).error

/-- Result header (Table 08-7). -/
def resultHeader (x : SeqEntry) (status refcause nout now : Nat) (final : Bool) : List Byte :=
  wordsBytes [x.reqid,
    pack [(0, 8, status), (8, 1, b2n final), (9, 1, b2n (x.switched && x.kind == 1)),
          (10, 1, b2n (x.switched && x.kind == 0)), (11, 1, b2n x.cancelled), (12, 1, b2n x.late), (13, 3, x.cause),
          (16, 8, x.model), (24, 8, refcause), (32, 32, nout)],
    pack [(0, 40, now - x.arrival), (40, 16, x.ntok)], pack [(0, 32, x.notes.toNat)], 0, 0, 0, 0]

/-- STATUS of a final entry (R248). -/
def SeqEntry.resultStatus (x : SeqEntry) : Nat :=
  if x.state = sqAbandoned then x.status
  else if x.cancelled || x.switched || x.late || x.notes &&& raisingNotes != 0 then stNotes
  else stOk

/-- Payload bytes of a result (R247). -/
def SeqEntry.payloadLen (x : SeqEntry) : Nat := if x.kind = 0 then x.nout else 4 * x.ntok

/-- Address of a client's inbox slot. -/
def Client.slotAt (c : Client) (i : Nat) : Nat := c.base + i * 2 ^ c.slotLog2

def Device.freeSlotOf (d : Device) (c i : Nat) : Device :=
  let x := d.client c
  d.setClient c { x with used := x.used.filter (· != i) }

/-- Sends payload and header as two RDMA WRITEs on the client's queue pair (R247); the second is the ticket. -/
def Device.sendResult (d : Device) (x : SeqEntry) (entry : Option Nat) (off : Nat) (payload header : List Byte) (final : Bool) : Device :=
  let c := d.client x.client
  let d := if payload.isEmpty then d else d.rdmaOut x.ctx c.qpn x.rkey (x.raddr + 64 + off) payload
  let d := d.rdmaOut x.ctx c.qpn x.rkey x.raddr header
  { d with nextTicket := d.nextTicket + 1, tickets := d.tickets ++ [⟨d.nextTicket, x.client, entry, x.slot, final⟩] }

/-- A result that is not delivered (R246): counted; its slot is free. -/
def Device.dropResult (d : Device) (e : Nat) : Device :=
  let x := d.seq e
  let d := (d.setSeq e { x with resultOut := true, resultDone := true }).count Reg.CRS_RESULT_DROP 1
  d.freeSlotOf x.client x.slot

/-- Writes the final result of an entry (R247), once. -/
def Device.resultOf (d : Device) (e : Nat) : Att Device := do
  let x := d.seq e
  if !x.final || x.resultOut then .ok d
  else if !d.clientOk x.client then .ok (d.dropResult e)
  else
    let (d, p) ← if x.payloadLen = 0 then .ok (d, some []) else
      d.tryLoad x.ctx x.ctx ((d.client x.client).slotAt x.slot + x.outoff) x.payloadLen
    match p with
    | none => .ok (d.dropResult e)
    | some bs =>
      .ok ((d.setSeq e { x with resultOut := true }).sendResult x (some e) 0 bs
        (resultHeader x x.resultStatus 0 x.payloadLen d.now true) true)

/-- Writes every final result that is due; one that lacks a translation waits for it. -/
def Device.results (d : Device) : Device :=
  (d.seqs.filter (fun p => p.2.final && !p.2.resultOut)).foldl (fun d p => d.attempt (d.resultOf p.1)) d

/-! ### How entries end -/

/-- A final entry is counted and charged (R245, R256, Table 14-3). -/
def Device.endEntry (d : Device) (e : Nat) (x : SeqEntry) : Device :=
  (d.setSeq e { x with pendPark := false, pendCancel := false }).charge x.ctx .requests 1 16

/-- An entry finishes. -/
def Device.finishEntry (d : Device) (e : Nat) : Device :=
  (d.endEntry e { d.seq e with state := sqFinished }).count Reg.CRS_FINISHED 1

/-- An entry is abandoned (R241, R243, R244, R254). -/
def Device.abandonEntry (d : Device) (e cause status : Nat) : Device :=
  let x := d.seq e
  let d := (d.endEntry e { x with state := sqAbandoned, cause := cause, status := status }).count Reg.CRS_ABANDONED 1
  let d := if cause = caDeadline then d.count Reg.DLM_ABANDONED 1 else d
  d.charge x.ctx .abandoned 1 16

/-- A cancelled entry finishes (R251). -/
def Device.cancelEntry (d : Device) (e : Nat) : Device := (d.setSeq e { d.seq e with cancelled := true }).finishEntry e

/-- CANCEL of a non-final entry, put off while it is in a course (R230). -/
def Device.askCancel (d : Device) (e : Nat) : Device :=
  let x := d.seq e
  if x.inc then d.setSeq e { x with pendCancel := true } else d.cancelEntry e

/-- PARK of an entry, put off while it is in a course (R230, R253). -/
def Device.askPark (d : Device) (e : Nat) : Device :=
  let x := d.seq e
  if x.inc then d.setSeq e { x with pendPark := true } else d.setSeq e { x with state := sqParked, pstate := x.state }

/-- DETACH (R254): every non-final entry of the client is abandoned at once; results not yet issued are counted. -/
def Device.detachClient (d : Device) (c : Nat) : Device :=
  let d := d.setClient c { d.client c with detaching := true }
  let mine := d.seqs.filter (fun p => p.2.client == c && !p.2.final)
  (mine.foldl (fun d p => d.abandonEntry p.1 caDetach stAbandoned) d).results

/-- A sequence that a FORK gave a root leaves it as it is switched: its page sets are shared (R238, R243). -/
def Device.leaveRoot (d : Device) (e : Nat) : Device :=
  let x := d.seq e
  match x.root with
  | none => d
  | some i =>
    let m := d.model x.model
    (d.setModel x.model { m with rootsUsed := m.rootsUsed.filter (· != i) }).setSeq e { x with root := none }

/-- A late entry before its fallback point is switched or abandoned (R243). -/
def Device.switchOrAbandon (d : Device) (e : Nat) : Device :=
  let x := d.seq e
  let m := d.model x.model
  let fb := d.model m.fallback
  if m.fallback != 0xFF && fb.loaded && !x.nofb && !x.switched && !x.fixed && !d.lateThere fb x then
    let d := d.leaveRoot e
    let d := d.setSeq e { d.seq e with model := m.fallback, switched := true }
    if x.kind = 1 then (d.count Reg.DLM_DOWNGRADED 1).charge x.ctx .downgraded 1 16
    else (d.count Reg.DLM_FALLBACK 1).charge x.ctx .fallback 1 16
  else d.abandonEntry e caDeadline stAbandoned

/-- The policy for an entry whose prediction is `p` (R242 to R244); whether it may still be laid. -/
def Device.judge (d : Device) (e p : Nat) : Device × Bool :=
  let x := d.seq e
  let m := d.model x.model
  if d.fld Reg.DLM_CTRL Fld.DLM_CTRL_EN = 0 || !lateAt d.now p m x then (d, true)
  else if x.kind = 1 && x.state != sqWaiting then
    if m.latepol = 1 then
      if x.late then (d.laneNote m.lane noteLate, true)
      else ((((d.setSeq e { x with late := true }).count Reg.DLM_LATE 1).charge x.ctx .late 1 16).laneNote m.lane noteLate, true)
    else ((d.abandonEntry e caDeadline stAbandoned).laneNote m.lane noteSwitch, false)
  else ((d.switchOrAbandon e).laneNote m.lane noteSwitch, false)

/-- A request header (Table 08-1) by its words. -/
def reqEntry (ws : List Word) (client ctx slot now : Nat) : SeqEntry :=
  let w (i : Nat) := wordAt ws i
  { state := sqWaiting, pstate := 0, kind := bits (w 0) 9 8, inc := false, switched := false, shared := false
    prio := bits (w 0) 14 12, cause := 0, model := bits (w 0) 23 16, client := client, ctx := ctx, root := none
    budget := bits (w 0) 63 24, maxtok := bits (w 4) 47 32, arrival := now, pos := 0
    premain := if bits (w 0) 9 8 = 1 then bits (w 6) 31 0 else 0
    ntok := 0, nitem := bits (w 6) 31 0, nofb := bit (w 0) 10, stream := bit (w 0) 11, cancelled := false, late := false
    fixed := false, failedOnce := false, slot := slot, reqid := w 1, raddr := (w 2).toNat, rkey := bits (w 3) 63 32
    outoff := bits (w 5) 31 0, outlen := bits (w 5) 63 32, notes := 0, status := 0, nout := 0, pendPark := false
    pendCancel := false, resultOut := false, resultDone := false, releaseReq := none }

/-- The refusal of a request (Table 08-2): cause and status. -/
def Device.requestRefusal (d : Device) (ws : List Word) (c : Client) : Option (Nat × Nat) :=
  let w (i : Nat) := wordAt ws i
  let type := bits (w 0) 9 8
  let m := d.model (bits (w 0) 23 16)
  let plen := bits (w 4) 31 0
  let maxtok := bits (w 4) 47 32
  let outoff := bits (w 5) 31 0
  let outlen := bits (w 5) 63 32
  let nitem := bits (w 6) 31 0
  if bits (w 0) 7 0 ≠ 1 ∨ type = 3 ∨ bit (w 0) 15 = true ∨ bits (w 4) 63 48 ≠ 0 ∨ bits (w 6) 63 32 ≠ 0 ∨ w 7 ≠ 0 then
    some (0x01, stInternal)
  else if !m.loaded || type != m.kind then some (0x02, stInternal)
  else if outoff < 64 + plen ∨ 2 ^ c.slotLog2 < outoff + outlen ∨ bits (w 3) 31 0 < 64 + outlen then some (0x03, stInternal)
  else if type = 1 ∧ (maxtok = 0 ∨ nitem = 0 ∨ plen < 4 * nitem ∨ outlen < 4 * maxtok ∨ 2 ^ 20 < nitem + maxtok) then
    some (0x04, stInternal)
  else if m.ctx ≠ c.ctx then some (0x05, stViolation)
  else none

end Sys2Proof.Machine
end

