-- ==== Sys2Proof/Machine/Courses.lean ====
section
/-! DEFINITION. The Course builder and deadline monitor (08): requests, laying, outcomes, results and the
course-control operations. -/
namespace Sys2Proof.Machine

open Sys2Proof

/-! ### Requests (R225 to R228, R251) -/

/-- The lowest-numbered FREE entry of the sequence table (R228). -/
def Device.freeEntry (d : Device) : Option Nat := (List.range 32768).find? (fun e => !thas d.seqs e)

/-- The lowest-numbered free slot of an inbox. -/
def Client.freeSlot (c : Client) : Option Nat := (List.range c.nslot).find? (fun i => !c.used.contains i)

/-- The queue pair's error state, and the client's DETACH (R226, R254). -/
def Device.clientError (d : Device) (c : Nat) : Device :=
  let q := (d.client c).qpn
  ({ d with qps := tmap d.qps q default (fun x => { x with error := true }) }).detachClient c

/-- A cancel record (R251). -/
def Device.cancelRecord (d : Device) (c : Nat) (tag : Word) : Device :=
  match d.seqs.filter (fun p => p.2.client == c && !p.2.final && p.2.reqid == tag) with
  | [p] => (d.askCancel p.1).results
  | _ => d.count Reg.CRS_CANCEL_MISS 1

/-- A refused request (R228, R249): its result alone. -/
def Device.refuseRequest (d : Device) (c : Nat) (x : SeqEntry) (cause status : Nat) : Device :=
  let d := d.count Reg.CRS_REJECTED 1
  if d.clientOk c then d.sendResult x none 0 [] (resultHeader x status cause 0 d.now true) true
  else (d.freeSlotOf c x.slot).count Reg.CRS_RESULT_DROP 1

/-- An accepted request (R228); one for a lane of an expelled group is abandoned at once (R404). -/
def Device.acceptRequest (d : Device) (e : Nat) (x : SeqEntry) : Device :=
  let d := (d.setSeq e x).count Reg.CRS_ACCEPTED 1
  if d.laneExpelled (d.model x.model).lane then (d.abandonEntry e caCourse stAbft).results else d

/-- What a record in slot `i` leads to. -/
def Device.requestIn (d : Device) (c i e : Nat) (ws : List Word) : Device :=
  if bits (wordAt ws 0) 9 8 = 2 then (d.freeSlotOf c i).cancelRecord c (wordAt ws 1)
  else
    let k := d.client c
    let x := reqEntry ws c k.ctx i d.now
    match d.requestRefusal ws k with
    | some (cause, status) => d.refuseRequest c x cause status
    | none => d.acceptRequest e x

/-- Places a record in its slot, answers the SEND and reads its header. A slot that cannot be written is answered as
a remote operational error. -/
def Device.placeRequest (d : Device) (c i e : Nat) (record : List Byte) : Att Device := do
  let k := d.client c
  let d := d.rdmaIn k.ctx k.qpn record.length
  let (d, ok) ← d.tryStore k.ctx k.ctx (k.slotAt i) record
  let (d, head) ← d.tryLoad k.ctx k.ctx (k.slotAt i) 64
  match ok, head with
  | true, some bs => .ok ((d.rdmaAnswer k.qpn 0 []).requestIn c i e (bytesWords bs))
  | _, _ => .ok ((d.rdmaAnswer k.qpn 2 []).freeSlotOf c i)

/-- Places the record `p` of a client's inbox, before `ps`, when an entry is free and the slot has its translation (R225);
true when it is placed. -/
def Device.placeNext (d : Device) (c : Nat) (p : Nat × List Byte) (ps : List (Nat × List Byte)) : Device × Bool :=
  match d.freeEntry with
  | none => (d, false)
  | some e =>
    match d.placeRequest c p.1 e p.2 with
    | .ok d => (d.setClient c { d.client c with held := ps }, true)
    | .error m => (d.ask m, false)

/-- Places the records that a client's inbox holds, as far as their translations and free entries reach (R225). -/
def Device.placeHeld (c : Nat) : List (Nat × List Byte) → Device → Device
  | [], d => d
  | p :: ps, d => let r := d.placeNext c p ps; if r.2 then Device.placeHeld c ps r.1 else r.1

/-- The records held for every client are placed as far as that can be done. -/
def Device.arrivals (d : Device) : Device :=
  d.clients.foldl (fun d p => if p.2.held.isEmpty || p.2.detaching then d else Device.placeHeld p.1 p.2.held d) d

/-- REQUEST_ARRIVAL (R225 to R228): a record takes the next free slot; one whose slot lacks a translation waits for it
there. -/
def execRequestArrival (client : Nat) (record : List Byte) (s : State) : Host.Outcome State Fault Refusal :=
  onDevice s fun d =>
    let d := d.arrivals
    let k := d.client client
    if !k.attached then d
    else
      match (if k.detaching || !d.crsReceives then none else k.freeSlot), d.freeEntry with
      | some i, some _ =>
        if 2 ^ k.slotLog2 < record.length then (d.rdmaAnswer k.qpn 3 []).clientError client
        else (d.setClient client { k with used := k.used ++ [i], held := k.held ++ [(i, record)] }).arrivals
      | _, _ => d.emit (.rnrNak k.qpn)

/-! ### Laying (R234 to R239) -/

/-- An entry as laid so far: index, work, rows, its dt, page sets it needs and the root promised to it. -/
structure LayItem where
  entry : Nat
  work : Nat
  rows : Nat
  dt : Nat
  need : Nat
  root : Option Nat
  deriving DecidableEq, Repr

/-- A laying in progress: the device, the predicted duration, the entries laid, prefill tokens, and the entries that
have been checked. -/
structure Lay where
  d : Device
  dur : Nat
  laid : List LayItem
  tok : Nat
  seen : List Nat

/-- Page sets of a model promised to entries laid so far. -/
def Lay.promised (y : Lay) (m : Nat) : Nat :=
  y.laid.foldl (fun n i => if (y.d.seq i.entry).model = m then n + i.need else n) 0

/-- Roots of a model promised so far. -/
def Lay.rootsOf (y : Lay) (m : Nat) : List Nat :=
  y.laid.filterMap (fun i => if (y.d.seq i.entry).model = m then i.root else none)

/-- The lowest root of a model's pool that no entry holds and none has been promised (R237). -/
def Lay.freeRoot (y : Lay) (m : Nat) : Option Nat :=
  let x := y.d.model m
  (List.range (x.f 3 15 0)).find? (fun i => !x.rootsUsed.contains i && !(y.rootsOf m).contains i)

/-- c_fix of an entry's model when no entry of it is laid yet (R235). -/
def Lay.fix (y : Lay) (m : Nat) : Nat :=
  if y.laid.any (fun i => (y.d.seq i.entry).model == m) then 0 else (y.d.model m).cFix

/-- The predicted duration with the maintenance holds that fall in it (R242, R335). -/
def Lay.course (y : Lay) (dur : Nat) : Nat := dur + y.d.holdIn dur

/-- NPAGES of an entry's root: 0 before admission. -/
def Lay.npages (y : Lay) (e : Nat) : Att (Device × Nat) :=
  match y.d.rootAddr e with
  | none => .ok (y.d, 0)
  | some a => do
    let x := y.d.seq e
    let (d, bs) ← y.d.tryLoad x.ctx x.ctx (a + 8) 8
    .ok (d, bits (bytesWord (bs.getD [])) 14 0)

/-- Page sets that positions `pos` to `pos + rows − 1` still need (R237); none when they cannot all be had. -/
def Lay.pages (y : Lay) (e rows : Nat) : Att (Device × Option Nat) := do
  let x := y.d.seq e
  let (d, have_) ← y.npages e
  let need := (x.pos + rows - 1) / 64 + 1 - have_
  if y.promised x.model + need ≤ (d.model x.model).count then .ok (d, some need) else .ok (d, none)

/-- Leaves an entry out for want of pages or roots (R237). -/
def Lay.dry (y : Lay) (d : Device) : Lay := { y with d := d.count Reg.CRS_POOL_DRY 1 }

/-- Adds an entry to the course. -/
def Lay.add (y : Lay) (d : Device) (i : LayItem) : Lay := { y with d := d, dur := y.dur + i.dt, laid := y.laid ++ [i] }

/-- Lays an entry if its prediction permits (R242). -/
def Lay.checked (y : Lay) (d : Device) (l : Nat) (i : LayItem) : Lay :=
  let x := d.seq i.entry
  let m := d.model x.model
  let r := d.judge i.entry (predictLaid (d.lane l).factor (y.course (y.dur + i.dt)) m x)
  let y := { y with seen := y.seen ++ [i.entry] }
  if r.2 then y.add r.1 i else { y with d := r.1 }

/-- A candidate of the decode phase. -/
def layDecode (decmax : Nat) (y : Lay) (e : Nat) : Att Lay := do
  let x := y.d.seq e
  if decmax ≤ y.laid.length then .ok y
  else
    let (d, need) ← y.pages e 1
    match need with
    | none => .ok (y.dry d)
    | some n => .ok (y.add d ⟨e, 0, 1, deltaDecode (d.model x.model) x + y.fix x.model, n, none⟩)

/-- The check that ends the decode phase: entries abandoned leave the course with their dt (R235). -/
def layDecodeCheck (l : Nat) (y : Lay) : Lay :=
  y.laid.foldl (fun z i =>
    let x := z.d.seq i.entry
    let r := z.d.judge i.entry (predictLaid (z.d.lane l).factor (y.course y.dur) (z.d.model x.model) x)
    let z := { z with d := r.1, seen := z.seen ++ [i.entry] }
    if r.2 then z else { z with dur := z.dur - i.dt, laid := z.laid.filter (fun k => k.entry != i.entry) }) y

/-- A candidate of the ranking phase. -/
def layRank (rankmax l : Nat) (y : Lay) (e : Nat) : Lay :=
  let x := y.d.seq e
  if rankmax ≤ y.laid.countP (fun i => i.work == 2) then y
  else y.checked y.d l ⟨e, 2, 0, deltaRank (y.d.model x.model) x + y.fix x.model, 0, none⟩

/-- A candidate of the prefill phase. -/
def layPrefill (budget l : Nat) (y : Lay) (e : Nat) : Att Lay := do
  let x := y.d.seq e
  let m := y.d.model x.model
  let c := min (min x.premain m.chunk) (budget - y.tok)
  let c := if c < x.premain then c - c % 64 else c
  if c = 0 then .ok y
  else if x.root.isNone && (y.freeRoot x.model).isNone then .ok (y.dry y.d)
  else
    let (d, need) ← y.pages e c
    match need with
    | none => .ok (y.dry d)
    | some n =>
      let root := if x.root.isNone then y.freeRoot x.model else none
      let z := y.checked d l ⟨e, 1, c, deltaPrefill m x c + y.fix x.model, n, root⟩
      .ok (if z.laid.length = y.laid.length then z else { z with tok := z.tok + c })

/-- Every other entry of the lane that is not final is checked against the laid course (R242, R253). -/
def layOthers (l : Nat) (others : List Nat) (y : Lay) : Lay :=
  let dur := y.course y.dur
  others.foldl (fun z e =>
    let x := z.d.seq e
    if x.final || z.seen.contains e || (z.d.model x.model).lane != l then z
    else { z with d := (z.d.judge e (predictWait (z.d.lane l).factor dur (z.d.model x.model) x)).1 }) y

/-- A page set leaves the head of a model's ring (R237); none when the ring is empty or cannot be read. -/
def Device.popRing (d : Device) (m : Nat) : Att (Device × Option Nat) := do
  let x := d.model m
  if x.count = 0 then .ok (d, none)
  else
    let (d, bs) ← d.tryLoad x.ctx x.ctx (x.ringAt 0) 8
    match bs with
    | none => .ok (d, none)
    | some b => .ok (d.setModel m { d.model m with head := x.ringPlace 1, count := x.count - 1 }, some (bytesWord b).toNat)

/-- Returns page sets to the tail of a model's ring (R237, R238). -/
def Device.pushRing (d : Device) (m : Nat) : List Nat → Att Device
  | [] => .ok d
  | a :: as => do
    let x := d.model m
    let (d, _) ← d.tryStore x.ctx x.ctx (x.ringAt x.count) (leBytes 8 a)
    Device.pushRing (d.setModel m { d.model m with count := x.count + 1 }) m as

/-- An APPEND of the builder that the walker refuses is counted and logged (R218, R237, log entry 116). -/
def Device.appendRefused (d : Device) (e cause page : Nat) : Device :=
  (d.log 0x0C 3 (unitCode 0 9) (d.seq e).ctx 0 0 (BitVec.ofNat 64 cause) (BitVec.ofNat 64 page)).count (Reg.ATN_REFUSED 0) 1

/-- APPENDs `n` page sets from the ring to a root (R200, R237): the sets that the root took, and whether all were; a set
that is refused goes back to the ring. -/
def Device.appendSets (d : Device) (e a : Nat) : Nat → Root → List Nat → Att (Device × List Nat × Bool)
  | 0, _, took => .ok (d, took, true)
  | n + 1, r, took => do
    let x := d.seq e
    let k := rootPages r
    let (d, set) ← d.popRing x.model
    match set with
    | none => .ok (d, took, false)
    | some set =>
      if 16384 ≤ k || badSet r set then
        let d ← d.pushRing x.model [set]
        .ok (d.appendRefused e (if 16384 ≤ k then 0x09 else 0x0A) k, took, false)
      else
        let (d, ok) ← d.tryStore x.ctx x.ctx (rootPt r + 8 * k) (wordBytes (pteWord set))
        let w := pack [(0, 15, k + 1), (15, 49, bits (wordAt r 1) 63 15)]
        let (d, ok') ← d.tryStore x.ctx x.ctx (a + 8) (wordBytes w)
        if ok && ok' then Device.appendSets d e a n (r.set 1 w) (took ++ [set])
        else
          let d ← d.pushRing x.model [set]
          .ok (d, took, false)

/-- A sequence that is left out as it is first laid gives back its root and the page sets it took (R237). -/
def Device.unroot (d : Device) (e k : Nat) (took : List Nat) : Att Device := do
  let x := d.seq e
  let d := d.setSeq e { x with root := none }
  let m := d.model x.model
  (d.setModel x.model { m with rootsUsed := m.rootsUsed.filter (· != k) }).pushRing x.model took

/-- Brings a laid entry's root and pages up to its positions (R237); false when it is left out. -/
def Device.readyEntry (d : Device) (i : LayItem) : Att (Device × Bool) := do
  if i.work = 2 then .ok (d, true)
  else
    let d := match i.root with | some r => d.takeRoot i.entry r | none => d
    let x := d.seq i.entry
    match d.rootAddr i.entry with
    | none => .ok (d, false)
    | some a =>
      let (d, bs) ← d.tryLoad x.ctx x.ctx a 64
      let r := bytesWords (slice (bs.getD []) 0 64)
      let r := if i.root.isSome then r.set 1 (pack [(15, 49, bits (wordAt r 1) 63 15)]) else r
      let (d, _) ← if i.root.isSome then d.tryStore x.ctx x.ctx (a + 8) (wordBytes (wordAt r 1)) else .ok (d, true)
      let (d, took, ok) ← d.appendSets i.entry a i.need r []
      let d := d.dropLab i.entry
      if bs.isSome && ok then .ok (d, true)
      else
        let d ← match i.root with
          | some k => d.unroot i.entry k took
          | none => .ok d
        .ok (d, false)

/-- Readies every laid entry; those left out take their dt with them. -/
def readyAll : List LayItem → Lay → Att Lay
  | [], y => .ok y
  | i :: is, y => do
    let (d, ok) ← y.d.readyEntry i
    readyAll is (if ok then { y with d := d }
      else { y with d := d, dur := y.dur - i.dt, laid := y.laid.filter (fun k => k.entry != i.entry)
                    tok := if i.work = 1 then y.tok - i.rows else y.tok })

/-- The course in the order of its list: decode, prefill, ranking (R239). -/
def listOrder (is : List LayItem) : List LayItem :=
  is.filter (fun i => i.work == 0) ++ is.filter (fun i => i.work == 1) ++ is.filter (fun i => i.work == 2)

/-- Segment records of a course (R205, R239), rows numbered from 0. -/
def segments (d : Device) : List LayItem → Nat → List Word
  | [], _ => []
  | i :: is, first =>
    pack [(0, 16, i.entry), (16, 15, i.entry), (32, 20, (d.seq i.entry).pos)] :: pack [(0, 13, first), (16, 13, i.rows)]
      :: segments d is (first + i.rows)

/-- Entry records (Table 08-5). The manual gives a ranking request no rows: a free value (log entry 3). -/
def entryRecords (d : Device) : List LayItem → Device × List Word
  | [] => (d, [])
  | i :: is =>
    let x := d.seq i.entry
    let f := if i.work = 2 then d.takeFree else (i.rows, d)
    let q := entryRecords f.2 is
    (q.1, pack [(0, 15, i.entry), (15, 8, x.model), (23, 2, i.work), (25, 20, x.pos), (45, 19, f.1)]
      :: BitVec.ofNat 64 ((d.client x.client).slotAt x.slot)
      :: BitVec.ofNat 64 ((d.rootAddr i.entry).getD 0)
      :: pack [(0, 32, x.outoff), (32, 32, x.outlen)] :: q.2)

/-- The course list (Table 08-5) with its outcome records zero. -/
def courseList (d : Device) (course dur : Nat) (is : List LayItem) : Device × List Byte :=
  let n (w : Nat) : Nat := is.countP (fun i => i.work == w)
  let toks := (is.filter (fun i => i.work == 1)).foldl (fun a i => a + i.rows) 0
  let head := [BitVec.ofNat 64 course, pack [(0, 13, n 0), (13, 13, n 1), (26, 13, n 2)],
    pack [(0, 19, toks), (32, 32, n 0 + toks)], BitVec.ofNat 64 dur, 0, 0, 0, 0]
  let recs := entryRecords d is
  (recs.1, wordsBytes (head ++ segments d (is.filter (fun i => i.work != 2)) 0 ++ recs.2 ++ List.replicate is.length 0))

/-- Offset of the outcome records in a course area (Table 08-5). -/
def outcomeAt (laid : List Laid) : Nat := 64 + 16 * laid.countP (fun i => i.work != 2) + 32 * laid.length

/-- The course launch: its entry and LAUNCH command with slots 0 and 1 (R239, R282). -/
def Device.launchCourse (d : Device) (l : Nat) (cfg : Word) (area course : Nat) : Device :=
  let ctx := Fld.CRS_LANE_CFG_CTX.of cfg
  let cmd : Cmd :=
    ⟨pack [(0, 8, 0x02), (19, 16, Fld.CRS_LANE_CFG_GRAPH.of cfg), (35, 1, 1), (36, 1, 1)], 0, BitVec.ofNat 64 area, BitVec.ofNat 64 course⟩
  let en : Entry :=
    { id := d.nextEntry, stamp := 0, ctx := ctx, tag := 0, wen := false, wctx := 0, widx := 0, wval := 0, sen := false
      sigok := false, sidx := 0, sval := 0, conc := false, cmd := cmd, state := .started, lane := some l, prev := none, ending := none }
  ({ d with nextEntry := d.nextEntry + 1, entries := d.entries ++ [en] }).issue en.id ctx none 0 cmd false

/-- Writes the course list and launches (R239). -/
def Lay.launch (y : Lay) (l : Nat) (cfg : Word) : Att Device := do
  let is := listOrder y.laid
  let ln := y.d.lane l
  let course := ln.course + 1
  let dur := y.course y.dur
  let area := y.d.fld (Reg.CRS_LANE_AREA l) Fld.CRS_LANE_AREA_ADDR * 4096
  let ctx := Fld.CRS_LANE_CFG_CTX.of cfg
  let (d, bs) := courseList y.d course dur is
  let (d, _) ← d.tryStore ctx ctx area bs
  let d := is.foldl (fun d i =>
    let x := d.seq i.entry
    d.setSeq i.entry { x with inc := true, fixed := true, state := if i.work = 1 then sqPrefill else x.state }) d
  let laid := is.map (fun i => (⟨i.entry, i.work, i.rows, (d.seq i.entry).pos⟩ : Laid))
  let id := d.nextEntry
  let d := d.launchCourse l cfg area course
  .ok ((d.setLane l { ln with
    running := true, course := course, laid := laid, predicted := dur, launchedAt := d.now, pred := min dur (2 ^ 32 - 1)
    launch := some id, result := none, area := area, cfg := cfg, dropped := false }).count Reg.CRS_COURSES 1)

/-- Accepted model records of a lane take effect, and the notes of its course begin (R232). -/
def Device.beginLaying (d : Device) (l : Nat) : Device :=
  let d := { d with models := tupd d.models (fun _ m =>
    match m.next with | some ws => if m.lane = l then { m with words := ws, next := none } else m | none => m) }
  d.setLane l { d.lane l with notes := 0 }

/-- One laying of a lane from its candidates and its other entries. -/
def Device.layCourse (d : Device) (l : Nat) (cfg : Word) (cands : List (Nat × SeqEntry)) (others : List Nat) : Att Device := do
  let d := d.beginLaying l
  let sorted := sortCands d.now cands
  let pick (f : SeqEntry → Bool) : List Nat := (sorted.filter (fun p => f p.2)).map (·.1)
  let budget := min 262144 (d.fld (Reg.CRS_LANE_TOK l) Fld.CRS_LANE_TOK_TOKBUDGET)
  let y : Lay := ⟨d, 0, [], 0, []⟩
  let y ← (pick (fun x => x.state == sqDecode)).foldlM (layDecode (min 4096 (Fld.CRS_LANE_CFG_DECMAX.of cfg))) y
  let y := layDecodeCheck l y
  let y := (pick (fun x => x.kind == 0)).foldl (layRank (min 4096 (Fld.CRS_LANE_CFG_RANKMAX.of cfg)) l) y
  let y ← (pick (fun x => x.kind == 1 && x.state != sqDecode)).foldlM (layPrefill budget l) y
  let y := layOthers l others y
  let y ← readyAll y.laid y
  if y.laid.isEmpty then .ok y.d else y.launch l cfg

/-- Candidates of a lane (R234): neither final nor parked, and of no detaching client. -/
def Device.candidates (d : Device) (l : Nat) : List (Nat × SeqEntry) :=
  d.seqs.filter (fun p => (d.model p.2.model).lane == l && !p.2.final && p.2.state != sqParked && p.2.state != sqFree
    && !(d.client p.2.client).detaching)

/-- COURSE_LAY (R234 to R239, R242 to R244). -/
def execCourseLay (lane : LaneNo) (s : State) : Host.Outcome State Fault Refusal :=
  onDevice s fun d =>
    let l := lane.val
    let cfg := d.reg (Reg.CRS_LANE_CFG l)
    let cands := d.candidates l
    if !d.crsOn || Fld.CRS_LANE_CFG_EN.of cfg = 0 || (d.lane l).running || cands.isEmpty then d.arrivals.results
    else
      let others := (d.seqs.filter (fun p => (d.model p.2.model).lane == l)).map (·.1)
      (d.attempt (d.layCourse l cfg cands others)).results

/-! ### Outcomes (R240, R241, R245, R250) -/

/-- The nearest integer to a ÷ b, ties to even. -/
def rneInt (a : Int) (b : Nat) : Int :=
  let q := a / (b : Int)
  let r := a % (b : Int)
  if 2 * r < b then q else if 2 * r = b then q + q % 2 else q + 1

/-- The factor after a course (R245); one with a predicted duration of 0 leaves it open (log entry 3). -/
def Device.newFactor (d : Device) (f actual predicted : Nat) : Nat × Device :=
  if d.fld Reg.DLM_CTRL Fld.DLM_CTRL_ADAPT = 0 then (1024, d)
  else if predicted = 0 then (512 + d.takeFree.1 % 3585, d.takeFree.2)
  else
    let g : Int := (f : Int) + rneInt ((1024 * actual : Nat) - (f * predicted : Nat) : Int) (16 * predicted)
    ((max 512 (min 4096 g)).toNat, d)

/-- ADAPT = 0 holds every lane's factor at 1,024 (R245). -/
def Device.holdFactors (d : Device) : Device :=
  if d.fld Reg.DLM_CTRL Fld.DLM_CTRL_ADAPT = 0 then { d with lanes := tupd d.lanes (fun _ x => { x with factor := 1024 }) } else d

/-- A progress record (R250): the new tokens at their places, then a header with FINAL = 0. -/
def Device.progress (d : Device) (e added : Nat) : Att Device := do
  let x := d.seq e
  if !x.stream || added = 0 || !d.clientOk x.client then .ok d
  else
    let off := 4 * (x.ntok - added)
    let (d, bs) ← d.tryLoad x.ctx x.ctx ((d.client x.client).slotAt x.slot + x.outoff + off) (4 * added)
    match bs with
    | none => .ok d
    | some p => .ok (d.sendResult x (some e) off p (resultHeader x 0 0 (4 * x.ntok) d.now false) false)

/-- Applies a valid outcome (R240). -/
def Device.applyOutcome (d : Device) (i : Laid) (o : Word) : Att Device := do
  let x := d.seq i.entry
  if i.work = 2 then .ok ((d.setSeq i.entry { x with nout := bits o 47 16, failedOnce := false }).finishEntry i.entry)
  else
    let left := if i.work = 1 then x.premain - i.rows else x.premain
    let x := { x with
      pos := x.pos + i.rows, premain := left, ntok := x.ntok + bits o 15 8, failedOnce := false
      state := if i.work = 1 && left == 0 then sqDecode else x.state }
    let d ← (d.setSeq i.entry x).progress i.entry (bits o 15 8)
    .ok (if bit o 1 || decide (x.maxtok ≤ x.ntok) then d.finishEntry i.entry else d)

/-- An entry whose course failed (R241). -/
def Device.failOutcome (d : Device) (e status : Nat) (retry : Bool) : Device :=
  let x := d.seq e
  if retry && !x.failedOnce then d.setSeq e { x with failedOnce := true } else d.abandonEntry e caCourse status

/-- Events put off while the entry was in the course (R230). -/
def Device.putOff (d : Device) (e : Nat) : Device :=
  let x := { d.seq e with inc := false }
  let d := d.setSeq e x
  if x.final then d else if x.pendCancel then d.cancelEntry e else if x.pendPark then
    d.setSeq e { x with pendPark := false, state := sqParked, pstate := x.state }
  else d

/-- The outcome of one laid entry. -/
def Device.outcomeOf (d : Device) (l : Nat) (end_ : Ending × Report) (i : Laid) (o : Word) : Att Device := do
  let ln := d.lane l
  let x := d.seq i.entry
  if x.final then .ok (d.putOff i.entry)
  else
    let d := d.setSeq i.entry { x with notes := x.notes ||| end_.2.notes ||| ln.notes }
    if ln.dropped then .ok ((d.abandonEntry i.entry caCourse stAbft).putOff i.entry)
    else if end_.1.failed then .ok ((d.failOutcome i.entry end_.1.status (Fld.CRS_LANE_CFG_RETRY.of ln.cfg == 1)).putOff i.entry)
    else if !bit o 0 then .ok ((d.failOutcome i.entry stInternal (Fld.CRS_LANE_CFG_RETRY.of ln.cfg == 1)).putOff i.entry)
    else
      let d ← d.applyOutcome i o
      .ok (d.putOff i.entry)

def Device.outcomesOf (d : Device) (l : Nat) (end_ : Ending × Report) : List (Laid × Word) → Att Device
  | [] => .ok d
  | p :: ps => do
    let d ← d.outcomeOf l end_ p.1 p.2
    Device.outcomesOf d l end_ ps

/-- Applies a completed course (R240, R241, R245), and begins the epochs that it paces (R401). -/
def Device.applyCourse (d : Device) (l : Nat) (end_ : Ending × Report) : Att Device := do
  let ln := d.lane l
  let ctx := Fld.CRS_LANE_CFG_CTX.of ln.cfg
  let n := ln.laid.length
  let (d, bs) ← d.tryLoad ctx ctx (ln.area + outcomeAt ln.laid) (8 * n)
  let outs := bytesWords (slice (bs.getD []) 0 (8 * n))
  let d ← d.outcomesOf l end_ (ln.laid.zipIdx.map (fun p => (p.1, wordAt outs p.2)))
  let t := ln.doneAt - ln.launchedAt
  let f := d.newFactor ln.factor t ln.predicted
  let d := f.2.setLane l { ln with
    running := false, laid := [], factor := f.1, actual := min t (2 ^ 32 - 1), launch := none, result := none, dropped := false }
  .ok (if ln.dropped then d else d.epochs l ln.course)

/-- COURSE_OUTCOME_APPLY (R240, R241, R245). -/
def execCourseOutcomeApply (lane : LaneNo) (s : State) : Host.Outcome State Fault Refusal :=
  onDevice s fun d =>
    match (d.lane lane).running, (d.lane lane).result with
    | true, some r => (d.attempt (d.applyCourse lane r)).results
    | _, _ => d

/-! ### Results and release (R246 to R248) -/

/-- RESULT_WRITE_DONE (R246, R248, R456). -/
def execResultWriteDone (ticket : Nat) (ok : Bool) (s : State) : Host.Outcome State Fault Refusal :=
  onDevice s fun d =>
    match d.tickets.find? (fun t => t.id == ticket) with
    | none => d
    | some t =>
      let d := { d with tickets := d.tickets.filter (fun u => u.id != ticket) }
      let d :=
        if !t.final then d
        else
          let d := if ok then d else d.count Reg.CRS_RESULT_DROP 1
          let d := d.freeSlotOf t.client t.slot
          match t.entry with
          | some e => d.setSeq e { d.seq e with resultDone := true }
          | none => d
      if ok || !(d.client t.client).attached || (d.client t.client).detaching then d else d.clientError t.client

/-- Page sets below NPAGES of an entry's root; none when its table cannot be read. -/
def Device.heldSets (d : Device) (e : Nat) : Att (Device × List Nat) := do
  match d.rootAddr e with
  | none => .ok (d, [])
  | some a =>
    let c := (d.seq e).ctx
    let (d, bs) ← d.tryLoad c c a 64
    let r := bytesWords (slice (bs.getD []) 0 64)
    let (d, ps) ← d.tryLoad c c (rootPt r) (8 * rootPages r)
    .ok (d, (bytesWords (ps.getD [])).map pteAddr)

/-- Releases an entry (R238, R248); page sets that the ring has no room for keep it waiting (log entry 51). -/
def Device.releaseEntry (d : Device) (e : Nat) : Att Device := do
  let x := d.seq e
  let (d, sets) ← if x.shared then .ok (d, []) else d.heldSets e
  let m := d.model x.model
  if m.nring < m.count + sets.length then .ok d
  else
    let used := match x.root with | some i => m.rootsUsed.filter (· != i) | none => m.rootsUsed
    let d ← (d.setModel x.model { m with rootsUsed := used }).pushRing x.model sets
    let d := d.dropLab e
    let d := { d with seqs := tdel d.seqs e }
    .ok (match x.releaseReq with | some j => d.endJob j endOk | none => d)

/-- Whether an entry may become FREE (R248, R252). -/
def Device.releasable (d : Device) (e : Nat) : Bool :=
  let x := d.seq e
  x.final && x.resultDone && !x.inc && d.walks e == 0 && !d.tickets.any (fun t => t.entry == some e)
    && (x.kind == 0 || !(d.model x.model).keep || x.releaseReq.isSome)

/-- ENTRY_RELEASE (R238, R248). -/
def execEntryRelease (e : Nat) (s : State) : Host.Outcome State Fault Refusal :=
  onDevice s fun d =>
    let d := d.results
    if d.releasable e then d.attempt (d.releaseEntry e) else d

/-! ### Control operations (Table 08-8) -/

/-- The command, if it is this operation and waits to be carried out. -/
def Device.crsOp? (d : Device) (id op : Nat) : Option Job :=
  match d.issued? id 0x2A with
  | some j => if j.cmd.arg 22 19 = op then some j else none
  | none => none

def Job.crsEntry (j : Job) : Nat := bits j.cmd.c1 14 0
def Job.crsNum (j : Job) : Nat := bits j.cmd.c1 7 0

/-- An operation of context 0. -/
def Device.byOwner (d : Device) (id op : Nat) (f : Job → Device) : Device :=
  match d.crsOp? id op with
  | none => d
  | some j => if j.ctx ≠ 0 then d.denied j else f j

/-- An operation on an entry, by its context or context 0, under a condition. -/
def Device.onEntry (d : Device) (id op : Nat) (cond : SeqEntry → Bool) (f : Job → Device) : Device :=
  match d.crsOp? id op with
  | none => d
  | some j =>
    let x := d.seq j.crsEntry
    if j.ctx ≠ 0 ∧ (x.state = sqFree ∨ j.ctx ≠ x.ctx) then d.denied j
    else if x.state = sqFree || !cond x then d.notPermitted id
    else f j

/-- ATTACH (R225, R252). -/
def execAttach (j : Nat) (s : State) : Host.Outcome State Fault Refusal :=
  onDevice s fun d => d.byOwner j 0 fun k =>
    let c := k.crsNum
    let x : Client :=
      { attached := true, detaching := false, ctx := bits k.cmd.c3 29 24, qpn := bits k.cmd.c3 23 0, base := k.cmd.c2.toNat
        nslot := bits k.cmd.c3 42 30, slotLog2 := bits k.cmd.c3 47 43, used := [], held := [] }
    let q := tget d.qps x.qpn default
    if (d.client c).attached || !thas d.qps x.qpn || q.error || q.role != 2 || (d.ctx x.ctx).state != 1 || x.nslot == 0
        || decide (4096 < x.nslot) || decide (x.slotLog2 < 8) || decide (20 < x.slotLog2)
        || d.clients.any (fun p => p.2.attached && p.2.qpn == x.qpn) then d.notPermitted j
    else (d.setClient c x).endJob j endOk

/-- DETACH (R254). -/
def execDetach (j : Nat) (s : State) : Host.Outcome State Fault Refusal :=
  onDevice s fun d => d.byOwner j 1 fun k =>
    let x := d.client k.crsNum
    if !x.attached || x.detaching then d.notPermitted j else (d.detachClient k.crsNum).endJob j endOk

/-- DETACH_COMPLETE (R254). -/
def execDetachComplete (client : Nat) (s : State) : Host.Outcome State Fault Refusal :=
  onDevice s fun d =>
    let d := d.results
    if !(d.client client).detaching || d.seqs.any (fun p => p.2.client == client && p.2.inc)
        || d.tickets.any (fun t => t.client == client) then d
    else { d with clients := tdel d.clients client }

/-- MODEL (R231, R232): a record takes effect at the next laying of its lane; where no entry names the model, so that no
laying can tell, at once (log entry 102). -/
def execModel (j : Nat) (s : State) : Host.Outcome State Fault Refusal :=
  onDevice s fun d => d.byOwner j 2 fun k =>
    let m := k.crsNum
    let at_ := d.fld Reg.CRS_MTAB_BASE Fld.CRS_MTAB_BASE_ADDR * 128 + 128 * m
    Device.andThenIn (d.vload 0 16 k.cmd.opUnit at_ 128) 0 j 0 16 fun d bs =>
      let old := d.model m
      let new : Model := { old with loaded := true, words := bytesWords bs, next := none }
      if d.modelBad m new then d.notPermitted j
      else if d.seqs.any (fun p => p.2.model == m) then (d.setModel m { old with next := some (bytesWords bs) }).endJob j endOk
      else if old.loaded && !modelMoved old new then (d.setModel m new).endJob j endOk
      else (d.setModel m { new with rootsUsed := [], head := 0, count := 0 }).endJob j endOk

/-- PARK (R253). -/
def execPark (j : Nat) (s : State) : Host.Outcome State Fault Refusal :=
  onDevice s fun d =>
    d.onEntry j 3 (fun x => decide (x.state ≤ 3)) fun k => (d.askPark k.crsEntry).endJob j endOk

/-- UNPARK (R252). -/
def execUnpark (j : Nat) (s : State) : Host.Outcome State Fault Refusal :=
  onDevice s fun d =>
    d.onEntry j 4 (fun x => x.state == sqParked) fun k =>
      (d.setSeq k.crsEntry { d.seq k.crsEntry with state := (d.seq k.crsEntry).pstate, pstate := 0 }).endJob j endOk

/-- The course RELEASE operation (R252): the command ends when the entry is FREE. -/
def execCourseRelease (j : Nat) (s : State) : Host.Outcome State Fault Refusal :=
  onDevice s fun d =>
    d.onEntry j 5 (fun x => x.final && x.resultDone && x.releaseReq.isNone && (d.model x.model).keep) fun k =>
      (d.setSeq k.crsEntry { d.seq k.crsEntry with releaseReq := some j }).mapJob j (fun k => { k with state := .waiting })

/-- The course CANCEL operation (R251, R252). -/
def execCancel (j : Nat) (s : State) : Host.Outcome State Fault Refusal :=
  onDevice s fun d =>
    d.onEntry j 6 (fun x => !x.final) fun k => ((d.askCancel k.crsEntry).endJob j endOk).results

/-- Writes entries at the tail of a model's page ring, in two runs where they go past its end. -/
def Device.ringPut (d : Device) (j n : Nat) (m : Model) (bs : List Byte) : Device :=
  let at_ := m.ringPlace m.count
  let k := 8 * (m.nring - at_)
  let put (d : Device) : Device :=
    (d.setModel n { d.model n with count := m.count + bs.length / 8 }).endJob j endOk
  Device.andThenIn (d.vstore m.ctx 16 (unitCode 0 11) (m.pagePool + 8 * at_ : Nat) (bs.take k)) m.ctx j 0 16 fun d _ =>
    if bs.length ≤ k then put d
    else Device.andThenIn (d.vstore m.ctx 16 (unitCode 0 11) m.pagePool (bs.drop k)) m.ctx j 0 16 fun d _ => put d

/-- POOL_ADD (R238, R252). -/
def execPoolAdd (j : Nat) (s : State) : Host.Outcome State Fault Refusal :=
  onDevice s fun d =>
    match d.crsOp? j 7 with
    | none => d
    | some k =>
      let m := d.model k.crsNum
      let n := bits k.cmd.c3 31 0
      if k.ctx ≠ 0 ∧ (!m.loaded || m.ctx != k.ctx) = true then d.denied k
      else if !m.loaded || decide (m.nring < m.count + n) then d.notPermitted j
      else
        Device.andThenIn (d.vload m.ctx 16 k.cmd.opUnit k.cmd.c2.toNat (8 * n)) m.ctx j 0 16 fun d bs => d.ringPut j k.crsNum m bs

end Sys2Proof.Machine
end

