-- ==== Sys2Proof/Machine/Rafter.lean ====
section
/-! DEFINITION. The Rafter arrays (R94 to R125, R17): instruction lists, loads and reslates, compute instructions, the
narrowing stage with its checks, the drain buffer, and ballast. -/
namespace Sys2Proof.Machine

open Sys2Proof

/-- RAF_CAPS of an array (Table 04-10): MX.128 always, MX.256K on even arrays only. -/
def Device.rafCaps (d : Device) (t a : Nat) : Nat :=
  let c := (tget d.truss t default).rafCaps.toNat
  1 + (c % 32 - c % 2) - (if a % 2 = 1 && c.testBit 2 then 4 else 0)

def rafUnit (t a : Nat) : Nat := unitCode t (2 + a)

/-- The running task of an array with what it keeps. -/
structure RafTask where
  job : Job
  ptr : Word
  pair : Bool
  seq : RafSeq

def Device.rafTask? (d : Device) (t : Truss) (a : ArrayNo) : Option RafTask :=
  match d.active? (.raf t a) with
  | none => none
  | some j => match j.run with | .raf p q sq _ => some ⟨j, p, q, sq⟩ | _ => none

/-- What the sequencer keeps becomes `q`. -/
def Device.rafAt (d : Device) (id : Nat) (q : RafSeq) : Device :=
  d.mapJob id fun j => match j.run with
    | .raf p pair _ sv => { j with run := .raf p pair q sv }
    | _ => j

/-- The array, or both arrays of a pair, stop: entries not yet pushed or banked are discarded (R109), and the odd array
is free. -/
def Device.rafDrop (d : Device) (t a : Nat) (pair : Bool) : Device :=
  let d := d.mapRafa t a (fun r => { r with inflight := [], drain := [] })
  if pair then d.mapRafa t (a + 1) (fun r => { r with fused := false }) else d

/-- A failure of the running task (R109). -/
def Device.rafFail (d : Device) (t a : Nat) (x : RafTask) (e : Ending) : Device := (d.endJob x.job.id e).rafDrop t a x.pair

/-- Nothing of the task is in the cells or the drain buffer. -/
def RafArray.idle (r : RafArray) : Bool := r.inflight.isEmpty && r.drain.isEmpty

/-- Every instruction decoded has begun, and admitted all its rows. -/
def RafSeq.clear (q : RafSeq) : Bool := q.streams.isEmpty && q.loads.isEmpty

/-- A refusal, once the instructions before it are complete (R108). -/
def Device.rafRefuse (d : Device) (t a : Nat) (x : RafTask) (cause : Nat) : Device :=
  if x.seq.clear && (d.rafa t a).idle then
    (((d.count (Reg.RAF_REFUSED t a) 1).engineRefuse x.job (rafUnit t a) cause x.seq.pc (BitVec.ofNat 64 x.seq.pc))).rafDrop t a
      x.pair
  else d

/-- A scale skew in a feeder (R83, R109). -/
def Device.rafSkew (d : Device) (t a : Nat) (x : RafTask) (operand dord sord pos : Nat) : Device :=
  let e := endB operand dord sord (rafUnit t a) pos
  (((d.count (Reg.RAF_SKEW t a) 1).log 0x08 0 (rafUnit t a) x.job.ctx 2 0 e.d0 (BitVec.ofNat 64 pos))).rafFail t a x e

/-- Carries on with what a feeder got. -/
def Device.fed {α : Type} (r : Device × Fed α) (t a : Nat) (x : RafTask) (k : Device → α → Device) : Device :=
  match r with
  | (d, .ok v) => k d v
  | (d, .fail e) => d.rafFail t a x e
  | (d, .skew o p q pos) => d.rafSkew t a x o p q pos

/-- The task ends when END is decoded, all rows are in, and every entry is pushed or banked (R98). -/
def Device.rafMaybeEnd (d : Device) (t a : Nat) (x : RafTask) (q : RafSeq) : Device :=
  if q.ended && q.clear && (d.rafa t a).idle then (d.endJob x.job.id endOk).rafDrop t a x.pair else d

/-- The sequencer goes on from `q`. -/
def Device.rafGoOn (d : Device) (t a : Nat) (x : RafTask) (q : RafSeq) : Device := (d.rafAt x.job.id q).rafMaybeEnd t a x q

def seqStart : RafSeq := ⟨0, [], [], false⟩

/-- RAF_TASK (R98, R101): the sequencer starts; a resumed task repeats its loads (R113) and goes on. -/
def Device.rafBegin (d : Device) (t a : Nat) (j : Job) : Device :=
  let pair := j.cmd.arg 19 19 == 1
  if j.cmd.c1.toNat % 32 ≠ 0 then d.engineRefuse j (rafUnit t a) 0x06 j.index 0
  else if pair && a % 2 == 1 then d.endJob j.id (endC stInternal 0x04 (rafUnit t a) j.index 0)
  else
    let d := d.mapJob j.id (fun j => { j with run := .raf j.cmd.c1 pair seqStart [] })
    if pair then d.mapRafa t (a + 1) (fun r => { r with fused := true }) else d

def execRafTask (t : Truss) (a : ArrayNo) (s : State) : Host.Outcome State Fault Refusal :=
  onDevice s fun d =>
    match d.active? (.raf t a) with
    | none => d
    | some j => if j.run = .none then d.rafBegin t a j else d

/-- Every instruction under way stands at an instruction or segment boundary (R113). -/
def RafSeq.boundary (q : RafSeq) : Bool := q.streams.all (fun s => !s.begun || s.row % s.seg == 0)

/-- The task is to stop, and stands where it may. -/
def RafTask.stopping (x : RafTask) : Bool := (x.job.forced || x.job.preemptReq) && x.seq.boundary

/-- The instruction that the sequencer has come to, when it is one that `want` names; one that R99 does not have is
refused. -/
def Device.rafMeet (d : Device) (t : Truss) (a : ArrayNo) (want : Nat) : Device × Option (RafTask × RafIns) :=
  match d.rafTask? t a with
  | none => (d, none)
  | some x =>
    if x.seq.ended || x.stopping then (d, none)
    else
      let at_ := (ptrMove x.ptr (32 * x.seq.pc : Nat)).getD badPtr
      match d.ptrLoad x.job.ctx t (rafUnit t a) false at_ 32 with
      | (d, .ok bs) =>
        let w := bytesWords bs
        if !rafKnown (rafOpc w) then (d.rafRefuse t a x 0x01, none)
        else if rafOpc w = want then (d, some (x, w)) else (d, none)
      | (d, .fail e) => (d.rafFail t a x e, none)
      | (d, .miss _ _) => (d, none)

/-- Runs `k` on the instruction that the sequencer has come to when it is one that `want` names. -/
def rafStep (t : Truss) (a : ArrayNo) (want : Nat) (s : State) (k : Device → RafTask → RafIns → Device) :
    Host.Outcome State Fault Refusal :=
  onDevice s fun d =>
    match d.rafMeet t a want with
    | (d, some (x, w)) => k d x w
    | (d, none) => d

/-- The next instruction. -/
def RafSeq.next (q : RafSeq) : RafSeq := { q with pc := q.pc + 1 }

/-- RAF_NOP (R99). -/
def execRafNop (t : Truss) (a : ArrayNo) (s : State) : Host.Outcome State Fault Refusal :=
  rafStep t a opNop s fun d x _ => d.rafAt x.job.id x.seq.next

/-- RAF_END (R98). -/
def execRafEnd (t : Truss) (a : ArrayNo) (s : State) : Host.Outcome State Fault Refusal :=
  rafStep t a opEnd s fun d x _ => d.rafGoOn t a x { x.seq with ended := true }

/-! ### Loading and reslating (R95 to R97) -/

/-- The shape is enabled (R108, cause 0x02). -/
def shapeOn (caps shape : Nat) : Bool :=
  caps.testBit (if shape = 0 then 0 else if shape = 3 then 3 else if shape = 4 then 2 else 1)

/-- How an SLOAD is refused, if it is (Table 04-6). -/
def sloadCause (w : RafIns) (caps : Nat) (pair : Bool) : Option Nat :=
  let sh := sldShape w
  let fmt := rafF w 0 23 20
  let f := feedOf w fmt
  if 4 < sh || rafF w 2 43 42 = 3 then some 0x01
  else if !shapeOn caps sh || pair != (sh == 4) then some 0x02
  else if !rafFmt fmt || (fmt == fmtI16 && (sh != 0 || !caps.testBit 4)) then some 0x03
  else if f.share = 2 && decide (f.b ≤ f.nbp) then some 0x04
  else if (if sh = 4 then 256 else if halfShape sh then 64 else 128) < sldKrows w || sldNcols w = 0 || 128 < sldNcols w then
    some 0x06
  else none

def tfind {α : Type} (t : Tbl α) (k : Nat) : Option α := (t.find? (fun p => p.1 == k)).map (·.2)

/-- A set put beside or in place of others: a half replaces its half and a whole set, a whole set everything. -/
def putSet (l : Tbl RafSet) (half : Nat) (s : RafSet) : Tbl RafSet :=
  if halfShape s.shape then tset (l.filter (fun p => halfShape p.2.shape)) half s else [(0, s)]

/-- What a set about to be loaded leaves valid in the shadow registers. -/
def dropSet (l : Tbl RafSet) (half : Nat) (s : RafSet) : Tbl RafSet :=
  if halfShape s.shape then (l.filter (fun p => halfShape p.2.shape && p.1 != half)) else []

def RafSet.i16 (s : RafSet) : Bool := s.wfmt == fmtI16

/-- An I16 set is active: it occupies the registers of both sets (Table 04-1). -/
def RafArray.i16 (r : RafArray) : Bool := r.active.any (fun p => p.2.i16)

/-- An SLOAD begins: its set leaves what stays valid beside it, and an I16 set, which occupies the registers of both sets,
leaves nothing, nor is left by another (Table 04-1). -/
def RafArray.startLoad (r : RafArray) (half : Nat) (s : RafSet) : RafArray :=
  { r with active := if s.i16 || r.i16 then [] else r.active
           shadow := dropSet r.shadow half s, loading := [(half, s)] }

/-- The set that an SLOAD has loaded becomes the valid shadow set. -/
def RafArray.endLoad (r : RafArray) (half : Nat) (s : RafSet) : RafArray :=
  { r with shadow := putSet r.shadow half s, loading := [] }

/-- The swap (R96). -/
def RafArray.reslate (r : RafArray) (half : Nat) (set : RafSet) : RafArray :=
  { r with active := putSet r.active half set
           shadow := if halfShape set.shape then tdel r.shadow half else [] }

/-- A change of the sets of an array, and of those of the odd array of a pair, which holds its rows of the same sets
(R101). -/
def Device.mapSets (d : Device) (t a : Nat) (pair : Bool) (f : RafArray → RafArray) : Device :=
  let d := d.mapRafa t a f
  if pair then d.mapRafa t (a + 1) f else d

/-- Whether a decoded SLOAD may begin: no other loads, every reslate before it in the list has entered the array (R97),
and where an I16 set holds or takes both sets' registers, every row before it is in (R104). -/
def RafSeq.mayLoad (q : RafSeq) (r : RafArray) (idx : Nat) (w : RafIns) : Bool :=
  r.loading.isEmpty &&
    q.streams.all (fun s => decide (idx < s.idx) || (!(r.i16 || rafF w 0 23 20 == fmtI16) && (s.begun || !rafRsl s.w)))

/-- The oldest SLOAD that waits begins when it may. -/
def Device.rafLoad (d : Device) (t : Truss) (a : ArrayNo) (x : RafTask) : Device :=
  match x.seq.loads with
  | [] => d
  | (idx, w) :: rest =>
    if !x.seq.mayLoad (d.rafa t a) idx w then d
    else
      Device.fed (d.loadSet x.job.ctx t (rafUnit t a) w) t a x fun d set =>
        (d.mapSets t a x.pair (fun r => r.startLoad (sldHalf w) set)).rafGoOn t a x { x.seq with loads := rest }

/-- The SLOAD that the sequencer has come to is decoded and checked. -/
def Device.rafLoadDecode (d : Device) (t : Truss) (a : ArrayNo) (x : RafTask) (w : RafIns) : Device :=
  match sloadCause w (d.rafCaps t a) x.pair with
  | some c => d.rafRefuse t a x c
  | none =>
    let q := { x.seq.next with loads := x.seq.loads ++ [(x.seq.pc, w)] }
    (d.rafAt x.job.id q).rafLoad t a { x with seq := q }

/-- RAF_SLOAD (R95, R97): an SLOAD is decoded, and the oldest one decoded begins when it may. -/
def execRafSload (t : Truss) (a : ArrayNo) (s : State) : Host.Outcome State Fault Refusal :=
  onDevice s fun d =>
    match d.rafMeet t a opSload with
    | (d, some (x, w)) => d.rafLoadDecode t a x w
    | (d, none) => match d.rafTask? t a with
      | some x => if x.stopping then d else d.rafLoad t a x
      | none => d

/-- RAF_SLOAD_DONE (R95): the set that loads becomes the valid shadow set. -/
def execRafSloadDone (t : Truss) (a : ArrayNo) (s : State) : Host.Outcome State Fault Refusal :=
  onDevice s fun d =>
    let r := d.rafa t a
    if !d.engineOn t || r.fused then d
    else
      match r.loading with
      | [] => d
      | (h, set) :: _ => d.mapSets t a (set.shape == 4) (fun r => r.endLoad h set)

/-! ### Compute instructions -/

/-- Output rows of an instruction: M for MX shapes, the set's vectors for MT.128 (R105). -/
def outRows (w : RafIns) (set : RafSet) : Nat := if rafOpc w = opMt128 then set.ncols else rafM w

/-- How a compute instruction is refused, if it is (Table 04-6); `set` is the one it would run on. -/
def computeCause (w : RafIns) (caps : Nat) (pair : Bool) (set : Option RafSet) : Option Nat :=
  let sf := rafSfmt w
  let f := feedOf w sf
  let wf := match set with | some s => s.wfmt | none => sf
  let wshare := match set with | some s => s.wshare | none => 0
  let wb := match set with | some s => s.blk | none => f.b
  let bk := if f.share = 1 then (if wshare = 1 then min f.b wb else f.b) else if wshare = 1 then wb else 128
  if rafF w 2 43 42 = 3 then some 0x01
  else if !shapeOn caps (rafShape w) || pair != (rafOpc w == opMx256k) then some 0x02
  else if !rafFmt sf || ((sf == fmtI16) != (wf == fmtI16)) || (sf == fmtI16 && (rafOpc w != opMx128 || !caps.testBit 4)) then
    some 0x03
  else if (f.share == 1 && wshare == 1 && f.b != wb && f.b != 128 && wb != 128) || (rafOpc w == opMx256k && bk == 16)
    || (f.share == 2 && decide (f.b ≤ f.nbp)) then some 0x04
  else
    match set with
    | none => some 0x05
    | some s =>
      if s.shape ≠ rafShape w then some 0x05
      else if rafAcm w ≠ 0 && (rafAccRow w % 8 != 0 || decide (128 < rafAccRow w + outRows w s)
          || (rafOpc w == opMt128 && decide (128 < rafM w))) then some 0x07
      else none

/-- The set of the latest SLOAD of a half: one that waits, one that loads, or the valid shadow set. -/
def RafArray.latest (r : RafArray) (loads : List (Nat × List Word)) (half c : Nat) : Option RafSet :=
  match loads.reverse.find? (fun l => sldHalf l.2 == half) with
  | some l => some (setShell c l.2)
  | none => match tfind r.loading half with | some s => some s | none => tfind r.shadow half

/-- The active set of a half; none when an SLOAD yet to begin takes its registers (Table 04-1). -/
def RafArray.still (r : RafArray) (loads : List (Nat × List Word)) (half : Nat) : Option RafSet :=
  if loads.any (fun l => r.i16 || rafF l.2 0 23 20 == fmtI16) then none else tfind r.active half

/-- The set an instruction would run on: the latest SLOAD's under RSL, else the active one, of its own context (R108). -/
def RafArray.setFor (r : RafArray) (loads : List (Nat × List Word)) (w : RafIns) (c : Nat) : Option RafSet :=
  match (if rafRsl w then r.latest loads (rafHalf w) c else r.still loads (rafHalf w)) with
  | some s => if s.ctx = c then some s else none
  | none => none

/-- Row slots of one streamed row (R104); two vectors share one in doubled mode (R103). Answered in half slots. -/
def halfSlots (w : RafIns) (set : RafSet) : Nat :=
  if rafSfmt w = fmtI16 then 8 else if rafOpc w = opMt128 && decide (set.ncols ≤ 64) then 1 else 2

/-- Streamed rows in one group of entries. -/
def groupRows (w : RafIns) : Nat := if rafOpc w = opMt128 then 128 else 8

/-- Streamed rows of a segment (R113). -/
def Device.segRows (d : Device) (t c : Nat) (w : RafIns) (set : RafSet) : Nat :=
  let slots := (d.ctx c).lenLimit * d.mhzNow t / 1000
  if rafM w * halfSlots w set ≤ 2 * slots then max 1 (rafM w)
  else max 1 (2 * slots / (groupRows w * halfSlots w set)) * groupRows w

/-- Drain slots in use or reserved (R112). -/
def onesOf (m : BitVec 8) : Nat := (List.range 8).countP (fun i => m.toNat.testBit i)

def PendEntry.slots (p : PendEntry) : Nat :=
  if p.acm = 1 ∨ p.acm = 2 then 0 else if p.mt then p.rows else p.xs.length

def RafArray.drainUsed (r : RafArray) : Nat :=
  (r.drain.foldl (fun n e => n + onesOf e.rowmask) 0) + r.inflight.foldl (fun n e => n + e.slots) 0

/-- Streamed rows that may enter now: to the end of the segment, as far as drain slots reach (R112); a group of vectors of
MT.128 fills the rows of its entries together. -/
def admissible (w : RafIns) (set : RafSet) (r : RafArray) (row seg : Nat) : Nat :=
  let want := min (rafM w) ((row / seg + 1) * seg) - row
  if rafAcm w = 1 || rafAcm w = 2 then want
  else
    let free := 272 - r.drainUsed
    if rafOpc w = opMt128 then min want (free / max 1 set.ncols * 128) else min want free

/-- The streamed rows or vectors `is` as sides (R72, R73, R102). -/
def Device.streamed (d : Device) (c t unit : Nat) (w : RafIns) (k : Nat) (is : List Nat) : Device × Fed (List Side) :=
  let sf := rafSfmt w
  let f := feedOf w sf
  let zv := rafOpc w == opMt128 && rafF w 3 32 32 == 1 && isQ8 sf
  match d.rafReads c t unit (is.map (fun i => (f.addr + i * f.pitch, k * rafSize sf))) with
  | (d, .fail e) => (d, .fail e)
  | (d, .skew a b x y) => (d, .skew a b x y)
  | (d, .ok data) =>
    match d.rafReads c t unit (if zv then is.map (fun i => (rafF w 3 31 0 + i, 1)) else []) with
    | (d, .fail e) => (d, .fail e)
    | (d, .skew a b x y) => (d, .skew a b x y)
    | (d, .ok zs) =>
      match d.rafScaleRows c t unit 0 f k is with
      | (d, .fail e) => (d, .fail e)
      | (d, .skew a b x y) => (d, .skew a b x y)
      | (d, .ok exps) =>
        let side (n : Nat) : Side :=
          let zp := rafZp sf (if zv then leNat (zs.getD n []) else rafF w 0 31 24)
          ⟨(List.range k).map (fun j => rafCode sf (data.getD n []) j - zp), exps.getD n [], f.share, f.b⟩
        (d, .ok ((List.range is.length).map side))

/-- The entries that the group of streamed rows from `row` on forms, no row of which is in yet (R102, R110): one for MX
shapes; for MT.128 one for every 8 stationary vectors. -/
def groupEntries (a c : Nat) (w : RafIns) (set : RafSet) (row : Nat) : List PendEntry :=
  let mt := rafOpc w == opMt128
  let per := if mt then ceilDiv set.ncols 8 else 1
  let g := row / groupRows w
  let total := per * ceilDiv (rafM w) (groupRows w)
  let want := min (groupRows w) (rafM w - g * groupRows w)
  (List.range per).map fun e =>
    let seq := g * per + e
    let first := if mt then 8 * e else row
    { hdr := { array := a, ctx := c, tag := rafTag w, half := rafHalf w, seq := seq
               rowmask := BitVec.ofNat 8 (2 ^ (if mt then min 8 (set.ncols - first) else want) - 1)
               last := decide (seq + 1 = total), empty := set.krows == 0, rows := [], xs := [], popped := 0 }
      acm := rafAcm w, bankEntry := rafAccRow w / 8 + (if mt then e else g), firstRow := first
      want := want, row0 := g * groupRows w, xs := [], set := set, w := w }

/-- One more streamed row joins the entries of its instruction and half that still take rows. -/
def PendEntry.take (w : RafIns) (x : Side) (p : PendEntry) : PendEntry :=
  if p.w = w ∧ p.full = false then { p with xs := p.xs ++ [x] } else p

/-- Streamed rows from `row` on enter the cells. -/
def admitRows (a c : Nat) (w : RafIns) (set : RafSet) : Nat → List Side → List PendEntry → List PendEntry
  | _, [], l => l
  | row, x :: xs, l =>
    let l := if row % groupRows w = 0 then l ++ groupEntries a c w set row else l
    admitRows a c w set (row + 1) xs (l.map (PendEntry.take w x))

/-- On the arrays of a task: the odd array of a pair takes each row's other half (R101). -/
def Device.onArrays (d : Device) (a : Nat) (pair : Bool) (f : Device → Nat → Device) : Device :=
  let d := f d a
  if pair then f d (a + 1) else d

/-- The permitted fraction of slots in sixteenths (R125). -/
def Device.permit (d : Device) (t a : Nat) (pair : Bool) : Nat :=
  if pair then min (d.rafa t a).duty (d.rafa t (a + 1)).duty else (d.rafa t a).duty

/-- Bubbles that `n` rows bring with them at a permitted fraction of `u` sixteenths, beside those of late operands. -/
def withBubbles (n u bubbles : Nat) : Nat := max bubbles (ceilDiv (n * (16 - u)) (max 1 u))

/-! ### Admitting rows -/

/-- Loads again the active sets that this context has in the array, from their SLOAD sources (R120, R123). -/
def Device.reloadActive (d : Device) (t : Truss) (a : ArrayNo) (x : RafTask) :
    Tbl RafSet → Device × Fed Unit
  | [] => (d.mapRafa t a (fun r => { r with reload := false }), .ok ())
  | p :: ps =>
    if p.2.ctx ≠ x.job.ctx then d.reloadActive t a x ps
    else
      match d.loadSet x.job.ctx t (rafUnit t a) p.2.source with
      | (d, .ok set) =>
        (d.mapSets t a x.pair (fun r => { r with active := putSet r.active p.1 set })).reloadActive t a x ps
      | (d, .fail e) => (d, .fail e)
      | (d, .skew o q r pos) => (d, .skew o q r pos)

/-- Before a valid row, the active sets are loaded again if a ballast mismatch was met (R123). -/
def Device.refresh (d : Device) (t : Truss) (a : ArrayNo) (x : RafTask) : Device × Fed Unit :=
  if (d.rafa t a).reload then d.reloadActive t a x (d.rafa t a).active else (d, .ok ())

/-- The bank ranges of two MX.64P instructions do not meet. -/
def bankApart (v w : RafIns) : Bool :=
  rafAcm v == 0 || rafAcm w == 0 ||
    decide (rafAccRow v / 8 + ceilDiv (rafM v) 8 ≤ rafAccRow w / 8) || decide (rafAccRow w / 8 + ceilDiv (rafM w) 8 ≤ rafAccRow v / 8)

/-- Whether an instruction may run beside the one before it (R98). -/
def RafStream.beside (s p : RafStream) : Bool :=
  p.idx + 1 == s.idx && rafOpc s.w == opMx64p && rafOpc p.w == opMx64p && rafHalf s.w != rafHalf p.w && bankApart p.w s.w

/-- Whether a decoded instruction may begin: the instruction before it has admitted its last row or runs beside it (R98),
and the set that it reslates is valid (R96). -/
def RafSeq.mayBegin (q : RafSeq) (r : RafArray) (s : RafStream) : Bool :=
  (q.streams.filter (fun p => p.idx < s.idx)).all (fun p => p.begun && s.beside p) &&
    (!rafRsl s.w || ((tfind r.loading (rafHalf s.w)).isNone && !q.loads.any (fun l => decide (l.1 < s.idx) && sldHalf l.2 == rafHalf s.w)))

/-- The instructions under way with `s` at its new place; done when all its rows are in. -/
def RafSeq.put (q : RafSeq) (s : RafStream) : RafSeq :=
  { q with streams := (q.streams.map (fun p => if p.idx = s.idx then s else p)).filter (fun p => p.row < rafM p.w) }

/-- Admits `n` streamed rows of an instruction on its set (R110 to R112, R117). The rows, bubbles and reslates of a pair count on
its even array only (DESIGN CHOICE, log entry 119). -/
def Device.takeInstruction (d : Device) (t : Truss) (a : ArrayNo) (x : RafTask) (s : RafStream) (set : RafSet) (n bubbles : Nat) :
    Device :=
  Device.fed (d.streamed x.job.ctx t (rafUnit t a) s.w set.krows ((List.range n).map (s.row + ·))) t a x fun d xs =>
    let d := d.onArrays a x.pair (fun d a => d.rowsEnter t a bubbles)
    let d := d.mapRafa t a (fun r => { r with inflight := admitRows a x.job.ctx s.w set s.row xs r.inflight })
    let d := (d.count (Reg.RAF_ROWS t a) n).count (Reg.RAF_BUBBLES t a) bubbles
    let d := d.charge x.job.ctx .rafMac (n * set.krows * set.ncols * (if rafSfmt s.w = fmtI16 then 4 else 1)) t
    let d := if set.krows = 0 then d.noteJob x.job.id noteEmptyRed else d
    d.rafAt x.job.id (x.seq.put { s with begun := true, row := s.row + n })

/-- The reslate of an instruction with RSL, which rides on its first row (R96). -/
def Device.reslateFor (d : Device) (t a : Nat) (x : RafTask) (s : RafStream) (set : RafSet) : Device :=
  if !s.begun && rafRsl s.w then
    (d.mapSets t a x.pair (fun r => r.reslate (rafHalf s.w) set)).count (Reg.RAF_RESLATES t a) 1
  else d

/-- The set that an instruction runs on as its next rows enter. -/
def RafArray.setOf (r : RafArray) (s : RafStream) : Option RafSet :=
  tfind (if !s.begun && rafRsl s.w then r.shadow else r.active) (rafHalf s.w)

/-- Rows of an instruction enter as far as the segment, the drain buffer and the permitted fraction let them; a first row
takes the reslate with it, and RAF_CTRL in force from here on. -/
def Device.rafRows (d : Device) (t : Truss) (a : ArrayNo) (x : RafTask) (s : RafStream) (set : RafSet) (bubbles : Nat) : Device :=
  let n := admissible s.w set (d.rafa t a) s.row s.seg
  if n = 0 then (d.count (Reg.RAF_BUBBLES t a) bubbles).count (Reg.RAF_DRAIN_STALL t a) bubbles
  else if d.permit t a x.pair = 0 then d.onArrays a x.pair (fun d a => (d.fillCount t a).rampUp t a)
  else
    let d := if s.begun then d else d.mapRafa t a (fun r => { r with ctrl := some (d.reg (Reg.RAF_CTRL t a)) })
    (d.reslateFor t a x s set).takeInstruction t a x s set n (withBubbles n (d.permit t a x.pair) bubbles)

/-- An instruction under way goes on, or begins when it may; one without rows only reslates (R96, R98, R104, R115). -/
def Device.rafGo (d : Device) (t : Truss) (a : ArrayNo) (x : RafTask) (s : RafStream) (bubbles : Nat) : Device :=
  if !s.begun && !x.seq.mayBegin (d.rafa t a) s then d
  else if rafSfmt s.w = fmtI16 && !(d.rafa t a).loading.isEmpty then d
  else
    Device.fed (d.refresh t a x) t a x fun d _ =>
      match (d.rafa t a).setOf s with
      | none => d
      | some set =>
        if rafM s.w = 0 then (d.reslateFor t a x s set).rafGoOn t a x (x.seq.put s)
        else d.rafRows t a x s set bubbles

/-- The compute instruction that the sequencer has come to is decoded and checked, once the one before it has admitted its
first row (R98, R108). -/
def Device.rafDecode (d : Device) (t : Truss) (a : ArrayNo) (x : RafTask) (w : RafIns) : Device × Option (RafTask × RafStream) :=
  if !x.seq.streams.all (·.begun) then (d, none)
  else
    let set := (d.rafa t a).setFor x.seq.loads w x.job.ctx
    match computeCause w (d.rafCaps t a) x.pair set, set with
    | some c, _ => (d.rafRefuse t a x c, none)
    | none, none => (d, none)
    | none, some set =>
      let s : RafStream := ⟨x.seq.pc, w, false, 0, d.segRows t x.job.ctx w set⟩
      let q := { x.seq.next with streams := x.seq.streams ++ [s] }
      (d.rafAt x.job.id q, some ({ x with seq := q }, s))

/-- A compute instruction: the oldest under way of this kind goes on, and the next one, when it is of this kind, is
decoded; with none under way the next one is decoded and goes on. -/
def Device.rafCompute (d : Device) (t : Truss) (a : ArrayNo) (op half bubbles : Nat) : Device :=
  let mine (w : RafIns) : Bool := rafOpc w == op && rafHalf w == half
  match d.rafTask? t a with
  | none => d
  | some x =>
    if x.stopping then d
    else
      match x.seq.streams.find? (fun s => mine s.w) with
      | some s =>
        match (d.rafGo t a x s bubbles).rafMeet t a op with
        | (d, some (x, w)) => if mine w then (d.rafDecode t a x w).1 else d
        | (d, none) => d
      | none =>
        match d.rafMeet t a op with
        | (d, some (x, w)) =>
          if mine w then
            match d.rafDecode t a x w with
            | (d, some (x, s)) => d.rafGo t a x s bubbles
            | (d, none) => d
          else d
        | (d, none) => d

/-- RAF_MX128 (R94, R98, R104). -/
def execRafMx128 (t : Truss) (a : ArrayNo) (bubbles : Nat) (s : State) : Host.Outcome State Fault Refusal :=
  onDevice s fun d => d.rafCompute t a opMx128 0 bubbles

/-- RAF_MX64P (R100). -/
def execRafMx64p (t : Truss) (h : HalfArray) (bubbles : Nat) (s : State) : Host.Outcome State Fault Refusal :=
  onDevice s fun d => d.rafCompute t h.array opMx64p h.half bubbles

/-- RAF_MX256K (R101). -/
def execRafMx256k (t : Truss) (a : ArrayNo) (bubbles : Nat) (s : State) : Host.Outcome State Fault Refusal :=
  onDevice s fun d => d.rafCompute t a opMx256k 0 bubbles

/-- RAF_MT128 (R102, R103). -/
def execRafMt128 (t : Truss) (a : ArrayNo) (bubbles : Nat) (s : State) : Host.Outcome State Fault Refusal :=
  onDevice s fun d => d.rafCompute t a opMt128 0 bubbles

/-! ### Narrowing, checks and the queue -/

/-- Holds a mismatch in RAF_ABFT_INFO unless one is held (R128). -/
def Device.abftInfo (d : Device) (t a row : Nat) (col : Option Nat) (ctx tag kblk kind : Nat) (retried : Bool) : Device :=
  if d.fld (Reg.RAF_ABFT_INFO t a) Fld.RAF_ABFT_INFO_VALID = 1 then d
  else d.setReg (Reg.RAF_ABFT_INFO t a)
    (pack [(0, 16, row), (16, 7, col.getD 0), (23, 1, b2n col.isSome), (24, 6, ctx), (32, 8, tag), (40, 4, kblk), (44, 4, kind),
           (48, 1, b2n retried), (63, 1, 1)])

/-- A failing check is counted, held and logged, and reported to the suspect-truss handling; when the replay does not pass,
the task ends (R120). -/
def Device.rafMismatch (d : Device) (t : Truss) (a : ArrayNo) (x : RafTask) (tag : Nat) (m : Mismatch) (passed : Bool) : Device :=
  let d := d.count (if passed then Reg.RAF_ABFT_RETRY_OK t a else Reg.RAF_ABFT_ERR t a) 1
  let d := d.abftInfo t a m.row m.col x.job.ctx tag m.kblk m.kind passed
  let d := d.log 0x01 (if passed then 2 else 0) (rafUnit t a) x.job.ctx (if passed then 1 else 2) 0 (d.reg (Reg.RAF_ABFT_INFO t a))
    (d.reg (Reg.RAF_ABFT_ERR t a))
  if passed then (d.noteJob x.job.id noteRetryOk).suspect t
  else (d.rafFail t a x (endC stAbft 0 (rafUnit t a) m.row 0)).suspect t

/-- Entries in the cells are computed again: their set is loaded again from its SLOAD source and their rows are read again;
the device account pays (R120, Table 14-2). -/
def Device.replay (d : Device) (t : Truss) (a : ArrayNo) (x : RafTask) : List PendEntry → Device × Fed (List PendEntry)
  | [] => (d, .ok [])
  | p :: ps =>
    match d.loadSet x.job.ctx t (rafUnit t a) p.set.source with
    | (d, .fail e) => (d, .fail e)
    | (d, .skew o q r pos) => (d, .skew o q r pos)
    | (d, .ok set) =>
      match d.streamed x.job.ctx t (rafUnit t a) p.w set.krows ((List.range p.xs.length).map (p.row0 + ·)) with
      | (d, .fail e) => (d, .fail e)
      | (d, .skew o q r pos) => (d, .skew o q r pos)
      | (d, .ok xs) =>
        let d := d.charge deviceAccount .rafMac (if p.mt && p.firstRow != 0 then 0 else
          xs.length * set.krows * set.ncols * (if rafSfmt p.w = fmtI16 then 4 else 1)) t
        match Device.replay d t a x ps with
        | (d, .ok l) => (d, .ok ({ p with set := set, xs := xs } :: l))
        | (d, .fail e) => (d, .fail e)
        | (d, .skew o q r pos) => (d, .skew o q r pos)

/-- Where a narrowed entry goes by its ACM (R105, R110). -/
def Device.rafPlace (d : Device) (t : Truss) (a : ArrayNo) (x : RafTask) (p : PendEntry) (errs : List CellErr) : Device :=
  let new := narrowEntry (p.cells errs)
  let key := bankKey (d.slotNo x.job.ctx t) p.bankEntry
  let push (d : Device) (b : BankEntry) : Device :=
    d.mapRafa t a (fun r => { r with drain := r.drain ++ [{ p.hdr with rows := b.rows, xs := b.xs }] })
  if p.acm = 0 then push d new
  else if p.acm = 1 then d.mapRafa t a (fun r => { r with bank := tset r.bank key new })
  else
    let sum := bankAdd (tget (d.rafa t a).bank key zeroBank) new
    let d := d.report x.job.id (reportCounts sum.2 0)
    if p.acm = 2 then d.mapRafa t a (fun r => { r with bank := tset r.bank key sum.1 })
    else push (d.mapRafa t a (fun r => { r with bank := tdel r.bank key })) (sum.1.masked p.rows p.cols)

/-- The oldest entry whose rows are all in, with those before and after it. -/
def splitFull : List PendEntry → Option (List PendEntry × PendEntry × List PendEntry)
  | [] => none
  | p :: ps =>
    if p.full then some ([], p, ps)
    else match splitFull ps with
      | some (l, q, r) => some (p :: l, q, r)
      | none => none

/-- RAF_ENTRY_READY (R53, R105, R106, R110, R118 to R121): the oldest entry in the cells is narrowed and checked, and goes
to the drain buffer or into the bank. `u` says what goes wrong in it, and in a replay, which loads
the active set again and computes this entry and those after it again. -/
def execRafEntryReady (t : Truss) (a : ArrayNo) (u : AbftRuns) (s : State) : Host.Outcome State Fault Refusal :=
  onDevice s fun d =>
    match d.rafTask? t a, splitFull (d.rafa t a).inflight with
    | some x, some (l, p, r) =>
      let en := Fld.RAF_CTRL_ABFT_EN.of (d.rafCtrl t a) == 1
      match p.check en u.first with
      | none =>
        ((d.mapRafa t a (fun y => { y with inflight := l ++ r })).rafPlace t a x p u.first.errs).rafMaybeEnd t a x x.seq
      | some m =>
        if !en || Fld.RAF_CTRL_ABFT_RETRY.of (d.rafCtrl t a) = 0 then d.rafMismatch t a x p.hdr.tag m false
        else
          Device.fed (d.reloadActive t a x (d.rafa t a).active) t a x fun d _ =>
            Device.fed (d.replay t a x (p :: r)) t a x fun d ps =>
              let p := ps.headD p
              match p.check en u.again with
              | some m => d.rafMismatch t a x p.hdr.tag m false
              | none =>
                let d := d.rafMismatch t a x p.hdr.tag m true
                ((d.mapRafa t a (fun y => { y with inflight := l ++ ps.tail })).rafPlace t a x p u.again.errs).rafMaybeEnd t a x x.seq
    | _, _ => d

/-- The Lath engine that an array feeds: 0 for arrays 0 and 1 and 1 for arrays 2 and 3 unless the image routes it to the
other (01). -/
def Device.lathOf (d : Device) (t a : Nat) : Nat :=
  2 * t + (if (tget d.truss t default).crossed.toNat.testBit a then 1 - a / 2 else a / 2)

/-- The head of the drain buffer enters the queue of its Lath engine, whose owner it is or becomes. -/
def Device.pushEntry (d : Device) (t : Truss) (a : ArrayNo) (e : TileEntry) (rest : List TileEntry) (q : LthEngine) : Device :=
  let d := { d with lth := tset d.lth (d.lathOf t a) { q with queue := q.queue ++ [e], qowner := some e.ctx } }
  let d := d.mapRafa t a (fun r => { r with drain := rest })
  match d.rafTask? t a with
  | some x => d.rafMaybeEnd t a x x.seq
  | none => d

/-- TILE_ENTRY_PUSH (R17, R112, R119, R120, R137): the head of the drain buffer enters the queue of its Lath engine when the
queue has room and is empty or owned by the entry's context. -/
def execTileEntryPush (t : Truss) (x : TilePush) (s : State) : Host.Outcome State Fault Refusal :=
  onDevice s fun d =>
    let a := x.array
    match (d.rafa t a).drain with
    | [] => d
    | e :: rest =>
      let q := tget d.lth (d.lathOf t a) default
      if !d.engineOn t || 8 ≤ q.queue.length || !(q.queue.isEmpty || q.qowner == some e.ctx) then d
      else
        match x.code, d.rafTask? t a with
        | some c, some x =>
          let ctrl := d.rafCtrl t a
          let passed := Fld.RAF_CTRL_ABFT_EN.of ctrl == 1 && Fld.RAF_CTRL_ABFT_RETRY.of ctrl == 1 && c.2.2
          let d := d.rafMismatch t a x e.tag ⟨8 * e.seq + c.1, some c.2.1, 0, 6⟩ passed
          if passed then d.pushEntry t a e rest q else d
        | _, _ => d.pushEntry t a e rest q

/-! ### Ballast (R122 to R125) -/

/-- BALLAST_MISMATCH (R123). -/
def execBallastMismatch (t : Truss) (a : ArrayNo) (col : Option Nat) (s : State) : Host.Outcome State Fault Refusal :=
  onDevice s fun d =>
    if Fld.RAF_CTRL_BALLAST_EN.of (d.rafCtrl t a) = 0 || Fld.RAF_CTRL_ABFT_EN.of (d.rafCtrl t a) = 0 || !d.engineOn t ||
        (d.rafa t a).duty = 0 then d
    else
      let d := (d.count (Reg.RAF_BALLAST_ERR t a) 1).abftInfo t a 0 col 0 0 0 5 false
      let d := (d.log 0x02 2 (rafUnit t a) noCtx 0 0 (d.reg (Reg.RAF_ABFT_INFO t a)) (d.reg (Reg.RAF_BALLAST_ERR t a))).suspect t
      d.mapRafa t a (fun r => { r with reload := true })

/-- RAF_BALLAST_WINDOW (R124, R125): WINDOW has passed with no valid row, or ballast is off, and the ramp-down starts. -/
def execRafBallastWindow (t : Truss) (a : ArrayNo) (s : State) : Host.Outcome State Fault Refusal :=
  onDevice s fun d =>
    let r := d.rafa t a
    let on := Fld.RAF_CTRL_BALLAST_EN.of (d.rafCtrl t a) == 1
    let w := if on then d.fld (Reg.RAF_BALLAST t a) Fld.RAF_BALLAST_WINDOW else 0
    if r.duty = 0 || r.rampDown || d.now < r.lastRow + w then d
    else
      (d.fillCount t a).mapRafa t a fun r =>
        { r with duty := r.duty - 1, rampDown := decide (1 < r.duty), rampUp := false, lastStep := d.now, filled := d.now
                 downStep := max 250 (d.fld (Reg.RAF_BALLAST t a) Fld.RAF_BALLAST_DOWN_STEP) }

/-- RAF_RAMP_DOWN_STEP (R124). -/
def execRafRampDownStep (t : Truss) (a : ArrayNo) (s : State) : Host.Outcome State Fault Refusal :=
  onDevice s fun d =>
    let r := d.rafa t a
    if !r.rampDown || d.now < r.lastStep + r.downStep then d
    else (d.fillCount t a).mapRafa t a (fun r =>
      { r with duty := r.duty - 1, rampDown := decide (1 < r.duty), lastStep := d.now, filled := d.now })

/-- RAF_RAMP_UP_STEP (R125). -/
def execRafRampUpStep (t : Truss) (a : ArrayNo) (s : State) : Host.Outcome State Fault Refusal :=
  onDevice s fun d =>
    let r := d.rafa t a
    if !r.rampUp || d.now < r.lastStep + r.upStep then d
    else (d.fillCount t a).mapRafa t a (fun r =>
      { r with duty := min 16 (r.duty + 1), rampUp := decide (r.duty + 1 < 16), lastStep := d.now, filled := d.now })

end Sys2Proof.Machine
end

