-- ==== Sys2Proof/Machine/Engines.lean ====
section
/-! DEFINITION. How engines choose, preload, stop and resume tasks (R137, R272, R284, R301 to R305). -/
namespace Sys2Proof.Machine

open Sys2Proof

/-- Whether an engine has no task on it; the odd array of a pair belongs to the pair (R101). -/
def Device.engineFree (d : Device) (e : Engine) : Bool :=
  (d.running? e).isNone &&
    (match e with
    | .raf t a => !(d.rafa t a).fused
    | _ => true)

/-- A task starts when every engine it needs is free: for a pair of arrays, both (R101). -/
def Device.enginesFree (d : Device) (j : Job) : Bool := j.engines.all d.engineFree

/-- An earlier task of the same buffer for the same engine has not ended (R272). -/
def Device.behind (d : Device) (j : Job) : Bool :=
  j.buf.isSome && d.jobs.any (fun k => k.buf == j.buf && k.engine == j.engine && decide (k.id < j.id) && k.state != .done)

/-- Tasks that may take an engine. -/
def Device.readyFor (d : Device) (e : Engine) : List Job :=
  d.jobs.filter (fun j => j.engine == some e && (j.state == .ready || j.state == .preempted) && !d.behind j)

/-- A pre-empted consumer of the owner of a Lath engine's queue, with entries queued (R137). -/
def Device.consumer (d : Device) (j : Job) : Bool :=
  match j.engine with
  | some (.lth t l) => j.state == .preempted && (d.lthe t l).qowner == some j.ctx && !(d.lthe t l).queue.isEmpty
  | _ => false

/-- It is resumed first when the engine next falls free: not in place of the task it was pre-empted for (R137). -/
def Device.consumerFirst (d : Device) (j : Job) : Bool :=
  match j.engine with
  | some (.lth t l) => d.consumer j && !(d.lthe t l).qpass
  | _ => false

/-- Whether task `a` ranks before task `b` (R272). -/
def Device.ranks (d : Device) (a b : Job) : Bool :=
  if d.consumerFirst a != d.consumerFirst b then d.consumerFirst a
  else if (d.ctx a.ctx).prio ≠ (d.ctx b.ctx).prio then decide ((d.ctx b.ctx).prio < (d.ctx a.ctx).prio)
  else decide (a.readyAt < b.readyAt)

/-- The task that an engine takes next. -/
def Device.nextTask (d : Device) (e : Engine) : Option Job :=
  (d.readyFor e).foldl (fun m j => match m with | none => some j | some b => if d.ranks j b then some j else m) none

/-- Drops what has been preloaded for an engine's tasks other than `keep` (R284). -/
def Device.dropAhead (d : Device) (e : Engine) (keep : Option Nat) : Device :=
  let mine (j : Job) : Bool := j.engine == some e && j.preloaded && some j.id != keep
  let n := d.jobs.countP mine
  { d with jobs := d.jobs.map (fun j => if mine j then { j with preloaded := false } else j) }.count Reg.RIDGE_AHEAD_DROP n

/-- Fills the first level with the translations of the addresses that a transfer's descriptor names, where the second
level holds them (R284). -/
def Device.fillAhead (d : Device) (e : Engine) (j : Job) : Device :=
  match e with
  | .hod t =>
    match d.ptrLoad j.ctx t (unitCode t 1) true j.cmd.c1 128 with
    | (_, .ok bs) =>
      let w := bytesWords bs
      let named := [(false, 1), (true, 2), (false, 10), (false, 11), (true, 12), (false, 15)].filter fun p =>
        !hodLoft w p.1 && (d.hodFar w p.1).isNone && wordAt w p.2 != 0
      named.foldl (fun d p => (d.lookupXlt j.ctx t (wordAt w p.2).toNat).1) d
    | _ => d
  | _ => d

/-- SHINGLE_AHEAD (R284): the next task of a busy engine is preloaded; what it reads, it reads again as it starts (log
entry 80). -/
def execShingleAhead (eng : Engine) (s : State) : Host.Outcome State Fault Refusal :=
  onDevice s fun d =>
    if d.clk.stage != .thatched || d.fld Reg.RIDGE_CTRL Fld.RIDGE_CTRL_AHEAD = 0 || (d.running? eng).isNone then d
    else
      match d.nextTask eng with
      | none => d
      | some j =>
        if j.preloaded || j.state != .ready || j.run != .none then d
        else ((d.dropAhead eng none).mapJob j.id (fun j => { j with preloaded := true })).fillAhead eng j

/-- Loads again the sets that a pre-empted Rafter task had, from their SLOAD sources (R113); sets of others stay where
these leave them room. -/
def Device.reloadSets (d : Device) (t : Truss) (a : ArrayNo) (x : RafTask) : List (Bool × Nat × List Word) → Device
  | [] => d
  | s :: ss =>
    match d.loadSet x.job.ctx t (rafUnit t a) s.2.2 with
    | (d, .ok set) =>
      let d := d.mapSets t a x.pair (fun r =>
        if s.1 then { r with shadow := putSet r.shadow s.2.1 set } else { r with active := putSet r.active s.2.1 set })
      Device.reloadSets d t a x ss
    | (d, .fail e) => d.rafFail t a x e
    | (d, .skew o p q pos) => d.rafSkew t a x o p q pos

/-- A resumed Rafter task takes its arrays again. -/
def Device.resumeRaf (d : Device) (t : Truss) (a : ArrayNo) (j : Job) : Device :=
  match j.run with
  | .raf p pair q saved =>
    let d := d.mapJob j.id (fun j => { j with run := .raf p pair q [] })
    let d := if pair then d.mapRafa t (a + 1) (fun r => { r with fused := true }) else d
    d.reloadSets t a ⟨j, p, pair, q⟩ saved
  | _ => d

/-- A task takes its engine. -/
def Device.startTask (d : Device) (e : Engine) (j : Job) : Device :=
  let d := d.dropAhead e (some j.id)
  let d := if j.preloaded then d.count Reg.RIDGE_AHEAD_HIT 1 else d
  let d := d.mapJob j.id (fun j => { j with state := .running, since := d.now, preloaded := false, preemptReq := false })
  match e with
  | .raf t a => d.resumeRaf t a j
  | .lth t l => d.setLthe t l { d.lthe t l with qpass := false, wait := 0 }
  | _ => d

/-- ENGINE_TASK_START (R137, R272, R284, R298, R301): a task that has not started still needs its share and its truss. -/
def execEngineTaskStart (eng : Engine) (s : State) : Host.Outcome State Fault Refusal :=
  onDevice s fun d =>
    if d.clk.stage != .thatched || engTruss eng == 16 || !d.engineFree eng then d
    else
      match d.nextTask eng with
      | none => d
      | some j =>
        match (if j.run = .none then d.trussEnding j.ctx (engTruss eng) (engUnit eng) j.index else none) with
        | some e => d.endJob j.id e
        | none => if d.engineOn (engTruss eng) && d.enginesFree j then d.startTask eng j else d

/-- Whether an engine stands at a pre-emption point (Table 10-3): between two of its steps, and for a Rafter array at an
instruction or segment boundary, once its rows in flight are pushed (R113); a task that ends there loses them (R109). -/
def Device.atPoint (d : Device) (e : Engine) (j : Job) : Bool :=
  match e, j.run with
  | .raf t a, .raf _ _ q _ => q.boundary && (j.forced || ((d.rafa t a).idle && (d.rafa t a).loading.isEmpty))
  | _, _ => true

/-- What a Rafter task keeps when it is stopped: the sources of its context's sets (R113). -/
def Device.saveSets (d : Device) (t : Truss) (a : ArrayNo) (j : Job) : Device :=
  let mine (shadow : Bool) (l : Tbl RafSet) : List (Bool × Nat × List Word) :=
    (l.filter (fun p => p.2.ctx == j.ctx)).map (fun p => (shadow, p.1, p.2.source))
  let saved := mine false (d.rafa t a).active ++ mine true (d.rafa t a).shadow
  d.mapJob j.id (fun j => match j.run with
    | .raf p pair q _ => { j with run := .raf p pair q saved }
    | _ => j)

/-- Lets go of what a task holds outside its own record when its engine is taken from it for good. -/
def Device.dropWork (d : Device) (e : Engine) (j : Job) : Device :=
  let d := d.dropRemotes j.id
  let d := { d with rowReqs := d.rowReqs.filter (fun r => r.job != j.id) }
  match e, j.run with
  | .raf t a, .raf _ pair _ _ => d.rafDrop t a pair
  | _, _ => d

/-- A task is stopped to go on later (R301, R305). -/
def Device.preemptTask (d : Device) (e : Engine) (j : Job) : Device :=
  let d := d.chargeBusy j.id
  let d := match e with | .raf t a => d.saveSets t a j | _ => d
  let d := match e, j.run with
    | .raf t a, .raf _ true _ _ => d.mapRafa t (a + 1) (fun r => { r with fused := false })
    | _, _ => d
  let d := d.mapJob j.id (fun j => { j with state := .preempted, preemptReq := false, run := j.run.hodAgain })
  let d := match e with
    | .lth t l => d.setLthe t l { d.lthe t l with qpass := d.consumer { j with state := .preempted } }
    | _ => d
  ((d.noteJob j.id notePreempted).count (Reg.CTX_PREEMPT j.ctx) 1).dropAhead e none

/-- ENGINE_PREEMPT (R298, R300 to R305). -/
def execEnginePreempt (eng : Engine) (s : State) : Host.Outcome State Fault Refusal :=
  onDevice s fun d =>
    if engTruss eng == 16 then d
    else
      match d.running? eng with
      | none => d
      | some j =>
        if !d.atPoint eng j then d
        else if j.forced then
          let d := (d.noteJob j.id notePreempted).count (Reg.CTX_PREEMPT j.ctx) 1
          (((d.endJob j.id (endC stInternal 0x09 (engUnit eng) 0 0)).dropWork eng j).dropAhead eng none)
        else if j.preemptReq && d.engineOn (engTruss eng) then d.preemptTask eng j
        else d

end Sys2Proof.Machine
end

