-- ==== Sys2Proof/Machine/Destroy.lean ====
section
/-! DEFINITION. Destroying a context (R288, R300, R378). -/
namespace Sys2Proof.Machine

open Sys2Proof

/-- Whether a model, table descriptor, course lane or attached client names a context (Table 10-2, cause 0x0B). -/
def Device.contextNamed (d : Device) (c : Nat) : Bool :=
  d.models.any (fun p => p.2.loaded && p.2.ctx == c)
    || d.tables.any (fun p => p.2.valid && p.2.ctx == c)
    || (List.range 4).any (fun l => d.fld (Reg.CRS_LANE_CFG l) Fld.CRS_LANE_CFG_CTX == c)
    || d.clients.any (fun p => p.2.attached && p.2.ctx == c)

/-- Entries of a context that have not started complete with cause 0x08 (R288). -/
def Device.endUnstarted (d : Device) (c : Nat) : Device :=
  (d.entries.filter (fun x => x.ctx == c && x.state == .accepted)).foldl
    (fun d x => d.completeEntry x (endC stInternal 0x08 0 0 0) default true) d

/-- The collectives of a context are aborted (R378). -/
def Device.abortCols (d : Device) (c : Nat) : Device :=
  [0, 1].foldl (fun d e =>
    let mine := (d.colEng e).running.filter (fun x => x.ctx == c)
    mine.foldl (fun d x =>
      (d.sendAborts e x 0x54).colFail e x 6 d.devnum (endC stInternal 0x09 (unitCode e 10) 0 0)) d) d

/-- Stops a context's work (R300, step 3): running tasks at their next pre-emption point, everything else at once. -/
def Device.forceContext (d : Device) (c : Nat) : Device :=
  let d := d.abortCols c
  let d := d.forceTasks (fun j => j.ctx == c)
  let launches := (d.bufs.filter (fun b => b.ctx == c)).map (·.job)
  let mine := d.jobs.filter (fun j => (j.ctx == c || launches.contains j.id) && j.state != .done && !(j.engine.isSome && j.state == .running))
  mine.foldl (fun d j => (d.endJob j.id (endC stInternal 0x09 (match j.engine with | some e => engUnit e | none => 0) 0 0)).dropCol j.id) d

/-- CTX_DESTROY (R288, R294, R296, R300). -/
def execCtxDestroy (j : Nat) (s : State) : Host.Outcome State Fault Refusal :=
  onServing s fun d =>
    match d.ctxOp? j .destroy with
    | none => d
    | some k =>
      let c := k.target
      let x := d.ctx c
      let force := bit k.cmd.c1 0
      let wait (d : Device) : Device :=
        let d := d.mapJob j (fun k => { k with state := .waiting })
        if force then d.forceContext c else d
      if c = 0 || x.state == 0 || k.ctxReserved .destroy then d.refuse k 0x0A
      else
        match x.destroy with
        | some (old, _, step) =>
          if !force then d.refuse k 0x0A
          else
            let d := d.endJob old (endC stInternal 0x0A 0 0 0)
            wait (d.setCtx c { x with destroy := some (j, true, step) })
        | none =>
          if d.contextNamed c then d.refuse k 0x0B
          else wait ((d.setCtx c { x with state := 2, destroy := some (j, force, 3) }).endUnstarted c)

/-- Whether work of a context is still in hand. -/
def Device.contextBusy (d : Device) (c : Nat) : Bool :=
  d.entries.any (fun x => x.ctx == c) || d.bufs.any (fun b => b.ctx == c)
    || d.jobs.any (fun j => j.ctx == c && j.entry != 0 && j.state != .done)

/-- Trusses that a context holds. -/
def Device.heldTrusses (d : Device) (c : Nat) : List Nat := (List.range 16).filter (fun t => (d.slotOf? c t).isSome)

/-- Step 4: every truss is released (R298). -/
def Device.releaseAll (d : Device) (c : Nat) (force : Bool) : Device :=
  (d.heldTrusses c).foldl (fun d t =>
    if (d.trussSt t).releasing.any (fun r => r.1 == c && (r.2.1 || !force)) then d else d.startRelease c t force none) d

/-- Step 5: translation requests are withdrawn, their answers will be discarded, and the translations go. -/
def Device.withdrawAll (d : Device) (c : Nat) : Device :=
  let d := (d.jobs.filter (fun j => j.ctx == c && j.entry == 0)).foldl (fun d j => d.endJob j.id (endC stViolation 0x50 0 0 0)) d
  { d with xlt := { d.xlt.removeCtx c with
      reqs := d.xlt.reqs.map (fun r => if r.ctx = c then { r with destroyed := true, since := d.now, waiters := [] } else r)
      ringHeld := d.xlt.ringHeld.filter (fun i => !d.xlt.reqs.any (fun r => r.reqid == i && r.ctx == c))
      full := d.xlt.full.filter (fun w => w.1.1 != c) } }

/-- Step 6: stored graphs are dropped. -/
def Device.dropGraphs (d : Device) (c : Nat) : Device :=
  (d.graphs.filter (fun p => p.2.owner == c)).foldl (fun d p => d.dropGraph p.1) d

/-- Step 7: waits on its fences end with cause 0x0C. -/
def Device.endWaits (d : Device) (c : Nat) : Device :=
  let stuck (x : Entry) : Bool :=
    x.ctx != c && x.state == .accepted && x.ending.isNone && x.wen && x.wctx == c && !atOrAfter (d.fence c x.widx) x.wval
  let d := { d with entries := d.entries.map (fun x => if stuck x then { x with ending := some (endC stInternal 0x0C 0 0 0) } else x) }
  d.bufs.foldl (fun d b =>
    match d.atControl? b.id 0x08 with
    | some (x, k) =>
      if k.arg 36 31 = c ∧ !atOrAfter (d.fence c (k.arg 30 19)) k.c1 = true then d.bufFail x k (endC stInternal 0x0C 0 x.pc 0) else d
    | none => d) d

/-- One step of R300 from step 3 on; none when it must wait. -/
def Device.destroyStep (d : Device) (c : Nat) : Option Device :=
  let x := d.ctx c
  match x.destroy with
  | none => none
  | some (j, force, step) =>
    let go (d : Device) (n : Nat) : Option Device := some (d.setCtx c { d.ctx c with destroy := some (j, force, n) })
    if step = 3 then (if d.contextBusy c then none else go (d.releaseAll c force) 4)
    else if step = 4 then (if !(d.heldTrusses c).isEmpty then none else go ((((d.withdrawAll c).dropGraphs c).endWaits c)) 8)
    else if !(d.gutter c).held.isEmpty then none
    else
      match d.meterFinal c with
      | none => none
      | some d => some ((d.setCtx c default).endJob j endOk)

/-- Steps of R300 as far as they go. -/
def Device.destroyGo : Nat → Device → Nat → Device
  | 0, d, _ => d
  | f + 1, d, c => match d.destroyStep c with | some d => Device.destroyGo f d c | none => d

/-- DESTROY_PROCEED (R300): a forced destruction goes on stopping work that has come up. -/
def execDestroyProceed (c : Ctx) (s : State) : Host.Outcome State Fault Refusal :=
  onServing s fun d =>
    match (d.ctx c).destroy with
    | none => d
    | some (_, force, step) =>
      let d := if force then (if step = 3 then d.forceContext c else if step = 4 then d.releaseAll c true else d) else d
      d.destroyGo 4 c

end Sys2Proof.Machine
end

