-- ==== Sys2Proof/Machine/Resets.lean ====
section
/-! DEFINITION. The resets of Table 15-11: the device reset and the drop to Stage Tarp; and how a management
reply goes out and a Flashing command ends (R428, R461, R462). -/
namespace Sys2Proof.Machine

open Sys2Proof

/-! ### Management replies (R461, R462) -/

/-- The replies to the last 32 requests of a source are kept (R462). -/
def keepReply (ks : List Kept) (k : Kept) : List Kept :=
  let mine := ks.filter (fun x => x.src == k.src)
  let drop := mine.take (mine.length - 31)
  ks.filter (fun x => x.src != k.src || !drop.contains x) ++ [k]

/-- A reply goes out on the port its request came in on. -/
def Device.sendReply (d : Device) (p : Nat) (k : Kept) : Device :=
  (d.count (Reg.ETH_TX_FRAMES p) 1).emit (.mgmtReply k.src k.seq k.status k.values k.data)

def Device.replyKept (d : Device) (p : Nat) (k : Kept) : Device :=
  { d.sendReply p k with fls := { d.fls with kept := keepReply d.fls.kept k } }

/-! ### How Flashing commands end (R428, R429) -/

/-- STATUS of a Flashing command (Table 15-15). -/
def flsOk : Nat := 0
def flsRefused : Nat := 1
def flsBusy : Nat := 2
def flsNotPermitted : Nat := 3
def flsAborted : Nat := 4

/-- How a Flashing command ended: STATUS, CAUSE and its results. -/
structure FlsEnd where
  status : Nat
  cause : Nat
  res0 : Word
  res1 : Word

def flsDone (status cause : Nat) : FlsEnd := ⟨status, cause, 0, 0⟩

/-- FLS_MBOX_STAT of an ended command, IGNORED as it stands. -/
def mboxStat (tag ignored : Nat) (e : FlsEnd) : Word :=
  pack [(1, 1, 1), (2, 1, ignored), (8, 8, e.status), (16, 8, tag), (24, 8, e.cause)]

/-- Ends a command on its path: results first, then BUSY falls and DONE rises (R428), or the reply goes out. The
reply's STATUS is that of the command, refused for an aborted one (log entry 90). -/
def Device.flsFinish (d : Device) (r : FlsReq) (e : FlsEnd) : Device :=
  match r with
  | .mailbox _ =>
    let d := (d.setReg (Reg.FLS_MBOX_RES 0) e.res0).setReg (Reg.FLS_MBOX_RES 1) e.res1
    let ign := d.fld Reg.FLS_MBOX_STAT Fld.FLS_MBOX_STAT_IGNORED
    let d := d.setReg Reg.FLS_MBOX_STAT (mboxStat d.fls.mboxTag ign e)
    { d with fls := { d.fls with mboxBusy := false, mboxAsked := none } }
  | .mgmt h tag _ _ _ _ _ =>
    d.replyKept h.port
      { src := h.src, seq := h.seq, status := if e.status = flsAborted then flsRefused else e.status
        values := [mboxStat tag.toNat 0 e, e.res0, e.res1], data := [] }

/-- A command that the partition is carrying out, or that has been handed over, ends ABORTED (R428, R453); management
commands that wait are answered BUSY (R429). -/
def Device.flsAbort (d : Device) : Device :=
  let job := d.fls.imageJob
  let waiting := d.fls.line
  let d := { d with fls := { d.fls with imageJob := none, line := [] } }
  let d := waiting.foldl (fun d w => match w with
    | .mailbox => d
    | .mgmt _ r _ => d.flsFinish r (flsDone flsBusy 0)) d
  let d := match job with | some (_, r) => d.flsFinish r (flsDone flsAborted 0) | none => d
  if d.fls.mboxBusy then d.flsFinish (.mailbox true) (flsDone flsAborted 0) else d

/-! ### Resets -/

/-- Registers that a drop to Tarp leaves: counters (R415) and the counts of the fault-log and metering rings. -/
def keptOverDrop (off : Nat) : Bool :=
  off == Reg.FLT_LOG_PROD || off == Reg.FLT_LOG_CONS || off == Reg.MTR_RING_PROD || off == Reg.MTR_RING_CONS
    || (match regRowAt off with | some r => r.counter | none => false)

/-- The Tarp drop of Table 15-11: all domains but the Flashing partition, the Ethernet management path and the
1 GHz counter. Every engine stops, every queue pair and context goes, the links go down, and the bypasses close. -/
def Device.dropDomains (d : Device) : Device :=
  let d := (d.links.filter (fun p => p.2.isUp)).foldl (fun d p => d.count (Reg.LNK_DOWNS p.1) 1) d
  { Device.reset with
    clk := { Device.reset.clk with
      stage := .tarp, now := d.clk.now, counting := d.clk.counting, coreOk := d.clk.coreOk, linkOk := d.clk.linkOk
      netOk := d.clk.netOk, pwrgd := d.clk.pwrgd, resetL := d.clk.resetL, thermtrip := d.clk.thermtrip
      temps := d.clk.temps, watts := d.clk.watts, startKind := d.clk.startKind, priorTarp := d.clk.priorTarp
      priorTrip := d.clk.priorTrip, endedTarp := d.clk.endedTarp, endedTrip := d.clk.endedTrip
      flsRestarts := d.clk.flsRestarts }
    fls := { d.fls with
      bank := 0, imgMajor := 0, runSvnDev := 0, runSvnTruss := 0, majorMismatch := false, vcore := [], trussImages := []
      torus := [], roles := [], neighbours := [] }
    regs := d.regs.filter (fun p => keptOverDrop p.1)
    meter := { d.meter with ovfAcct := false, ovfTotal := false }
    ports := d.ports
    logSeq := d.logSeq
    out := d.out
    free := d.free }

/-- Accepted entries that have no record, records still held included (R411). -/
def Device.noRecord (d : Device) : Nat :=
  d.entries.countP (fun x => x.state != .completed)
    + d.gut.foldl (fun n p => n + p.2.held.countP (fun r => !r.isEvent)) 0

/-- The device drops to Stage Tarp (R411): a fatal record of kind 0x11 with ACTION 9 reports it. -/
def Device.tarpDropNow (d : Device) (cause micros : Nat) : Device :=
  let n := d.noRecord
  let d := d.flsAbort.dropDomains
  let d := { d with
    clk := { d.clk with endedTarp := true }
    fls := { d.fls with restarting := false, unrecorded := n, heldEvents := [], heldRecs := [] } }
  d.log 0x11 1 0 noCtx 9 0 (BitVec.ofNat 64 cause) (BitVec.ofNat 64 micros)

/-- What the Flashing partition's non-volatile store and fuses hold through a device reset (Table 15-1). -/
def Flashing.stored (f : Flashing) : Flashing :=
  { (default : Flashing) with
    autostart := f.autostart, plimit := f.plimit, bankA := f.bankA, bankB := f.bankB, fwA := f.fwA, fwB := f.fwB
    nextBank := f.nextBank, fwNext := f.fwNext, storedRecs := f.storedRecs, storedQuar := f.storedQuar
    storedStep := f.storedStep, phy := f.phy, silicon := f.silicon, uniqueId := f.uniqueId, mac := f.mac
    enrolled := f.enrolled, revoked := f.revoked, ownerOnly := f.ownerOnly, svnFw := f.svnFw, svnDev := f.svnDev
    svnTruss := f.svnTruss, keyHash := f.keyHash }

/-- The device reset of Table 15-11, with the pins as given; a tripped device stays tripped while it has power
(R445, R468). -/
def Device.fullReset (d : Device) (pwrgd resetL : Bool) : Device :=
  let tripped := d.clk.stage == .tripped && pwrgd
  { Device.reset with
    clk := { Device.reset.clk with
      stage := if tripped then .tripped else .off, pwrgd := pwrgd, resetL := resetL, thermtrip := tripped
      endedTarp := d.clk.endedTarp, endedTrip := d.clk.endedTrip }
    fls := d.fls.stored
    out := d.out
    free := d.free }

/-! ### Coming out of reset (R468) and RESTART (R444) -/

/-- A start begins, on its way to Stage Tarp; RST_CAUSE takes how the previous run ended (Table 15-19). -/
def Device.beginStart (d : Device) (kind : Nat) : Device :=
  { d with clk := { d.clk with
      stage := .beforeTarp, startKind := kind, priorTarp := d.clk.endedTarp, priorTrip := d.clk.endedTrip
      endedTarp := false, endedTrip := false, flsRestarts := 0 } }

/-- POWER_GOOD (R468): PWRGD rises, and RESET_L with it unless it is late; the device leaves reset when both are
high. -/
def execPowerGood (resetLate : Bool) (s : State) : Host.Outcome State Fault Refusal :=
  onDevice s fun d =>
    if d.clk.pwrgd && d.clk.resetL then d
    else
      let kind := if d.clk.pwrgd then 2 else 1
      let d := { d with clk := { d.clk with pwrgd := true, resetL := d.clk.resetL || !resetLate } }
      if d.clk.resetL && d.clk.stage == .off then d.beginStart kind else d

/-- DEVICE_RESET (R452, R468): PWRGD or RESET_L falls. -/
def execDeviceReset (pwrgd resetL : Bool) (s : State) : Host.Outcome State Fault Refusal :=
  onDevice s fun d =>
    let p := d.clk.pwrgd && pwrgd
    let r := d.clk.resetL && resetL
    if p = d.clk.pwrgd ∧ r = d.clk.resetL then d else d.fullReset p r

/-- THERMAL_TRIP (R5, R410, R445): at 115 °C every engine stops, the bypasses close, THERMTRIP_L is asserted and a
fatal record is written; nothing runs until power is removed, a Flashing restart in progress included. -/
def execThermalTrip (celsius : Nat) (s : State) : Host.Outcome State Fault Refusal :=
  onDevice s fun d =>
    if celsius < 115 || !d.clk.pwrgd || d.clk.stage == .tripped then d
    else
      let d := d.flsAbort.logOpen 1 0 noCtx 0 0 (BitVec.ofNat 64 celsius) 0
      let d := d.dropDomains
      { d with
        clk := { d.clk with stage := .tripped, starting := false, thermtrip := true, endedTrip := true }
        fls := { d.fls with restarting := false, heldEvents := [], heldRecs := [] } }

end Sys2Proof.Machine
end

