-- ==== Sys2Proof/Machine/Recovery.lean ====
section
/-! DEFINITION. When the recovery controller fails (R409 to R411). -/
namespace Sys2Proof.Machine

open Sys2Proof

/-- Whether the Flashing firmware runs. -/
def Device.flsOn (d : Device) : Bool :=
  d.clk.stage == .tarp || d.clk.stage == .batten || d.clk.stage == .thatched

def hourNs : Nat := 3600 * 10 ^ 9

/-- µs since the restart in progress began. -/
def Device.restartMicros (d : Device) : Nat := (d.now - d.fls.restartAt) / 1000

/-- The partition restarts alone (R409): what it was carrying out ends ABORTED. Cause 1 or 2 is a failure, and a
failure during a restart is one more. -/
def Device.beginRestart (d : Device) (cause : Nat) : Device :=
  let d := (d.flsAbort.count Reg.FLT_RESTARTS 1)
  let d := { d with clk := { d.clk with flsRestarts := min 255 (d.clk.flsRestarts + 1) } }
  let fails := if cause = 3 then d.fls.failTimes else d.fls.failTimes.filter (fun x => decide (d.now < x + hourNs)) ++ [d.now]
  { d with fls := { d.fls with
      restarting := true, restartAt := if d.fls.restarting then d.fls.restartAt else d.now, restartCause := cause, failTimes := fails } }

/-- FLASHING_RESTART (R409, R411): the third failure within one hour drops the device to Tarp. -/
def execFlashingRestart (watchdog : Bool) (s : State) : Host.Outcome State Fault Refusal :=
  onDevice s fun d =>
    if !d.flsOn then d
    else
      let cause := if watchdog then 2 else 1
      let d := d.beginRestart cause
      if 3 ≤ d.fls.failTimes.length then d.tarpDropNow cause d.restartMicros else d

/-- Whether the partition is late: not back within 1 s (R411). -/
def Device.restartLate (d : Device) : Bool := decide (d.fls.restartAt + 10 ^ 9 ≤ d.now)

/-- The running firmware becomes that of a bank. -/
def Device.runFirmware (d : Device) (bank : Nat) : Device :=
  let b := d.fls.fw bank
  let major := Config.fwMajor b % 256
  { d with fls := { d.fls with
      fwbank := bank, fwNext := bank, fwMajor := major, runSvnFw := Config.fwSvn b % 64
      majorMismatch := d.fls.imgMajor != 0 && d.fls.imgMajor != major } }

/-- The last `n` bytes of an object. -/
def lastBytes (n : Nat) (bs : List Byte) : List Byte := bs.drop (bs.length - n)

/-- The hash of the signing key that an object carries before its signature (R430): modulus and exponent. -/
def objectKey (bs : List Byte) : List Byte := Config.sha512 ((lastBytes 1028 bs).take 516)

/-- Whether an object's signature verifies under the key it carries (R430). -/
def signedOk (bs : List Byte) : Bool :=
  decide (1028 ≤ bs.length) &&
    Config.rsaPssOk ((lastBytes 1028 bs).take 512) ((lastBytes 516 bs).take 4) (bs.take (bs.length - 512)) (lastBytes 512 bs)

/-- Key hash 4 is the vendor's, 0 to 3 those of the owner slots. -/
def Flashing.hash (f : Flashing) (k : Nat) : List Byte := tget f.keyHash k []

/-- Owner slots enrolled and not revoked. -/
def Flashing.validOwners (f : Flashing) : List Nat :=
  (List.range 4).filter (fun k => f.enrolled.toNat.testBit k && !f.revoked.toNat.testBit k)

/-- Firmware is accepted only under the vendor key (R430). -/
def Device.fwSigned (d : Device) (bs : List Byte) : Bool := signedOk bs && objectKey bs == d.fls.hash 4

/-- Held fault records go to the managers, and held suspect events and returns to step 0 are acted on in the order of
arrival (R407, R410). -/
def Device.replayHeld (d : Device) : Device :=
  let recs := d.fls.heldRecs
  let evs := d.fls.heldEvents
  let d := { d with fls := { d.fls with heldRecs := [], heldEvents := [] } }
  let d := recs.foldl (fun d r => d.toManagers r) d
  evs.foldl (fun d t =>
    if t < 16 then d.suspectCount t else if t < 32 then d.suspectColCount (t - 16) else d.applyStep (t - 32) 0) d

/-- FLASHING_RESTART_DONE (R409, R410, R438): the partition is back, after FW_ACTIVATE on the staged firmware if that
verifies; a partition that is late has dropped the device to Tarp. -/
def execFlashingRestartDone (s : State) : Host.Outcome State Fault Refusal :=
  onDevice s fun d =>
    if !d.fls.restarting then d
    else if d.restartLate then d.tarpDropNow d.fls.restartCause d.restartMicros
    else
      let cause := d.fls.restartCause
      let micros := d.restartMicros
      let other := 1 - d.fls.fwbank
      let d := { d with fls := { d.fls with restarting := false } }
      let d := if cause = 3 ∧ d.fwSigned (d.fls.fw other) = true then d.runFirmware other else d
      let d := d.replayHeld
      d.log 0x11 (if cause = 3 then 3 else 2) 0 noCtx 8 0 (BitVec.ofNat 64 cause) (BitVec.ofNat 64 micros)

/-- TARP_DROP (R411): the partition is not back within 1 s. A third failure drops the device at once
(FLASHING_RESTART). -/
def execTarpDrop (s : State) : Host.Outcome State Fault Refusal :=
  onDevice s fun d =>
    if d.fls.restarting && d.restartLate then d.tarpDropNow d.fls.restartCause d.restartMicros else d

end Sys2Proof.Machine
end

