-- ==== Sys2Proof/Machine/Images.lean ====
section
/-! DEFINITION. Aisor images (R18, R430, R432, R434, R435): their header, their checks, and what they set. -/
namespace Sys2Proof.Machine

open Sys2Proof

/-- A field of an image: `n` bytes at an offset, little-endian (Table 15-4). -/
def imgField (bs : List Byte) (off n : Nat) : Nat := leNat (slice bs off n)

/-- LENGTH. -/
def imgLength (bs : List Byte) : Nat := imgField bs 20 4

/-- Total bytes that a kind allows (Table 15-4): device images (1) and truss images (2). -/
def imgLimit (kind : Nat) : Nat := if kind = 1 then 24 * 2 ^ 20 else 2 ^ 20

/-- Whether a header's reserved bytes are zero: those from 27 to 63 and the unused section entries. -/
def imgReservedOk (bs : List Byte) : Bool :=
  (slice bs 27 37).all (· == 0) && (slice bs (64 + 16 * imgField bs 24 2) (16 * (12 - imgField bs 24 2))).all (· == 0)

/-- Whether each section lies between the header and the key (R434). -/
def imgSectionsOk (bs : List Byte) : Bool :=
  let n := imgField bs 24 2
  decide (1 ≤ n) && decide (n ≤ 12) && decide (256 + 1028 ≤ imgLength bs) &&
    (List.range n).all fun i =>
      let off := imgField bs (64 + 16 * i + 4) 4
      decide (256 ≤ off) && decide (off + imgField bs (64 + 16 * i + 8) 8 ≤ imgLength bs - 1028)

/-- A section outside the image and the other cases of cause 0x01, in an object of `kind`. -/
def imgFormBad (kind : Nat) (bs : List Byte) : Bool :=
  imgField bs 0 4 != 0x52534941 || imgField bs 4 1 != 3 || !imgReservedOk bs
    || decide (imgLimit kind < imgLength bs) || !imgSectionsOk bs

/-- The image itself: LENGTH bytes. -/
def imgObject (bs : List Byte) : List Byte := bs.take (imgLength bs)

/-- Whether an image's key is acceptable: the vendor's, unless OWNER_ONLY is blown, or a valid owner's (R430). -/
def Device.imgKeyOk (d : Device) (bs : List Byte) : Bool :=
  signedOk bs &&
    ((!d.fls.ownerOnly && objectKey bs == d.fls.hash 4) || d.fls.validOwners.any (fun k => objectKey bs == d.fls.hash k))

/-- Whether STEPS excludes this part's step (Table 15-4). -/
def Device.stepExcluded (d : Device) (bs : List Byte) : Bool :=
  !(imgField bs 10 2).testBit (if d.fls.silicon = 0xA1 then 0 else 1)

/-- R18 for one truss: staging, Soffit and share regions in granules. -/
def splitOk (bs : List Byte) (t : Nat) : Bool :=
  let st := Config.imgStageGr bs t
  let so := Config.imgSoffitGr bs t
  decide (8 ≤ st) && decide (st ≤ 32) && [0, 1, 2, 4, 8, 16, 32].contains so && st + so + Config.imgShareGr bs t == 128

/-- Content refused (cause 0x07): R18, for every truss in a device image; a truss image's POOL_LOG2 (R16). -/
def Device.contentBad (d : Device) (bs : List Byte) (truss : Option Nat) : Bool :=
  match truss with
  | none => !(List.range 16).all (splitOk bs)
  | some t => !splitOk bs t || imgField bs 26 1 != (d.trussSt t).poolLog2

/-- The first case of Table 15-5 that refuses an image of `kind`, for truss `truss` when it is a truss image. An
image shorter than its LENGTH could not be read. -/
def Device.imageCause (d : Device) (kind : Nat) (truss : Option Nat) (bs : List Byte) : Option Nat :=
  let img := imgObject bs
  let svn := if kind = 1 then d.fls.svnDev else d.fls.svnTruss
  if imgFormBad kind bs then some 0x01
  else if bs.length < imgLength bs then some 0x09
  else if imgField bs 8 2 != 0x0960 || d.stepExcluded bs then some 0x02
  else if imgField bs 5 1 != kind || (imgField bs 7 1 != 0xFF && some (imgField bs 7 1) != truss) then some 0x03
  else if !d.imgKeyOk img then some 0x04
  else if imgField bs 16 4 < svn then some 0x05
  else if imgField bs 12 2 != d.fls.fwMajor then some 0x06
  else if d.contentBad img truss then some 0x07
  else
    match truss with
    | some t => if (d.trussSt t).state != 1 || d.holders t != 0 then some 0x08 else none
    | none => none

/-- Ways of a Soffit slice, 2 to 16 (Table 01-9). -/
def imgWays (bs : List Byte) (t : Nat) : Nat := 2 ^ (1 + Config.imgWaysLog2 bs t % 4)

/-- Loft split, Soffit geometry, fusion modes and converter block sizes of a truss (R16, R37). -/
def Device.applyImage (d : Device) (t : Nat) (bs : List Byte) : Device :=
  let so := Config.imgSoffitGr bs t
  let ways := if so = 0 then 0 else imgWays bs t
  let d := d.setTruss t { d.trussSt t with
    stageGr := Config.imgStageGr bs t, soffitGr := so, shareGr := Config.imgShareGr bs t, slots := [], releasing := []
    rafCaps := BitVec.ofNat 8 (Config.imgRafCaps bs t % 32), hodCaps := BitVec.ofNat 8 (Config.imgHodCaps bs t % 128), crossed := BitVec.ofNat 4 (Config.imgCrossed bs t) }
  let slice : Soffit := { (default : Soffit) with ways := ways, sets := if so = 0 then 0 else so * 2048 / ways }
  { d with soffit := tset d.soffit t slice }

end Sys2Proof.Machine
end

