-- ==== Sys2Proof/Machine/Flashing.lean ====
section
/-! DEFINITION. The management endpoint's checks (R461 to R463) and the Flashing commands of Table 15-2 (R428 to
R438, R444, R445). -/
namespace Sys2Proof.Machine

open Sys2Proof

/-! ### Management requests -/

/-- A management reply: STATUS and payload (Table 16-3). -/
structure MgmtReply where
  status : Nat
  values : List Word
  data : List Byte

def mgOk : MgmtReply := ⟨0, [], []⟩
def mgStatus (n : Nat) : MgmtReply := ⟨n, [], []⟩

/-- Whether a port answers the management protocol (R439, R455, R456). -/
def Device.mgmtOn (d : Device) (p : Nat) : Bool := d.flsOn && (tget d.ports p default).up

/-- Table 16-3, R461: a message that is answered as malformed. -/
def mgmtMalformed (h : MgmtHdr) : Bool := h.magic != 0x4D4F || h.ver != 2 || decide (1400 < h.len)

/-- R463: once a manager slot is filled, other sources may send only what is open to all. -/
def Device.mgmtBarred (d : Device) (h : MgmtHdr) (open_ : Bool) : Bool :=
  !d.fls.managers.isEmpty && !d.fls.managers.any (fun m => m.2 == h.src) && !open_

/-- One management request (R461 to R463): malformed ones are answered so and change nothing, a repeat draws the
kept reply, and the others are carried out. An operation without a reply yet answers later. -/
def Device.mgmt (d : Device) (h : MgmtHdr) (open_ : Bool) (f : Device → Device × Option MgmtReply) : Device :=
  if !d.mgmtOn h.port then d
  else
    let d := d.count (Reg.ETH_RX_FRAMES h.port) 1
    let kept (r : MgmtReply) : Kept := ⟨h.src, h.seq, r.status, r.values, r.data⟩
    if mgmtMalformed h then d.sendReply h.port (kept (mgStatus 4))
    else
      let d := d.count (Reg.ETH_MGMT_REQ h.port) 1
      match d.fls.kept.find? (fun k => k.src == h.src && k.seq == h.seq) with
      | some k => d.sendReply h.port k
      | none =>
        if d.mgmtBarred h open_ then d.replyKept h.port (kept (mgStatus 3))
        else
          match f d with
          | (d, some r) => d.replyKept h.port (kept r)
          | (d, none) => d

/-! ### The frame of a Flashing command -/

/-- Whether a ring join may still lie ahead of SET_DEVNUM (Table 15-2). -/
def Device.beforeJoin (d : Device) : Bool :=
  (d.clk.stage == .tarp || d.clk.stage == .batten) && !d.clk.joinBegun

/-- Stage Tarp with no start under way and no drop to be answered by RESTART (R411, R440). -/
def Device.idleTarp (d : Device) : Bool := d.clk.stage == .tarp && !d.clk.starting

/-- Paths and stages of Table 15-2. -/
def Device.flsAllowed (d : Device) (mailbox : Bool) (code : Nat) : Bool :=
  let thatched := d.clk.stage == .thatched
  if code = 0x02 then thatched
  else if code = 0x03 ∨ code = 0x05 then !mailbox || thatched
  else if code = 0x09 ∨ code = 0x0E ∨ code = 0x0F then !mailbox
  else if code = 0x0B then !mailbox && d.beforeJoin
  else if code = 0x0C then !mailbox && d.idleTarp && !d.clk.endedTarp
  else if code = 0x0D then !mailbox && d.idleTarp
  else true

/-- A command as the partition carries it out: its path, TAG, arguments, whether its non-volatile write succeeds, and a
number drawn for it. -/
structure FlsCall where
  req : FlsReq
  mailbox : Bool
  args : List Word
  nvOk : Bool
  /-- A number from the random source, for NONCE -/
  fresh : BitVec 32

def FlsCall.arg (c : FlsCall) (i : Nat) : Nat := (wordAt c.args i).toNat

/-- What carrying out a command came to: its end, or nothing yet. -/
abbrev FlsRun := Device × Option FlsEnd

def refused (d : Device) (cause : Nat) : FlsRun := (d, some (flsDone flsRefused cause))
def carried (d : Device) : FlsRun := (d, some (flsDone flsOk 0))

/-- A command that writes the non-volatile store (cause 0x0A). -/
def FlsCall.store (c : FlsCall) (d : Device) (f : Flashing → Flashing) : FlsRun :=
  if c.nvOk then carried { d with fls := f d.fls } else refused d 0x0A

/-- What reading an address argument came to. -/
inductive FlsGot where
  | bytes (bs : List Byte)
  | unreadable
  | waits

def stagingSize : Nat := 32 * 2 ^ 20

/-- Reads `n` bytes at an address argument: in the space of context 0 on the mailbox path (R429), in the staging
buffer on the management path (R461). A translation that is lacking is asked for, and the command waits; a page
that lacks it again after its answer cannot be read. -/
def Device.flsLoad (d : Device) (mailbox : Bool) (addr n : Nat) : Device × FlsGot :=
  if !mailbox then (if stagingSize < addr + n then (d, .unreadable) else (d, .bytes (memRead d.fls.staging addr n)))
  else if d.stillAsked d.fls.mboxAsked then (d, .waits)
  else
    match d.tryLoad 0 0 addr n with
    | .ok (d, some bs) => (d, .bytes bs)
    | .ok (d, none) => (d, .unreadable)
    | .error m =>
      if d.fls.mboxAsked.any (fun a => a.2 == m.va) then (d, .unreadable)
      else
        let q := d.missFor m.ctx 0 16 m.va m.wr
        ({ q.2 with fls := { q.2.fls with mboxAsked := some (q.1, m.va) } }, .waits)

/-- Goes on with the bytes of an address argument; one that cannot be read ends the command with cause 0x09. -/
def Device.withBytes (d : Device) (c : FlsCall) (addr n : Nat) (k : Device → List Byte → FlsRun) : FlsRun :=
  match d.flsLoad c.mailbox addr n with
  | (d, .bytes bs) => k d bs
  | (d, .unreadable) => refused d 0x09
  | (d, .waits) => (d, none)

/-! ### The FLS mirror (Tables 15-12, 15-14) -/

def stageCode : Stage → Nat
  | .batten => 2
  | .thatched => 3
  | _ => 1

/-- FLS_STATUS (Table 15-12). -/
def Device.flsStatus (d : Device) : Word :=
  let f := d.fls
  pack [(0, 2, stageCode d.clk.stage), (2, 1, b2n f.restarting), (3, 1, b2n f.autostart), (4, 1, b2n f.majorMismatch),
        (5, 1, f.bank), (6, 1, f.fwbank), (8, 8, f.fwMajor), (16, 8, f.imgMajor), (24, 8, f.startErr), (32, 11, f.plimit)]

/-- FLS_KEYS (Table 15-14). -/
def Device.flsKeys (d : Device) : Word :=
  let f := d.fls
  pack [(0, 4, f.enrolled.toNat), (4, 4, f.revoked.toNat), (8, 1, b2n f.ownerOnly), (16, 6, f.svnFw), (24, 6, f.svnDev),
        (32, 6, f.svnTruss)]

/-! ### The commands -/

/-- STATUS. -/
def statusAct (d : Device) (_ : FlsCall) : FlsRun :=
  (d, some ⟨flsOk, 0, d.flsStatus, d.flsKeys⟩)

/-- The largest object read for a command that names `n` bytes of a kind: one byte beyond the limit shows that it
is too long. -/
def readLen (limit n : Nat) : Nat := min n (limit + 1)

/-- TRUSS_IMAGE (R437): a checked image resets its truss, configures it, and a truss test runs before the command
ends. -/
def trussImageAct (d : Device) (c : FlsCall) : FlsRun :=
  let t := c.arg 0
  if 15 < t then refused d 0x0B
  else d.withBytes c (c.arg 1) (readLen (imgLimit 2) (c.arg 2)) fun d bs =>
    match d.imageCause 2 (some t) bs with
    | some cause => refused d cause
    | none =>
      let img := imgObject bs
      let d := (d.setTruss t { d.trussSt t with state := 2 }).resetTruss t
      let d := d.applyImage t img
      let d := { d with fls := { d.fls with
        trussImages := tset d.fls.trussImages t img, runSvnTruss := imgField img 16 4 % 64, imageJob := some (t, c.req) } }
      (d.askTest t 2, none)

/-- IMAGE_STAGE (R436): a checked device image goes to the bank not running, which is marked next. -/
def imageStageAct (d : Device) (c : FlsCall) : FlsRun :=
  d.withBytes c (c.arg 1) (readLen (imgLimit 1) (c.arg 2)) fun d bs =>
    match d.imageCause 1 none bs with
    | some cause => refused d cause
    | none =>
      c.store d fun f =>
        let b := 1 - f.bank
        let f := if b = 0 then { f with bankA := imgObject bs } else { f with bankB := imgObject bs }
        { f with nextBank := b }

/-- IMAGE_SELECT (R436). -/
def imageSelectAct (d : Device) (c : FlsCall) : FlsRun :=
  if 1 < c.arg 0 then refused d 0x0B else c.store d fun f => { f with nextBank := c.arg 0 }

/-- Bytes of a firmware bank (Table 15-1). -/
def fwLimit : Nat := 2 * 2 ^ 20

/-- FW_STAGE (R430, R432). -/
def fwStageAct (d : Device) (c : FlsCall) : FlsRun :=
  if fwLimit < c.arg 2 then refused d 0x0B
  else d.withBytes c (c.arg 1) (c.arg 2) fun d bs =>
    if !d.fwSigned bs then refused d 0x04
    else if Config.fwSvn bs % 64 < d.fls.svnFw then refused d 0x05
    else c.store d fun f => if f.fwbank = 0 then { f with fwB := bs } else { f with fwA := bs }

/-- FW_ACTIVATE (R438): the command ends as the planned restart, of cause 3, begins. -/
def fwActivateAct (d : Device) (_ : FlsCall) : FlsRun := carried d

/-! ### Keys (R431) -/

def keyRecordBytes : Nat := 1088

/-- Whether a record is signed by a valid owner key. -/
def Device.recordSigned (d : Device) (bs : List Byte) : Bool :=
  d.fls.validOwners.any (fun k => Config.ownerSigOk (d.fls.hash k) (bs.take 576) (lastBytes 512 bs))

/-- A key record's nonce must be the one held, which is then spent (cause 0x0C). -/
def Device.withRecord (d : Device) (c : FlsCall) (k : Device → List Byte → FlsRun) : FlsRun :=
  d.withBytes c (c.arg 1) keyRecordBytes fun d bs =>
    if d.fls.nonce = some (BitVec.ofNat 32 (imgField bs 8 4)) then k { d with fls := { d.fls with nonce := none } } bs
    else refused d 0x0C

/-- The hash of a record's key. -/
def recordKey (bs : List Byte) : List Byte := Config.sha512 (slice bs 16 516)

/-- KEY_ENROLL (R431): the first key needs no signature at Stage Tarp over the management protocol. A slot once
enrolled cannot be enrolled again, its fuses being one-way. -/
def keyEnrollAct (d : Device) (c : FlsCall) : FlsRun :=
  let k := c.arg 0
  if 3 < k then refused d 0x0B
  else d.withRecord c fun d bs =>
    let first := d.fls.enrolled = 0 ∧ k = 0 ∧ c.mailbox = false ∧ d.clk.stage = .tarp
    if !first ∧ !d.recordSigned bs then refused d 0x04
    else if d.fls.enrolled.toNat.testBit k then refused d 0x0B
    else
      carried { d with fls := { d.fls with
        enrolled := d.fls.enrolled ||| (1#4 <<< k), keyHash := tset d.fls.keyHash k (recordKey bs) } }

/-- KEY_REVOKE (R431). -/
def keyRevokeAct (d : Device) (c : FlsCall) : FlsRun :=
  let k := c.arg 0
  if 3 < k then refused d 0x0B
  else d.withRecord c fun d bs =>
    if !d.recordSigned bs then refused d 0x04
    else if d.fls.ownerOnly && (d.fls.validOwners.filter (· != k)).isEmpty then refused d 0x04
    else carried { d with fls := { d.fls with revoked := d.fls.revoked ||| (1#4 <<< k) } }

/-- SVN_COMMIT (R432): only upwards, to the SVN of the running object. -/
def svnCommitAct (d : Device) (c : FlsCall) : FlsRun :=
  let f := d.fls
  match c.arg 0 with
  | 0 => carried { d with fls := { f with svnFw := max f.svnFw f.runSvnFw } }
  | 1 => carried { d with fls := { f with svnDev := max f.svnDev f.runSvnDev } }
  | 2 => carried { d with fls := { f with svnTruss := max f.svnTruss f.runSvnTruss } }
  | _ => refused d 0x0B

/-- PLIMIT (R445): values above 1,800 are taken as 1,800, values below 600 refused. -/
def plimitAct (d : Device) (c : FlsCall) : FlsRun :=
  if c.arg 0 < 600 then refused d 0x0B else c.store d fun f => { f with plimit := min 1800 (c.arg 0) }

/-- SET_DEVNUM (R344). -/
def setDevnumAct (d : Device) (c : FlsCall) : FlsRun :=
  if 2 ^ 18 ≤ c.arg 0 then refused d 0x0B else carried { d with devnum := c.arg 0, devnumValid := true }

/-- Batten begins (R440): START_ERR is cleared. -/
def Device.beginBatten (d : Device) : Device :=
  { d with clk := { d.clk with starting := true, battenStep := 0, joinBegun := false }, fls := { d.fls with startErr := 0 } }

/-- START (R440): ARG0 bit 0 stores AUTOSTART as bit 1. -/
def startAct (d : Device) (c : FlsCall) : FlsRun :=
  let a := wordAt c.args 0
  if bit a 0 then
    (if c.nvOk then carried { d.beginBatten with fls := { d.beginBatten.fls with autostart := bit a 1 } } else refused d 0x0A)
  else carried d.beginBatten

/-- RESTART (R444): every domain but the Flashing partition, the management path and the counter is reset, and the
device goes on as from power-good, without reading firmware again. -/
def restartAct (d : Device) (_ : FlsCall) : FlsRun :=
  let d := d.dropDomains
  carried (({ d with clk := { d.clk with endedTarp := true } }).beginStart 3)

/-- SUBSCRIBE (R407, R463). -/
def subscribeAct (d : Device) (c : FlsCall) : FlsRun :=
  let k := c.arg 0
  if 7 < k then refused d 0x0B
  else
    carried { d with fls := { d.fls with
      managers := if bit (wordAt c.args 2) 0 then tset d.fls.managers k (c.arg 1) else tdel d.fls.managers k } }

/-- OWNER_ONLY (R431): a signed record whose key bytes are zero blows the fuse. -/
def ownerOnlyAct (d : Device) (c : FlsCall) : FlsRun :=
  d.withRecord c fun d bs =>
    if !d.recordSigned bs || !(slice bs 16 516).all (· == 0) then refused d 0x04
    else carried { d with fls := { d.fls with ownerOnly := true } }

/-- NONCE (R431): `fresh` comes from the safety die's random source. -/
def nonceAct (d : Device) (c : FlsCall) : FlsRun :=
  ({ d with fls := { d.fls with nonce := some c.fresh } }, some ⟨flsOk, 0, BitVec.ofNat 64 c.fresh.toNat, 0⟩)

/-! ### How commands are carried out (R428, R429) -/

/-- Codes of Table 15-2. -/
def flsCodes : List Nat := (List.range 16).map (· + 1)

/-- What each code does; a code that Table 15-2 does not list is not permitted. -/
def flsAct (code : Nat) (d : Device) (c : FlsCall) : FlsRun :=
  match code with
  | 0x01 => statusAct d c
  | 0x02 => trussImageAct d c
  | 0x03 => imageStageAct d c
  | 0x04 => imageSelectAct d c
  | 0x05 => fwStageAct d c
  | 0x06 => fwActivateAct d c
  | 0x07 => keyEnrollAct d c
  | 0x08 => keyRevokeAct d c
  | 0x09 => svnCommitAct d c
  | 0x0A => plimitAct d c
  | 0x0B => setDevnumAct d c
  | 0x0C => startAct d c
  | 0x0D => restartAct d c
  | 0x0E => subscribeAct d c
  | 0x0F => ownerOnlyAct d c
  | 0x10 => nonceAct d c
  | _ => (d, some (flsDone flsNotPermitted 0))

/-- Carries out a command where Table 15-2, a restart (R429) and the ROM (R439) let it. -/
def Device.flsRun (d : Device) (code : Nat) (c : FlsCall) : FlsRun :=
  if d.fls.restarting then (d, some (flsDone flsBusy 0))
  else if (d.fls.romOnly && code != 0x01 && code != 0x05) || !d.flsAllowed c.mailbox code then
    (d, some (flsDone flsNotPermitted 0))
  else flsAct code d c

/-- A request as the partition carries it out. -/
def Device.flsCall (d : Device) (r : FlsReq) (fresh : BitVec 32) : FlsCall :=
  match r with
  | .mailbox nvOk => ⟨r, true, d.fls.mboxArgs, nvOk, fresh⟩
  | .mgmt _ _ a0 a1 a2 a3 nvOk => ⟨r, false, [a0, a1, a2, a3], nvOk, fresh⟩

/-- Carries out one command and ends it, unless it has yet to end; a planned restart begins as FW_ACTIVATE ends (R438). -/
def Device.flsStep (d : Device) (code : Nat) (r : FlsReq) (fresh : BitVec 32) : Device × Bool :=
  match d.flsRun code (d.flsCall r fresh) with
  | (d, some e) =>
    let d := d.flsFinish r e
    (if code = 0x06 ∧ e.status = flsOk then d.beginRestart 3 else d, true)
  | (d, none) => (d, false)

/-- The commands that may go on: management ones in their turn, and a mailbox command whose end needs no more than its
code or a restart; the others of the mailbox have rows of their own. -/
def Device.flsNext : Nat → Device → Device
  | 0, d => d
  | n + 1, d =>
    if d.fls.imageJob.isSome then d
    else
      match d.fls.line with
      | [] => d
      | .mgmt code r fresh :: ws => Device.flsNext n ({ d with fls := { d.fls with line := ws } }.flsStep code r fresh).1
      | .mailbox :: ws =>
        if d.fls.restarting || !flsCodes.contains d.fls.mboxCode then
          Device.flsNext n ({ d with fls := { d.fls with line := ws } }.flsStep d.fls.mboxCode (.mailbox true) 0).1
        else d

/-- Goes on with the commands that wait. -/
def Device.flsGo (d : Device) : Device := d.flsNext d.fls.line.length

/-- The device with the first of the commands that wait taken. -/
def Device.flsTaken (d : Device) : Device := { d with fls := { d.fls with line := d.fls.line.tail } }

/-- Whether a management request is among those that wait or is being carried out: its repeat gets the same reply (R462). -/
def Device.flsPending (d : Device) (h : MgmtHdr) : Bool :=
  let same (r : FlsReq) : Bool := match r with | .mgmt x _ _ _ _ _ _ => x.src == h.src && x.seq == h.seq | .mailbox _ => false
  d.fls.line.any (fun w => match w with | FlsWait.mgmt _ r _ => same r | FlsWait.mailbox => false)
    || (match d.fls.imageJob with | some (_, r) => same r | none => false)

/-- A Flashing command (R428): commands are carried out one at a time, in the order of arrival, so a management request
waits while others do or while TRUSS_IMAGE is in progress, and a mailbox command is carried out when its turn has come. -/
def Device.flsCommand (d : Device) (code : Nat) (r : FlsReq) (fresh : BitVec 32) : Device :=
  match r with
  | .mailbox _ =>
    if d.fls.imageJob.isSome || !d.flsOn || !d.fls.mboxBusy || d.fls.mboxCode != code || d.fls.line.head? != some FlsWait.mailbox then d
    else
      match d.flsTaken.flsStep code r fresh with
      | (d, true) => d.flsGo
      | (d, false) =>
        if d.fls.imageJob.isSome then d else { d with fls := { d.fls with line := FlsWait.mailbox :: d.fls.line } }
  | .mgmt h _ _ _ _ _ _ =>
    d.mgmt h (code == 0x01) fun d =>
      if d.flsPending h then (d, none)
      else if d.fls.imageJob.isSome || !d.fls.line.isEmpty then
        ({ d with fls := { d.fls with line := d.fls.line ++ [FlsWait.mgmt code r fresh] } }, none)
      else ((d.flsStep code r fresh).1, none)

/-- A GO write of FLS_MBOX_CMD (R428): the command and its arguments are handed over, or ignored while one runs. -/
def Device.writeMboxCmd (d : Device) (v : Word) : Device :=
  if !bit v 63 then d
  else if d.fls.mboxBusy then d.setFld Reg.FLS_MBOX_STAT Fld.FLS_MBOX_STAT_IGNORED 1
  else
    let d := { d with fls := { d.fls with
      mboxBusy := true, mboxCode := bits v 7 0, mboxTag := bits v 15 8, mboxAsked := none
      mboxArgs := (List.range 4).map (fun k => d.reg (Reg.FLS_MBOX_ARG k)), line := d.fls.line ++ [FlsWait.mailbox] } }
    (d.setFld Reg.FLS_MBOX_STAT Fld.FLS_MBOX_STAT_DONE 0).flsGo

/-! ### The rows -/

/-- STATUS (Table 15-2). -/
def execStatus (r : FlsReq) (s : State) : Host.Outcome State Fault Refusal :=
  onDevice s fun d => d.flsCommand 0x01 r 0

/-- TRUSS_IMAGE (R437). -/
def execTrussImage (r : FlsReq) (s : State) : Host.Outcome State Fault Refusal :=
  onServing s fun d => d.flsCommand 0x02 r 0

/-- IMAGE_STAGE (R436). -/
def execImageStage (r : FlsReq) (s : State) : Host.Outcome State Fault Refusal :=
  onServing s fun d => d.flsCommand 0x03 r 0

/-- IMAGE_SELECT (R436). -/
def execImageSelect (r : FlsReq) (s : State) : Host.Outcome State Fault Refusal :=
  onDevice s fun d => d.flsCommand 0x04 r 0

/-- FW_STAGE (R430, R432). -/
def execFwStage (r : FlsReq) (s : State) : Host.Outcome State Fault Refusal :=
  onServing s fun d => d.flsCommand 0x05 r 0

/-- FW_ACTIVATE (R438). -/
def execFwActivate (r : FlsReq) (s : State) : Host.Outcome State Fault Refusal :=
  onDevice s fun d => d.flsCommand 0x06 r 0

/-- KEY_ENROLL (R431). -/
def execKeyEnroll (r : FlsReq) (s : State) : Host.Outcome State Fault Refusal :=
  onServing s fun d => d.flsCommand 0x07 r 0

/-- KEY_REVOKE (R431). -/
def execKeyRevoke (r : FlsReq) (s : State) : Host.Outcome State Fault Refusal :=
  onServing s fun d => d.flsCommand 0x08 r 0

/-- SVN_COMMIT (R432). -/
def execSvnCommit (r : FlsReq) (s : State) : Host.Outcome State Fault Refusal :=
  onDevice s fun d => d.flsCommand 0x09 r 0

/-- PLIMIT (R445). -/
def execPlimit (r : FlsReq) (s : State) : Host.Outcome State Fault Refusal :=
  onDevice s fun d => d.flsCommand 0x0A r 0

/-- SET_DEVNUM (R344). -/
def execSetDevnum (r : FlsReq) (s : State) : Host.Outcome State Fault Refusal :=
  onDevice s fun d => d.flsCommand 0x0B r 0

/-- START (R440). -/
def execStart (r : FlsReq) (s : State) : Host.Outcome State Fault Refusal :=
  onDevice s fun d => d.flsCommand 0x0C r 0

/-- RESTART (R444). -/
def execRestart (r : FlsReq) (s : State) : Host.Outcome State Fault Refusal :=
  onDevice s fun d => d.flsCommand 0x0D r 0

/-- SUBSCRIBE (R407, R463). -/
def execSubscribe (r : FlsReq) (s : State) : Host.Outcome State Fault Refusal :=
  onDevice s fun d => d.flsCommand 0x0E r 0

/-- OWNER_ONLY (R431). -/
def execOwnerOnly (r : FlsReq) (s : State) : Host.Outcome State Fault Refusal :=
  onServing s fun d => d.flsCommand 0x0F r 0

/-- NONCE (R431). -/
def execNonce (r : FlsReq) (fresh : BitVec 32) (s : State) : Host.Outcome State Fault Refusal :=
  onDevice s fun d => d.flsCommand 0x10 r fresh

/-- TRUSS_TEST_DONE (R395, R396, R437): a running test ends; a TRUSS_IMAGE command that waited for it ends too. -/
def execTrussTestDone (t : Truss) (pass : Bool) (funit micros : Nat) (s : State) : Host.Outcome State Fault Refusal :=
  onDevice s fun d =>
    if !(d.susp t).testing then d
    else
      let d := d.endTest t pass funit micros
      match d.fls.imageJob with
      | some (n, r) =>
        if n = t.val then (({ d with fls := { d.fls with imageJob := none } }).flsFinish r (flsDone flsOk 0)).flsGo else d
      | none => d

end Sys2Proof.Machine
end

