-- ==== Sys2Proof/Machine/Hbm.lean ====
section
/-! DEFINITION. The HBM controllers (11): decoding, lane marks and repair, scrub, maintenance slots,
retirement, map slots and frame conversion. -/
namespace Sys2Proof.Machine

open Sys2Proof

def Device.setChan (d : Device) (c : Nat) (h : Chan) : Device :=
  { d with hbm := { d.hbm with chans := tset d.hbm.chans c h } }

/-- Work for the next slot (R334); a retraining already queued is not queued twice. -/
def Device.queueWork (d : Device) (c op lane : Nat) : Device :=
  if op = 1 && d.hbm.queued.any (fun w => w.1 == c && w.2.1 == 1) then d
  else { d with hbm := { d.hbm with queued := d.hbm.queued ++ [(c, op, lane)] } }

/-- Retires a channel (R337). -/
def Device.retireChan (d : Device) (c : Nat) : Device :=
  let h := d.chan c
  if h.retired then d
  else ((d.setChan c { h with retired := true }).count Reg.MEM_RETIRES 1).memEvent c 4 0 0 0 0 0 0

/-- Lanes whose symbol the decoder takes as an erasure in a sector: marked lanes not steered, and the spare where
`spare` says that the sector does not use it yet (R331, R336). -/
def Chan.erased (h : Chan) (spare : Bool) : List Nat := h.unsteered ++ (if spare then [36] else [])

/-- Whether a sector still has to take lane 36 as the erasure: its channel is being swept, and the sweep has not passed
the sector, which nothing has written since the repair (R336). -/
def Device.spareErased (d : Device) (a : Nat) : Bool :=
  match d.hbm.place a with
  | some (c, g) => (d.chan c).sweeping && decide ((d.chan c).sweep ≤ g / 256) && !d.hbm.rewritten.contains (a / 32)
  | none => false

/-- Marks a lane (R331); a third mark retires the channel under AUTO_RETIRE, an earlier one calls for a repair
(R336, R337). -/
def Device.markLane (d : Device) (c lane : Nat) : Device :=
  let h := d.chan c
  if h.marks.contains lane then d
  else
    let h' := { h with marks := h.marks ++ [lane] }
    let d := (d.setChan c h').memEvent c 2 0 0 lane 2 0 0
    if 3 ≤ h'.marks.length then
      (if d.fld Reg.MEM_CTRL Fld.MEM_CTRL_AUTO_RETIRE = 1 then d.retireChan c else d)
    else if !h'.spareUsed then d.queueWork c 2 lane else d

/-- Notes a correction of a lane and marks the lane beyond LANE_TH corrections within 1 ms (R331). -/
def Device.countLane (d : Device) (c lane : Nat) : Device :=
  let h := d.chan c
  let corr := h.corr.filter (fun x => decide (d.now < x.2 + 1000000)) ++ [(lane, d.now)]
  let d := d.setChan c { h with corr := corr }
  if d.fld Reg.MEM_CTRL Fld.MEM_CTRL_LANE_TH < corr.countP (fun x => x.1 == lane) then d.markLane c lane else d

/-- Whether reads of a channel take a lane's symbol: lane 36 only once it is in use, the lane it replaced no longer
(R336). -/
def Chan.reads (h : Chan) (lane : Nat) : Bool := h.steered != some lane && (lane != 36 || h.spareUsed)

/-- A sector that the decoder gives up (R329, R330): whether it is noted, and what the reader gets. -/
def Device.giveUp (d : Device) (action a : Nat) : Device :=
  ({ d with hbm := { d.hbm with bad := a / 32 :: d.hbm.bad } }).noteUncorr action a

/-- Decoding of one sector at `a` (R328, R329, Table 11-5): whether data is delivered. Each erasure takes one of the
code's four check symbols and the further error two. The device account pays for writing a corrected sector back
(R418). -/
def Device.decodeSector (d : Device) (action a : Nat) (err : SectorErr) : Device × Bool :=
  match d.hbm.place a with
  | none => (d, false)
  | some (c, _) =>
    let h := d.chan c
    if h.retired then (d, false)
    else if d.hbm.bad.contains (a / 32) then (d.noteUncorr action a, false)
    else
      match err with
      | .misplaced => (d.giveUp action a, false)
      | .lanes bad =>
        let erased := h.erased (d.spareErased a)
        let bad := (bad.filter h.reads).eraseDups
        let fresh := bad.filter (fun l => !erased.contains l)
        if bad.isEmpty then (d, true)
        else if erased.isEmpty then
          if bad.length ≤ 2 then
            let d := (d.count (if bad.length = 1 then Reg.MEM_CORR1 else Reg.MEM_CORR2) 1).chargeHbm deviceAccount .hbmWr a 32
            (bad.foldl (fun d l => d.countLane c l) d, true)
          else (d.giveUp action a, false)
        else if fresh.length ≤ 1 && decide (erased.length + 2 * fresh.length ≤ 4) then
          let d := (d.count Reg.MEM_ERASE_CORR 1).chargeHbm deviceAccount .hbmWr a 32
          (fresh.foldl (fun d l => d.countLane c l) d, true)
        else (d.giveUp action a, false)

/-- The class of a request (R323, Table 11-3). -/
def memClass : MemUse → Nat
  | .thatchRow | .walk | .attentionPage | .soffitDemand => 0
  | .hodRead | .ridgeRead | .soffitPrefetch | .rdmaRead => 1
  | .hodWrite | .kvAppend | .rdmaWrite | .collectiveNma => 2
  | .scrub | .digestBuild | .deltaApply | .soffitPreload | .frameConvert | .laneSweep => 3

/-- ACTION of a record about a request: a task ends, or none does. -/
def reqAction (job : Option Nat) : Nat := if job.isSome then 2 else 0

/-- A request's issuing task, where there is one, ends at the local physical address `a` (R321, R327, R330, R332). -/
def Device.failIssuerTask (d : Device) (job : Option Nat) (status cause a : Nat) : Device :=
  match job.bind d.job? with
  | none => d
  | some j => d.endJob j.id (endC status cause (match j.engine with | some e => engUnit e | none => 0) 0 a)

/-- The paths that an access crosses (R332): whether the access is made. -/
def Device.crossPath (d : Device) (a : Nat) (job : Option Nat) : OnChip → Device × Bool
  | .clean => (d, true)
  | .corrected => (d.count Reg.MEM_ONCHIP_CORR 1, true)
  | .resent => (d.count Reg.MEM_ONCHIP_RETRY 1, true)
  | .failed p =>
    let d := d.count Reg.MEM_ONCHIP_RETRY 1
    let d := match d.hbm.place a with
      | some (c, g) => d.memErrInfo c 5 g (a / 32 % 128) 0
      | none => d
    ((d.log 0x07 0 0 noCtx (reqAction job) (BitVec.ofNat 64 a) (BitVec.ofNat 64 p) 0).failIssuerTask job stUncorr 0 a, false)

/-- Whether the channel of an address is held for maintenance (R335). -/
def Device.heldAt (d : Device) (a : Nat) : Bool :=
  match d.hbm.place a with | some (c, _) => (d.chan c).held | none => false

/-- Serves a read of the sector at `a` for a context (R329); an undelivered one ends its task (R330). -/
def Device.serveRead (d : Device) (a ctx : Nat) (job : Option Nat) (err : SectorErr) : Device :=
  if !d.hbm.reachable a then d.failIssuerTask job stViolation 0x46 a
  else
    let r := (d.chargeHbm ctx .hbmRd a 32).decodeSector (reqAction job) a err
    if r.2 then r.1 else r.1.failIssuerTask job stUncorr 0 a

/-- Serves a write for a context (R22, R330). -/
def Device.serveWrite (d : Device) (a ctx : Nat) (job : Option Nat) (data : List Byte) : Device :=
  match d.hbmStore (reqAction job) ctx a data with
  | (d, none) => d
  | (d, some .violation) => d.failIssuerTask job stViolation 0x46 a
  | (d, some (.uncorrectable x)) => d.failIssuerTask job stUncorr 0 x

/-- One near-memory operation of a request: its flags reach the issuing task's notes (R326), and an uncorrectable sector
ends the task (R327). -/
def Device.serveOp (d : Device) (ctx : Nat) (job : Option Nat) (p : Nat × NmaOp) : Device :=
  match d.nma (reqAction job) ctx p.1 p.2 with
  | (d, .ok o) =>
    (match job with | some j => d.report j { (default : Report) with notes := flagNotes o.flags } | none => d)
  | (d, .error .violation) => d.failIssuerTask job stViolation 0x46 p.1
  | (d, .error (.uncorrectable x)) => d.failIssuerTask job stUncorr 0 x

/-- Serves one burst of the scrub (R333): each of its four sectors is decoded on its own. -/
def Device.serveScrub (d : Device) (a : Nat) (errs : List SectorErr) : Device :=
  (List.range 4).foldl (fun d k => (d.decodeSector 0 (a + 32 * k) (errs.getD k (.lanes []))).1)
    ((d.count Reg.MEM_SCRUB_BURSTS 1).chargeHbm deviceAccount .hbmRd a 128)

/-- Serves a request (R324). -/
def Device.serveReq (d : Device) (q : MemReq) : Device :=
  match q.work with
  | .read err => d.serveRead q.addr q.ctx q.job err
  | .write bs => d.serveWrite q.addr q.ctx q.job bs
  | .near ops => ops.foldl (fun d p => d.serveOp q.ctx q.job p) d
  | .scrub errs => if d.hbm.reachable q.addr && !d.hbm.onRetired q.addr then d.serveScrub q.addr errs else d

/-- A request reaches its controller, which serves it, or lets it wait while the channel is held (R335). -/
def Device.request (d : Device) (a : Nat) (work : MemWork) (use : MemUse) (ctx : Nat) (job : Option Nat) : Device :=
  let q : MemReq := ⟨d.hbm.nextReq, a, work, memClass use, ctx, job, d.now⟩
  if d.heldAt a then { d with hbm := { d.hbm with waiting := d.hbm.waiting ++ [q], nextReq := d.hbm.nextReq + 1 } }
  else d.serveReq q

/-- MEM_READ_REQUEST (R321, R324, R328 to R332). -/
def execMemReadRequest (addr : Nat) (u : MemUser) (ctx : Ctx) (err : SectorErr) (path : OnChip) (s : State) :
    Host.Outcome State Fault Refusal :=
  onDevice s fun d =>
    let r := d.crossPath addr u.job path
    if !r.2 then r.1 else r.1.request addr (.read err) u.use ctx u.job

/-- MEM_WRITE_REQUEST (R22, R321, R330, R332): a controller serves what lies in one granule. -/
def execMemWriteRequest (addr : Nat) (data : List Byte) (u : MemUser) (ctx : Ctx) (path : OnChip) (s : State) :
    Host.Outcome State Fault Refusal :=
  onDevice s fun d =>
    if 4096 < addr % 4096 + data.length then d
    else
      let r := d.crossPath addr u.job path
      if !r.2 then r.1 else r.1.request addr (.write data) u.use ctx u.job

/-- NMA_OP (R325 to R327): one operation, or a group that the issuer marks as one. -/
def execNmaOp (ops : List (Nat × NmaOp)) (u : MemUser) (ctx : Ctx) (s : State) : Host.Outcome State Fault Refusal :=
  onDevice s fun d =>
    if !nmaGroupOk ops then d else d.request (ops.headD (0, .put 0 [])).1 (.near ops) u.use ctx u.job

/-- MEM_AGE (R324): a waiting request rises one class. -/
def execMemAge (req : Nat) (s : State) : Host.Outcome State Fault Refusal :=
  onDevice s fun d =>
    let age := max 1 (d.fld Reg.MEM_PRIO Fld.MEM_PRIO_AGE)
    match d.hbm.waiting.find? (fun q => q.id == req && q.cls != 0 && decide (q.since + age < d.now)) with
    | none => d
    | some _ =>
      let waiting := d.hbm.waiting.map (fun q =>
        if q.id = req then { q with cls := q.cls - 1, since := q.since + age } else q)
      { d with hbm := { d.hbm with waiting := waiting } }.count Reg.MEM_AGED 1

/-! ### Maintenance slots (R334, R335) -/

def Device.announceNs (d : Device) : Nat := max 1 (d.fld Reg.MEM_MAINT Fld.MEM_MAINT_ANNOUNCE) * 1000000

/-- The first whole multiple of `sp` that is greater than `x`. -/
def multipleAfter (sp x : Nat) : Nat := (x / sp + 1) * sp

/-- The first slot after `x`, with a change of spacing taken into account (R334). -/
def Device.slotAfter (d : Device) (x : Nat) : Nat :=
  let sp := max 1 d.hbm.spacing
  slotAmong sp d.hbm.nextSpacings (max x (d.hbm.firstSlot - 1))
where
  /-- With the changes still to come: a slot of the present spacing falls before the next change's first slot. -/
  slotAmong (sp : Nat) : List (Nat × Nat) → Nat → Nat
    | [], x => multipleAfter sp x
    | c :: cs, x =>
      if multipleAfter sp x < c.2 then multipleAfter sp x else slotAmong (max 1 c.1) cs (max x (c.2 - 1))

/-- Announces the next slot that still lies at least ANNOUNCE ahead (R335). -/
def Device.announceSlot (d : Device) : Device :=
  if d.fld Reg.MEM_MAINT Fld.MEM_MAINT_EN = 0 then d
  else
    let from_ := max (d.hbm.announced.foldl max d.hbm.lastSlot) (d.now + d.announceNs - 1)
    { d with hbm := { d.hbm with announced := d.hbm.announced ++ [d.slotAfter from_] } }

/-- MAINT_ANNOUNCE (R335): the deadline monitor learns of the next slot (R242). -/
def execMaintAnnounce (s : State) : Host.Outcome State Fault Refusal :=
  onDevice s fun d => if d.clk.stage = .batten ∨ d.clk.stage = .thatched then d.announceSlot else d

/-- Retrains a channel within a slot (R335, R337). -/
def Device.retrain (d : Device) (c : Nat) (fails : Bool) : Device :=
  let h := d.chan c
  if h.retired then d
  else
    let d := (d.setChan c { h with held := true, fails := if fails then min 3 (h.fails + 1) else 0 }).count Reg.MEM_RETRAINS 1
    if !fails then d
    else
      let d := d.memEvent c 3 0 0 0 2 0 0
      if 2 ≤ (d.chan c).fails && d.fld Reg.MEM_CTRL Fld.MEM_CTRL_AUTO_RETIRE = 1 then d.retireChan c
      else d.queueWork c 1 0

/-- Steers a lane onto the spare and starts the sweep (R336); there is no second repair. -/
def Device.repairLane (d : Device) (c lane : Nat) : Device :=
  let h := d.chan c
  if h.retired || h.spareUsed || decide (35 < lane) then d
  else
    let h := { h with held := true, spareUsed := true, steered := some lane, sweeping := true, sweep := 0
                      marks := if h.marks.contains lane then h.marks else h.marks ++ [lane] }
    (d.setChan c h).count Reg.MEM_LANE_REPAIRS 1

/-- One piece of queued work (Table 11-12, OP). -/
def Device.doWork (d : Device) (w : Nat × Nat × Nat) (failing : List Nat) : Device :=
  if w.2.1 = 1 then d.retrain w.1 (failing.contains w.1)
  else if w.2.1 = 2 then d.repairLane w.1 w.2.2
  else if w.2.1 = 3 then d.retireChan w.1 else d

/-- Splits queued work into what this slot holds and what waits: no more than two channels of one stack,
the slot's own retraining among them (R334). -/
def pickWork (own : Nat) : List (Nat × Nat × Nat) → List Nat → List (Nat × Nat × Nat) × List (Nat × Nat × Nat)
  | [], _ => ([], [])
  | w :: ws, used =>
    if w.1 % 32 = own || used.contains w.1 then
      let r := pickWork own ws used
      (w :: r.1, r.2)
    else if used.any (fun c => c / 32 == w.1 / 32) then
      let r := pickWork own ws used
      (r.1, w :: r.2)
    else
      let r := pickWork own ws (w.1 :: used)
      (w :: r.1, r.2)

/-- The changes of spacing that a slot at time `t` falls under are in force (R334). -/
def Hbm.spacingAt (h : Hbm) (t : Nat) : Hbm :=
  { h with
    spacing := h.nextSpacings.foldl (fun sp c => if c.2 ≤ t then c.1 else sp) h.spacing
    nextSpacings := h.nextSpacings.filter (fun c => decide (t < c.2)) }

/-- MAINT_SLOT (R334 to R337): the first announced slot whose time has come. -/
def execMaintSlot (failing : List Nat) (s : State) : Host.Outcome State Fault Refusal :=
  onDevice s fun d =>
    match d.hbm.announced with
    | [] => d
    | t :: rest =>
      if d.now < t || d.fld Reg.MEM_MAINT Fld.MEM_MAINT_EN = 0 then d
      else
        let d := { d with hbm := d.hbm.spacingAt t }
        let own := t / max 1 d.hbm.spacing % 32
        let w := pickWork own (d.hbm.queued.filter (fun w => w.2.1 != 1 || w.1 % 32 != own)) []
        let d := { d with hbm := { d.hbm with announced := rest, lastSlot := t, queued := w.2 } }
        let d := (List.range 16).foldl (fun d k => d.retrain (32 * k + own) (failing.contains (32 * k + own))) d
        w.1.foldl (fun d x => d.doWork x failing) d

/-- The sectors that a request touches. -/
def MemReq.sectors (q : MemReq) : List Nat :=
  match q.work with
  | .read _ => [q.addr / 32]
  | .write bs => (pieces 32 q.addr bs.length).map (fun p => p.1 / 32)
  | .near ops => ops.map (fun p => p.1 / 32)
  | .scrub _ => (List.range 4).map (fun k => q.addr / 32 + k)

/-- Whether two waiting requests touch one sector. -/
def MemReq.meets (p q : MemReq) : Bool := p.sectors.any (fun s => q.sectors.contains s)

/-- The requests that no earlier one of the list precedes at a sector. -/
def freeToServe : List MemReq → List MemReq → List MemReq
  | _, [] => []
  | before, q :: r => (if before.any q.meets then [] else [q]) ++ freeToServe (before ++ [q]) r

/-- What a controller serves next of the requests free to be served: the highest class, then the oldest; a P3 request
where `due` says that the slot P3 is assured of has come (R324). -/
def serveNext (due : Bool) (free : List MemReq) : Option MemReq :=
  match (if due then free.find? (fun q => q.cls == 3) else none) with
  | some q => some q
  | none =>
    free.foldl (fun (b : Option MemReq) q =>
      match b with | none => some q | some p => if q.cls < p.cls then some q else b) none

/-- The order in which a controller serves the requests waiting at it (R324): at one sector in arrival order, otherwise
by class and age, with one P3 request in every `floor`; `run` of them have passed since the last. -/
def serveOrder (floor : Nat) : Nat → Nat → List MemReq → List MemReq
  | 0, _, _ => []
  | f + 1, run, ws =>
    match serveNext (decide (floor ≤ run + 1)) (freeToServe [] ws) with
    | none => []
    | some q => q :: serveOrder floor f (if q.cls = 3 then 0 else run + 1) (ws.filter (fun p => p.id != q.id))

/-- The channel whose controller takes requests to an address. -/
def Hbm.chanOf (h : Hbm) (a : Nat) : Nat := match h.place a with | some (c, _) => c | none => 0

/-- The waiting requests as their controllers serve them, each on its own (R324). -/
def Device.turns (d : Device) : List MemReq :=
  let floor := max 1 (d.fld Reg.MEM_PRIO Fld.MEM_PRIO_P3_FLOOR)
  (d.hbm.waiting.map (fun q => d.hbm.chanOf q.addr)).eraseDups.flatMap fun c =>
    let ws := d.hbm.waiting.filter (fun q => d.hbm.chanOf q.addr == c)
    serveOrder floor ws.length 0 ws

/-- MAINT_HOLD_END (R335): the held controllers resume (R324). -/
def execMaintHoldEnd (s : State) : Host.Outcome State Fault Refusal :=
  onDevice s fun d =>
    if !d.hbm.chans.any (fun p => p.2.held) then d
    else
      let order := d.turns
      let chans : Tbl Chan := d.hbm.chans.map (fun p => (p.1, { p.2 with held := false }))
      let d := { d with hbm := { d.hbm with chans := chans, waiting := [] } }
      order.foldl (fun d q => d.serveReq q) (d.count Reg.MEM_HOLD_NS (min 4000 (d.now - d.hbm.lastSlot)))

/-- The sweep of a lane repair has passed the first `mib` MiB of its channel, on the device account (Table 14-2); past
the last sector it ends (R336). -/
def Device.sweepTo (d : Device) (c mib : Nat) : Device :=
  let h := d.chan c
  let n := (min mib 1152 - h.sweep) * 2 ^ 20
  let d := d.setChan c { h with sweep := max h.sweep (min mib 1152), sweeping := decide (mib < 1152) }
  let d := if mib < 1152 then d
    else { d with hbm := { d.hbm with rewritten := d.hbm.rewritten.filter (fun s => d.hbm.chanOf (32 * s) != c) } }
  (d.charge deviceAccount .hbmRd n (c / 32)).charge deviceAccount .hbmWr n (c / 32)

/-- LANE_SWEEP_DONE (R336): the sweep reports how far it has come, and its end with 1,152 MiB. -/
def execLaneSweepDone (p : SweepAt) (s : State) : Host.Outcome State Fault Refusal :=
  onDevice s fun d => if (d.chan p.chan).sweeping then d.sweepTo p.chan p.mib else d

/-- SCRUB (R333, R335): one burst of four sectors at P3, none of a retired channel. -/
def execScrub (addr : Nat) (errs : List SectorErr) (s : State) : Host.Outcome State Fault Refusal :=
  onDevice s fun d =>
    let a := addr / 128 * 128
    if d.fld Reg.MEM_CTRL Fld.MEM_CTRL_SCRUB_EN = 0 || !d.hbm.reachable a || d.hbm.onRetired a then d
    else d.request a (.scrub errs) .scrub deviceAccount none

/-! ### Register writes of the MEM block -/

def Device.selChan (d : Device) : Nat := d.fld Reg.MEM_PC_SEL Fld.MEM_PC_SEL_CHAN

def Device.memPcCmd (d : Device) (v : Word) (op : Nat) : Device :=
  if bits v 1 0 = op then d.queueWork d.selChan op (bits v 13 8) else d

/-- MEM_PC_RETRAIN (R334): MEM_PC_CMD with OP 1. -/
def execMemPcRetrain (v : Word) (s : State) : Host.Outcome State Fault Refusal :=
  onRegister s Reg.MEM_PC_CMD fun d => d.memPcCmd v 1

/-- MEM_PC_REPAIR (R336): OP 2. -/
def execMemPcRepair (v : Word) (s : State) : Host.Outcome State Fault Refusal :=
  onRegister s Reg.MEM_PC_CMD fun d => d.memPcCmd v 2

/-- MEM_PC_RETIRE (R337): OP 3. -/
def execMemPcRetire (v : Word) (s : State) : Host.Outcome State Fault Refusal :=
  onRegister s Reg.MEM_PC_CMD fun d => d.memPcCmd v 3

/-- A write of MEM_MAINT (R334): SPACING below 100 is taken as 100. -/
def Device.writeMemMaint (d : Device) (v : Word) : Device :=
  let was := d.fld Reg.MEM_MAINT Fld.MEM_MAINT_EN = 1
  let sp := max 100 (bits v 31 16)
  let old := d.fld Reg.MEM_MAINT Fld.MEM_MAINT_SPACING
  let d := d.setReg Reg.MEM_MAINT (pack [(0, 1, bits v 0 0), (16, 16, sp), (32, 16, bits v 47 32)])
  let ns := sp * 1000
  let first := multipleAfter ns (d.now + d.announceNs)
  if !bit v 0 then { d with hbm := { d.hbm with announced := [], spacing := ns, nextSpacings := [] } }
  else if !was then { d with hbm := { d.hbm with spacing := ns, nextSpacings := [], firstSlot := first } }
  else if sp = old then d
  else { d with hbm := { d.hbm with
      nextSpacings := d.hbm.nextSpacings.filter (fun c => decide (c.2 < first)) ++ [(ns, first)]
      announced := d.hbm.announced.filter (fun t => decide (t < first)) } }

/-- MEM_MAINT_WRITE (R334). -/
def execMemMaintWrite (v : Word) (s : State) : Host.Outcome State Fault Refusal :=
  onRegister s Reg.MEM_MAINT fun d => d.writeMemMaint v

/-- Whether any frame follows map slot `m` (R338). -/
def Hbm.followed (h : Hbm) (m : Nat) : Bool := if m = 1 then !h.onMap1.isEmpty else decide (h.onMap1.length < frames)

def Hbm.slot (h : Hbm) (m : Nat) : MapSlot := if m = 1 then h.slot1 else h.slot0

def Hbm.setSlot (h : Hbm) (m : Nat) (x : MapSlot) : Hbm := if m = 1 then { h with slot1 := x } else { h with slot0 := x }

/-- Whether a retired channel is left in use by an exclusion mask. -/
def Hbm.retiredInUse (h : Hbm) (excl : Nat) : Bool := h.chans.any (fun p => p.2.retired && !excl.testBit p.1)

/-- A write of a map slot's register (`reg` 0) or EXCL register `reg` − 1 (R338). -/
def Device.writeMapSlot (d : Device) (m reg : Nat) (v : Word) : Device :=
  let x := d.hbm.slot m
  let refuse := d.setFld Reg.MEM_STATUS Fld.MEM_STATUS_MAP_REFUSED 1
  if d.hbm.followed m then refuse
  else if reg = 0 then
    if bit v 63 && (decide (32 < x.k) || d.hbm.retiredInUse x.excl) then refuse
    else { d with hbm := d.hbm.setSlot m { x with seed := bits v 31 0, valid := bit v 63 } }
  else
    let lo := 64 * (reg - 1)
    let e := x.excl - ((x.excl >>> lo) % 2 ^ 64) <<< lo + v.toNat <<< lo
    { d with hbm := d.hbm.setSlot m { x with excl := e } }

/-- MAP_SLOT_WRITE (R338). -/
def execMapSlotWrite (m : Fin 2) (reg : Fin 9) (v : Word) (s : State) : Host.Outcome State Fault Refusal :=
  onRegister s (Reg.MEM_MAP m) fun d => d.writeMapSlot m reg v

/-- Whether the Eave ring lies in a frame: there is one from the first write of EAVE_CFG on (log entry 115). -/
def Device.eaveIn (d : Device) (f : Nat) : Bool :=
  thas d.regs Reg.EAVE_CFG &&
    overlap (d.fld Reg.EAVE_CFG Fld.EAVE_CFG_BASE * 64) (64 * 2 ^ d.fld Reg.EAVE_CFG Fld.EAVE_CFG_SIZE_LOG2) (f * 2 ^ 30) (2 ^ 30)

/-- Whether a translation at either level maps into a frame. -/
def Xlt.mapsInto (x : Xlt) (f : Nat) : Bool :=
  let hit (p : Nat × List Xlation) : Bool := p.2.any (fun e => overlap e.pa (pageSize e.size) (f * 2 ^ 30) (2 ^ 30))
  x.l1.any hit || x.l2.any hit

/-- The cause that refuses a conversion (R339), 0 for none. -/
def Device.convertCause (d : Device) (f m : Nat) : Nat :=
  if d.eaveIn f then 1
  else if d.xlt.mapsInto f then 2
  else if !(d.hbm.slot m).valid then 3
  else if f < frames ∧ (d.hbm.onMap1.contains f == (m == 1)) then 4
  else if d.hbm.converting.isSome then 5
  else if frames ≤ f then 6 else 0

/-- A write of MEM_FRAME_CMD (R339): an accepted conversion switches the frame at once and zeroes it. -/
def Device.writeFrameCmd (d : Device) (v : Word) : Device :=
  let d := d.setReg Reg.MEM_FRAME_CMD (v &&& 0x7FF#64)
  if !bit v 63 then d
  else
    let f := bits v 9 0
    let m := bits v 10 10
    let c := d.convertCause f m
    if c ≠ 0 then d.setFld Reg.MEM_STATUS Fld.MEM_STATUS_FRAME_CAUSE c
    else
      let inF (a : Nat) : Bool := a / 2 ^ 30 == f
      { d with
        hbm := { d.hbm with
          onMap1 := if m = 1 then f :: d.hbm.onMap1 else d.hbm.onMap1.filter (· != f)
          converting := some f
          mem := d.hbm.mem.filter (fun p => !inF p.1)
          bad := d.hbm.bad.filter (fun k => !inF (k * 32)) }
        soffit := d.soffit.map (fun p => (p.1,
          if p.2.enabled then
            { p.2 with lines := p.2.lines.filter (fun l => !inF (l.line * 128))
                       misses := p.2.misses.map (fun m => if inF (m.line * 128) then { m with noInstall := true, passed := true } else m) }
          else p.2)) }

/-- FRAME_CONVERT (R339). -/
def execFrameConvert (v : Word) (s : State) : Host.Outcome State Fault Refusal :=
  onRegister s Reg.MEM_FRAME_CMD fun d => d.writeFrameCmd v

/-- FRAME_CONVERT_DONE (R339): the last zeroing write is done; the device account pays (Table 14-2). -/
def execFrameConvertDone (s : State) : Host.Outcome State Fault Refusal :=
  onDevice s fun d =>
    match d.hbm.converting with
    | none => d
    | some f =>
      let n := 512 - (d.hbm.slotOf f).k
      ({ d with hbm := { d.hbm with converting := none } }).charge deviceAccount .hbmWr (512 * n * 4096) 16

end Sys2Proof.Machine
end

