-- ==== Sys2Proof/Machine/LathFloat.lean ====
section
/-! DEFINITION. The wide lane of a Lath engine (R56, R57, R150, R151). -/
namespace Sys2Proof.Machine

open Sys2Proof

/-- The format of the lanes: binary64 pairs when T[3] = 1. -/
def LthTask.ffmt (x : LthTask) : FFmt := if x.isPair then f64 else f32

/-- The rounding direction T[1:0]. -/
def LthTask.rm (x : LthTask) : Nat := x.ins.t % 4

def fpLanes (b : LthBank) (wide : Bool) (r : Nat) : List Nat :=
  if wide then (b.pairs r).map (unsigned 64) else (b.vec r).map BitVec.toNat

def LthTask.fsrc (x : LthTask) (r : Nat) : List Nat := fpLanes x.bank x.isPair r

/-- Writes bit patterns of 32 or 64 bits. -/
def LthTask.putBits (x : LthTask) (wide : Bool) (vs : List Nat) : LthBank :=
  let is := vs.map (fun (n : Nat) => (n : Int))
  if wide then x.bank.setPairs x.ins.vd x.mask x.ins.mz is else x.bank.setInts x.ins.vd x.mask x.ins.mz is

/-- Results with flags; only active lanes raise them (R141). -/
def LthTask.fpOut (x : LthTask) (wide : Bool) (rs : List (Nat × Flags)) : LthOut :=
  ⟨x.putBits wide (rs.map (·.1)),
   { (default : Tally) with flags := x.on.foldl (fun f i => f ||| (rs.getD i (0, 0)).2) 0 }⟩

def LthTask.fp2 (x : LthTask) (f : Nat → Nat → Nat × Flags) : LthOut :=
  x.fpOut x.isPair (((x.fsrc x.ins.va).zip (x.fsrc x.ins.vb)).map (fun p => f p.1 p.2))

/-- LTH_FADD. -/
def execLthFadd (t : Truss) (e : LathNo) (u : LathUpset) (s : State) : Host.Outcome State Fault Refusal :=
  lthPure t e u 0x50 s fun x => x.fp2 (fun a b => x.ffmt.add a b x.rm)

/-- LTH_FSUB. -/
def execLthFsub (t : Truss) (e : LathNo) (u : LathUpset) (s : State) : Host.Outcome State Fault Refusal :=
  lthPure t e u 0x51 s fun x => x.fp2 (fun a b => x.ffmt.sub a b x.rm)

/-- LTH_FMUL. -/
def execLthFmul (t : Truss) (e : LathNo) (u : LathUpset) (s : State) : Host.Outcome State Fault Refusal :=
  lthPure t e u 0x52 s fun x => x.fp2 (fun a b => x.ffmt.mul a b x.rm)

/-- LTH_FFMA: a × b + c, one rounding. -/
def execLthFfma (t : Truss) (e : LathNo) (u : LathUpset) (s : State) : Host.Outcome State Fault Refusal :=
  lthPure t e u 0x53 s fun x =>
    x.fpOut x.isPair (((x.fsrc x.ins.va).zip ((x.fsrc x.ins.vb).zip (x.fsrc x.ins.vc))).map
      (fun p => x.ffmt.fma p.1 p.2.1 p.2.2 x.rm))

/-- LTH_FDIV. -/
def execLthFdiv (t : Truss) (e : LathNo) (u : LathUpset) (s : State) : Host.Outcome State Fault Refusal :=
  lthPure t e u 0x54 s fun x => x.fp2 (fun a b => x.ffmt.div a b x.rm)

/-- LTH_FSQRT. -/
def execLthFsqrt (t : Truss) (e : LathNo) (u : LathUpset) (s : State) : Host.Outcome State Fault Refusal :=
  lthPure t e u 0x55 s fun x => x.fpOut x.isPair ((x.fsrc x.ins.va).map (fun a => x.ffmt.sqrt a x.rm))

/-- LTH_FMIN: minimum, or minimumNumber when T[2] = 1. -/
def execLthFmin (t : Truss) (e : LathNo) (u : LathUpset) (s : State) : Host.Outcome State Fault Refusal :=
  lthPure t e u 0x56 s fun x => x.fp2 (x.ffmt.minMax false (x.ins.t.testBit 2))

/-- LTH_FMAX: maximum, or maximumNumber when T[2] = 1. -/
def execLthFmax (t : Truss) (e : LathNo) (u : LathUpset) (s : State) : Host.Outcome State Fault Refusal :=
  lthPure t e u 0x57 s fun x => x.fp2 (x.ffmt.minMax true (x.ins.t.testBit 2))

/-- The conditions of FCMP (R150): 0 EQ, 1 LT, 2 LE, 3 unordered, 4 NE. -/
def fcmp (f : FFmt) (c a b : Nat) : Bool × Flags :=
  let o := f.cmp a b
  let holds := match c with
    | 0 => o == some .eq
    | 1 => o == some .lt
    | 2 => o == some .lt || o == some .eq
    | 3 => o == none
    | _ => o != some .eq
  (holds, flIf (f.isSnan a || f.isSnan b || ((c == 1 || c == 2) && o == none)) flInvalid)

/-- FCMP of every lane, with the flags of the active ones. -/
def LthTask.fcmpOut (x : LthTask) : LthOut :=
  let rs := ((x.fsrc x.ins.va).zip (x.fsrc x.ins.vb)).map (fun p => fcmp x.ffmt (x.ins.t % 8) p.1 p.2)
  { x.toMask (maskOf (fun i => (rs.getD i (false, 0)).1)) with
    tally := { (default : Tally) with flags := x.on.foldl (fun f i => f ||| (rs.getD i (false, 0)).2) 0 } }

/-- LTH_FCMP. -/
def execLthFcmp (t : Truss) (e : LathNo) (u : LathUpset) (s : State) : Host.Outcome State Fault Refusal :=
  lthPure t e u 0x58 s LthTask.fcmpOut

/-! ### Conversions (R151) -/

/-- A source lane of FCVT: a floating-point value, or an exact one. -/
def fcvtLanes (b : LthBank) (k r : Nat) : List FVal :=
  if k = 0 then (fpLanes b false r).map f32.val
  else if k = 1 then (fpLanes b true r).map f64.val
  else if k = 2 then (b.ints r).map (fun a => .fin (decide (a < 0)) ⟨a, 0⟩)
  else if k = 3 then (b.pairs r).map (fun a => .fin (decide (a < 0)) ⟨a, 0⟩)
  else (b.group r).map (fun g => .fin (decide (g.a < 0)) ⟨g.a, g.x⟩)

/-- Whether a floating-point source lane is a signalling NaN. -/
def fcvtSnan (k v : Nat) : Bool := if k = 0 then f32.isSnan v else if k = 1 then f64.isSnan v else false

/-- To floating point: a NaN keeps its sign and leading fraction bits and is quietened; from a tracked group an overflow
follows OVF_INF (R67): with IMM[4] = 1 it is an infinity in every rounding direction (DESIGN CHOICE, log entry 118). -/
def toFloat (f g : FFmt) (src rm : Nat) (ovfInf : Bool) (raw : Nat) (v : FVal) : Nat × Flags × Bool :=
  match v with
  | .nan =>
    let frac := g.frac raw
    let m := if g.mb ≤ f.mb then frac * 2 ^ (f.mb - g.mb) else frac / 2 ^ (g.mb - f.mb)
    (f.quiet ((if g.neg raw then f.signBit else 0) + f.infBits + m), flIf (fcvtSnan src raw) flInvalid, false)
  | .inf neg => (f.signed neg f.infBits, 0, false)
  | .fin neg d =>
    let r := f.round (if src < 2 then neg else false) d rm
    if src = 4 && r.2.toNat.testBit 2 then
      if ovfInf then (f.signed (decide (d.n < 0)) f.infBits, r.2, false)
      else (f.signed (decide (d.n < 0)) f.maxBits, r.2, true)
    else (r.1, r.2, false)

/-- To an integer of `n` bits: out of range gives the nearest value, a NaN 0, both with invalid. -/
def toInteger (n rm : Nat) (v : FVal) : Int × Flags :=
  let lo : Int := -(2 ^ (n - 1))
  let hi : Int := 2 ^ (n - 1) - 1
  match v with
  | .nan => (0, flInvalid)
  | .inf neg => (if neg then lo else hi, flInvalid)
  | .fin _ d =>
    let r := d.toInt rm
    if r.1 < lo then (lo, flInvalid) else if hi < r.1 then (hi, flInvalid) else (r.1, flIf (!r.2) flInexact)

/-- To a tracked group: exact; a non-finite value is the canonical zero with invalid. -/
def toTracked (v : FVal) : Tracked × Flags :=
  match v with
  | .fin _ d => (if d.n = 0 then tzero else ⟨d.n, d.e⟩, 0)
  | _ => (tzero, flInvalid)

/-- FCVT of every lane, between the formats that IMM selects. -/
def LthTask.fcvt (x : LthTask) : LthOut :=
  let k := fcvtSel x.ins.imm
  let vs := fcvtLanes x.bank k.1 x.ins.va
  let on := x.on
  if k.2 < 2 then
    let f := if k.2 = 1 then f64 else f32
    let g := if k.1 = 1 then f64 else f32
    let raw := fpLanes x.bank (k.1 == 1) x.ins.va
    let rs := (raw.zip vs).map (fun p => toFloat f g k.1 x.rm ((unsigned 5 x.ins.imm).testBit 4) p.1 p.2)
    ⟨x.putBits (k.2 == 1) (rs.map (·.1)),
     { (default : Tally) with
       flags := on.foldl (fun f i => f ||| (rs.getD i (0, 0, false)).2.1) 0
       sat := on.countP (fun i => (rs.getD i (0, 0, false)).2.2) }⟩
  else if k.2 < 4 then
    let rs := vs.map (toInteger (if k.2 = 3 then 64 else 32) x.rm)
    let is := rs.map (·.1)
    ⟨if k.2 = 3 then x.bank.setPairs x.ins.vd x.mask x.ins.mz is else x.put32 is,
     { (default : Tally) with flags := on.foldl (fun f i => f ||| (rs.getD i (0, 0)).2) 0 }⟩
  else
    let rs := vs.map toTracked
    ⟨x.bank.setGroup x.ins.vd x.mask x.ins.mz (rs.map (·.1)),
     { (default : Tally) with flags := on.foldl (fun f i => f ||| (rs.getD i (tzero, 0)).2) 0 }⟩

/-- LTH_FCVT. -/
def execLthFcvt (t : Truss) (e : LathNo) (u : LathUpset) (s : State) : Host.Outcome State Fault Refusal :=
  lthPure t e u 0x59 s LthTask.fcvt

end Sys2Proof.Machine
end

