-- ==== Sys2Proof/Machine/LathMem.lean ====
section
/-! DEFINITION. Lath loads and stores of vectors, records, scale entries and tables (R142, R144, R145, R147). -/
namespace Sys2Proof.Machine

open Sys2Proof

/-- Bytes that LD and ST move, by T (R142). -/
def ldBytes (t : Nat) : Nat :=
  if t = 0 then 512 else if t = 3 then 256 else if t = 4 then 64 else if t = 5 then 1024 else 128

/-- The lanes of loaded bytes. -/
def ldLanes (t : Nat) (bs : List Byte) : List Int :=
  lanes.map fun i =>
    if t = 0 then signed 32 (leNat (slice bs (4 * i) 4))
    else if t = 1 then signed 8 (bs.getD i 0).toNat
    else if t = 2 then ((bs.getD i 0).toNat : Int)
    else if t = 3 then signed 16 (leNat (slice bs (2 * i) 2))
    else if t = 4 then codeAt fmtS4 bs i
    else signed 64 (leNat (slice bs (8 * i) 8))

/-- Carries a load into a bank. -/
def gotMap {α β : Type} (r : Device × Got α) (f : α → β) : Device × Got β :=
  match r with
  | (d, .ok v) => (d, .ok (f v))
  | (d, .fail e) => (d, .fail e)
  | (d, .miss a w) => (d, .miss a w)

/-- LTH_LD. -/
def execLthLd (t : Truss) (e : LathNo) (u : LathUpset) (s : State) : Host.Outcome State Fault Refusal :=
  lthLoft t e u 0x40 s fun d x =>
    gotMap (d.ptrLoad x.job.ctx t x.unit false (lthPtr x.ins x.bank x.ins.va) (ldBytes x.ins.t)) fun bs =>
      let v := ldLanes x.ins.t bs
      outOf (if x.ins.t = 5 then x.bank.setPairs x.ins.vd x.mask x.ins.mz v else x.put32 v)

/-- The bytes a store writes: distance and bytes of each run; a nibble whose neighbour is masked off keeps it. -/
def stParts (x : LthTask) (old : List Byte) : List (Nat × List Byte) :=
  let t := x.ins.t
  let m := x.mask
  if t = 4 then
    let v := x.bank.ints x.ins.vd
    (List.range 64).filterMap fun k =>
      let a := m.getLsbD (2 * k)
      let b := m.getLsbD (2 * k + 1)
      if !a && !b then none
      else
        let o := (old.getD k 0).toNat
        let lo := if a then unsigned 4 (v.getD (2 * k) 0) else o % 16
        let hi := if b then unsigned 4 (v.getD (2 * k + 1) 0) else o / 16
        some (k, [BitVec.ofNat 8 (lo + 16 * hi)])
  else
    let n := if t = 0 then 4 else if t = 3 then 2 else if t = 5 then 8 else 1
    let v := if t = 5 then x.bank.pairs x.ins.vd else x.bank.ints x.ins.vd
    x.on.map (fun i => (n * i, leBytes n (unsigned (8 * n) (v.getD i 0))))

/-- Runs that touch are stored as one. -/
def joinParts : List (Nat × List Byte) → List (Nat × List Byte)
  | [] => []
  | p :: r =>
    match joinParts r with
    | q :: qs => if p.1 + p.2.length = q.1 then (p.1, p.2 ++ q.2) :: qs else p :: q :: qs
    | [] => [p]

/-- Stores runs of bytes at distances from a pointer: a word that cannot be stored leaves the others of the store to be
written (R13). -/
def Device.ptrStores (d : Device) (c t unit : Nat) (w : Word) : List (Nat × List Byte) → Device × Got Unit
  | [] => (d, .ok ())
  | p :: ps =>
    match d.ptrStore c t unit false (ptrAdd w p.1) p.2 with
    | (d, .ok _) => Device.ptrStores d c t unit w ps
    | (d, .fail e) => ((Device.ptrStores d c t unit w ps).1, .fail e)
    | (d, .miss a v) => (d, .miss a v)

/-- LTH_ST: the whole range lies in the share before anything is written (R20); masked-off lanes write nothing (R141). -/
def execLthSt (t : Truss) (e : LathNo) (u : LathUpset) (s : State) : Host.Outcome State Fault Refusal :=
  lthLoft t e u 0x41 s fun d x =>
    let p := lthPtr x.ins x.bank x.ins.va
    match d.resolve x.job.ctx t false p (ldBytes x.ins.t) with
    | none => (d, .fail (endC stViolation 0 x.unit 0 0))
    | some (tr, a) =>
      let old := if x.ins.t = 4 then memRead (tget d.loft tr []) a 64 else []
      gotMap (d.ptrStores x.job.ctx t x.unit p (joinParts (stParts x old))) (fun _ => outOf x.bank)

/-- LTH_LDRR (R144): a record to each lane, or one to every lane. -/
def execLthLdrr (t : Truss) (e : LathNo) (u : LathUpset) (s : State) : Host.Outcome State Fault Refusal :=
  lthLoft t e u 0x35 s fun d x =>
    gotMap (d.ptrLoad x.job.ctx t x.unit false (lthPtr x.ins x.bank x.ins.va) (if x.ins.t = 0 then 1024 else 8)) fun bs =>
      outOf (x.bank.setPairs x.ins.vd x.mask x.ins.mz
        (lanes.map (fun i => signed 64 (leNat (slice bs (if x.ins.t = 0 then 8 * i else 0) 8)))))

/-- Whether a block of lanes has an active one (R145). -/
def LthTask.blockOn (x : LthTask) (b j : Nat) : Bool := let m := x.mask; (List.range b).any (fun i => m.getLsbD (j * b + i))

/-- LTH_LDSC (R82, R83, R145). -/
def execLthLdsc (t : Truss) (e : LathNo) (u : LathUpset) (s : State) : Host.Outcome State Fault Refusal :=
  lthRow t e 0x42 s fun d x =>
    match d.lthUpset x u with
    | (d, false) => d
    | (d, true) =>
      let b := blkSize x.ins.t
      let n := 128 / b
      let base := (x.bank.s x.ins.vb).toNat
      match d.ptrLoad x.job.ctx t x.unit false (lthPtr x.ins x.bank x.ins.va) (2 * n) with
      | (d, .fail f) => d.lthEnd x f
      | (d, .miss _ _) => d
      | (d, .ok bs) =>
        let entry (j : Nat) : Nat := leNat (slice bs (2 * j) 2)
        match (List.range n).find? (fun j => x.blockOn b j && entryOrd (entry j) != (base + j) % 64) with
        | some j =>
          let f := endB 0 ((base + j) % 64) (entryOrd (entry j)) x.unit (base + j)
          ((d.count (Reg.LTH_SKEW t e) 1).log 0x08 0 x.unit x.job.ctx 2 0 f.d0 (BitVec.ofNat 64 ((base + j) % 2 ^ 48))).lthEnd x f
        | none => d.lthRetire x (outOf (x.put32 (lanes.map (fun i => (entryExp (entry (i / b)) : Int)))))

/-- The entries that STSC stores: one for each block with an active lane, its exponent from the block's first lane and its
ordinal from S[VB] on. -/
def LthTask.stscParts (x : LthTask) : List (Nat × List Byte) :=
  let b := blkSize x.ins.t
  let base := (x.bank.s x.ins.vb).toNat
  let src := x.bank.vec x.ins.va
  ((List.range (128 / b)).filter (x.blockOn b)).map fun j =>
    (2 * j, leBytes 2 (scaleEntry ((src.getD (j * b) 0).toNat) (base + j)))

/-- LTH_STSC (R80, R145): from pointer S[VD] + IMM. -/
def execLthStsc (t : Truss) (e : LathNo) (u : LathUpset) (s : State) : Host.Outcome State Fault Refusal :=
  lthLoft t e u 0x43 s fun d x =>
    let p := lthPtr x.ins x.bank x.ins.vd
    match d.resolve x.job.ctx t false p (2 * (128 / blkSize x.ins.t)) with
    | none => (d, .fail (endC stViolation 0 x.unit 0 0))
    | some _ => gotMap (d.ptrStores x.job.ctx t x.unit p (joinParts x.stscParts)) (fun _ => outOf x.bank)

/-- A table slot out of its 2,056 bytes (R147). -/
def tableOfBytes (bs : List Byte) : LthTable :=
  let w := bytesWords bs
  { x0 := BitVec.ofNat 32 (bits (wordAt w 0) 31 0), sh := bits (wordAt w 0) 36 32
    entries := (w.drop 1).map (fun v => (BitVec.ofNat 32 (bits v 31 0), BitVec.ofNat 32 (bits v 63 32))) }

/-- LTH_LDTBL. -/
def execLthLdtbl (t : Truss) (e : LathNo) (u : LathUpset) (s : State) : Host.Outcome State Fault Refusal :=
  lthLoft t e u 0x46 s fun d x =>
    gotMap (d.ptrLoad x.job.ctx t x.unit false (lthPtr x.ins x.bank x.ins.va) 2056) fun bs =>
      outOf { x.bank with tbl := tset x.bank.tbl (unsigned 2 x.ins.imm) (tableOfBytes bs) }

end Sys2Proof.Machine
end

