-- ==== Sys2Proof/Machine/Stages.lean ====
section
/-! DEFINITION. The start stages (R439 to R444) and the reference clocks (R447, R448). -/
namespace Sys2Proof.Machine

open Sys2Proof

/-! ### Stage Tarp (R439, R454, R455) -/

/-- A port comes up on the layer its record gives; one without a record negotiates a layer and records it. -/
def Device.portTarp (d : Device) (p : Nat) : Device :=
  let x := tget d.ports p default
  let known := d.fls.phy.find? (fun y => y.1 == p)
  let r : Nat × Device := match known with
    | some y => (y.2, d)
    | none => let f := d.takeFree; (f.1 % 2, f.2)
  let d := { r.2 with fls := { r.2.fls with phy := tset r.2.fls.phy p r.1 } }
  { d with ports := tset d.ports p { x with up := d.clk.netOk, phy := r.1 } }

/-- A stored record as it is reported, of kind 0x15 with its original section's fields (R408, Table 13-9). -/
def Device.logStored (d : Device) (r : FaultRec) : Device :=
  ({ d with logSeq := d.logSeq + 1 }).logWrite
    { r with kind := 0x15, info0 := BitVec.ofNat 64 r.kind, info1 := BitVec.ofNat 64 r.seq, seq := d.logSeq, suppressed := 0 }

/-- Stored fault records are reported (R408). -/
def Device.reportStored (d : Device) : Device :=
  let rs := d.fls.storedRecs
  let d := { d with fls := { d.fls with storedRecs := [] } }
  rs.foldl Device.logStored d

/-- The firmware bank that runs: the one marked first, or the other; when neither verifies, the ROM answers. -/
def Device.startFirmware (d : Device) (aOk bOk : Bool) : Device :=
  let ok (b : Nat) : Bool := if b = 0 then aOk else bOk
  let first := d.fls.fwNext
  if ok first then d.runFirmware first
  else if ok (1 - first) then d.runFirmware (1 - first)
  else { d with fls := { d.fls with romOnly := true } }

/-- STAGE_TARP (R439, R440, R444, R447): from power-good the firmware is verified, the clocks are found good and the
counter starts at 0; after RESTART the firmware and the counter go on. Under AUTOSTART Batten begins. -/
def execStageTarp (fwAok fwBok : Bool) (s : State) : Host.Outcome State Fault Refusal :=
  onDevice s fun d =>
    if d.clk.stage != .beforeTarp then d
    else
      let d :=
        if d.clk.startKind = 3 then { d with clk := { d.clk with stage := .tarp } }
        else
          let d := d.startFirmware fwAok fwBok
          let d := { d with clk := { d.clk with stage := .tarp, counting := true, coreOk := true, linkOk := true, netOk := true } }
          [0, 1].foldl (fun d p => d.portTarp p) d
      let d := d.reportStored
      if d.fls.autostart && !d.fls.romOnly then d.beginBatten else d

/-! ### Stage Batten (R440, R441) -/

/-- A step that fails returns the device to Tarp with START_ERR set, and the fault is recorded (R440). -/
def Device.battenFail (d : Device) (err : Nat) : Device :=
  let d := d.dropDomains
  ({ d with fls := { d.fls with startErr := err } }).logOpen 1 0 noCtx 9 0 (BitVec.ofNat 64 err) 0

def Device.startErr (d : Device) (err : Nat) : Device := { d with fls := { d.fls with startErr := err } }

/-- Step 1: the bank marked next, or the other bank when that one is refused (R436). -/
def Device.pickImage (d : Device) : Option (Nat × Option Nat) :=
  let bytes (b : Nat) : List Byte := if b = 0 then d.fls.bankA else d.fls.bankB
  let first := d.fls.nextBank
  match d.imageCause 1 none (bytes first) with
  | none => some (first, none)
  | some cause => match d.imageCause 1 none (bytes (1 - first)) with | none => some (1 - first, some cause) | some _ => none

/-- The image is loaded: it configures every truss and slot 0 of the map (R16, R320, R341). -/
def Device.loadImage (d : Device) (bank : Nat) : Device :=
  let d := { d with fls := { d.fls with bank := bank } }
  let img := d.image
  let d := { d with fls := { d.fls with
    imgMajor := imgField img 12 2, runSvnDev := imgField img 16 4 % 64, majorMismatch := imgField img 12 2 != d.fls.fwMajor
    torus := (List.range 3).map (fun i => (i, Config.imgTorus img i)), roles := (List.range 6).map (fun i => (i, Config.imgSpanRole img i))
    neighbours := (List.range 6).map (fun i => (i, Config.imgNeighbour img i)) } }
  (List.range 16).foldl (fun d t =>
    let d := d.setTruss t { d.trussSt t with poolLog2 := min 4 (Config.imgPoolLog2 img t) }
    d.applyImage t img) d

/-- Step 2: the rails, the clocks, the stored steps and quarantines (R391). -/
def Device.powerTrusses (d : Device) : Device :=
  let d := { d with fls := { d.fls with vcore := (List.range 4).map (fun i => (i, Config.vcoreBase i)) } }
  let d := (List.range 16).foldl (fun d t =>
    let st := tget d.fls.storedStep t 0
    let d := d.setSusp t { d.susp t with step := st }
    let d := d.setTruss t { d.trussSt t with state := if d.fls.storedQuar.toNat.testBit t then 4 else 1 }
    { d with clk := { d.clk with mhz := tset d.clk.mhz t (stepCeil st) } }) d
  let d := (List.range 4).foldl (fun d i => d.setRail i) d
  { d with clk := { d.clk with locked := 0xFFFF, ridgeLock := true, loftLock := true } }

/-- Step 3: channels that fail are retired, and slot 0 excludes them (R341). -/
def Device.trainHbm (d : Device) (failed : List Nat) : Device :=
  let excl := failed.foldl (fun n c => n + 2 ^ c) 0
  let d := { d with hbm := { d.hbm with slot0 := ⟨Config.imgMapSeed d.image % 2 ^ 32, excl, true⟩ } }
  let d := failed.foldl (fun d c => d.retireChan c) d
  if failed.isEmpty then d else d.startErr 0x20

/-- Step 3, the spans: a ring whose links all fail loopback training stays bypassed, and each failure is logged; the
others store coefficients. -/
def Device.trainSpans (d : Device) (failedRings : List Nat) : Device :=
  (List.range 3).foldl (fun d dim =>
    if !d.ringUsed dim then d
    else if failedRings.contains dim then
      (((List.range 16).foldl (fun d k => d.trainFailed (16 * dim + k) 4 4) d).endSplice dim 0 3).startErr 0x21
    else d.setSplice dim { d.splice dim with coeffs := true }) d

/-- A port whose image names another layer retrains on it, down meanwhile, and its record is updated (R455). -/
def Device.retrainPorts (d : Device) : Device :=
  [0, 1].foldl (fun d p =>
    let x := tget d.ports p default
    match Config.imgPortPhy d.image p with
    | some y =>
      if y % 2 = x.phy then d
      else { d with ports := tset d.ports p { x with up := false, phy := y % 2 }
                    fls := { d.fls with phy := tset d.fls.phy p (y % 2) } }
    | none => d) d

/-- Step 4: the next ring that can join does; when none is left, Stage Batten is reached and new rkeys are drawn
(R441, R459). -/
def Device.joinNext (f : BattenFindings) : Nat → Device → Nat → Device
  | 0, d, _ =>
    { d with clk := { d.clk with stage := .batten, starting := false, battenStep := 0 }
             rkeyControl := f.rkeyControl, rkeyMemory := f.rkeyMemory }
  | n + 1, d, dim =>
    let d' := if (d.splice dim).coeffs then d.startJoin dim else d
    if d'.splicing then { d' with clk := { d'.clk with battenStep := dim + 2 } } else Device.joinNext f n d' (dim + 1)

/-- Steps 1 to 3 with what the hardware found, then the first join. Without a device number no ring joins. -/
def Device.battenSteps (d : Device) (f : BattenFindings) : Device :=
  match d.pickImage with
  | none => d.battenFail 0x10
  | some (bank, cause) =>
    let d := match cause with | some c => d.startErr c | none => d
    let bad := (f.failedChannels.filter (· < 512)).eraseDups
    if !f.clocksOk || !d.clk.coreOk || !d.clk.linkOk || !d.clk.netOk then d.battenFail 0x11
    else if !f.railsOk then d.battenFail 0x12
    else if 32 < bad.length then d.battenFail 0x13
    else
      let d := (((d.loadImage bank).retrainPorts.powerTrusses).trainHbm bad).trainSpans f.failedRings
      let d := if d.devnumValid then d else d.startErr 0x22
      d.joinNext f 3 0

/-- STAGE_BATTEN (R441): once Batten has begun, its steps up to the first join; after that, when a join has ended,
the next one, or the stage itself. -/
def execStageBatten (f : BattenFindings) (s : State) : Host.Outcome State Fault Refusal :=
  onDevice s fun d =>
    if !d.clk.starting || d.fls.restarting then d
    else if d.clk.battenStep = 0 then d.battenSteps f
    else if d.splicing then d
    else d.joinNext f (4 - d.clk.battenStep) (d.clk.battenStep - 1)

/-! ### Stage Thatched (R442, R443) -/

/-- The start's test of one truss; its duration and the kind of a unit that fails are open. -/
def Device.startTest (d : Device) (failing : List Nat) (t : Nat) : Device :=
  if (d.trussSt t).state = 4 then d
  else
    let d := (d.setSusp t { d.susp t with testFor := 3 }).beginTest t
    let m := d.takeFree
    let f := m.2.takeFree
    let fails := failing.contains t
    let d := f.2.endTest t (!fails) (f.1 % 16) (m.1 % 400001)
    if fails then d.startErr 0x23 else d

/-- STAGE_THATCHED (R294, R442, R443): every truss not quarantined has been tested, context 0 exists, and an EAVE_CFG.EN
that was held takes effect. -/
def execStageThatched (failing : List Nat) (s : State) : Host.Outcome State Fault Refusal :=
  onDevice s fun d =>
    if d.clk.stage != .batten then d
    else
      let d := (List.range 16).foldl (fun d t => d.startTest failing t) d
      let d := d.createCtx 0 { (default : Context) with state := 1, prio := 7, lenLimit := 1000 }
      { d with clk := { d.clk with stage := .thatched }, eave := { d.eave with heldEnable := false } }

/-! ### Reference clocks (R447, R448) -/

/-- CORE_REFCLK_LOSS (R447, R448): the counter holds, and past Stage Tarp the device drops to it. -/
def execCoreRefclkLoss (s : State) : Host.Outcome State Fault Refusal :=
  onDevice s fun d =>
    if !d.flsOn || !d.clk.coreOk then d
    else
      let d := { d with clk := { d.clk with coreOk := false, counting := false, locked := 0, ridgeLock := false, loftLock := false } }
      if d.clk.stage == .tarp && !d.clk.starting then d.logOpen 1 0 noCtx 9 0 0 0 else d.tarpDropNow 0 0

/-- LINK_REFCLK_LOSS (R355, R448): every link goes down. -/
def execLinkRefclkLoss (s : State) : Host.Outcome State Fault Refusal :=
  onDevice s fun d =>
    if !d.flsOn || !d.clk.linkOk then d
    else
      let d := (List.range 48).foldl (fun d l => d.goDown l 0) d
      ({ d with clk := { d.clk with linkOk := false } }).logOpen 0 0 noCtx 0 0 0 0

end Sys2Proof.Machine
end

