-- ==== Sys2Proof/Machine/Network.lean ====
section
/-! DEFINITION. The Ethernet ports (16): RoCEv2 requests, congestion, port states, queue pairs, and the management
operations on them. -/
namespace Sys2Proof.Machine

open Sys2Proof

/-! ### Queue pairs and ports (R455, R456, R464) -/

/-- Whether RoCEv2 is served (R439, R441). -/
def Device.roceOn (d : Device) : Bool := d.clk.stage == .batten || d.clk.stage == .thatched

/-- What the users of a queue pair do once it is in error (R226, R254, R290, R313). -/
def Device.qpUsersFail (d : Device) (qpn : Nat) : Device :=
  let clients := (d.clients.filter (fun p => p.2.attached && !p.2.detaching && p.2.qpn == qpn)).map (·.1)
  let d := clients.foldl (fun d c => d.detachClient c) d
  let rings := (List.range 64).filter (fun c => (d.ctx c).state != 0 && d.fld (Reg.GUT_CFG c) Fld.GUT_CFG_QPN == qpn)
  let d := rings.foldl (fun d c => d.gutBlock c) d
  if d.fld Reg.XLT_REQ_CFG Fld.XLT_REQ_CFG_QPN = qpn ∧ !d.xlt.blocked then d.xltRingFail else d

/-- A queue pair enters the error state. -/
def Device.qpError (d : Device) (qpn : Nat) : Device :=
  let q := tget d.qps qpn default
  if !thas d.qps qpn || q.error then d
  else ({ d with qps := tset d.qps qpn { q with error := true } }).qpUsersFail qpn

/-- A port goes down, and its queue pairs end in error (R456). -/
def Device.portFail (d : Device) (p : Nat) : Device :=
  let x := tget d.ports p default
  if !x.up then d
  else
    let d := { d with ports := tset d.ports p { x with up := false } }
    ((d.qps.filter (fun q => q.2.port == p)).map (·.1)).foldl (fun d n => d.qpError n) d

/-- PORT_DOWN (R456). -/
def execPortDown (p : PortNo) (s : State) : Host.Outcome State Fault Refusal :=
  onServing s fun d => d.portFail p

/-- PORT_UP (R455, R456): the layer reached is recorded, and the port's queue pairs serve again. -/
def execPortUp (p : PortNo) (phy : Nat) (s : State) : Host.Outcome State Fault Refusal :=
  onDevice s fun d =>
    let x := tget d.ports p.val default
    if !d.flsOn || !d.clk.netOk || x.up then d
    else
      { d with
        ports := tset d.ports p.val { x with up := true, phy := phy % 2 }
        fls := { d.fls with phy := tset d.fls.phy p.val (phy % 2) }
        qps := tupd d.qps (fun _ (q : Qp) => if q.port = p.val then { q with error := false } else q) }

/-- NET_REFCLK_LOSS (R448): both ports go down. -/
def execNetRefclkLoss (s : State) : Host.Outcome State Fault Refusal :=
  onServing s fun d =>
    if !d.flsOn || !d.clk.netOk then d
    else
      let d := ({ d with clk := { d.clk with netOk := false } }).logOpen 0 0 noCtx 0 0 0 0
      [0, 1].foldl (fun d p => d.portFail p) d

/-- REFCLK_RESTORED (R447, R448): the clock's bit returns, and under CORE_REFCLK the counter counts on from the value
it held. -/
def execRefclkRestored (c : RefClk) (s : State) : Host.Outcome State Fault Refusal :=
  onDevice s fun d =>
    if !d.flsOn then d
    else
      match c with
      | .core => { d with clk := { d.clk with coreOk := true, counting := true } }
      | .link => { d with clk := { d.clk with linkOk := true } }
      | .net => { d with clk := { d.clk with netOk := true } }

/-! ### RoCEv2 (R457 to R460) -/

def roleOwner : Nat := 0
def roleHost : Nat := 1
def roleClient : Nat := 2

/-- Answers: 1 remote access error, 2 remote operational error, 3 invalid request. -/
def nakAccess : Nat := 1
def nakOperational : Nat := 2
def nakInvalid : Nat := 3

/-- A queue pair that can take packets. -/
def Device.qpOn (d : Device) (qpn : Nat) : Bool :=
  let q := tget d.qps qpn default
  d.roceOn && thas d.qps qpn && !q.error && (tget d.ports q.port default).up

/-- Whether a role permits a request (Table 16-2). -/
def rolePermits (role : Nat) : RoceKind → Bool
  | .send => role == roleClient
  | .rdmaWrite | .rdmaRead => role == roleOwner
  | .atomic | .immediate | .sendInvalidate | .otherTransport => false

/-- ROCE_PACKET (R439, R457, R458): at Tarp, of another transport or for no queue pair of the port a packet is
discarded; outside the subset or the role it draws a NAK. A request that is permitted is served by its own row. -/
def execRocePacket (p : PortNo) (qpn : Nat) (kind : RoceKind) (s : State) : Host.Outcome State Fault Refusal :=
  onDevice s fun d =>
    let q := tget d.qps qpn default
    if !(tget d.ports p.val default).up then d
    else if kind == .otherTransport || !d.qpOn qpn || q.port != p.val then
      (d.count (Reg.ETH_RX_FRAMES p) 1).count (Reg.ETH_DROPPED p) 1
    else if kind == .atomic || kind == .immediate || kind == .sendInvalidate then
      (d.count (Reg.ETH_RX_FRAMES p) 1).rdmaAnswer qpn nakInvalid []
    else if rolePermits q.role kind then d
    else (d.count (Reg.ETH_RX_FRAMES p) 1).rdmaAnswer qpn nakAccess []

/-- Largest RDMA message (Table 16-1). -/
def rdmaMax : Nat := 2 ^ 30

/-- Whether the role or the rkey of a memory-region request earns a remote access error. -/
def Device.memoryBarred (d : Device) (qpn : Nat) (rkey : BitVec 32) : Bool :=
  (tget d.qps qpn default).role != roleOwner || rkey != d.rkeyMemory

/-- The answer to a memory error (R321, R330). -/
def memNak : MemErr → Nat
  | .violation => nakAccess
  | .uncorrectable _ => nakOperational

/-- RDMA_MEMORY_READ (R321, R330, R459), at the cost of context 0. -/
def execRdmaMemoryRead (qpn : Nat) (rkey : BitVec 32) (addr len : Nat) (s : State) : Host.Outcome State Fault Refusal :=
  onDevice s fun d =>
    if !d.qpOn qpn then d
    else
      let d := d.rdmaIn 0 qpn 0
      if d.memoryBarred qpn rkey then d.rdmaAnswer qpn nakAccess []
      else if rdmaMax < len then d.rdmaAnswer qpn nakInvalid []
      else
        match d.hbmLoad 0 0 addr len with
        | (d, .ok bs) => (d.charge 0 .eth len 16).rdmaAnswer qpn 0 bs
        | (d, .error e) => d.rdmaAnswer qpn (memNak e) []

/-- Whether a write reaches the Eave ring, which is there from the first write of EAVE_CFG on (log entry 115), and does
not cover whole entries (R257). -/
def Device.splitsEntry (d : Device) (addr len : Nat) : Bool :=
  let lo := max addr d.eaveBase
  let hi := min (addr + len) (d.eaveBase + 64 * d.eaveSize)
  thas d.regs Reg.EAVE_CFG && decide (lo < hi) && (lo % 64 != 0 || hi % 64 != 0)

/-- An RDMA WRITE to the memory region (R257, R321, R330, R459): Soffit lines drop (R22). -/
def Device.rdmaWriteMem (d : Device) (qpn : Nat) (rkey : BitVec 32) (addr : Nat) (data : List Byte) : Device :=
  if !d.qpOn qpn then d
  else
    let split := d.splitsEntry addr data.length
    let d := d.rdmaIn 0 qpn data.length
    if d.memoryBarred qpn rkey then d.rdmaAnswer qpn nakAccess []
    else if rdmaMax < data.length then d.rdmaAnswer qpn nakInvalid []
    else if split then d.rdmaAnswer qpn nakAccess []
    else
      match d.hbmStore 0 0 addr data with
      | (d, none) => d.rdmaAnswer qpn 0 []
      | (d, some e) => d.rdmaAnswer qpn (memNak e) []

/-- RDMA_MEMORY_WRITE (R459). -/
def execRdmaMemoryWrite (qpn : Nat) (rkey : BitVec 32) (addr : Nat) (data : List Byte) (s : State) :
    Host.Outcome State Fault Refusal :=
  onDevice s fun d => d.rdmaWriteMem qpn rkey addr data

/-- EAVE_RING_WRITE (R257, R459): the owner host's driver writes ring entries by RDMA. -/
def execEaveRingWrite (qpn : Nat) (rkey : BitVec 32) (addr : Nat) (data : List Byte) (s : State) :
    Host.Outcome State Fault Refusal :=
  onDevice s fun d => d.rdmaWriteMem qpn rkey addr data

/-- Rate of a port, and the lowest send rate, in Mbit/s (R460). -/
def portRate : Nat := 800000
def minRate : Nat := 1000

/-- Whether 50 µs have passed since a notification. -/
def rested (last : Option Nat) (now : Nat) : Bool := match last with | some t => decide (t + 50000 ≤ now) | none => true

/-- ECN_CE_RX (R460): at most one notification per 50 µs. -/
def execEcnCeRx (qpn : Nat) (s : State) : Host.Outcome State Fault Refusal :=
  onDevice s fun d =>
    if !d.qpOn qpn then d
    else
      let q := tget d.qps qpn default
      let d := d.count (Reg.ETH_ECN_CE q.port) 1
      if rested q.lastCnpTx d.now then
        (({ d with qps := tset d.qps qpn { q with lastCnpTx := some d.now } }).count (Reg.ETH_CNP_TX q.port) 1).emit (.cnp qpn)
      else d

/-- CNP_RX (R460): the send rate halves, at most once per 50 µs. -/
def execCnpRx (qpn : Nat) (s : State) : Host.Outcome State Fault Refusal :=
  onDevice s fun d =>
    if !d.qpOn qpn then d
    else
      let q := tget d.qps qpn default
      let d := d.count (Reg.ETH_CNP_RX q.port) 1
      let q := { q with lastCnpRx := some d.now, lastRaise := d.now,
                        rate := if rested q.lastCut d.now then max minRate (q.rate / 2) else q.rate
                        lastCut := if rested q.lastCut d.now then some d.now else q.lastCut }
      { d with qps := tset d.qps qpn q }

/-- RATE_RECOVERY (R460): after every 55 µs without a notification the rate rises by 5 % of the port rate. -/
def execRateRecovery (qpn : Nat) (s : State) : Host.Outcome State Fault Refusal :=
  onDevice s fun d =>
    let q := tget d.qps qpn default
    if !d.qpOn qpn || portRate ≤ q.rate || decide (d.now < q.lastRaise + 55000) then d
    else { d with qps := tset d.qps qpn { q with rate := min portRate (q.rate + portRate / 20), lastRaise := d.now } }

/-! ### Management operations (Table 16-4) -/

/-- SPDM_REQUEST (R410, R433): ERROR with code Busy during a Flashing restart, ERROR with code UnsupportedRequest for
a request not in R433's list, and else the response of SPDM 1.2 (message codes PRESUMED from DSP0274, log entry 91). -/
def Device.spdm (d : Device) (request : List Byte) : Device × List Byte :=
  let code := (request.getD 1 0).toNat
  if d.fls.restarting then (d, [0x12, 0x7F, 0x03, 0x00])
  else if !([0x84, 0xE1, 0xE3, 0x81, 0x82, 0x83, 0xE0] : List Nat).contains code then (d, [0x12, 0x7F, 0x07, BitVec.ofNat 8 code])
  else
    let other := if d.fls.bank = 0 then d.fls.bankB else d.fls.bankA
    let fuses := [d.fls.enrolled.toNat, d.fls.revoked.toNat, d.fls.svnFw, d.fls.svnDev, d.fls.svnTruss, b2n d.fls.ownerOnly]
    let zero := List.replicate 64 (0 : Byte)
    let measured : List (Nat × List Byte) :=
      [(1, Config.sha512 Config.romImage), (2, Config.sha512 (d.fls.fw d.fls.fwbank)), (3, Config.sha512 d.image),
       (4, if other.isEmpty then zero else Config.sha512 other),
       (5, Config.sha512 ((d.fls.keyHash.map (·.2)).flatten ++ fuses.map (BitVec.ofNat 8)))]
      ++ (List.range 16).map (fun n =>
        (16 + n, if thas d.fls.trussImages n then Config.sha512 (tget d.fls.trussImages n []) else zero))
    ({ d with free := d.free + 1 }, Config.spdmResponse request measured d.free)

def execSpdmRequest (h : MgmtHdr) (request : List Byte) (s : State) : Host.Outcome State Fault Refusal :=
  onDevice s fun d => d.mgmt h true fun d =>
    let r := d.spdm request
    (r.1, some ⟨0, [], r.2⟩)

/-- STAGE_DATA (R461): up to 1,024 bytes into the 32 MiB staging buffer; busy during a Flashing restart. -/
def execStageData (h : MgmtHdr) (off : Nat) (data : List Byte) (s : State) : Host.Outcome State Fault Refusal :=
  onDevice s fun d => d.mgmt h false fun d =>
    if d.fls.restarting then (d, some (mgStatus 2))
    else if 1024 < data.length || stagingSize < off + data.length then (d, some (mgStatus 1))
    else ({ d with fls := { d.fls with staging := memWrite d.fls.staging off data } }, some mgOk)

/-- The lowest queue-pair number from 1 up that is not in use (log entry 92). -/
def Device.freeQpn (d : Device) : Option Nat := ((List.range 1024).map (· + 1)).find? (fun n => !thas d.qps n)

/-- QP_CREATE (R457 to R459): the queue pair starts at the port rate; an OWNER learns both rkeys. -/
def execQpCreate (h : MgmtHdr) (q : QpParams) (psn : Nat) (s : State) : Host.Outcome State Fault Refusal :=
  onDevice s fun d => d.mgmt h false fun d =>
    if !d.roceOn then (d, some (mgStatus 3))
    else if 2 < q.role || !([1024, 2048, 4096] : List Nat).contains q.mtu then (d, some (mgStatus 1))
    else
      match d.freeQpn with
      | none => (d, some (mgStatus 1))
      | some n =>
        let x : Qp :=
          { port := q.port, role := q.role, ip := q.ip, remote := q.remoteQpn, psn := q.psn, ownPsn := psn % 2 ^ 24
            mtu := q.mtu, retries := q.retries, rnrRetries := q.rnrRetries, timeout := q.timeout, error := false
            rate := portRate, lastCnpTx := none, lastCnpRx := none, lastCut := none, lastRaise := d.now }
        let keys : List Word :=
          if q.role = roleOwner then [BitVec.ofNat 64 d.rkeyControl.toNat, BitVec.ofNat 64 d.rkeyMemory.toNat] else []
        ({ d with qps := tset d.qps n x }, some ⟨0, [BitVec.ofNat 64 n, BitVec.ofNat 64 (psn % 2 ^ 24)] ++ keys, []⟩)

/-- QP_DESTROY (R464): it acts as a failed write on rings that name the queue pair, and as a DETACH of a client's. -/
def execQpDestroy (h : MgmtHdr) (qpn : Nat) (s : State) : Host.Outcome State Fault Refusal :=
  onServing s fun d => d.mgmt h false fun d =>
    if !d.roceOn then (d, some (mgStatus 3))
    else if !thas d.qps qpn then (d, some (mgStatus 1))
    else
      let d := d.qpUsersFail qpn
      ({ d with qps := tdel d.qps qpn }, some mgOk)

/-- NET_CFG (R439, R454): a port's addresses, VLAN and PFC priority. -/
def execNetCfg (h : MgmtHdr) (p : PortNo) (ipv4 ipv6 vlan : Nat) (pfc : Option Nat) (s : State) :
    Host.Outcome State Fault Refusal :=
  onDevice s fun d => d.mgmt h false fun d =>
    let x := tget d.ports p.val default
    if d.fls.romOnly then (d, some (mgStatus 3))
    else
      ({ d with ports := tset d.ports p.val { x with
          addrSet := true, ipv4 := ipv4 % 2 ^ 32, ipv6 := ipv6 % 2 ^ 128, vlan := vlan % 2 ^ 12, pfc := pfc.map (· % 8) } },
       some mgOk)

/-- GLB_PORT_STAT_p (Table 16-14); the layer of a port that has not come up is that of its record. -/
def Device.portStat (d : Device) (p : Nat) : Word :=
  let x := tget d.ports p default
  let phy := if thas d.ports p then x.phy else tget d.fls.phy p 0
  pack [(0, 1, b2n x.up), (1, 1, phy), (2, 1, b2n x.pfc.isSome), (3, 3, x.pfc.getD 0), (6, 1, b2n x.addrSet),
        (8, 11, d.qps.countP (fun q => q.2.port == p))]

end Sys2Proof.Machine
end

