-- ==== Sys2Proof/Machine/Replicas.lean ====
section
/-! DEFINITION. Weight digests and replica groups (R397 to R405). -/
namespace Sys2Proof.Machine

open Sys2Proof

/-! ### Weight regions (R397 to R399) -/

/-- A weight region entry (Table 13-5), with the old digest when the entry describes the same contents. -/
def regionOf (old : Option Region) (ws : List Word) : Region :=
  let r : Region :=
    { base := bits (wordAt ws 0) 51 0, ctx := bits (wordAt ws 0) 63 58, len := bits (wordAt ws 1) 39 0, ref := wordAt ws 2
      gen := bits (wordAt ws 3) 31 0, refValid := bit (wordAt ws 3) 32, scanned := none, asked := none }
  match old with
  | some o => if o.base = r.base ∧ o.ctx = r.ctx ∧ o.len = r.len ∧ o.gen = r.gen then { r with scanned := o.scanned } else r
  | none => r

/-- Whether R397 refuses an entry. -/
def Device.regionBad (d : Device) (ws : List Word) : Bool :=
  let r := regionOf none ws
  bits (wordAt ws 0) 57 52 != 0 || bits (wordAt ws 1) 63 40 != 0 || bits (wordAt ws 3) 63 33 != 0
    || r.base % 128 != 0 || r.len % 128 != 0 || r.len == 0 || (d.ctx r.ctx).state == 0

/-- Reads the weight region table (R397). -/
def Device.loadRegions (d : Device) : Att Device := do
  let n := d.fld Reg.REP_WREG_N Fld.REP_WREG_N_N
  let (d, bs) ← d.tryLoad deviceAccount 0 (d.fld Reg.REP_WREG_BASE Fld.REP_WREG_BASE_ADDR * 32) (32 * n)
  let d := { d with regionsDue := false }
  let entries := (chunks 32 n (bs.getD [])).map bytesWords
  if 256 < n || bs.isNone || entries.any d.regionBad then .ok { d with regions := [], tableBad := true }
  else
    let old (i : Nat) : Option Region := (d.regions.find? (fun p => p.1 == i)).map (·.2)
    .ok { d with regions := entries.zipIdx.map (fun p => (p.2, regionOf (old p.2) p.1)), tableBad := false }

/-- A write of REP_WREG_N. -/
def Device.writeWregN (d : Device) (v : Word) : Device :=
  let d := { d.setReg Reg.REP_WREG_N (v &&& 0x1FF#64) with regionsDue := true }
  d.attempt d.loadRegions

/-- REP_WREG_N_WRITE (R397). -/
def execRepWregNWrite (v : Word) (s : State) : Host.Outcome State Fault Refusal :=
  onRegister s Reg.REP_WREG_N fun d => d.writeWregN v

/-- The weight digest of a region's bytes (R398). -/
def weightDigest (bs : List Byte) : Word :=
  BitVec.ofNat 64 (((chunks 128 bs.length bs).zipIdx).foldl (fun n p => n + rowHash p.2 p.1) 0)

def Device.setRegion (d : Device) (i : Nat) (r : Region) : Device := { d with regions := tset d.regions i r }

/-- A scan that a line has ended (R399). -/
def Device.scanFailed (d : Device) (i : Nat) (r : Region) : Device :=
  (d.setRegion i { r with asked := none }).log 0x0D 0 0 r.ctx 0 (BitVec.ofNat 64 r.base) 0 0

/-- A completed scan (R399). -/
def Device.scanned (d : Device) (i : Nat) (r : Region) (bs : List Byte) : Device :=
  let w := weightDigest bs
  let d := (d.setRegion i { r with scanned := some w, asked := none }).count Reg.REP_WSCANS 1
  if r.refValid && w != r.ref then
    let b := Reg.REP_WBAD (i / 64)
    let d := (d.setReg b (d.reg b ||| BitVec.ofNat 64 (2 ^ (i % 64)))).count Reg.REP_WBAD_EVENTS 1
    d.log 0x0D 0 0 r.ctx 0 (BitVec.ofNat 64 r.base) w r.ref
  else d

/-- The end of a region's scan: what its lines hold, or the translation that one of them lacks. -/
def Device.scanRegion (d : Device) (i : Nat) (r : Region) : Device :=
  match d.tryLoad deviceAccount r.ctx r.base r.len with
  | .ok (d, some bs) => d.scanned i r bs
  | .ok (d, none) => d.scanFailed i r
  | .error m =>
    if r.asked.any (fun a => a.2 == m.va) then d.scanFailed i r
    else
      let q := d.missFor m.ctx 0 16 m.va m.wr
      q.2.setRegion i { r with asked := some (q.1, m.va) }

/-- Whether a region's scan still waits for the host's answer. -/
def Device.scanWaits (d : Device) (r : Region) : Bool := d.stillAsked r.asked

/-- WEIGHT_SCAN_DONE (R398, R399). -/
def execWeightScanDone (region : Nat) (s : State) : Host.Outcome State Fault Refusal :=
  onServing s fun d =>
    let d := if d.regionsDue then d.attempt d.loadRegions else d
    match d.regions.find? (fun p => p.1 == region) with
    | none => d
    | some (i, r) =>
      if d.fld Reg.REP_CTRL Fld.REP_CTRL_WSCAN_EN = 0 || d.clk.stage != .thatched || d.tableBad || d.regionsDue || d.scanWaits r then d
      else d.scanRegion i r

/-! ### Replica groups (R400 to R405) -/

/-- A write of REP_CFG_g: EN = 1 reads the group's record, area and item list. -/
def Device.writeRepCfg (d : Device) (g : Nat) (v : Word) : Device :=
  let d := d.setReg (Reg.REP_CFG g) (v &&& 0x7FFFFFF#64)
  let d := d.setGroup g { d.group g with loaded := false, due := none, sent := [] }
  if bit v 0 then d.groupGo g else d

/-- REP_CFG_WRITE (R400). -/
def execRepCfgWrite (g : GroupNo) (v : Word) (s : State) : Host.Outcome State Fault Refusal :=
  onRegister s (Reg.REP_CFG g) fun d => d.writeRepCfg g v

/-- A member's record: whether it is there for epoch `e`, its digests and stamps by item. -/
structure RepRecord where
  member : Nat
  here : Bool
  items : List (Word × Word)
  deriving DecidableEq, Repr

/-- The record in a slot, as far as it is the member's own for the epoch (Table 13-6). -/
def recordOf (e member n : Nat) (bs : List Byte) : RepRecord :=
  let ws := bytesWords bs
  { member := member
    here := (wordAt ws 0).toNat == e && bits (wordAt ws 1) 17 0 == member
    items := (List.range n).map (fun j => (wordAt ws (4 + 2 * j), wordAt ws (5 + 2 * j))) }

/-- What an item's vote comes to (R403). -/
inductive Vote where
  | agree
  | expel
  | flag
  | peerOdd
  deriving DecidableEq, Repr

/-- The vote on one item among the digests considered, this device's own first. -/
def vote (nmem : Nat) (own : Word) (digests : List Word) : Vote :=
  let count (v : Word) : Nat := digests.count v
  let major (v : Word) : Bool := decide (nmem < 2 * count v)
  if 3 ≤ nmem && digests.any (fun v => v != own && major v) then .expel
  else if (digests.eraseDups.length ≥ 2) && !digests.any major then .flag
  else if major own && digests.any (· != own) then .peerOdd
  else .agree

/-- Digests that are considered for item `j` (R403); none for a stamp that is compared with no one (R401). -/
def considered (own : RepRecord) (rs : List RepRecord) (j : Nat) : List Word :=
  let s := (own.items.getD j (0, 0)).2
  if s = 0xFFFFFFFFFFFFFFFF#64 then []
  else rs.filterMap (fun r => match r.items[j]? with | some i => if r.here && i.2 == s then some i.1 else none | none => none)

/-- INFO0 of kind 0x0E. -/
def decisionInfo (g j e : Nat) : Word := pack [(0, 3, g), (4, 4, j), (8, 56, e)]

/-- A device expels itself from a group (R404). -/
def Device.expel (d : Device) (g j e : Nat) (own : Word) : Device :=
  let x := d.group g
  let d := if x.rejoined then d.count Reg.REP_REEXPEL 1 else d
  let d := d.setGroup g { x with expelled := true, due := none, sent := [], rejoined := false }
  let d := d.log 0x0E 0 0 noCtx 6 0 (decisionInfo g j e) own
  let lanes := (List.range 4).filter (fun l => (d.fld (Reg.REP_CFG g) Fld.REP_CFG_LANES).testBit l)
  let d := lanes.foldl (fun d l =>
    let d := d.setFld (Reg.CRS_LANE_CFG l) Fld.CRS_LANE_CFG_EN 0
    d.setLane l { d.lane l with dropped := (d.lane l).running }) d
  let mine := d.seqs.filter (fun p => !p.2.final && !p.2.inc && lanes.contains (d.model p.2.model).lane)
  (mine.foldl (fun d p => d.abandonEntry p.1 caCourse stAbft) d).results

/-- Acts on one item's vote. -/
def Device.decide1 (d : Device) (g e nmem : Nat) (own : RepRecord) (rs : List RepRecord) (j : Nat) : Device :=
  let mine := (own.items.getD j (0, 0)).1
  if (d.group g).expelled then d
  else
    match vote nmem mine (considered own rs j) with
    | .agree => d
    | .expel => d.expel g j e mine
    | .flag => (d.setGroup g { d.group g with flagged := true }).log 0x0E 0 0 noCtx 7 0 (decisionInfo g j e) mine
    | .peerOdd => d.count Reg.REP_PEER_ODD 1

/-- Resolves the oldest epoch that this device has not resolved, once its records are in or TIMEOUT has passed (R403). -/
def Device.resolveEpoch (d : Device) (g : Nat) : Att Device := do
  let x := d.group g
  match x.sent with
  | [] => .ok d
  | (e, at_) :: _ =>
    let n := x.members.length
    let (d', bs) ← d.tryLoad deviceAccount 0 (x.slotAt e 0) (256 * n)
    let slots := chunks 256 n (slice (bs.getD []) 0 (256 * n))
    let rs := (x.members.zip slots).map (fun p => recordOf e p.1 x.items.length p.2)
    let limit := d.fld Reg.REP_CTRL Fld.REP_CTRL_TIMEOUT * 10 ^ 9
    if !rs.all RepRecord.here && decide (d.now < at_ + limit) then .ok d
    else
      match rs.find? (fun r => r.member == d.devnum) with
      | none => .ok d
      | some own =>
        let d := (d'.count Reg.REP_TIMEOUTS (rs.countP (fun r => !r.here))).count Reg.REP_EPOCHS 1
        let d := d.setGroup g { x with epoch := e, sent := x.sent.drop 1 }
        let d := (List.range x.items.length).foldl (fun d j => d.decide1 g e n own rs j) d
        .ok (d.setGroup g { d.group g with rejoined := false })

/-- REPLICA_RESOLVE (R401, R403, R404). -/
def execReplicaResolve (g : GroupNo) (s : State) : Host.Outcome State Fault Refusal :=
  onDevice s fun d =>
    if !d.groupOn g || d.clk.stage != .thatched then d
    else
      let d := d.groupGo g
      if (d.group g).loaded && !(d.group g).expelled then d.attempt (d.resolveEpoch g) else d

/-- REJOIN (R405). -/
def Device.rejoinGroup (d : Device) (g : Nat) : Device :=
  if (d.group g).expelled then d.setGroup g { d.group g with expelled := false, rejoined := true } else d

/-- REJOIN (R405): a write of 1 to REP_CMD_g. -/
def execRejoin (g : GroupNo) (s : State) : Host.Outcome State Fault Refusal :=
  onRegister s (Reg.REP_CMD g) fun d => d.rejoinGroup g

end Sys2Proof.Machine
end

