-- ==== Sys2Proof/Machine/Mirror.lean ====
section
/-! DEFINITION. What registers show of the units: the words that are not stored but stand for a unit's present
state. A stored word keeps only what software or an event has written to it. -/
namespace Sys2Proof.Machine

open Sys2Proof

/-- The running task of an engine as BUSY and CTX show it. -/
def Device.busyCtx (d : Device) (e : Engine) : Nat × Nat :=
  match d.running? e with
  | some j => (1, j.ctx)
  | none => (0, 0)

/-- FSTEP of a truss step (Table 01-5). -/
def fstep (s : Nat) : Nat := if s ≤ 3 then 0 else if s = 4 then 1 else if s = 5 then 2 else 3

/-- TRS_STATUS (Table 01-5). -/
def Device.trsStatus (d : Device) (t : Nat) : Word :=
  let x := d.trussSt t
  pack [(0, 3, x.state), (3, 2, d.tileRaise (t / 4) / 10), (5, 2, fstep (d.trussStep t)), (8, 3, d.holders t),
        (12, 3, x.poolLog2), (16, 4, if x.state = 0 then 0 else t / 2 ^ x.poolLog2 * 2 ^ x.poolLog2)]

/-- TRS_HOLD (Table 01-6). -/
def Device.trsHold (d : Device) (t : Nat) : Word :=
  BitVec.ofNat 64 ((d.trussSt t).slots.foldl (fun n p => if p.2.valid then n ||| 2 ^ p.2.ctx else n) 0)

/-- LOFT_LAYOUT, LOFT_SHARE and SOF_CFG (Tables 01-7 to 01-9). -/
def Device.loftLayout (d : Device) (t : Nat) : Word :=
  let x := d.trussSt t
  pack [(0, 8, x.stageGr), (8, 8, x.soffitGr), (16, 8, x.shareGr), (24, 8, x.stageGr + x.soffitGr)]

def Device.loftShare (d : Device) (t i : Nat) : Word :=
  let s := tget (d.trussSt t).slots i default
  pack [(0, 6, s.ctx), (6, 1, b2n s.valid), (8, 8, s.base), (16, 8, s.size)]

def Device.sofCfg (d : Device) (t : Nat) : Word :=
  let s := d.sof t
  pack [(0, 3, if s.ways = 0 then 0 else log2Aux 8 s.ways), (8, 16, s.sets)]

/-- SOF_STATUS (Table 01-11): the W1C bits are stored. -/
def Device.sofStatus (d : Device) (t : Nat) : Word :=
  let s := d.sof t
  (d.reg (Reg.SOF_STATUS t) &&& 0xE0#64) |||
  pack [(0, 1, b2n s.enabled), (1, 1, b2n (s.inv != 0)), (2, 1, b2n s.invNeeded), (3, 1, b2n s.staleRisk),
        (4, 1, b2n s.preload.isSome), (8, 7, s.misses.length), (15, 17, s.preloadDone)]

/-- RAF_STATUS (Table 04-12). -/
def Device.rafStatus (d : Device) (t a : Nat) : Word :=
  let x : RafArray := tget d.raf (4 * t + a) default
  let b := if h : t < 16 ∧ a < 4 then d.busyCtx (.raf ⟨t, h.1⟩ ⟨a, h.2⟩) else (0, 0)
  pack [(0, 1, b.1), (1, 1, b2n x.fused), (2, 6, b.2), (8, 1, b2n (!x.active.isEmpty)), (9, 1, b2n (!x.shadow.isEmpty)),
        (10, 1, b2n (!x.loading.isEmpty)), (11, 5, x.duty), (16, 1, b2n x.rampDown), (17, 1, b2n x.rampUp)]

/-- LTH_STATUS (Table 05-8). -/
def Device.lthStatus (d : Device) (t e : Nat) : Word :=
  let x : LthEngine := tget d.lth (2 * t + e) default
  let b := if h : t < 16 ∧ e < 2 then d.busyCtx (.lth ⟨t, h.1⟩ ⟨e, h.2⟩) else (0, 0)
  let bank := d.slotNo b.2 t
  pack [(0, 1, b.1), (1, 6, b.2), (7, 2, if b.1 = 1 then bank else 0), (9, 3, if b.1 = 1 then x.wait else 0),
        (12, 6, x.qowner.getD 0), (18, 1, b2n (!x.queue.isEmpty || x.qowner.isSome)), (19, 4, x.queue.length)]

/-- Rounds of a slot with batches in staging. -/
def VSlot.openRounds (v : VSlot) : Nat := v.rounds.countP (fun r => !r.batches.isEmpty)

/-- THT_TSTAT (Table 06-12). -/
def Device.thtStat (d : Device) (n : Nat) : Word :=
  let t := d.table n
  pack [(0, 3, t.a.state), (4, 3, t.b.state), (7, 1, b2n t.valid), (8, 1, b2n (t.a.build.isSome || t.b.build.isSome)),
        (10, 3, t.a.openRounds), (13, 3, t.b.openRounds)]

/-- The other five status words of a table (Tables 06-13 to 06-16). -/
def Device.thtWords (d : Device) (n : Nat) : List Word :=
  let t := d.table n
  [pack [(0, 32, t.a.gen), (32, 32, t.b.gen)], pack [(0, 32, d.boundTasks n false), (32, 32, d.boundTasks n true)],
   t.a.digest, t.b.digest, pack [(0, 32, t.a.applied), (32, 32, t.b.applied)]]

/-- One of the five, from the snapshot once THT_TSTAT has been read (R189). -/
def Device.thtWord (d : Device) (n i : Nat) : Word :=
  match (d.table n).snap with
  | some ws => wordAt ws i
  | none => wordAt (d.thtWords n) i

/-- THT_ESTAT (Table 06-17). -/
def Device.thtEstat (d : Device) (t : Nat) : Word :=
  let run := if h : t < 16 then d.running? (.tht ⟨t, h⟩) else none
  let delta := match run with | some j => (match j.run with | .delta _ => 1 | _ => 0) | none => 0
  pack [(0, 1, b2n run.isSome), (1, 6, match run with | some j => j.ctx | none => 0), (7, 1, delta),
        (8, 9, d.remotes.countP (fun r => r.truss == t && (r.kind == 0 || r.kind == 3)))]

/-- The sequences on account of which the truss's engine holds a task that has not started (R198, R202). -/
def Device.heldSeqs (d : Device) (t : Nat) : List Nat :=
  if d.jobs.any (fun j => j.run == .none && j.state != .done && (match j.engine with | some (.atn x) => x.val == t | _ => false)) then
    (tget d.atn t default).held
  else []

/-- PUR_WALK_CNT (Table 07-11). -/
def Device.purWalk (d : Device) : Word :=
  let e := d.fld Reg.PUR_WALK_SEL Fld.PUR_WALK_SEL_SEQ
  pack [(0, 16, d.walks e), (16, 1, b2n (d.editPending e)), (17, 1, b2n (d.atn.any (fun p => (d.heldSeqs p.1).contains e)))]

/-- ATN_ESTAT (Table 07-12). -/
def Device.atnEstat (d : Device) (t : Nat) : Word :=
  let a := d.atnSt t
  let run := if h : t < 16 then d.running? (.atn ⟨t, h⟩) else none
  let mode := match run with | some j => (match j.run with | .atn w _ _ _ _ _ => atnMode w | _ => 0) | none => 0
  pack [(0, 1, b2n run.isSome), (1, 6, match run with | some j => j.ctx | none => 0), (7, 2, mode),
        (9, 2, if (d.heldSeqs t).isEmpty then 0 else 3), (11, 8, a.lab.length)]

/-- CRS_ENTRY0 to CRS_ENTRY3 of an entry (Table 08-11). -/
def Device.crsWords (d : Device) (e : Nat) : List Word :=
  let x := d.seq e
  [pack [(0, 3, x.state), (3, 1, x.kind), (4, 1, b2n x.inc), (5, 1, b2n x.switched), (6, 1, b2n x.shared), (7, 3, x.prio),
         (10, 3, x.pstate), (13, 3, x.cause), (16, 8, x.model), (24, 8, x.client), (32, 6, x.ctx), (38, 15, x.root.getD 0)],
   pack [(0, 40, x.budget), (40, 16, x.maxtok)], BitVec.ofNat 64 x.arrival,
   pack [(0, 20, x.pos), (20, 20, x.premain), (40, 16, x.ntok)]]

def Device.crsSel (d : Device) : Nat := d.fld Reg.CRS_ENTRY_SEL Fld.CRS_ENTRY_SEL_SEL

/-- CRS_LANE_STAT, CRS_CLIENT, DLM_FACTOR and DLM_LANE (Tables 08-15, 08-16, 08-18, 08-19). -/
def Device.laneStat (d : Device) (l : Nat) : Word := pack [(1, 1, b2n (d.lane l).running), (32, 32, (d.lane l).course)]

def Device.clientWord (d : Device) (c : Nat) : Word :=
  let x := d.client c
  pack [(0, 1, b2n x.attached), (1, 1, b2n x.detaching), (2, 6, x.ctx), (8, 24, x.qpn), (32, 13, x.nslot - x.used.length)]

def Device.dlmFactor (d : Device) (l : Nat) : Word := pack [(0, 13, (d.lane l).factor)]

def Device.dlmLane (d : Device) (l : Nat) : Word :=
  let x := d.lane l
  pack [(0, 32, min x.pred (2 ^ 32 - 1)), (32, 32, min x.actual (2 ^ 32 - 1))]

/-- EAVE_STATUS (Table 09-18). -/
def Device.eaveStatus (d : Device) : Word :=
  let e := d.eave
  pack [(0, 32, e.target.getD e.door), (32, 1, b2n e.target.isSome), (33, 1, b2n e.stall), (34, 1, b2n e.stale)]

/-- GUT_PROD and GUT_STAT (Tables 09-27, 09-28). -/
def Device.gutProd (d : Device) (c : Nat) : Word :=
  let g := d.gutter c
  pack [(0, 32, g.issued), (32, 32, g.written)]

def Device.gutStat (d : Device) (c : Nat) : Word :=
  let g := d.gutter c
  let st := if g.redirected then 3 else if g.blocked then 2 else if d.gutFull c then 1 else 0
  pack [(0, 2, st), (2, 13, g.held.length), (15, 13, d.inflight c)]

/-- CTX_STATE and CTX_TRUSS (Tables 10-10, 10-12). -/
def Device.ctxState (d : Device) (c : Nat) : Word :=
  let x := d.ctx c
  pack [(0, 2, x.state), (3, 3, x.prio), (16, 11, x.lenLimit), (32, 16, x.tenant)]

def Device.ctxTruss (d : Device) (c : Nat) : Word :=
  pack ((List.range 16).flatMap fun t =>
    match d.slotOf? c t with
    | some (i, _) => [(t, 1, 1), (16 + 2 * t, 2, i), (48 + t, 1, b2n ((d.trussSt t).releasing.any (fun r => r.1 == c)))]
    | none => [])

/-- XLT_STATUS (Table 10-19). -/
def Device.xltStatus (d : Device) : Word :=
  pack [(0, 11, d.xlt.reqs.length), (11, 1, b2n (!d.xlt.ringHeld.isEmpty)), (12, 1, b2n d.xlt.blocked)]

/-- MEM_CAP, MEM_MAP, MEM_EXCL, MEM_FRAME_MAP and MEM_PC_RETIRED (Tables 11-6, 11-14). -/
def Device.memCap (d : Device) : Word :=
  pack [(0, 10, frames), (10, 10, d.hbm.chans.countP (fun p => p.2.retired)), (20, 10, d.hbm.onMap1.length)]

def Device.memMap (d : Device) (m : Nat) : Word :=
  let x := d.hbm.slot m
  pack [(0, 32, x.seed), (32, 6, x.k), (63, 1, b2n x.valid)]

def Device.memExcl (d : Device) (m j : Nat) : Word := BitVec.ofNat 64 ((d.hbm.slot m).excl >>> (64 * j))

/-- A word with bit b set where `f (64 i + b)` holds. -/
def bitWord (i : Nat) (f : Nat → Bool) : Word := pack ((List.range 64).map (fun b => (b, 1, b2n (f (64 * i + b)))))

/-- SPN_TOPO, SPN_CFG, SPN_STAT and SPN_SPLICE (Tables 12-12 to 12-16). -/
def Device.spnTopo (d : Device) : Word :=
  pack [(0, 18, d.devnum), (18, 7, d.ringSize 0), (25, 7, d.ringSize 1), (32, 7, d.ringSize 2), (39, 1, b2n d.devnumValid)]

def Device.spnCfg (d : Device) (s : Nat) : Word := (d.reg (Reg.SPN_CFG s) &&& 2#64) ||| pack [(0, 1, b2n (d.spanRing s))]

def Device.spnStat (d : Device) (s : Nat) : Word :=
  let x := d.splice (s / 2)
  let ups := d.upLinks s
  let st := if x.state = 2 ∧ x.holds (s % 2 == 0) then 4 else x.state
  let ver := ups.foldl (fun m l => if m = 0 then (d.link l).version else min m (d.link l).version) 0
  let peer := match ups with | l :: _ => (d.link l).peer | [] => (d.link (8 * s)).peer
  pack [(0, 8, ups.foldl (fun n l => n ||| 2 ^ (l % 8)) 0),
        (8, 8, ups.foldl (fun n l => if (d.link l).half then n ||| 2 ^ (l % 8) else n) 0), (16, 1, b2n (!x.bypassOpen)),
        (17, 3, st), (20, 2, ver), (22, 18, peer)]

def Device.spnSplice (d : Device) : Word := (d.reg Reg.SPN_SPLICE &&& 0x70#64) ||| pack [(7, 1, b2n d.splicing)]

/-- COL_STAT (Table 12-20). -/
def Device.colStat (d : Device) (e : Nat) : Word := pack [(0, 5, (d.colEng e).running.length), (5, 9, (d.colEng e).armed.length)]

/-- FLT_LINK (Table 13-12). -/
def Device.fltLink (d : Device) : Word :=
  let n (e : Nat) : Nat := min 255 (d.windowed (d.susp (16 + e)).events).length
  pack [(0, 2, d.colq.toNat), (8, 8, n 0), (16, 8, n 1)]

/-- REP_STAT_g (Table 13-15). -/
def Device.repStat (d : Device) (g : Nat) : Word :=
  let x := d.group g
  pack [(0, 1, b2n x.expelled), (1, 1, b2n x.flagged), (2, 62, x.epoch)]

/-- MTR_SNAP and MTR_OVF (Tables 14-7, 14-8). -/
def Device.mtrSnap (d : Device) : Word := (d.reg Reg.MTR_SNAP &&& 4#64) ||| pack [(32, 32, d.meter.snap)]

def Device.mtrOvf (d : Device) : Word :=
  (d.reg Reg.MTR_OVF &&& 0xFFFF07FF#64) ||| pack [(11, 1, b2n d.meter.ovfAcct), (12, 1, b2n d.meter.ovfTotal)]

/-- FLS_THERM, CLK_STAT, CLK_TRUSS_n and RST_CAUSE (Tables 15-13, 15-17 to 15-19). -/
def Device.flsTherm (d : Device) : Word :=
  let c := d.clk
  pack [(0, 8, c.temps.foldl (fun m p => max m p.2) 0), (8, 1, b2n (c.thermHeld != 0)), (9, 1, b2n (c.powerHeld != 0)),
        (16, 11, c.watts)]

def Device.clkStat (d : Device) : Word :=
  let c := d.clk
  pack [(0, 16, c.locked.toNat), (16, 1, b2n c.ridgeLock), (17, 1, b2n c.loftLock), (18, 1, b2n c.coreOk), (19, 1, b2n c.linkOk),
        (20, 1, b2n c.netOk)]

def Device.clkTruss (d : Device) (t : Nat) : Word :=
  if !thas d.clk.mhz t then 0
  else
    let held := (d.clk.powerHeld.toNat.testBit t || d.clk.thermHeld.toNat.testBit (t / 4)) && !d.atCeiling t
    pack [(0, 12, d.mhzNow t), (12, 12, stepCeil (d.trussStep t)), (24, 1, b2n held)]

def Device.rstCause (d : Device) : Word :=
  pack [(0, 2, d.clk.startKind), (2, 1, b2n d.clk.priorTarp), (3, 1, b2n d.clk.priorTrip), (8, 8, d.clk.flsRestarts)]

/-- The words of the units' registers from the lanes of the Course builder on. -/
def Device.unitWordRest (d : Device) (base i j : Nat) : Option Word :=
  if base = Reg.CRS_LANE_STAT 0 then some (d.laneStat i)
  else if base = Reg.CRS_CLIENT 0 then some (d.clientWord i)
  else if base = Reg.DLM_FACTOR 0 then some (d.dlmFactor i)
  else if base = Reg.DLM_LANE 0 then some (d.dlmLane i)
  else if base = Reg.EAVE_STATUS then some d.eaveStatus
  else if base = Reg.GUT_PROD 0 then some (d.gutProd i)
  else if base = Reg.GUT_STAT 0 then some (d.gutStat i)
  else if base = Reg.CTX_STATE 0 then some (d.ctxState i)
  else if base = Reg.CTX_FMASK 0 then some (d.ctx i).fmask
  else if base = Reg.CTX_TRUSS 0 then some (d.ctxTruss i)
  else if base = Reg.XLT_STATUS then some d.xltStatus
  else if base = Reg.MEM_CAP then some d.memCap
  else if base = Reg.MEM_STATUS then
    some (Fld.MEM_STATUS_FRAME_BUSY.put (d.reg Reg.MEM_STATUS) (b2n d.hbm.converting.isSome))
  else if base = Reg.MEM_PC_STAT then some (d.chan d.selChan).statWord
  else if base = Reg.MEM_MAP 0 then some (d.memMap i)
  else if base = Reg.MEM_EXCL 0 0 then some (d.memExcl i j)
  else if base = Reg.MEM_FRAME_MAP 0 then some (bitWord i (fun f => d.hbm.onMap1.contains f))
  else if base = Reg.MEM_PC_RETIRED 0 then some (bitWord i (fun c => (d.chan c).retired))
  else if base = Reg.SPN_TOPO then some d.spnTopo
  else if base = Reg.SPN_CFG 0 then some (d.spnCfg i)
  else if base = Reg.SPN_STAT 0 then some (d.spnStat i)
  else if base = Reg.SPN_RING 0 then some (d.splice i).members
  else if base = Reg.SPN_SPLICE then some d.spnSplice
  else if base = Reg.LNK_STAT 0 then some (d.link i).word
  else if base = Reg.COL_STAT 0 then some (d.colStat i)
  else if base = Reg.FLT_BOUND then some (boundWord d.bound)
  else if base = Reg.FLT_LINK then some d.fltLink
  else if base = Reg.FLT_TRUSS 0 then some (d.fltTruss i)
  else if base = Reg.REP_STAT_W then some (pack [(0, 1, b2n d.tableBad)])
  else if base = Reg.REP_STAT 0 then some (d.repStat i)
  else if base = Reg.MTR_SNAP then some d.mtrSnap
  else if base = Reg.MTR_OVF then some d.mtrOvf
  else if base = Reg.MTR_ENERGY_MEAS then some (BitVec.ofNat 64 d.meter.measured)
  else if base = Reg.MTR_TOTAL 0 then some (BitVec.ofNat 64 (tget d.meter.total i 0))
  else if base = Reg.MTR_RETIRED 0 then some (BitVec.ofNat 64 (tget d.meter.retired i 0))
  else if base = Reg.MTR_ACCT 0 0 then some (BitVec.ofNat 64 (tget d.meter.acct (32 * i + j) default).whole)
  else if base = Reg.FLS_STATUS then some d.flsStatus
  else if base = Reg.FLS_THERM then some d.flsTherm
  else if base = Reg.FLS_KEYS then some d.flsKeys
  else if base = Reg.FLS_MBOX_STAT then
    some (Fld.FLS_MBOX_STAT_BUSY.put (d.reg Reg.FLS_MBOX_STAT) (b2n d.fls.mboxBusy))
  else if base = Reg.CLK_TIME then some (BitVec.ofNat 64 d.now)
  else if base = Reg.CLK_STAT then some d.clkStat
  else if base = Reg.CLK_TRUSS 0 then some (d.clkTruss i)
  else if base = Reg.RST_CAUSE then some d.rstCause
  else none

/-- The words of the units' registers, by the row's base offset and the instance's indices; none for a word that is
stored. -/
def Device.unitWord (d : Device) (base i j : Nat) : Option Word :=
  if base = Reg.GLB_DEVICE_ID then some (Fld.GLB_DEVICE_ID_STEP.put (d.reg Reg.GLB_DEVICE_ID) d.fls.silicon)
  else if base = Reg.GLB_MAC then some (pack [(0, 48, d.fls.mac)])
  else if base = Reg.GLB_PORT_STAT 0 then some (d.portStat i)
  else if base = Reg.TRS_STATUS 0 then some (d.trsStatus i)
  else if base = Reg.TRS_HOLD 0 then some (d.trsHold i)
  else if base = Reg.LOFT_LAYOUT 0 then some (d.loftLayout i)
  else if base = Reg.LOFT_SHARE 0 0 then some (d.loftShare i j)
  else if base = Reg.SOF_CFG 0 then some (d.sofCfg i)
  else if base = Reg.SOF_STATUS 0 then some (d.sofStatus i)
  else if base = Reg.HOD_CAPS 0 then some (pack [(0, 7, (d.trussSt i).hodCaps.toNat)])
  else if base = Reg.RAF_CAPS 0 0 then some (pack [(0, 5, d.rafCaps i j)])
  else if base = Reg.RAF_STATUS 0 0 then some (d.rafStatus i j)
  else if base = Reg.RAF_BALLAST_ROWS 0 0 then
    some (BitVec.ofNat 64 (min counterMax ((d.reg (Reg.RAF_BALLAST_ROWS i j)).toNat + d.fillRows i j)))
  else if base = Reg.LTH_STATUS 0 0 then some (d.lthStatus i j)
  else if base = Reg.THT_TSTAT 0 then some (d.thtStat i)
  else if base = Reg.THT_TGEN 0 then some (d.thtWord i 0)
  else if base = Reg.THT_TBOUND 0 then some (d.thtWord i 1)
  else if base = Reg.THT_TDIGA 0 then some (d.thtWord i 2)
  else if base = Reg.THT_TDIGB 0 then some (d.thtWord i 3)
  else if base = Reg.THT_TROUND 0 then some (d.thtWord i 4)
  else if base = Reg.THT_ESTAT 0 then some (d.thtEstat i)
  else if base = Reg.PUR_WALK_CNT then some d.purWalk
  else if base = Reg.ATN_ESTAT 0 then some (d.atnEstat i)
  else if base = Reg.CRS_ENTRY0 then some (wordAt (d.crsWords d.crsSel) 0)
  else if base = Reg.CRS_ENTRY1 then some (wordAt d.crsSnap 0)
  else if base = Reg.CRS_ENTRY2 then some (wordAt d.crsSnap 1)
  else if base = Reg.CRS_ENTRY3 then some (wordAt d.crsSnap 2)
  else d.unitWordRest base i j

end Sys2Proof.Machine
end

