-- ==== Sys2Proof/Machine/Window.lean ====
section
/-! DEFINITION. The control window (R6 to R12): what a read of a register returns, what a write of one does, and how
the two paths into the window, RDMA (R459) and the management protocol (R461), answer. -/
namespace Sys2Proof.Machine

open Sys2Proof

/-! ### Registers as the window shows them -/

/-- The bits of a row's fields of one access code. -/
def RegRow.mask (r : RegRow) (a : Acc) : Word :=
  r.fields.foldl (fun m f => if f.acc = a then m ||| fieldMask f.lo f.w else m) 0

/-- The bits that a read shows: all but the WO and reserved ones (R8, R11). -/
def RegRow.readMask (r : RegRow) : Word := r.mask .ro ||| r.mask .rw ||| r.mask .w1c

/-- The indices of the instance at `off` of an indexed register. -/
def RegRow.index (r : RegRow) (off : Nat) : Nat × Nat :=
  match r.dims with
  | [] => (0, 0)
  | [(_, s)] => ((off - r.base) / s, 0)
  | (_, s) :: (_, u) :: _ => ((off - r.base) / s, (off - r.base) % s / u)

/-- The word that a read of a register returns. -/
def Device.regWord (d : Device) (r : RegRow) (off : Nat) : Word :=
  let ij := r.index off
  (match d.unitWord r.base ij.1 ij.2 with | some w => w | none => d.reg off) &&& r.readMask

/-- The captures that a read of a register makes: the other words of a table (R189), and of the entry selected
(R255). -/
def Device.readCaptures (d : Device) (r : RegRow) (off : Nat) : Device :=
  let i := (r.index off).1
  if r.base = Reg.THT_TSTAT 0 then
    { d with tables := tset d.tables i { d.table i with snap := some (d.thtWords i) } }
  else if r.base = Reg.CRS_ENTRY0 then { d with crsSnap := (d.crsWords d.crsSel).drop 1 }
  else d

/-- The offsets that the control window spans (Table 00-8). -/
def windowSize : Nat := 0x2000000

/-- A control-window access event (R9, R10): kind 0x12, with the offset and the path; ADDR, "Address concerned, or 0" in
Table 13-8, is the offset (DESIGN CHOICE, log entry 126). -/
def Device.logAccess (d : Device) (off path : Nat) : Device :=
  d.log 0x12 3 0 noCtx 0 (BitVec.ofNat 64 off) (BitVec.ofNat 64 off) (BitVec.ofNat 64 path)

/-- One register read (R9, R443): zero where no register lies, which is recorded, and where the stage serves none. -/
def Device.readReg (d : Device) (path off : Nat) : Word × Device :=
  if !d.windowOpen off then (0, d)
  else
    match regRowAt off with
    | none => (0, d.logAccess off path)
    | some r => (d.regWord r off, d.readCaptures r off)

/-- Consecutive registers, in ascending order (R7). -/
def Device.readRegs (d : Device) (path off : Nat) : Nat → List Word × Device
  | 0 => ([], d)
  | n + 1 =>
    let w := d.readReg path off
    let r := w.2.readRegs path (off + 8) n
    (w.1 :: r.1, r.2)

/-! ### Writes -/

/-- The word that a write leaves (R8, R11): RW fields take the value, each 1 clears a W1C bit, others stay. -/
def RegRow.written (r : RegRow) (old v : Word) : Word :=
  (old &&& ~~~ (r.mask .rw) &&& ~~~ (r.mask .w1c &&& v)) ||| (v &&& r.mask .rw)

def Device.writePlain (d : Device) (r : RegRow) (off : Nat) (v : Word) : Device :=
  let old := d.reg off
  let new := r.written old v
  if new = old then d else d.setReg off new

/-- A write of SOF_CTRL or SOF_INV (R33 to R36). -/
def Device.writeSofCtrl (d : Device) (t : Nat) (v : Word) : Device :=
  if bit v 0 then d.sofEnable t v else d.sofDisable t v

def Device.writeSofInv (d : Device) (t : Nat) (v : Word) : Device :=
  let d := if bit v 0 then d.sofInvAll t else d
  if bit v 1 then d.sofInvUnlocked t else d

/-- A write of 0 to a tolerance is taken as 1 (Table 03-8). -/
def scaleTolWord (v : Word) : Word := pack [(0, 4, max 1 (bits v 3 0)), (4, 4, max 1 (bits v 7 4))]

/-- DOWN_STEP and UP_STEP have least values (Table 04-13). -/
def ballastWord (v : Word) : Word := pack [(0, 16, bits v 15 0), (16, 16, max 250 (bits v 31 16)), (32, 16, max 64 (bits v 47 32))]

/-- A write of GUT_CFG_c: out-of-range sizes are discarded whole (R473). -/
def Device.writeGutCfg (d : Device) (r : RegRow) (off : Nat) (v : Word) : Device :=
  if bits v 4 0 < 6 || 16 < bits v 4 0 then d else d.writePlain r off v

/-- A write of MEM_PC_CMD (Table 11-13). -/
def Device.writePcCmd (d : Device) (v : Word) : Device :=
  if bits v 1 0 = 0 then d else d.memPcCmd v (bits v 1 0)

/-- A write of FLT_TRUSS_CMD (Table 13-12). -/
def Device.writeTrussCmd (d : Device) (v : Word) : Device :=
  match bits v 7 5 with
  | 1 => d.trussCmd v 1 Device.opTest
  | 2 => d.trussCmd v 2 Device.opTestForce
  | 3 => d.trussCmd v 3 Device.opRelax
  | 4 => d.trussCmd v 4 Device.opUnquarantine
  | n => d.trussCmd v n (fun d _ => d)

/-- A write of MTR_OVF clears ACCT and TOTAL too (Table 14-8). -/
def Device.writeMtrOvf (d : Device) (r : RegRow) (v : Word) : Device :=
  let d := d.writePlain r Reg.MTR_OVF v
  { d with meter := { d.meter with
      ovfAcct := d.meter.ovfAcct && !bit v 11, ovfTotal := d.meter.ovfTotal && !bit v 12 } }

/-- A write of REP_STAT_g clears FLAGGED (Table 13-15). -/
def Device.writeRepStat (d : Device) (g : Nat) (v : Word) : Device :=
  if bit v 1 then d.setGroup g { d.group g with flagged := false } else d

/-- Writes of the blocks GLB to CRS and of the trusses that do more than set their fields. -/
def Device.writeSpecial (d : Device) (r : RegRow) (off i j : Nat) (v : Word) : Device :=
  let base := r.base
  if base = Reg.SOF_CTRL 0 then d.writeSofCtrl i v
  else if base = Reg.SOF_WAY_LOCK 0 then d.sofWayLockWrite i v
  else if base = Reg.SOF_INV 0 then d.writeSofInv i v
  else if base = Reg.SOF_PRELOAD_CTRL 0 then d.sofPreloadGo i v
  else if base = Reg.HOD_SCALE_TOL 0 then d.writePlain r off (scaleTolWord v)
  else if base = Reg.RAF_BALLAST 0 0 then d.writePlain r off (ballastWord v)
  else if base = Reg.EAVE_CFG then d.writeEaveCfg v
  else if base = Reg.RIDGE_CTRL then (d.writePlain r off v).unstall
  else if base = Reg.EAVE_EXPECT then d.writeEaveExpect v
  else if base = Reg.EAVE_DOORBELL then d.doorbell v
  else if base = Reg.RIDGE_FENCE_SEL then d.fenceSelWrite v
  else if base = Reg.GUT_CFG 0 then d.writeGutCfg r off v
  else if base = Reg.GUT_CONS 0 then d.gutConsWrite i v
  else if base = Reg.GUT_CTL 0 then d.gutCtlWrite i v
  else if base = Reg.XLT_REQ_CFG then d.xltCfgWrite v
  else if base = Reg.XLT_REQ_CONS then d.xltConsWrite v
  else if base = Reg.XLT_ANSWER then d.answerWrite v
  else if base = Reg.MEM_MAINT then d.writeMemMaint v
  else if base = Reg.MEM_FRAME_CMD then d.writeFrameCmd v
  else if base = Reg.MEM_PC_CMD then d.writePcCmd v
  else if base = Reg.MEM_MAP 0 then d.writeMapSlot i 0 v
  else if base = Reg.MEM_EXCL 0 0 then d.writeMapSlot i (j + 1) v
  else if base = Reg.SPN_SPLICE then d.writeSplice v
  else if base = Reg.FLT_TRUSS_CMD then d.writeTrussCmd v
  else if base = Reg.FLT_LOG_BASE then (if bit (d.reg Reg.FLT_LOG_CFG) 4 then d else d.writePlain r off v)
  else if base = Reg.FLT_LOG_CFG then d.ringCfgWrite Reg.FLT_LOG_CFG 6 14 v
  else if base = Reg.FLT_LOG_CONS then d.logConsWrite v
  else if base = Reg.REP_WREG_N then d.writeWregN v
  else if base = Reg.DLM_CTRL then (d.writePlain r off v).holdFactors
  else if base = Reg.REP_CFG 0 then d.writeRepCfg i v
  else if base = Reg.REP_STAT 0 then d.writeRepStat i v
  else if base = Reg.REP_CMD 0 then (if bit v 0 then d.rejoinGroup i else d)
  else if base = Reg.MTR_SNAP then d.meterSnapWrite v
  else if base = Reg.MTR_OVF then d.writeMtrOvf r v
  else if base = Reg.MTR_RING_BASE then (if d.meterEn then d else d.writePlain r off v)
  else if base = Reg.MTR_RING_CFG then d.meterCfgWrite v
  else if base = Reg.MTR_RING_CONS then d.meterConsWrite v
  else if base = Reg.FLS_MBOX_CMD then d.writeMboxCmd v
  else d.writePlain r off v

/-- Whether an offset lies in the FLS block and not among the mailbox registers (R10). -/
def flsClosed (off : Nat) : Bool :=
  off / 0x100000 == 12 && !(decide (Reg.FLS_MBOX_ARG 0 ≤ off) && decide (off ≤ Reg.FLS_MBOX_RES 1))

/-- One register write (R9 to R11, R443): discarded where the stage serves none; discarded and recorded where no
register lies and in the FLS mirror. -/
def Device.writeReg (d : Device) (path off : Nat) (v : Word) : Device :=
  if !d.windowOpen off then d
  else
    match regRowAt off with
    | none => d.logAccess off path
    | some r => if flsClosed off then d.logAccess off path else d.writeSpecial r off (r.index off).1 (r.index off).2 v

/-- Consecutive registers, in ascending order (R7). -/
def Device.writeRegs (d : Device) (path off : Nat) : List Word → Device
  | [] => d
  | v :: vs => (d.writeReg path off v).writeRegs path (off + 8) vs

/-! ### The two paths -/

def pathRdma : Nat := 0
def pathMgmt : Nat := 1

/-- An RDMA access to the control region of `n` bytes from `off` (R6, R459): a wrong role or rkey, an access outside
the region, and a misaligned or partial one draw a remote access error and change nothing. -/
def Device.rdmaControl (d : Device) (qpn : Nat) (rkey : BitVec 32) (off n bytesIn : Nat)
    (f : Device → Device × List Word) : Device :=
  if !d.qpOn qpn then d
  else
    let d := d.rdmaIn 0 qpn bytesIn
    if (tget d.qps qpn default).role != roleOwner || rkey != d.rkeyControl || off % 8 != 0 || n % 8 != 0 || n == 0
        || decide (windowSize < off + n) then d.rdmaAnswer qpn nakAccess []
    else
      let r := f d
      (r.1.charge 0 .eth (8 * r.2.length) 16).rdmaAnswer qpn 0 (wordsBytes r.2)

/-- Status "access refused" of a management reply (Table 16-3). -/
def mgAccess : Nat := 5

/-- A management access to the control window (R6, R461, R463); the ROM takes none (R439). -/
def Device.mgmtControl (d : Device) (h : MgmtHdr) (read : Bool) (off n : Nat) (f : Device → Device × List Word) : Device :=
  d.mgmt h read fun d =>
    if d.fls.romOnly then (d, some (mgStatus 3))
    else if off % 8 != 0 || n % 8 != 0 || n == 0 || decide (windowSize < off + n) then (d, some (mgStatus mgAccess))
    else
      let r := f d
      (r.1, some ⟨0, r.2, []⟩)

/-- One access by either path: a write of `n` bytes, or a read. -/
def Device.access (d : Device) (src : Source) (write : Bool) (off n : Nat) (f : Device → Nat → Device × List Word) : Device :=
  match src with
  | .rdma qpn rkey => d.rdmaControl qpn rkey off n (if write then n else 0) (fun d => f d pathRdma)
  | .mgmt h => d.mgmtControl h (!write) off n (fun d => f d pathMgmt)

/-- REG_WRITE (R7 to R12, R386, R473): an access may write several registers. -/
def execRegWrite (src : Source) (off : Nat) (vs : List Word) (s : State) : Host.Outcome State Fault Refusal :=
  onDevice s fun d => d.access src true off (8 * vs.length) fun d p => (d.writeRegs p off vs, [])

/-- MISALIGNED_ACCESS (R6): refused whole; an aligned access of whole words is not this event. -/
def execMisalignedAccess (src : Source) (write : Bool) (off len : Nat) (s : State) : Host.Outcome State Fault Refusal :=
  onDevice s fun d =>
    if off % 8 = 0 ∧ len % 8 = 0 ∧ len ≠ 0 then d
    else d.access src write off len fun d _ => (d, [])

/-- UNASSIGNED_OFFSET_ACCESS (R9): a read returns zero, a write is discarded; an assigned offset is not this event. -/
def execUnassignedOffsetAccess (src : Source) (write : Bool) (off : Nat) (s : State) :
    Host.Outcome State Fault Refusal :=
  onDevice s fun d =>
    if (regRowAt off).isSome then d
    else d.access src write off 8 fun d p =>
      if write then (d.writeReg p off 0, []) else let r := d.readReg p off; (r.2, [r.1])

/-- FLS_MIRROR_WRITE (R10): a write outside the mailbox; the mailbox is not this event. -/
def execFlsMirrorWrite (src : Source) (off : Nat) (v : Word) (s : State) : Host.Outcome State Fault Refusal :=
  onDevice s fun d =>
    if !flsClosed off then d else d.access src true off 8 fun d p => (d.writeReg p off v, [])

/-- MGMT_READ (R416, R443, R461): 1 to 64 registers. -/
def execMgmtRead (h : MgmtHdr) (off count : Nat) (s : State) : Host.Outcome State Fault Refusal :=
  onDevice s fun d =>
    if count = 0 ∨ 64 < count then d.mgmt h true fun d => (d, some (mgStatus 1))
    else d.access (.mgmt h) false off (8 * count) fun d p => let r := d.readRegs p off count; (r.2, r.1)

/-- MGMT_WRITE (R7, R443, R461, R463): 1 to 64 registers, one value for each. -/
def execMgmtWrite (h : MgmtHdr) (off count : Nat) (values : List Word) (s : State) : Host.Outcome State Fault Refusal :=
  onDevice s fun d =>
    if count = 0 ∨ 64 < count ∨ values.length ≠ count then d.mgmt h false fun d => (d, some (mgStatus 1))
    else d.access (.mgmt h) true off (8 * count) fun d p => (d.writeRegs p off values, [])

/-- REG_READ (R7, R11, R189, R255, R416): an RDMA read of the control region. -/
def execRegRead (qpn : Nat) (rkey : BitVec 32) (off count : Nat) (s : State) : Host.Outcome State Fault Refusal :=
  onDevice s fun d =>
    d.access (.rdma qpn rkey) false off (8 * count) fun d p => let r := d.readRegs p off count; (r.2, r.1)

end Sys2Proof.Machine
end

