-- ==== Sys2Proof/Machine/Dispatch.lean ====
section
/-! DEFINITION. One arm per command. -/
namespace Sys2Proof.Machine

open Sys2Proof

/-- A command's effect on everything but the queue. -/
def exec (i : Instr) (s : State) : Host.Outcome State Fault Refusal :=
  match i with
  | .regWrite src off vs => Sys2Proof.Machine.execRegWrite src off vs s
  | .misalignedAccess src write off len => Sys2Proof.Machine.execMisalignedAccess src write off len s
  | .unassignedOffsetAccess src write off => Sys2Proof.Machine.execUnassignedOffsetAccess src write off s
  | .flsMirrorWrite src off v => Sys2Proof.Machine.execFlsMirrorWrite src off v s
  | .powerControlStep t dir watts => Sys2Proof.Machine.execPowerControlStep t dir watts s
  | .thermThrottle tile celsius => Sys2Proof.Machine.execThermThrottle tile celsius s
  | .thermRestore tile celsius => Sys2Proof.Machine.execThermRestore tile celsius s
  | .thermalTrip celsius => Sys2Proof.Machine.execThermalTrip celsius s
  | .loftPatrol t word err => Sys2Proof.Machine.execLoftPatrol t word err s
  | .tileEntryPush t x => Sys2Proof.Machine.execTileEntryPush t x s
  | .soffitFill t mshr => Sys2Proof.Machine.execSoffitFill t mshr s
  | .sofWayLockWrite t v => Sys2Proof.Machine.execSofWayLockWrite t v s
  | .sofPreloadGo t v => Sys2Proof.Machine.execSofPreloadGo t v s
  | .sofPreloadLine t => Sys2Proof.Machine.execSofPreloadLine t s
  | .sofDisable t v => Sys2Proof.Machine.execSofDisable t v s
  | .sofEnable t v => Sys2Proof.Machine.execSofEnable t v s
  | .sofInvAll t => Sys2Proof.Machine.execSofInvAll t s
  | .sofInvUnlocked t => Sys2Proof.Machine.execSofInvUnlocked t s
  | .sofInvDone t => Sys2Proof.Machine.execSofInvDone t s
  | .hodXfer t => Sys2Proof.Machine.execHodXfer t s
  | .hodTile t u => Sys2Proof.Machine.execHodTile t u s
  | .hodReadReply rtag data => Sys2Proof.Machine.execHodReadReply rtag data s
  | .hodRemoteWriteAck rtag => Sys2Proof.Machine.execHodRemoteWriteAck rtag s
  | .hodRemoteTimeout t => Sys2Proof.Machine.execHodRemoteTimeout t s
  | .rafTask t a => Sys2Proof.Machine.execRafTask t a s
  | .rafSload t a => Sys2Proof.Machine.execRafSload t a s
  | .rafSloadDone t a => Sys2Proof.Machine.execRafSloadDone t a s
  | .rafMx128 t a bubbles => Sys2Proof.Machine.execRafMx128 t a bubbles s
  | .rafMx64p t h bubbles => Sys2Proof.Machine.execRafMx64p t h bubbles s
  | .rafMx256k t a bubbles => Sys2Proof.Machine.execRafMx256k t a bubbles s
  | .rafMt128 t a bubbles => Sys2Proof.Machine.execRafMt128 t a bubbles s
  | .rafNop t a => Sys2Proof.Machine.execRafNop t a s
  | .rafEnd t a => Sys2Proof.Machine.execRafEnd t a s
  | .rafEntryReady t a u => Sys2Proof.Machine.execRafEntryReady t a u s
  | .ballastMismatch t a col => Sys2Proof.Machine.execBallastMismatch t a col s
  | .rafBallastWindow t a => Sys2Proof.Machine.execRafBallastWindow t a s
  | .rafRampDownStep t a => Sys2Proof.Machine.execRafRampDownStep t a s
  | .rafRampUpStep t a => Sys2Proof.Machine.execRafRampUpStep t a s
  | .lthTask t e => Sys2Proof.Machine.execLthTask t e s
  | .lthNop t e u => Sys2Proof.Machine.execLthNop t e u s
  | .lthEnd t e u => Sys2Proof.Machine.execLthEnd t e u s
  | .lthBr t e u => Sys2Proof.Machine.execLthBr t e u s
  | .lthFsig t e u => Sys2Proof.Machine.execLthFsig t e u s
  | .lthSadd t e u => Sys2Proof.Machine.execLthSadd t e u s
  | .lthSsub t e u => Sys2Proof.Machine.execLthSsub t e u s
  | .lthSshl t e u => Sys2Proof.Machine.execLthSshl t e u s
  | .lthSld t e u => Sys2Proof.Machine.execLthSld t e u s
  | .lthSst t e u => Sys2Proof.Machine.execLthSst t e u s
  | .lthVext t e u => Sys2Proof.Machine.execLthVext t e u s
  | .lthVbcast t e u => Sys2Proof.Machine.execLthVbcast t e u s
  | .lthAdd t e u => Sys2Proof.Machine.execLthAdd t e u s
  | .lthSub t e u => Sys2Proof.Machine.execLthSub t e u s
  | .lthAdds t e u => Sys2Proof.Machine.execLthAdds t e u s
  | .lthSubs t e u => Sys2Proof.Machine.execLthSubs t e u s
  | .lthMul t e u => Sys2Proof.Machine.execLthMul t e u s
  | .lthMulh t e u => Sys2Proof.Machine.execLthMulh t e u s
  | .lthMadd t e u => Sys2Proof.Machine.execLthMadd t e u s
  | .lthAbs t e u => Sys2Proof.Machine.execLthAbs t e u s
  | .lthMin t e u => Sys2Proof.Machine.execLthMin t e u s
  | .lthMax t e u => Sys2Proof.Machine.execLthMax t e u s
  | .lthAnd t e u => Sys2Proof.Machine.execLthAnd t e u s
  | .lthOr t e u => Sys2Proof.Machine.execLthOr t e u s
  | .lthXor t e u => Sys2Proof.Machine.execLthXor t e u s
  | .lthShl t e u => Sys2Proof.Machine.execLthShl t e u s
  | .lthShr t e u => Sys2Proof.Machine.execLthShr t e u s
  | .lthSra t e u => Sys2Proof.Machine.execLthSra t e u s
  | .lthSrar t e u => Sys2Proof.Machine.execLthSrar t e u s
  | .lthCmp t e u => Sys2Proof.Machine.execLthCmp t e u s
  | .lthSel t e u => Sys2Proof.Machine.execLthSel t e u s
  | .lthMov t e u => Sys2Proof.Machine.execLthMov t e u s
  | .lthLimm t e u => Sys2Proof.Machine.execLthLimm t e u s
  | .lthLimmh t e u => Sys2Proof.Machine.execLthLimmh t e u s
  | .lthMand t e u => Sys2Proof.Machine.execLthMand t e u s
  | .lthMor t e u => Sys2Proof.Machine.execLthMor t e u s
  | .lthMnot t e u => Sys2Proof.Machine.execLthMnot t e u s
  | .lthCvt t e u => Sys2Proof.Machine.execLthCvt t e u s
  | .lthXadd t e u => Sys2Proof.Machine.execLthXadd t e u s
  | .lthXcvt t e u => Sys2Proof.Machine.execLthXcvt t e u s
  | .lthXrsum t e u => Sys2Proof.Machine.execLthXrsum t e u s
  | .lthResc t e u => Sys2Proof.Machine.execLthResc t e u s
  | .lthReq t e u => Sys2Proof.Machine.execLthReq t e u s
  | .lthLdrr t e u => Sys2Proof.Machine.execLthLdrr t e u s
  | .lthRsum t e u => Sys2Proof.Machine.execLthRsum t e u s
  | .lthRmin t e u => Sys2Proof.Machine.execLthRmin t e u s
  | .lthRmax t e u => Sys2Proof.Machine.execLthRmax t e u s
  | .lthTbl t e u => Sys2Proof.Machine.execLthTbl t e u s
  | .lthExp2 t e u => Sys2Proof.Machine.execLthExp2 t e u s
  | .lthRcp t e u => Sys2Proof.Machine.execLthRcp t e u s
  | .lthRsqrt t e u => Sys2Proof.Machine.execLthRsqrt t e u s
  | .lthLd t e u => Sys2Proof.Machine.execLthLd t e u s
  | .lthSt t e u => Sys2Proof.Machine.execLthSt t e u s
  | .lthLdsc t e u => Sys2Proof.Machine.execLthLdsc t e u s
  | .lthStsc t e u => Sys2Proof.Machine.execLthStsc t e u s
  | .lthTqpop t e u => Sys2Proof.Machine.execLthTqpop t e u s
  | .lthTqhdr t e u => Sys2Proof.Machine.execLthTqhdr t e u s
  | .lthTqTimeout t e => Sys2Proof.Machine.execLthTqTimeout t e s
  | .lthLdtbl t e u => Sys2Proof.Machine.execLthLdtbl t e u s
  | .lthFadd t e u => Sys2Proof.Machine.execLthFadd t e u s
  | .lthFsub t e u => Sys2Proof.Machine.execLthFsub t e u s
  | .lthFmul t e u => Sys2Proof.Machine.execLthFmul t e u s
  | .lthFfma t e u => Sys2Proof.Machine.execLthFfma t e u s
  | .lthFdiv t e u => Sys2Proof.Machine.execLthFdiv t e u s
  | .lthFsqrt t e u => Sys2Proof.Machine.execLthFsqrt t e u s
  | .lthFmin t e u => Sys2Proof.Machine.execLthFmin t e u s
  | .lthFmax t e u => Sys2Proof.Machine.execLthFmax t e u s
  | .lthFcmp t e u => Sys2Proof.Machine.execLthFcmp t e u s
  | .lthFcvt t e u => Sys2Proof.Machine.execLthFcvt t e u s
  | .thtTask t => Sys2Proof.Machine.execThtTask t s
  | .thtRowArrive t rtag u => Sys2Proof.Machine.execThtRowArrive t rtag u s
  | .thtRemoteReply rtag data => Sys2Proof.Machine.execThtRemoteReply rtag data s
  | .thtRemoteRowRequest p => Sys2Proof.Machine.execThtRemoteRowRequest p s
  | .thtRemoteTimeout t => Sys2Proof.Machine.execThtRemoteTimeout t s
  | .thtDeltaTask t => Sys2Proof.Machine.execThtDeltaTask t s
  | .deltaBatch b => Sys2Proof.Machine.execDeltaBatch b s
  | .endOfRoundMarker source tgid gen round nsrc => Sys2Proof.Machine.execEndOfRoundMarker source tgid gen round nsrc s
  | .roundApply table slotB => Sys2Proof.Machine.execRoundApply table slotB s
  | .deltaBatchAck rtag status cause => Sys2Proof.Machine.execDeltaBatchAck rtag status cause s
  | .desc j => Sys2Proof.Machine.execDesc j s
  | .openSlot j => Sys2Proof.Machine.execOpenSlot j s
  | .sealSlot j => Sys2Proof.Machine.execSealSlot j s
  | .publish j => Sys2Proof.Machine.execPublish j s
  | .dropSlot j => Sys2Proof.Machine.execDropSlot j s
  | .rebuild j => Sys2Proof.Machine.execRebuild j s
  | .closeRound j => Sys2Proof.Machine.execCloseRound j s
  | .digestBuildDone table slotB => Sys2Proof.Machine.execDigestBuildDone table slotB s
  | .slotRelease table slotB => Sys2Proof.Machine.execSlotRelease table slotB s
  | .atnTask t => Sys2Proof.Machine.execAtnTask t s
  | .atnPageStep t u => Sys2Proof.Machine.execAtnPageStep t u s
  | .atnAppendRow t u => Sys2Proof.Machine.execAtnAppendRow t u s
  | .atnCombineStep t u => Sys2Proof.Machine.execAtnCombineStep t u s
  | .kvAppend j => Sys2Proof.Machine.execKvAppend j s
  | .truncate j => Sys2Proof.Machine.execTruncate j s
  | .relocate j => Sys2Proof.Machine.execRelocate j s
  | .fork j => Sys2Proof.Machine.execFork j s
  | .kvEditApply j => Sys2Proof.Machine.execKvEditApply j s
  | .kvEditTimeout j => Sys2Proof.Machine.execKvEditTimeout j s
  | .requestArrival client record => Sys2Proof.Machine.execRequestArrival client record s
  | .courseLay lane => Sys2Proof.Machine.execCourseLay lane s
  | .courseOutcomeApply lane => Sys2Proof.Machine.execCourseOutcomeApply lane s
  | .resultWriteDone ticket ok => Sys2Proof.Machine.execResultWriteDone ticket ok s
  | .entryRelease e => Sys2Proof.Machine.execEntryRelease e s
  | .attach j => Sys2Proof.Machine.execAttach j s
  | .detach j => Sys2Proof.Machine.execDetach j s
  | .detachComplete client => Sys2Proof.Machine.execDetachComplete client s
  | .model j => Sys2Proof.Machine.execModel j s
  | .park j => Sys2Proof.Machine.execPark j s
  | .unpark j => Sys2Proof.Machine.execUnpark j s
  | .courseRelease j => Sys2Proof.Machine.execCourseRelease j s
  | .cancel j => Sys2Proof.Machine.execCancel j s
  | .poolAdd j => Sys2Proof.Machine.execPoolAdd j s
  | .eaveRingWrite qpn rkey addr data => Sys2Proof.Machine.execEaveRingWrite qpn rkey addr data s
  | .eaveDoorbell v => Sys2Proof.Machine.execEaveDoorbell v s
  | .eavePoll => Sys2Proof.Machine.execEavePoll s
  | .eaveAccept => Sys2Proof.Machine.execEaveAccept s
  | .staleDoorbell => Sys2Proof.Machine.execStaleDoorbell s
  | .eaveCfgWrite v => Sys2Proof.Machine.execEaveCfgWrite v s
  | .eaveExpectWrite v => Sys2Proof.Machine.execEaveExpectWrite v s
  | .entryStart entry => Sys2Proof.Machine.execEntryStart entry s
  | .entryComplete entry => Sys2Proof.Machine.execEntryComplete entry s
  | .cmdNop j => Sys2Proof.Machine.execCmdNop j s
  | .exec j => Sys2Proof.Machine.execExec j s
  | .launch j => Sys2Proof.Machine.execLaunch j s
  | .graphSeal j => Sys2Proof.Machine.execGraphSeal j s
  | .graphPatch j => Sys2Proof.Machine.execGraphPatch j s
  | .graphDrop j => Sys2Proof.Machine.execGraphDrop j s
  | .cmdWait b => Sys2Proof.Machine.execCmdWait b s
  | .cmdSignal b => Sys2Proof.Machine.execCmdSignal b s
  | .fenceSet j => Sys2Proof.Machine.execFenceSet j s
  | .barrier b => Sys2Proof.Machine.execBarrier b s
  | .loop b => Sys2Proof.Machine.execLoop b s
  | .endloop b => Sys2Proof.Machine.execEndloop b s
  | .ifCmd b => Sys2Proof.Machine.execIfCmd b s
  | .elseCmd b => Sys2Proof.Machine.execElseCmd b s
  | .endif b => Sys2Proof.Machine.execEndif b s
  | .sofPreload j => Sys2Proof.Machine.execSofPreload j s
  | .shingleAhead eng => Sys2Proof.Machine.execShingleAhead eng s
  | .gutWriteFail c n => Sys2Proof.Machine.execGutWriteFail c n s
  | .gutConsWrite c v => Sys2Proof.Machine.execGutConsWrite c v s
  | .gutRearm c v => Sys2Proof.Machine.execGutRearm c v s
  | .gutQuotaWrite c v => Sys2Proof.Machine.execGutQuotaWrite c v s
  | .ridgeFenceSelWrite v => Sys2Proof.Machine.execRidgeFenceSelWrite v s
  | .ctxCreate j => Sys2Proof.Machine.execCtxCreate j s
  | .ctxDestroy j => Sys2Proof.Machine.execCtxDestroy j s
  | .destroyProceed c => Sys2Proof.Machine.execDestroyProceed c s
  | .ctxSet j => Sys2Proof.Machine.execCtxSet j s
  | .ctxGrant j => Sys2Proof.Machine.execCtxGrant j s
  | .grantComplete j => Sys2Proof.Machine.execGrantComplete j s
  | .ctxRelease j => Sys2Proof.Machine.execCtxRelease j s
  | .releaseComplete c t => Sys2Proof.Machine.execReleaseComplete c t s
  | .engineTaskStart eng => Sys2Proof.Machine.execEngineTaskStart eng s
  | .enginePreempt eng => Sys2Proof.Machine.execEnginePreempt eng s
  | .xltAnswer v => Sys2Proof.Machine.execXltAnswer v s
  | .xltResend reqid => Sys2Proof.Machine.execXltResend reqid s
  | .xltRingWriteFail => Sys2Proof.Machine.execXltRingWriteFail s
  | .xltReqConsWrite v => Sys2Proof.Machine.execXltReqConsWrite v s
  | .xltReqCfgWrite v => Sys2Proof.Machine.execXltReqCfgWrite v s
  | .xltReqidReclaim reqid => Sys2Proof.Machine.execXltReqidReclaim reqid s
  | .xltMap j => Sys2Proof.Machine.execXltMap j s
  | .xltUnmap j => Sys2Proof.Machine.execXltUnmap j s
  | .xltFlush j => Sys2Proof.Machine.execXltFlush j s
  | .xltUnmapComplete j => Sys2Proof.Machine.execXltUnmapComplete j s
  | .memReadRequest addr u ctx err path => Sys2Proof.Machine.execMemReadRequest addr u ctx err path s
  | .memWriteRequest addr data u ctx path => Sys2Proof.Machine.execMemWriteRequest addr data u ctx path s
  | .nmaOp ops u ctx => Sys2Proof.Machine.execNmaOp ops u ctx s
  | .memAge req => Sys2Proof.Machine.execMemAge req s
  | .maintAnnounce => Sys2Proof.Machine.execMaintAnnounce s
  | .maintSlot failing => Sys2Proof.Machine.execMaintSlot failing s
  | .maintHoldEnd => Sys2Proof.Machine.execMaintHoldEnd s
  | .laneSweepDone p => Sys2Proof.Machine.execLaneSweepDone p s
  | .scrub addr errs => Sys2Proof.Machine.execScrub addr errs s
  | .memPcRetrain v => Sys2Proof.Machine.execMemPcRetrain v s
  | .memPcRepair v => Sys2Proof.Machine.execMemPcRepair v s
  | .memPcRetire v => Sys2Proof.Machine.execMemPcRetire v s
  | .memMaintWrite v => Sys2Proof.Machine.execMemMaintWrite v s
  | .mapSlotWrite m reg v => Sys2Proof.Machine.execMapSlotWrite m reg v s
  | .frameConvert v => Sys2Proof.Machine.execFrameConvert v s
  | .frameConvertDone => Sys2Proof.Machine.execFrameConvertDone s
  | .linkFlitRx l flit => Sys2Proof.Machine.execLinkFlitRx l flit s
  | .linkHeartbeat l => Sys2Proof.Machine.execLinkHeartbeat l s
  | .linkHbTimeout l => Sys2Proof.Machine.execLinkHbTimeout l s
  | .linkDown l cause => Sys2Proof.Machine.execLinkDown l cause s
  | .linkTrained l res => Sys2Proof.Machine.execLinkTrained l res s
  | .hodReadRequest p => Sys2Proof.Machine.execHodReadRequest p s
  | .hodRemoteWrite p => Sys2Proof.Machine.execHodRemoteWrite p s
  | .heldNotice x => Sys2Proof.Machine.execHeldNotice x s
  | .unreachable x => Sys2Proof.Machine.execUnreachable x s
  | .spliceJoin d => Sys2Proof.Machine.execSpliceJoin d s
  | .spliceLeave d => Sys2Proof.Machine.execSpliceLeave d s
  | .joinRequest d plus => Sys2Proof.Machine.execJoinRequest d plus s
  | .joinHeld d plus => Sys2Proof.Machine.execJoinHeld d plus s
  | .bypassOpenDone d => Sys2Proof.Machine.execBypassOpenDone d s
  | .joinTrainTimeout x => Sys2Proof.Machine.execJoinTrainTimeout x s
  | .joinRetry x => Sys2Proof.Machine.execJoinRetry x s
  | .membershipUpdate d members => Sys2Proof.Machine.execMembershipUpdate d members s
  | .colTask e x => Sys2Proof.Machine.execColTask e x s
  | .colDataRx e p u => Sys2Proof.Machine.execColDataRx e p u s
  | .colTimeout e colid => Sys2Proof.Machine.execColTimeout e colid s
  | .colAbortRx e p => Sys2Proof.Machine.execColAbortRx e p s
  | .quarantineApply t => Sys2Proof.Machine.execQuarantineApply t s
  | .quarantineForce t => Sys2Proof.Machine.execQuarantineForce t s
  | .test v => Sys2Proof.Machine.execTest v s
  | .testForce v => Sys2Proof.Machine.execTestForce v s
  | .relax v => Sys2Proof.Machine.execRelax v s
  | .unquarantine v => Sys2Proof.Machine.execUnquarantine v s
  | .trussTestDone t pass funit micros => Sys2Proof.Machine.execTrussTestDone t pass funit micros s
  | .repWregNWrite v => Sys2Proof.Machine.execRepWregNWrite v s
  | .weightScanDone region => Sys2Proof.Machine.execWeightScanDone region s
  | .repCfgWrite g v => Sys2Proof.Machine.execRepCfgWrite g v s
  | .replicaResolve g => Sys2Proof.Machine.execReplicaResolve g s
  | .rejoin g => Sys2Proof.Machine.execRejoin g s
  | .fltLogConsWrite v => Sys2Proof.Machine.execFltLogConsWrite v s
  | .flashingRestart watchdog => Sys2Proof.Machine.execFlashingRestart watchdog s
  | .flashingRestartDone => Sys2Proof.Machine.execFlashingRestartDone s
  | .tarpDrop => Sys2Proof.Machine.execTarpDrop s
  | .meterTick => Sys2Proof.Machine.execMeterTick s
  | .meterPeriodic => Sys2Proof.Machine.execMeterPeriodic s
  | .meterSnapshot => Sys2Proof.Machine.execMeterSnapshot s
  | .mtrRingConsWrite v => Sys2Proof.Machine.execMtrRingConsWrite v s
  | .meterAudit => Sys2Proof.Machine.execMeterAudit s
  | .status r => Sys2Proof.Machine.execStatus r s
  | .trussImage r => Sys2Proof.Machine.execTrussImage r s
  | .imageStage r => Sys2Proof.Machine.execImageStage r s
  | .imageSelect r => Sys2Proof.Machine.execImageSelect r s
  | .fwStage r => Sys2Proof.Machine.execFwStage r s
  | .fwActivate r => Sys2Proof.Machine.execFwActivate r s
  | .keyEnroll r => Sys2Proof.Machine.execKeyEnroll r s
  | .keyRevoke r => Sys2Proof.Machine.execKeyRevoke r s
  | .svnCommit r => Sys2Proof.Machine.execSvnCommit r s
  | .plimit r => Sys2Proof.Machine.execPlimit r s
  | .setDevnum r => Sys2Proof.Machine.execSetDevnum r s
  | .start r => Sys2Proof.Machine.execStart r s
  | .restart r => Sys2Proof.Machine.execRestart r s
  | .subscribe r => Sys2Proof.Machine.execSubscribe r s
  | .ownerOnly r => Sys2Proof.Machine.execOwnerOnly r s
  | .nonce r fresh => Sys2Proof.Machine.execNonce r fresh s
  | .powerGood resetLate => Sys2Proof.Machine.execPowerGood resetLate s
  | .deviceReset pwrgd resetL => Sys2Proof.Machine.execDeviceReset pwrgd resetL s
  | .stageTarp fwAok fwBok => Sys2Proof.Machine.execStageTarp fwAok fwBok s
  | .stageBatten f => Sys2Proof.Machine.execStageBatten f s
  | .stageThatched failing => Sys2Proof.Machine.execStageThatched failing s
  | .coreRefclkLoss => Sys2Proof.Machine.execCoreRefclkLoss s
  | .linkRefclkLoss => Sys2Proof.Machine.execLinkRefclkLoss s
  | .netRefclkLoss => Sys2Proof.Machine.execNetRefclkLoss s
  | .spdmRequest h request => Sys2Proof.Machine.execSpdmRequest h request s
  | .rocePacket p qpn kind => Sys2Proof.Machine.execRocePacket p qpn kind s
  | .rdmaMemoryRead qpn rkey addr len => Sys2Proof.Machine.execRdmaMemoryRead qpn rkey addr len s
  | .rdmaMemoryWrite qpn rkey addr data => Sys2Proof.Machine.execRdmaMemoryWrite qpn rkey addr data s
  | .ecnCeRx qpn => Sys2Proof.Machine.execEcnCeRx qpn s
  | .cnpRx qpn => Sys2Proof.Machine.execCnpRx qpn s
  | .rateRecovery qpn => Sys2Proof.Machine.execRateRecovery qpn s
  | .portDown p => Sys2Proof.Machine.execPortDown p s
  | .mgmtRead h off count => Sys2Proof.Machine.execMgmtRead h off count s
  | .mgmtWrite h off count values => Sys2Proof.Machine.execMgmtWrite h off count values s
  | .stageData h off data => Sys2Proof.Machine.execStageData h off data s
  | .qpCreate h q psn => Sys2Proof.Machine.execQpCreate h q psn s
  | .qpDestroy h qpn => Sys2Proof.Machine.execQpDestroy h qpn s
  | .netCfg h p ipv4 ipv6 vlan pfc => Sys2Proof.Machine.execNetCfg h p ipv4 ipv6 vlan pfc s
  | .regRead qpn rkey off count => Sys2Proof.Machine.execRegRead qpn rkey off count s
  | .remoteRefusal rtag status cause => Sys2Proof.Machine.execRemoteRefusal rtag status cause s
  | .heldNoticeSent source rtag => Sys2Proof.Machine.execHeldNoticeSent source rtag s
  | .joinNoAnswer d => Sys2Proof.Machine.execJoinNoAnswer d s
  | .portUp p phy => Sys2Proof.Machine.execPortUp p phy s
  | .refclkRestored c => Sys2Proof.Machine.execRefclkRestored c s
  | .clockRelocked t => Sys2Proof.Machine.execClockRelocked t s
  | .analogCurrentLimiter past => Sys2Proof.Machine.execAnalogCurrentLimiter past s

end Sys2Proof.Machine
end

