-- ==== Sys2Proof/Machine/Idle.lean ====
section
/-! DEFINITION. What passes while no command waits. -/
namespace Sys2Proof.Machine

/-- One nanosecond: the 1 GHz counter counts on while its clock runs (R447), modulo 2^64 as a 64-bit
register does. -/
def idleTick (d : Device) : Device :=
  if d.clk.counting then { d with clk := { d.clk with now := (d.clk.now + 1) % 2 ^ 64 } } else d

end Sys2Proof.Machine
end

