-- ==== Sys2Proof/Safety.lean ====
section
/-! DEFINITION. The terms that statements about runs use: the state after a command, FLT_BOUND in step with its
conditions, memories in canonical form, metering that adds up, and when an access is let in. -/
namespace Sys2Proof.Machine

open Sys2Proof

/-- The state after a command whose effect leaves the device `d`: FLT_BOUND has followed its conditions (R386), and the
queue is as it was. -/
def State.after (s : State) (d : Device) : State := { s with dev := settle d }

/-- FLT_BOUND shows the conditions as they stand (R386). -/
abbrev State.Settled (s : State) : Prop := s.dev.bound = boundCond s.dev

/-- HBM, every Loft slice and the staging buffer are in canonical form. -/
def Device.MemoryWf (d : Device) : Prop :=
  memWf d.hbm.mem = true ∧ (∀ t, memWf (tget d.loft t []) = true) ∧ memWf d.fls.staging = true

/-- The sum of a quantity over all accounts, whole counts only. -/
def Meter.held (m : Meter) (q : Nat) : Nat :=
  (List.range 65).foldl (fun n a => n + (tget m.acct (32 * a + q) default).whole) 0

/-- R423 for quantity `q`: what all accounts hold and what has been retired make the total. -/
abbrev Meter.Conserves (m : Meter) (q : Nat) : Prop := m.held q + tget m.retired q 0 = tget m.total q 0

/-- No count of quantity `q` comes to its maximum by `n` more (R413). -/
def Meter.HasRoom (m : Meter) (q n : Nat) : Prop :=
  (∀ a, (tget m.acct (32 * a + q) default).whole + n ≤ counterMax) ∧ tget m.total q 0 + n ≤ counterMax
    ∧ tget m.retired q 0 + n ≤ counterMax

/-- The device is at Stage Batten or Thatched, where the control window serves every block (R443). -/
abbrev Device.Up (d : Device) : Prop := d.clk.stage = .batten ∨ d.clk.stage = .thatched

/-- The owner host's queue pair reaches the control region (R458, R459). -/
abbrev Device.ControlOpen (d : Device) (qpn : Nat) (rkey : BitVec 32) : Prop :=
  d.qpOn qpn = true ∧ (tget d.qps qpn default).role = roleOwner ∧ rkey = d.rkeyControl

/-- The owner host's queue pair reaches the memory region (R458, R459). -/
abbrev Device.MemoryOpen (d : Device) (qpn : Nat) (rkey : BitVec 32) : Prop :=
  d.qpOn qpn = true ∧ (tget d.qps qpn default).role = roleOwner ∧ rkey = d.rkeyMemory

/-- A management request that the device carries out: the port answers, the message is well formed, it repeats no kept
one, and its source may send it (R461 to R463). -/
abbrev Device.Admits (d : Device) (h : MgmtHdr) (open_ : Bool) : Prop :=
  d.mgmtOn h.port = true ∧ mgmtMalformed h = false
    ∧ d.fls.kept.find? (fun k => k.src == h.src && k.seq == h.seq) = none ∧ d.mgmtBarred h open_ = false

/-- A management request that reaches the control window or a port's settings: the ROM takes none (R439). -/
abbrev Device.AdmitsAccess (d : Device) (h : MgmtHdr) (open_ : Bool) : Prop := d.Admits h open_ ∧ d.fls.romOnly = false

/-- The device once an admitted management request has been counted. -/
def Device.mgmtIn (d : Device) (h : MgmtHdr) : Device :=
  (d.count (Reg.ETH_RX_FRAMES h.port) 1).count (Reg.ETH_MGMT_REQ h.port) 1

/-- The kept form of a reply to `h`. -/
def keptReply (h : MgmtHdr) (r : MgmtReply) : Kept := ⟨h.src, h.seq, r.status, r.values, r.data⟩

/-- The Lath task `x` has come to an instruction of operation `want` that is not refused, and its checks let it go on, on
the device `d` (R133, R154, R155). -/
def State.LathRuns (s : State) (t : Truss) (e : LathNo) (want : Nat) (u : LathUpset) (d : Device) (x : LthTask) : Prop :=
  ∃ m : Device, s.dev.lthMeet t e want = (m, some x) ∧ m.lthUpset x u = (d, true)

/-- The Flashing partition carries out a mailbox command of code `code` that GO has handed over and whose turn has come
(R428, R429). -/
abbrev Device.MailboxRuns (d : Device) (code : Nat) : Prop :=
  d.fls.imageJob = none ∧ d.flsOn = true ∧ d.fls.mboxBusy = true ∧ d.fls.mboxCode = code
    ∧ d.fls.line.head? = some FlsWait.mailbox
    ∧ d.fls.restarting = false ∧ d.fls.romOnly = false ∧ d.flsAllowed true code = true

/-- The Flashing partition carries out a management FLS request at once: no other command waits (R428, R429, R461). -/
abbrev Device.MgmtRuns (d : Device) (h : MgmtHdr) (code : Nat) : Prop :=
  d.fls.imageJob = none ∧ d.fls.line = [] ∧ d.Admits h (code == 0x01) ∧ d.fls.restarting = false ∧ d.fls.romOnly = false
    ∧ d.flsAllowed false code = true

/-- The device once a Flashing command of the management path has ended OK with results `r0` and `r1`. -/
def Device.flsReplied (d : Device) (h : MgmtHdr) (tag : BitVec 8) (r0 r1 : Word) : Device :=
  d.replyKept h.port (keptReply h ⟨0, [mboxStat tag.toNat 0 ⟨flsOk, 0, r0, r1⟩, r0, r1], []⟩)

end Sys2Proof.Machine
end

