-- ==== Sys2Proof/Certificates/Slice0/Obligations.lean ====
section
/-! DEFINITION. The statements for the provers: what the commands of the block do, family by family, and what every step
keeps. -/
open Sys2Proof Sys2Proof.Machine

/-! ### The whole machine and the control window -/

/-- A step with a command at the front of the queue is `exec` of that command on the state with the queue's rest (the
block's rule of fetching: first in, first out). -/
def Obligations.StepRunsTheFrontCommand : Prop :=
  ∀ (c : Instr) (rest : List Instr) (s : State),
    step { s with pending := c :: rest } = exec c { s with pending := rest }

/-- On an empty queue the block idles: the model's choice (log entry 4) is that one nanosecond of the 1 GHz counter
passes while that counter runs, and nothing else changes. A step takes exactly the front of the queue. Every command
of the table answers a next state in every state: it leaves the queue as it was, and FLT_BOUND in step with its
conditions. The idling tick of one nanosecond is the model's choice (DESIGN CHOICE, log entry 4). -/
def Obligations.EveryCommandAnswersANextState : Prop :=
  (∀ s : State, s.pending = [] →
    step s = .next { s with dev := { s.dev with clk := { s.dev.clk with
      now := if s.dev.clk.counting then (s.dev.clk.now + 1) % 2 ^ 64 else s.dev.clk.now } } }) ∧
  (∀ s t : State, step s = .next t → t.pending = s.pending.tail) ∧
  (∀ (c : Instr) (s : State), ∃ d : Device, exec c s = .next { s with dev := d } ∧ d.bound = boundCond d)

/-- FLT_BOUND shows its conditions as they stand: an invariant that every step keeps (R386). -/
def Obligations.BoundFollowsItsConditions : Prop :=
  ∀ s t : State, s.Settled → step s = .next t → t.Settled

/-- FLT_BOUND reads bits 0 to 6 as its conditions stand and BOUND_OK while all seven are 1, and no other bit. After a
command in which no condition falls, settling changes FLT_BOUND alone; when one falls to 0, one informational record
of kind 0x14 is made with the words of FLT_BOUND before and after (R386). -/
def Obligations.BoundFallIsRecorded : Prop :=
  (∀ (c : Instr) (s t : State), exec c s = .next t →
    (∀ i, i < 7 → (boundWord t.dev.bound).getLsbD i = (boundCond t.dev).getLsbD i) ∧
    ((boundWord t.dev.bound).getLsbD 7 = true ↔ ∀ i, i < 7 → (boundCond t.dev).getLsbD i = true) ∧
    (∀ i, 7 < i → (boundWord t.dev.bound).getLsbD i = false)) ∧
  ∀ d : Device,
    (d.bound &&& ~~~ boundCond d = 0 → settle d = { d with bound := boundCond d }) ∧
    (d.bound &&& ~~~ boundCond d ≠ 0 →
      ∃ e : Device, e = d.log 0x14 3 0 noCtx 0 0 (boundWord d.bound) (boundWord (boundCond d)) ∧
        settle d = { e with bound := boundCond e })

/-- The state after reset meets that invariant, with every condition met. What reset leaves: the queue is empty, the
device is off with no clock counting, memory lists nothing, and registers read their tables' reset values. Values that
no table states are zero by DESIGN CHOICE (log entries 1, 2 and 5). -/
def Obligations.ResetState : Prop :=
  (State.reset.Settled ∧ State.reset.dev.bound = 0x7F#7) ∧
  (State.reset.pending = [] ∧ State.reset.dev.clk.stage = .off ∧ State.reset.dev.clk.counting = false ∧
  State.reset.dev.hbm.mem = [] ∧ State.reset.dev.loft = [] ∧
  (∀ (off : Nat) (r : RegRow), regRowAt off = some r → State.reset.dev.reg off = r.resetWord) ∧
  State.reset.dev.fld Reg.EAVE_POLL Fld.EAVE_POLL_TIMEOUT = 100 ∧
  State.reset.dev.fld Reg.RIDGE_CTRL Fld.RIDGE_CTRL_PEND_MAX = 1024 ∧
  State.reset.dev.fld Reg.FLT_CTRL Fld.FLT_CTRL_THRESH = 3 ∧
  State.reset.dev.fld Reg.MEM_CTRL Fld.MEM_CTRL_SCRUB_HOURS = 24)

/-- Access codes and reserved bits (R8, R11): a write gives an RW bit its value, clears a W1C bit where it carries a
1, and ignores every other bit, the reserved ones among them; and a bit of no readable field of a register reads as
zero. -/
def Obligations.WriteFollowsAccessCodes : Prop :=
  (∀ (r : RegRow) (old v : Word) (i : Nat), i < 64 →
    (r.written old v).getLsbD i =
      if (r.mask .rw).getLsbD i then v.getLsbD i
      else if (r.mask .w1c).getLsbD i && v.getLsbD i then false
      else old.getLsbD i) ∧
  (∀ (d : Device) (path off : Nat) (r : RegRow) (i : Nat), regRowAt off = some r →
    (∀ f, f ∈ r.fields → f.acc ≠ .wo → i < f.lo ∨ f.lo + f.w ≤ i) → (d.readReg path off).1.getLsbD i = false) ∧
  (∀ (r : RegRow) (old v : Word) (i : Nat), (∀ f, f ∈ r.fields → i < f.lo ∨ f.lo + f.w ≤ i) →
    (r.written old v).getLsbD i = old.getLsbD i)

/-- A ring size out of range (R473): a write that places in SIZE_LOG2 of EAVE_CFG, GUT_CFG_c, XLT_REQ_CFG, FLT_LOG_CFG
or MTR_RING_CFG a value outside the range of the field's table changes no field and has no other effect, on either
path and by the rows of EAVE_CFG and XLT_REQ_CFG. -/
def Obligations.RingSizesOutOfRangeAreDiscarded : Prop :=
  ∀ (path : Nat) (v : Word) (d : Device),
    (bits v 52 48 < 6 ∨ 16 < bits v 52 48 → d.writeReg path Reg.EAVE_CFG v = d ∧
      ∀ s : State, s.dev = d → exec (.eaveCfgWrite v) s = .next (s.after d)) ∧
    (∀ c, c < 64 → bits v 4 0 < 6 ∨ 16 < bits v 4 0 → d.writeReg path (Reg.GUT_CFG c) v = d) ∧
    (bits v 4 0 < 6 ∨ 12 < bits v 4 0 → d.writeReg path Reg.XLT_REQ_CFG v = d ∧
      ∀ s : State, s.dev = d → exec (.xltReqCfgWrite v) s = .next (s.after d)) ∧
    (bits v 3 0 < 6 ∨ 14 < bits v 3 0 → d.writeReg path Reg.FLT_LOG_CFG v = d) ∧
    (bits v 3 0 < 7 ∨ 14 < bits v 3 0 → d.writeReg path Reg.MTR_RING_CFG v = d)

/-- REG_WRITE on both paths (R6, R7, R9, R11, R459, R461): with the owner's queue pair and the control rkey, or as a
management request let in, a write of one or several registers has each register's effect in ascending order and is
acknowledged. A register without behaviour of its own takes the value by its access codes. UNASSIGNED_OFFSET_ACCESS
(R9) on both paths: a read returns zero, a write is discarded, and each is recorded as kind 0x12 with the offset and
the path. The record's ADDR, "Address concerned, or 0" in Table 13-8, holds the offset, the model's choice (DESIGN
CHOICE, log entry 126). FLS_MIRROR_WRITE (R10) on both paths: a write of the FLS block outside the mailbox is
discarded and recorded. -/
def Obligations.ControlWindowAccesses : Prop :=
  ((∀ (qpn : Nat) (rkey : BitVec 32) (off : Nat) (vs : List Word) (s : State), s.dev.ControlOpen qpn rkey → off % 8 = 0 →
    vs ≠ [] → off + 8 * vs.length ≤ windowSize →
    exec (.regWrite (.rdma qpn rkey) off vs) s =
      .next (s.after ((((s.dev.rdmaIn 0 qpn (8 * vs.length)).writeRegs 0 off vs).charge 0 .eth 0 16).rdmaAnswer qpn 0 []))) ∧
  (∀ (h : MgmtHdr) (off : Nat) (vs : List Word) (s : State), s.dev.AdmitsAccess h false → off % 8 = 0 → vs ≠ [] →
    off + 8 * vs.length ≤ windowSize →
    exec (.regWrite (.mgmt h) off vs) s =
      .next (s.after (((s.dev.mgmtIn h).writeRegs 1 off vs).replyKept h.port (keptReply h ⟨0, [], []⟩)))) ∧
  (∀ (path off : Nat) (v : Word) (vs : List Word) (d : Device),
    d.writeRegs path off (v :: vs) = (d.writeReg path off v).writeRegs path (off + 8) vs) ∧
  (∀ (path off : Nat) (v : Word) (d : Device) (r : RegRow), d.windowOpen off = true → regRowAt off = some r →
    off ∈ [Reg.EAVE_POLL, Reg.THT_CTRL, Reg.ATN_CTRL, Reg.CRS_CTRL, Reg.XLT_CTRL,
      Reg.MEM_CTRL, Reg.LNK_CTRL, Reg.COL_CTRL, Reg.FLT_CTRL, Reg.REP_CTRL, Reg.MTR_CTRL] →
    r.written (d.reg off) v ≠ d.reg off →
    d.writeReg path off v = d.setReg off (r.written (d.reg off) v))) ∧
  ((∀ (qpn : Nat) (rkey : BitVec 32) (off : Nat) (s : State), s.dev.ControlOpen qpn rkey → off % 8 = 0 →
    off + 8 ≤ windowSize → regRowAt off = none → s.dev.windowOpen off = true →
    exec (.unassignedOffsetAccess (.rdma qpn rkey) false off) s =
      .next (s.after ((((s.dev.rdmaIn 0 qpn 0).log 0x12 3 0 noCtx 0 (BitVec.ofNat 64 off) (BitVec.ofNat 64 off) 0).charge 0 .eth 8
        16).rdmaAnswer qpn 0 (wordBytes 0))) ∧
    exec (.unassignedOffsetAccess (.rdma qpn rkey) true off) s =
      .next (s.after ((((s.dev.rdmaIn 0 qpn 8).log 0x12 3 0 noCtx 0 (BitVec.ofNat 64 off) (BitVec.ofNat 64 off) 0).charge 0 .eth 0
        16).rdmaAnswer qpn 0 []))) ∧
  (∀ (h : MgmtHdr) (off : Nat) (s : State), off % 8 = 0 → off + 8 ≤ windowSize → regRowAt off = none →
    s.dev.windowOpen off = true →
    (s.dev.AdmitsAccess h true → exec (.unassignedOffsetAccess (.mgmt h) false off) s =
      .next (s.after (((s.dev.mgmtIn h).log 0x12 3 0 noCtx 0 (BitVec.ofNat 64 off) (BitVec.ofNat 64 off) 1).replyKept h.port
        (keptReply h ⟨0, [0], []⟩)))) ∧
    (s.dev.AdmitsAccess h false → exec (.unassignedOffsetAccess (.mgmt h) true off) s =
      .next (s.after (((s.dev.mgmtIn h).log 0x12 3 0 noCtx 0 (BitVec.ofNat 64 off) (BitVec.ofNat 64 off) 1).replyKept h.port
        (keptReply h ⟨0, [], []⟩)))))) ∧
  (∀ (off : Nat) (v : Word) (s : State), off % 8 = 0 → flsClosed off = true → s.dev.windowOpen off = true →
    (∀ (qpn : Nat) (rkey : BitVec 32), s.dev.ControlOpen qpn rkey →
      exec (.flsMirrorWrite (.rdma qpn rkey) off v) s =
        .next (s.after ((((s.dev.rdmaIn 0 qpn 8).log 0x12 3 0 noCtx 0 (BitVec.ofNat 64 off) (BitVec.ofNat 64 off) 0).charge 0 .eth
          0 16).rdmaAnswer qpn 0 []))) ∧
    (∀ h : MgmtHdr, s.dev.AdmitsAccess h false →
      exec (.flsMirrorWrite (.mgmt h) off v) s =
        .next (s.after (((s.dev.mgmtIn h).log 0x12 3 0 noCtx 0 (BitVec.ofNat 64 off) (BitVec.ofNat 64 off) 1).replyKept h.port
          (keptReply h ⟨0, [], []⟩)))))

/-- MISALIGNED_ACCESS (R6): refused whole, and nothing but the traffic's own counts changes. RDMA answers a remote
access error (1), the management protocol "access refused" (5). -/
def Obligations.MisalignedAccessIsRefused : Prop :=
  (∀ (qpn : Nat) (rkey : BitVec 32) (w : Bool) (off len : Nat) (s : State), s.dev.qpOn qpn = true →
    off % 8 ≠ 0 ∨ len % 8 ≠ 0 ∨ len = 0 →
    exec (.misalignedAccess (.rdma qpn rkey) w off len) s =
      .next (s.after ((s.dev.rdmaIn 0 qpn (if w then len else 0)).rdmaAnswer qpn 1 []))) ∧
  (∀ (h : MgmtHdr) (w : Bool) (off len : Nat) (s : State), s.dev.AdmitsAccess h (!w) → off % 8 ≠ 0 ∨ len % 8 ≠ 0 ∨ len = 0 →
    exec (.misalignedAccess (.mgmt h) w off len) s =
      .next (s.after ((s.dev.mgmtIn h).replyKept h.port (keptReply h (mgStatus 5)))))

/-- REG_READ, MGMT_READ and MGMT_WRITE (R7, R461): the registers are read or written in ascending order, a read
answers their values, and the captures of R189 and R255 are made. A repeated management request draws the kept reply
and is not carried out again; a source outside a filled manager table may not write (R462, R463). -/
def Obligations.RegisterRuns : Prop :=
  ((∀ (qpn : Nat) (rkey : BitVec 32) (off n : Nat) (s : State), s.dev.ControlOpen qpn rkey → off % 8 = 0 → 0 < n →
    off + 8 * n ≤ windowSize →
    exec (.regRead qpn rkey off n) s =
      .next (s.after ((((s.dev.rdmaIn 0 qpn 0).readRegs 0 off n).2.charge 0 .eth
        (8 * ((s.dev.rdmaIn 0 qpn 0).readRegs 0 off n).1.length) 16).rdmaAnswer qpn 0
        (wordsBytes ((s.dev.rdmaIn 0 qpn 0).readRegs 0 off n).1)))) ∧
  (∀ (h : MgmtHdr) (off n : Nat) (s : State), s.dev.AdmitsAccess h true → off % 8 = 0 → 0 < n → n ≤ 64 →
    off + 8 * n ≤ windowSize →
    exec (.mgmtRead h off n) s =
      .next (s.after (((s.dev.mgmtIn h).readRegs 1 off n).2.replyKept h.port
        (keptReply h ⟨0, ((s.dev.mgmtIn h).readRegs 1 off n).1, []⟩)))) ∧
  (∀ (h : MgmtHdr) (off : Nat) (vs : List Word) (s : State), s.dev.AdmitsAccess h false → off % 8 = 0 → vs ≠ [] →
    vs.length ≤ 64 → off + 8 * vs.length ≤ windowSize →
    exec (.mgmtWrite h off vs.length vs) s =
      .next (s.after (((s.dev.mgmtIn h).writeRegs 1 off vs).replyKept h.port (keptReply h ⟨0, [], []⟩))))) ∧
  (∀ (h : MgmtHdr) (off n : Nat) (vs : List Word) (s : State), s.dev.mgmtOn h.port = true → mgmtMalformed h = false →
    (∀ k, s.dev.fls.kept.find? (fun k => k.src == h.src && k.seq == h.seq) = some k → 0 < n → n ≤ 64 → vs.length = n →
      exec (.mgmtWrite h off n vs) s = .next (s.after ((s.dev.mgmtIn h).sendReply h.port k))) ∧
    (s.dev.fls.kept.find? (fun k => k.src == h.src && k.seq == h.seq) = none → s.dev.mgmtBarred h false = true →
      exec (.mgmtWrite h off n vs) s = .next (s.after ((s.dev.mgmtIn h).replyKept h.port (keptReply h (mgStatus 3))))))

/-! ### Trusses, Loft and Soffit (01), power and clocks (15) -/

/-- A clock step moves a truss by 100 MHz between 1.2 GHz and its ceiling, at most once in 100 µs, and holds it until
it relocks (R445). POWER_CONTROL_STEP, THERM_THROTTLE and THERM_RESTORE (R445), CLOCK_RELOCKED (R390) and
ANALOG_CURRENT_LIMITER (R410): each answers the state that the power and thermal controls leave. -/
def Obligations.PowerAndThermalControls : Prop :=
  (∀ (d : Device) (t : Nat) (dir : ClockDir),
    tget (d.moveClock t dir).clk.mhz t 0 =
      (if thas d.clk.lastMove t && decide (d.now < tget d.clk.lastMove t 0 + 100000) then tget d.clk.mhz t 0
       else match dir with
        | .down => if 1300 ≤ tget d.clk.mhz t 0 then tget d.clk.mhz t 0 - 100 else tget d.clk.mhz t 0
        | .up => if tget d.clk.mhz t 0 + 100 ≤ stepCeil (d.trussStep t) then tget d.clk.mhz t 0 + 100 else tget d.clk.mhz t 0) ∧
    (tget (d.moveClock t dir).clk.mhz t 0 ≠ tget d.clk.mhz t 0 → t < 16 →
      (d.moveClock t dir).clk.locked.getLsbD t = false ∧ (d.moveClock t dir).now < tget (d.moveClock t dir).clk.lastMove t 0 + 100000) ∧
    (∀ u, u ≠ t → tget (d.moveClock t dir).clk.mhz u 0 = tget d.clk.mhz u 0)) ∧
  ((∀ (t : Truss) (watts : Nat) (s : State), s.dev.Up → s.dev.fls.restarting = false →
    s.dev.powerLimit < watts →
    let d := { s.dev with clk := { s.dev.clk with watts := watts } }.moveClock t .down
    exec (.powerControlStep t .down watts) s =
      .next (s.after { d with clk := { d.clk with powerHeld := d.clk.powerHeld ||| (1#16 <<< t.val) } })) ∧
  (∀ (t : Truss) (watts : Nat) (s : State), s.dev.Up → s.dev.fls.restarting = false →
    watts ≤ s.dev.powerLimit → s.dev.clk.powerHeld.toNat.testBit t = true → s.dev.clk.thermHeld.toNat.testBit (t / 4) = false →
    let d := { s.dev with clk := { s.dev.clk with watts := watts } }.moveClock t .up
    exec (.powerControlStep t .up watts) s =
      .next (s.after (if d.atCeiling t then
        { d with clk := { d.clk with powerHeld := d.clk.powerHeld &&& ~~~ (1#16 <<< t.val) } } else d))) ∧
  (∀ (i : Tile) (celsius : Nat) (s : State), s.dev.Up → s.dev.fls.restarting = false →
    105 < celsius → celsius < 115 →
    exec (.thermThrottle i celsius) s =
      .next (s.after ((List.range 4).foldl (fun d k => d.moveClock (4 * i.val + k) .down)
        { s.dev with clk := { s.dev.clk with
            temps := tset s.dev.clk.temps i celsius, thermHeld := s.dev.clk.thermHeld ||| (1#4 <<< i.val)
            coolSince := tdel s.dev.clk.coolSince i } }))) ∧
  (∀ (i : Tile) (celsius : Nat) (s : State), s.dev.Up → s.dev.fls.restarting = false →
    s.dev.clk.thermHeld.toNat.testBit i = true → celsius ≤ 102 → thas s.dev.clk.coolSince i = true →
    tget s.dev.clk.coolSince i 0 + 10000000 ≤ s.dev.now →
    let mine := (List.range 4).map (4 * i.val + ·)
    let d := mine.foldl (fun d t => if d.clk.powerHeld.toNat.testBit t then d else d.moveClock t .up)
      { s.dev with clk := { s.dev.clk with temps := tset s.dev.clk.temps i celsius } }
    exec (.thermRestore i celsius) s =
      .next (s.after (if mine.all (fun t => d.atCeiling t || d.clk.powerHeld.toNat.testBit t) then
        { d with clk := { d.clk with thermHeld := d.clk.thermHeld &&& ~~~ (1#4 <<< i.val)
                                     coolSince := tdel d.clk.coolSince i } } else d))) ∧
  (∀ (t : Truss) (s : State), s.dev.Up → s.dev.clk.coreOk = true →
    exec (.clockRelocked t) s =
      .next (s.after { s.dev with clk := { s.dev.clk with locked := s.dev.clk.locked ||| (1#16 <<< t.val) } })) ∧
  (∀ (o : Bool) (s : State), s.dev.Up →
    exec (.analogCurrentLimiter o) s =
      .next (s.after { s.dev with clk := { s.dev.clk with limiter := o && s.dev.fls.restarting } })))

/-- LOFT_PATROL (R13, R14, R32): the patrol moves on by one word. A corrected error counts in LOFT_ECC_CORR, one in
the Soffit region drops its line, and any other uncorrectable word stays so, is counted and is logged. The register
writes of a Soffit slice: SOF_WAY_LOCK_WRITE (R24), SOF_PRELOAD_GO (R27), SOF_DISABLE (R33), SOF_ENABLE (R35 to R37),
SOF_INV_ALL and SOF_INV_UNLOCKED (R34). The events of a Soffit slice: SOFFIT_FILL (R29, R31), SOF_PRELOAD_LINE (R26)
and SOF_INV_DONE (R34 to R36). -/
def Obligations.SoffitAndPatrol : Prop :=
  (∀ (t : Truss) (word : Nat) (s : State), 32 * word < loftSize →
    let d := { s.dev with patrol := tset s.dev.patrol t ((word + 1) % (loftSize / 32)) }
    exec (.loftPatrol t word .clean) s = .next (s.after d) ∧
    exec (.loftPatrol t word .corrected) s = .next (s.after (d.count (Reg.LOFT_ECC_CORR t) 1)) ∧
    (s.dev.inSoffitRegion t (32 * word) = true →
      exec (.loftPatrol t word .uncorrectable) s =
        .next (s.after (d.dropLineAt t (32 * word - (tget s.dev.truss t default).stageGr * granule)))) ∧
    (s.dev.inSoffitRegion t (32 * word) = false → s.dev.loftBad.contains (t.val, word) = false →
      exec (.loftPatrol t word .uncorrectable) s =
        .next (s.after ({ d with loftBad := (t.val, word) :: d.loftBad }.noteLoftUncorr t noCtx (unitCode t 0) 0 0 (32 * word))))) ∧
  (∀ (t : Truss) (v : Word) (c : Soffit) (lock : Nat) (s : State), s.dev.Up → s.dev.sof t = c →
    v.toNat % 2 ^ 16 &&& c.wayMask = lock →
    (exec (.sofWayLockWrite t v) s = .next (s.after
      (if c.wayMask ≠ 0 ∧ lock = c.wayMask then s.dev.setFld (Reg.SOF_STATUS t) Fld.SOF_STATUS_LOCK_REFUSED 1
       else s.dev.setReg (Reg.SOF_WAY_LOCK t) (BitVec.ofNat 64 lock)))) ∧
    (bit v 63 = true → c.enabled = true → c.disabling = false → c.preload = none → bits v 16 0 ≤ 65536 →
      bits v 47 32 &&& c.wayMask ≠ 0 →
      let d := s.dev.setReg (Reg.SOF_PRELOAD_CTRL t) (v &&& 0x0000FFFF0001FFFF#64)
      exec (.sofPreloadGo t v) s = .next (s.after (d.setSof t { c with
        preload := some ⟨[(d.fld (Reg.SOF_PRELOAD_BASE t) Fld.SOF_PRELOAD_BASE_ADDR, preloadLines (bits v 16 0))],
          BitVec.ofNat 16 (bits v 47 32 &&& c.wayMask), none, 0, deviceAccount⟩
        preloadDone := 0 }))) ∧
    (bit v 63 = true → c.enabled = false ∨ c.disabling = true ∨ c.preload.isSome = true ∨ bits v 47 32 &&& c.wayMask = 0 ∨
        65536 < bits v 16 0 →
      exec (.sofPreloadGo t v) s = .next (s.after ((s.dev.setReg (Reg.SOF_PRELOAD_CTRL t) (v &&& 0x0000FFFF0001FFFF#64)).setFld
        (Reg.SOF_STATUS t) Fld.SOF_STATUS_PRELOAD_REFUSED 1))) ∧
    (bit v 0 = false → c.preload = none →
      exec (.sofDisable t v) s = .next (s.after (((s.dev.setReg (Reg.SOF_CTRL t) (v &&& 2#64)).setSof t
        { c with disabling := c.enabled, deferredEnable := false,
                   misses := c.misses.map (fun m => { m with noInstall := true }) }).sofSettle t))) ∧
    (bit v 0 = true → c.ways ≠ 0 → c.inv ≠ 0 →
      exec (.sofEnable t v) s = .next (s.after ((s.dev.setReg (Reg.SOF_CTRL t) (v &&& 3#64)).setSof t
        { c with deferredEnable := true }))) ∧
    (bit v 0 = true → c.ways ≠ 0 → c.inv = 0 →
      exec (.sofEnable t v) s = .next (s.after ((s.dev.setReg (Reg.SOF_CTRL t) (v &&& 3#64)).sofTurnOn t))) ∧
    (c.inv = 0 → exec (.sofInvAll t) s = .next (s.after (s.dev.setSof t { c with inv := 1, lines := [] }))) ∧
    (c.inv = 0 → exec (.sofInvUnlocked t) s = .next (s.after (s.dev.setSof t { c with
      inv := 2, lines := c.lines.filter (fun l => (s.dev.fld (Reg.SOF_WAY_LOCK t) Fld.SOF_WAY_LOCK_LOCK).testBit l.way) })))) ∧
  ((∀ (t : Truss) (mshr : Nat) (m : SofMiss) (bs : List Byte) (c c' : Soffit) (d : Device) (s : State),
    (s.dev.sof t).misses.find? (fun n => n.id == mshr) = some m → m.data = some bs → m.noInstall = false →
    (s.dev.sof t).active = true → m.waiters = [] → c'.missWait = [] →
    { s.dev.sof t with misses := (s.dev.sof t).misses.filter (fun n => n.id != mshr) } = c → s.dev.setSof t c = d →
    c.install m.line (d.fillWays t m.ctx) bs = some c' →
    exec (.soffitFill t mshr) s = .next (s.after ((((d.setSof t c').setSof t { c' with missWait := [] }).sofSettle t).rowsServed))) ∧
  (∀ (t : Truss) (mshr : Nat) (m : SofMiss) (c : Soffit) (s : State),
    (s.dev.sof t).misses.find? (fun n => n.id == mshr) = some m → m.noInstall = true ∨ m.data = none →
    m.waiters = [] → (s.dev.sof t).missWait = [] →
    { s.dev.sof t with misses := (s.dev.sof t).misses.filter (fun n => n.id != mshr) } = c →
    exec (.soffitFill t mshr) s = .next (s.after ((((s.dev.setSof t c).setSof t { c with missWait := [] }).sofSettle t).rowsServed))) ∧
  (∀ (t : Truss) (p : SofPreload) (line n : Nat) (rest : List (Nat × Nat)) (bs : List Byte) (d : Device) (s : State),
    (s.dev.sof t).preload = some p → (s.dev.sof t).inv = 0 → p.runs = (line, n) :: rest →
    s.dev.hbm.allReachable (line * 128) 128 = true → (s.dev.sof t).find? line = none →
    s.dev.readLine (if p.job.isSome then 2 else 0) p.acct line = (d, some bs) → nextRuns p.runs ≠ [] →
    let c := ((d.sof t).install line p.ways.toNat bs).getD (d.sof t)
    exec (.sofPreloadLine t) s = .next (s.after (d.setSof t { c with
      preload := some { p with runs := nextRuns p.runs, vaddr := p.vaddr + 128 }, preloadDone := c.preloadDone + 1 }))) ∧
  (∀ (t : Truss) (s : State), (s.dev.sof t).inv ≠ 0 →
    let all := (s.dev.sof t).inv == 1
    let d := s.dev.setSof t { s.dev.sof t with
      inv := 0, deferredEnable := false
      invNeeded := (s.dev.sof t).invNeeded && !all, staleRisk := (s.dev.sof t).staleRisk && !all }
    exec (.sofInvDone t) s = .next (s.after (if (s.dev.sof t).deferredEnable then d.sofTurnOn t else d))))

/-! ### Hods and Rafter arrays (03, 04) -/

/-- HOD_XFER (R273, R274): a transfer whose descriptor is read and not refused begins at its first row with the skew
tolerances of that moment, or ends OK at once when it moves nothing. HOD_TILE (R58, R60 to R70): once its source bytes
are there and every check passes, the piece is converted, its counts are reported once, up to 4 KiB of it are stored
and charged, and the task goes on with the rest of the piece, or with the next one, or finishes after its last row
(Table 10-3); a transfer whose writes still wait for link credit yields (R304). HOD_READ_REPLY, HOD_REMOTE_WRITE_ACK
and HOD_REMOTE_TIMEOUT (R360, R361): a reply whose reservation is open lands in it and closes it, an acknowledgement
closes its write, and a request with no reply by its limit fails its task with REMOTE_LOST, cause 0x51. A reply to a
closed reservation is discarded. HOD_READ_REQUEST, HOD_REMOTE_WRITE and THT_REMOTE_ROW_REQUEST (R172, R359): a request
of another device whose same-numbered context has its tenant is served at the addressed context or table, and
answered; one without is refused with ACCESS_VIOLATION, cause 0x50. -/
def Obligations.HodTransfers : Prop :=
  (∀ (t : Truss) (j : Job) (d : Device) (bs : List Byte) (w : List Word) (s : State),
    s.dev.active? (.hod t) = some j → j.run = .none → j.cmd.c1.toNat % 8 = 0 →
    s.dev.ptrLoad j.ctx t (unitCode t 1) true j.cmd.c1 128 = (d, .ok bs) → bytesWords bs = w →
    hodRefusal w (d.trussSt t).hodCaps.toNat = none →
    (hodTotal w = 0 ∨ hodN0 w = 0 → exec (.hodXfer t) s = .next (s.after (d.endJob j.id endOk))) ∧
    (hodTotal w ≠ 0 → hodN0 w ≠ 0 → (hodLoft w false = false ∨ d.hodFar w false = none) →
      (hodLoft w true = false ∨ d.hodFar w true = none) →
      exec (.hodXfer t) s = .next (s.after (d.mapJob j.id (fun j => { j with
        run := .hod w 0 0 (d.fld (Reg.HOD_SCALE_TOL t) Fld.HOD_SCALE_TOL_TOL_S8)
          (d.fld (Reg.HOD_SCALE_TOL t) Fld.HOD_SCALE_TOL_TOL_S4) [] [] false }))))) ∧
  ((∀ (t : Truss) (u : Upset) (j : Job) (w : List Word) (row piece a b : Nat) (fs : List (Nat × List Byte)) (again : Bool)
    (x : HodUnit) (o : HodOut) (d1 d2 d3 d4 d5 d6 d7 : Device) (first got : List (List Byte))
    (fit rest : List (Nat × Int × List Byte)) (s : State),
    s.dev.active? (.hod t) = some j → j.run = .hod w row piece a b fs [] again → row < hodTotal w → s.dev.unsent j.id = false →
    hodUnit w row piece = x → s.dev.hodFetch j t w row x fs = (d1, true) →
    (if hodTwice w then d1.hodReadAll j.ctx t w fs (hodReads w row x) else (d1, .ok [])) = (d2, .ok first) →
    d2.hodReadAll j.ctx t w fs.reverse (hodReads w row x) = (d3, .ok got) → hodSkew w x got = none →
    d3.residue j (.hod t) u = (d4, true) → hodConvert (d4.fls.silicon == 0xA1) w a b x got = o →
    (if again then d4 else (d4.hodCount t o.tally).report j.id o.tally.report) = d5 →
    splitStores 4096 (hodStores w row x o) = (fit, rest) →
    (d5.mapJob j.id (fun j => { j with run := .hod w row piece a b fs [] true })).hodWriteAll j t w fit = (d6, .ok ()) →
    d6.charge j.ctx .hodKib (fit.foldl (fun n y => n + y.2.2.length) 0) t = d7 →
    (rest ≠ [] → exec (.hodTile t u) s = .next (s.after (d7.mapJob j.id (fun j => { j with
      run := .hod w row piece a b fs rest false })))) ∧
    (rest = [] → ∀ e : Device, d7.mapJob j.id (fun j => { j with
        run := .hod w (hodNext w row piece).1 (hodNext w row piece).2 a b [] [] false }) = e →
      exec (.hodTile t u) s = .next (s.after (if hodTotal w ≤ (hodNext w row piece).1 then e.hodFinish j w else e)))) ∧
  (∀ (t : Truss) (u : Upset) (j : Job) (w : List Word) (row piece a b : Nat) (fs : List (Nat × List Byte)) (again : Bool)
    (left fit rest : List (Nat × Int × List Byte)) (d6 d7 : Device) (s : State),
    s.dev.active? (.hod t) = some j → j.run = .hod w row piece a b fs left again → row < hodTotal w → left ≠ [] →
    s.dev.unsent j.id = false → splitStores 4096 left = (fit, rest) → rest ≠ [] →
    s.dev.hodWriteAll j t w fit = (d6, .ok ()) →
    d6.charge j.ctx .hodKib (fit.foldl (fun n y => n + y.2.2.length) 0) t = d7 →
    exec (.hodTile t u) s = .next (s.after (d7.mapJob j.id (fun j => { j with run := .hod w row piece a b fs rest false })))) ∧
  (∀ (t : Truss) (u : Upset) (j : Job) (w : List Word) (row piece a b : Nat) (fs : List (Nat × List Byte)) (again : Bool)
    (left : List (Nat × Int × List Byte)) (s : State),
    s.dev.active? (.hod t) = some j → j.run = .hod w row piece a b fs left again → row < hodTotal w →
    s.dev.unsent j.id = true →
    exec (.hodTile t u) s = .next (s.after (Device.yieldJob { s.dev with
      remotes := s.dev.remotes.map (fun r => if r.job = j.id ∧ r.kind = 2 then { r with sub := 1 } else r) } j.id)))) ∧
  ((∀ (rtag : Nat) (data : List Byte) (r : Remote) (s : State), s.dev.remote? rtag = some r → r.kind = 1 →
    exec (.hodReadReply rtag data) s = .next (s.after ((s.dev.mapJob r.job (fun j => { j with
      run := j.run.withFetched r.addr (slice data 0 r.len) })).remoteDone r))) ∧
  (∀ (rtag : Nat) (data : List Byte) (s : State), s.dev.remote? rtag = none →
    exec (.hodReadReply rtag data) s = .next (s.after s.dev) ∧ exec (.hodRemoteWriteAck rtag) s = .next (s.after s.dev)) ∧
  (∀ (rtag : Nat) (r : Remote) (s : State), s.dev.remote? rtag = some r → r.kind = 2 →
    exec (.hodRemoteWriteAck rtag) s = .next (s.after (s.dev.remoteDone r))) ∧
  (∀ (t : Truss) (r : Remote) (s : State),
    s.dev.remotes.find? (fun r => r.truss == t.val && (r.kind == 1 || r.kind == 2) && r.late s.dev.now) = some r →
    exec (.hodRemoteTimeout t) s = .next (s.after (s.dev.failRemote r.rtag stRemoteLost 0x51)))) ∧
  ((∀ (p : Packet) (s : State), s.dev.Up → s.dev.tenantOk p = false →
    exec (.hodReadRequest p) s = .next (s.after (s.dev.refuseRemote { p with kind := 3 } stViolation 0x50)) ∧
    exec (.hodRemoteWrite p) s = .next (s.after (s.dev.refuseRemote { p with kind := 5 } stViolation 0x50))) ∧
  (∀ (p : Packet) (d : Device) (bs : List Byte) (s : State), s.dev.Up → s.dev.tenantOk p = true →
    s.dev.vload p.ctx 16 0 p.addr.toNat p.len = (d, .ok bs) →
    exec (.hodReadRequest p) s = .next (s.after (d.replyTo { p with kind := 3 } 0x04 bs))) ∧
  (∀ (p : Packet) (d : Device) (s : State), s.dev.Up → s.dev.tenantOk p = true →
    s.dev.vstore p.ctx 16 0 p.addr.toNat p.payload = (d, .ok ()) →
    exec (.hodRemoteWrite p) s = .next (s.after (d.replyTo { p with kind := 5 } 0x06 []))) ∧
  (∀ (p : Packet) (n : Nat) (tb : Table) (b : Bool) (sub l home a tag : Nat) (q : Nat × Nat) (d e : Device)
      (ps : List (Nat × Nat)) (r : RowReq) (s : State), s.dev.Up → s.dev.tableOf p.tgid = some (n, tb) →
    s.dev.tableExpelled n = false → tb.tenant = p.tenant → tb.slotOfGen p.gen [vStandby, vCurrent, vRetiring] = some b →
    tb.rowOfNo (bits p.addr 39 0) = q → tb.place q.2 = some (sub, l) → l < tb.nlocal → s.dev.homeOf tb = home →
    tb.rowAddr b q.1 l = a →
    s.dev.translateAll tb.ctx home (unitCode home 8) false (pieces (2 ^ 21) a (if tb.cache then tb.rowLen else tb.readLen))
      = (d, .ok ps) → d.newTag = (tag, e) →
    ({ tag := tag, job := 0, truss := home, bag := 0, pos := 0, sub := q.1, addr := (ps.headD (0, 0)).1, len := tb.rowLen
       lines := [], ctx := tb.ctx, va := a, serve := some { p with kind := 1 } } : RowReq) = r →
    (tb.cache = true → ∀ ls : List Nat, ps.flatMap (fun p => (pieces 128 p.1 p.2).map (fun y => y.1 / 128)) = ls →
      exec (.thtRemoteRowRequest p) s = .next (s.after (ls.foldl (fun (d : Device) y => d.sofDemand home y tb.ctx tb.ctx tag)
        { e with rowReqs := e.rowReqs ++ [{ r with lines := ls.map (fun y => (y, none)) }] }).rowsServed)) ∧
    (tb.cache = false → ∀ (f : Device) (bs : List Byte), e.readRow tb.ctx ps = (f, some bs) →
      exec (.thtRemoteRowRequest p) s = .next (s.after (Device.rowsServed { f with rowReqs := f.rowReqs ++
        [{ r with lines := [(r.addr / 128, some (List.replicate (r.addr % 128) (0 : Byte) ++ bs))] }] })))) ∧
  (∀ (d : Device) (r : RowReq) (p : Packet) (bs : List Byte),
    d.rowReqs.filter (fun r => r.serve.isSome && r.settled) = [r] → r.serve = some p → r.bytes = some bs →
    d.rowsServed = (((Device.count { d with rowReqs := d.rowReqs.filter (fun q => q.tag != r.tag) }
      (Reg.THT_ROWS_SERVED r.truss) 1).charge r.ctx .thtRows 1 r.truss).replyTo p 0x02 bs)))

/-- RAF_TASK (R98, R101): the sequencer starts at the head of its list, and a pair takes the odd array too. The
instruction that a sequencer meets is the one of its list at its place: 32 bytes from the list's start times the
index, loaded through the task's context (R98, R99). RAF_NOP and RAF_END (R98, R99), RAF_SLOAD and RAF_SLOAD_DONE
(R95, R97): NOP has no effect but to go on; END ends the task once every decoded instruction has admitted its rows and
every entry is pushed or banked; an SLOAD that may not begin yet waits, decoded, while the list goes on; a set that
loads leaves the shadow half it replaces, and becomes the valid shadow set when its last row is in; an array of a pair
holds its rows of the same sets. RAF_MX128, RAF_MX64P, RAF_MX256K and RAF_MT128 (R94 to R112, R125): an instruction
that is not refused is decoded and goes on at once; one under way goes on before the next is decoded; and one that
goes on takes the reslate with its first row and streams as many rows as its segment, the drain slots and the
permitted fraction let in: their entries join the cells, and rows and multiply-accumulates are counted and charged. -/
def Obligations.RafterInstructions : Prop :=
  (∀ (t : Truss) (a : ArrayNo) (j : Job) (s : State), s.dev.active? (.raf t a) = some j → j.run = .none →
    j.cmd.c1.toNat % 32 = 0 → (j.cmd.arg 19 19 = 1 → a.val % 2 = 0) →
    exec (.rafTask t a) s = .next (s.after (if j.cmd.arg 19 19 = 1 then
      (s.dev.mapJob j.id (fun j => { j with run := .raf j.cmd.c1 true ⟨0, [], [], false⟩ [] })).mapRafa t (a + 1)
        (fun r => { r with fused := true })
      else s.dev.mapJob j.id (fun j => { j with run := .raf j.cmd.c1 false ⟨0, [], [], false⟩ [] })))) ∧
  (∀ (t : Truss) (a : ArrayNo) (want : Nat) (x : RafTask) (d d' : Device) (p : Word) (bs : List Byte),
    d.rafTask? t a = some x → x.seq.ended = false → x.stopping = false →
    ptrMove x.ptr (32 * x.seq.pc : Nat) = some p → d.ptrLoad x.job.ctx t (rafUnit t a) false p 32 = (d', .ok bs) →
    rafKnown (rafOpc (bytesWords bs)) = true →
    d.rafMeet t a want = (d', if rafOpc (bytesWords bs) = want then some (x, bytesWords bs) else none)) ∧
  ((∀ (t : Truss) (a : ArrayNo) (d : Device) (x : RafTask) (w : RafIns) (s : State),
    s.dev.rafMeet t a opNop = (d, some (x, w)) →
    exec (.rafNop t a) s = .next (s.after (d.rafAt x.job.id { x.seq with pc := x.seq.pc + 1 }))) ∧
  (∀ (t : Truss) (a : ArrayNo) (d : Device) (x : RafTask) (w : RafIns) (s : State),
    s.dev.rafMeet t a opEnd = (d, some (x, w)) →
    ((d.rafa t a).idle = true → x.seq.streams = [] → x.seq.loads = [] → exec (.rafEnd t a) s =
      .next (s.after (((d.rafAt x.job.id { x.seq with ended := true }).endJob x.job.id endOk).rafDrop t a x.pair))) ∧
    ((d.rafa t a).idle = false ∨ x.seq.streams ≠ [] ∨ x.seq.loads ≠ [] →
      exec (.rafEnd t a) s = .next (s.after (d.rafAt x.job.id { x.seq with ended := true })))) ∧
  (∀ (t : Truss) (a : ArrayNo) (d d' e : Device) (x : RafTask) (q : RafSeq) (w : RafIns) (set : RafSet) (s : State),
    s.dev.rafMeet t a opSload = (d, some (x, w)) → sloadCause w (d.rafCaps t a) x.pair = none → x.seq.loads = [] →
    ({ x.seq with pc := x.seq.pc + 1, loads := [(x.seq.pc, w)] } : RafSeq) = q → d.rafAt x.job.id q = d' →
    (q.mayLoad (d.rafa t a) x.seq.pc w = false → exec (.rafSload t a) s = .next (s.after d')) ∧
    (q.mayLoad (d.rafa t a) x.seq.pc w = true → x.seq.ended = false → d'.loadSet x.job.ctx t (rafUnit t a) w = (e, .ok set) →
      exec (.rafSload t a) s = .next (s.after ((e.mapSets t a x.pair (fun r => { r with
        active := if set.i16 || r.i16 then [] else r.active
        shadow := dropSet r.shadow (sldHalf w) set, loading := [(sldHalf w, set)] })).rafAt x.job.id { q with loads := [] })))) ∧
  (∀ (t : Truss) (a : ArrayNo) (h : Nat) (set : RafSet) (rest : Tbl RafSet) (s : State), s.dev.engineOn t = true →
    (s.dev.rafa t a).fused = false → (s.dev.rafa t a).loading = (h, set) :: rest →
    exec (.rafSloadDone t a) s = .next (s.after (s.dev.mapSets t a (set.shape == 4) (fun r => { r with
      shadow := putSet r.shadow h set, loading := [] }))))) ∧
  ((∀ (i : Instr) (op half : Nat) (t : Truss) (a : ArrayNo) (h : Fin 2) (bubbles : Nat) (d : Device) (x : RafTask) (w : RafIns)
    (set : RafSet) (st : RafStream) (q : RafSeq) (s : State),
    (i, op, half) ∈ [(Instr.rafMx128 t a bubbles, opMx128, 0), (.rafMx64p t ⟨a, h⟩ bubbles, opMx64p, h.val),
      (.rafMx256k t a bubbles, opMx256k, 0), (.rafMt128 t a bubbles, opMt128, 0)] →
    s.dev.rafTask? t a = some x → x.stopping = false → x.seq.streams = [] → s.dev.rafMeet t a op = (d, some (x, w)) →
    rafOpc w = op → rafHalf w = half → (d.rafa t a).setFor x.seq.loads w x.job.ctx = some set →
    computeCause w (d.rafCaps t a) x.pair (some set) = none →
    (⟨x.seq.pc, w, false, 0, d.segRows t x.job.ctx w set⟩ : RafStream) = st →
    ({ x.seq with pc := x.seq.pc + 1, streams := [st] } : RafSeq) = q →
    exec i s = .next (s.after ((d.rafAt x.job.id q).rafGo t a { x with seq := q } st bubbles))) ∧
  (∀ (i : Instr) (op half : Nat) (t : Truss) (a : ArrayNo) (h : Fin 2) (bubbles : Nat) (d : Device) (x : RafTask)
    (st : RafStream) (s : State),
    (i, op, half) ∈ [(Instr.rafMx128 t a bubbles, opMx128, 0), (.rafMx64p t ⟨a, h⟩ bubbles, opMx64p, h.val),
      (.rafMx256k t a bubbles, opMx256k, 0), (.rafMt128 t a bubbles, opMt128, 0)] →
    s.dev.rafTask? t a = some x → x.stopping = false →
    x.seq.streams.find? (fun r => rafOpc r.w == op && rafHalf r.w == half) = some st →
    (s.dev.rafGo t a x st bubbles).rafMeet t a op = (d, none) → exec i s = .next (s.after d)) ∧
  (∀ (t : Truss) (a : ArrayNo) (bubbles n m : Nat) (d b e f : Device) (x : RafTask) (st : RafStream) (set : RafSet)
    (xs : List Side), (st.begun = true ∨ x.seq.mayBegin (d.rafa t a) st = true) →
    (rafSfmt st.w = fmtI16 → (d.rafa t a).loading = []) → (d.rafa t a).reload = false →
    (d.rafa t a).setOf st = some set → rafM st.w ≠ 0 → admissible st.w set (d.rafa t a) st.row st.seg = n → n ≠ 0 →
    d.permit t a x.pair ≠ 0 →
    (if st.begun then d else d.mapRafa t a (fun r => { r with ctrl := some (d.reg (Reg.RAF_CTRL t a)) })) = b →
    withBubbles n (b.permit t a x.pair) bubbles = m →
    (if st.begun = false ∧ rafRsl st.w = true then
      (b.mapSets t a x.pair (fun r => r.reslate (rafHalf st.w) set)).count (Reg.RAF_RESLATES t a) 1 else b) = e →
    e.streamed x.job.ctx t (rafUnit t a) st.w set.krows ((List.range n).map (st.row + ·)) = (f, .ok xs) →
    ∃ g : Device,
      (((((f.onArrays a x.pair (fun d a => d.rowsEnter t a m)).mapRafa t a (fun r => { r with
          inflight := admitRows a x.job.ctx st.w set st.row xs r.inflight })).count (Reg.RAF_ROWS t a) n).count
        (Reg.RAF_BUBBLES t a) m).charge x.job.ctx .rafMac
          (n * set.krows * set.ncols * (if rafSfmt st.w = fmtI16 then 4 else 1)) t) = g ∧
      d.rafGo t a x st bubbles = (if set.krows = 0 then g.noteJob x.job.id noteEmptyRed else g).rafAt x.job.id
        (x.seq.put { st with begun := true, row := st.row + n })))

/-- RAF_ENTRY_READY (R53, R105, R106, R110, R118 to R121): the oldest entry whose rows are all in is checked and
narrowed; one with ACM 0 goes to the drain buffer, ACM 1 sets its bank entry, ACM 2 adds into it, and ACM 3 adds and
drains, with rows and columns that hold no output masked; one that fails a check with the retry off ends its task.
TILE_ENTRY_PUSH (R17, R112, R137): the head of the drain buffer enters its queue when that has room and is its
context's. BALLAST_MISMATCH (R121, R123), RAF_BALLAST_WINDOW, RAF_RAMP_DOWN_STEP and RAF_RAMP_UP_STEP (R122, R124,
R125): the ballast up to now is counted and charged before a duty changes. -/
def Obligations.RafterEntriesAndBallast : Prop :=
  ((∀ (t : Truss) (a : ArrayNo) (u v : AbftRun) (x : RafTask) (p : PendEntry) (l r : List PendEntry) (e : Device) (key : Nat)
    (new : BankEntry) (s : State),
    s.dev.rafTask? t a = some x → x.seq.ended = false → splitFull (s.dev.rafa t a).inflight = some (l, p, r) →
    p.check (Fld.RAF_CTRL_ABFT_EN.of (s.dev.rafCtrl t a) == 1) u = none →
    s.dev.mapRafa t a (fun y => { y with inflight := l ++ r }) = e → narrowEntry (p.cells u.errs) = new →
    bankKey (s.dev.slotNo x.job.ctx t) p.bankEntry = key →
    (p.acm = 0 → exec (.rafEntryReady t a ⟨u, v⟩) s = .next (s.after (e.mapRafa t a (fun r => { r with
      drain := r.drain ++ [{ p.hdr with rows := new.rows, xs := new.xs }] })))) ∧
    (p.acm = 1 → exec (.rafEntryReady t a ⟨u, v⟩) s = .next (s.after (e.mapRafa t a (fun r => { r with
      bank := tset r.bank key new })))) ∧
    (∀ sum, bankAdd (tget (e.rafa t a).bank key zeroBank) new = sum →
      (p.acm = 2 → exec (.rafEntryReady t a ⟨u, v⟩) s =
        .next (s.after ((e.report x.job.id (reportCounts sum.2 0)).mapRafa t a (fun r => { r with
          bank := tset r.bank key sum.1 })))) ∧
      (p.acm = 3 → exec (.rafEntryReady t a ⟨u, v⟩) s =
        .next (s.after (((e.report x.job.id (reportCounts sum.2 0)).mapRafa t a (fun r => { r with
          bank := tdel r.bank key })).mapRafa t a (fun r => { r with
            drain := r.drain ++ [{ p.hdr with rows := (sum.1.masked p.rows p.cols).rows
                                              xs := (sum.1.masked p.rows p.cols).xs }] })))))) ∧
  (∀ (t : Truss) (a : ArrayNo) (u v : AbftRun) (x : RafTask) (p : PendEntry) (l r : List PendEntry) (m : Mismatch) (s : State),
    s.dev.rafTask? t a = some x → splitFull (s.dev.rafa t a).inflight = some (l, p, r) →
    p.check (Fld.RAF_CTRL_ABFT_EN.of (s.dev.rafCtrl t a) == 1) u = some m →
    (Fld.RAF_CTRL_ABFT_EN.of (s.dev.rafCtrl t a) = 0 ∨ Fld.RAF_CTRL_ABFT_RETRY.of (s.dev.rafCtrl t a) = 0) →
    exec (.rafEntryReady t a ⟨u, v⟩) s = .next (s.after (s.dev.rafMismatch t a x p.hdr.tag m false))) ∧
  (∀ (t : Truss) (a : ArrayNo) (y : TileEntry) (rest : List TileEntry) (q : LthEngine) (s : State),
    (s.dev.rafa t a).drain = y :: rest → tget s.dev.lth (s.dev.lathOf t a) default = q → s.dev.engineOn t = true →
    q.queue.length < 8 → (q.queue = [] ∨ q.qowner = some y.ctx) → s.dev.rafTask? t a = none →
    exec (.tileEntryPush t ⟨a, none⟩) s = .next (s.after (Device.mapRafa
      { s.dev with lth := tset s.dev.lth (s.dev.lathOf t a) { q with queue := q.queue ++ [y], qowner := some y.ctx } }
      t a (fun r => { r with drain := rest }))))) ∧
  ((∀ (t : Truss) (a : ArrayNo) (col : Option Nat) (d : Device) (s : State),
    Fld.RAF_CTRL_BALLAST_EN.of (s.dev.rafCtrl t a) = 1 → Fld.RAF_CTRL_ABFT_EN.of (s.dev.rafCtrl t a) = 1 →
    s.dev.engineOn t = true → (s.dev.rafa t a).duty ≠ 0 →
    (s.dev.count (Reg.RAF_BALLAST_ERR t a) 1).abftInfo t a 0 col 0 0 0 5 false = d →
    exec (.ballastMismatch t a col) s = .next (s.after (((d.log 0x02 2 (rafUnit t a) noCtx 0 0 (d.reg (Reg.RAF_ABFT_INFO t a))
      (d.reg (Reg.RAF_BALLAST_ERR t a))).suspect t).mapRafa t a (fun r => { r with reload := true })))) ∧
  (∀ (t : Truss) (a : ArrayNo) (w : Nat) (s : State), (s.dev.rafa t a).duty ≠ 0 → (s.dev.rafa t a).rampDown = false →
    (if Fld.RAF_CTRL_BALLAST_EN.of (s.dev.rafCtrl t a) = 1 then s.dev.fld (Reg.RAF_BALLAST t a) Fld.RAF_BALLAST_WINDOW
      else 0) = w → (s.dev.rafa t a).lastRow + w ≤ s.dev.now →
    ∃ d : Device, exec (.rafBallastWindow t a) s = .next (s.after d) ∧ (d.rafa t a).duty = (s.dev.rafa t a).duty - 1 ∧
      ((d.rafa t a).rampDown = true ↔ 1 < (s.dev.rafa t a).duty) ∧ (d.rafa t a).rampUp = false ∧
      (d.rafa t a).downStep ≥ 250 ∧ (d.rafa t a).filled = s.dev.now ∧ d.jobs = s.dev.jobs ∧
      (d.rafa t a).active = (s.dev.rafa t a).active ∧
      (s.dev.fillRows t a = 0 → d.regs = s.dev.regs) ∧
      (s.dev.fillRows t a ≠ 0 → d.regs = (s.dev.count (Reg.RAF_BALLAST_ROWS t a) (s.dev.fillRows t a)).regs)) ∧
  (∀ (t : Truss) (a : ArrayNo) (s : State), (s.dev.rafa t a).rampDown = true →
    (s.dev.rafa t a).lastStep + (s.dev.rafa t a).downStep ≤ s.dev.now →
    exec (.rafRampDownStep t a) s = .next (s.after ((s.dev.fillCount t a).mapRafa t a (fun r => { r with
      duty := r.duty - 1, rampDown := decide (1 < r.duty), lastStep := s.dev.now, filled := s.dev.now })))) ∧
  (∀ (t : Truss) (a : ArrayNo) (s : State), (s.dev.rafa t a).rampUp = true →
    (s.dev.rafa t a).lastStep + (s.dev.rafa t a).upStep ≤ s.dev.now →
    exec (.rafRampUpStep t a) s = .next (s.after ((s.dev.fillCount t a).mapRafa t a (fun r => { r with
      duty := min 16 (r.duty + 1), rampUp := decide (r.duty + 1 < 16), lastStep := s.dev.now, filled := s.dev.now })))))

/-! ### The Lath engines (05) -/

/-- LTH_TASK (R131, R133, R145): S1 to S7 take the seven words of the argument block, or zero when there is none, the
program counter is 0, and the program starts with the tolerances of that moment; an empty program ends OK. The
instruction that a Lath engine meets is the 64-bit word of its program at its program counter; one that Table 05-4
refuses is refused, counted, and ends the task INTERNAL with the cause and its index (R133, R143). -/
def Obligations.LathTasksAndInstructions : Prop :=
  (∀ (t : Truss) (e : LathNo) (j : Job) (d f : Device) (bs : List Byte) (s : State),
    s.dev.active? (.lth t e) = some j → j.run = .none → j.cmd.c1.toNat % 8 = 0 →
    (if j.cmd.c3 = 0 then (s.dev, Got.ok (List.replicate 56 0)) else s.dev.ptrLoad j.ctx t (lthUnit t e) false j.cmd.c3 56) =
      (d, .ok bs) →
    d.setLthBank t e (d.lthSlot t j.ctx) ((List.range 7).foldl (fun b i => b.setS (i + 1) (wordAt (bytesWords bs) i))
      { d.lthBank t e (d.lthSlot t j.ctx) with pc := 0 }) = f →
    exec (.lthTask t e) s = .next (s.after (if bits j.cmd.c2 15 0 = 0 then f.endJob j.id endOk
      else f.mapJob j.id (fun k => { k with
        run := .lth k.cmd.c1 (bits j.cmd.c2 15 0) (f.fld (Reg.HOD_SCALE_TOL t) Fld.HOD_SCALE_TOL_TOL_S8)
          (f.fld (Reg.HOD_SCALE_TOL t) Fld.HOD_SCALE_TOL_TOL_S4) none })))) ∧
  (∀ (t : Truss) (e : LathNo) (want : Nat) (j : Job) (ptr p : Word) (len a b : Nat) (wf : Option Nat) (bank : LthBank)
    (d d' : Device) (bs : List Byte) (x : LthTask),
    d.active? (.lth t e) = some j → j.run = .lth ptr len a b wf → d.lthBank t e (d.lthSlot t j.ctx) = bank →
    ptrMove ptr (8 * bank.pc.toNat : Nat) = some p → d.ptrLoad j.ctx t (lthUnit t e) false p 8 = (d', .ok bs) →
    (⟨t, e, j, len, a, b, wf, d.lthSlot t j.ctx, bank, lthDecode (bytesWord bs)⟩ : LthTask) = x →
    (lthCause x.ins bank bank.pc.toNat len = none →
      d.lthMeet t e want = (d', if x.ins.opc = want then some x else none)) ∧
    (∀ c, lthCause x.ins bank bank.pc.toNat len = some c →
      d.lthMeet t e want = (((d'.count (Reg.LTH_REFUSED t e) 1).engineRefuse j (lthUnit t e) c bank.pc.toNat
        (BitVec.ofNat 64 bank.pc.toNat)).lthWait t e 0, none)))

/-- What retiring leaves (R130, R133, R152): the bank takes the instruction's results and the next program counter,
the IEEE flags stay raised, and a task past its last instruction is over. HBM, Loft, tables, contexts, fences, the
other banks of the engine and every other engine keep what they held. -/
def Obligations.LathRetirement : Prop :=
  ∀ (d : Device) (x : LthTask) (o : LthOut) (pc : Nat),
    let f := d.lthRetireTo x o pc
    f.lthBank x.t x.e x.slot = { o.bank.raise o.tally.flags with pc := BitVec.ofNat 16 pc } ∧
    (∀ k, k ≠ x.slot → f.lthBank x.t x.e k = d.lthBank x.t x.e k) ∧
    (∀ (t : Truss) (e : LathNo), (t, e) ≠ (x.t, x.e) → f.lthe t e = d.lthe t e) ∧
    (f.lthe x.t x.e).queue = (d.lthe x.t x.e).queue ∧ (f.lthe x.t x.e).qowner = (d.lthe x.t x.e).qowner ∧
    f.hbm = d.hbm ∧ f.loft = d.loft ∧ f.loftBad = d.loftBad ∧ f.raf = d.raf ∧ f.atn = d.atn ∧ f.tables = d.tables ∧
    f.ctxs = d.ctxs ∧ f.fences = d.fences ∧ f.gut = d.gut ∧ f.entries = d.entries ∧ f.xlt = d.xlt ∧ f.seqs = d.seqs ∧
    f.links = d.links ∧ f.cols = d.cols ∧ f.soffit = d.soffit ∧ f.truss = d.truss ∧ f.clk = d.clk ∧ f.fls = d.fls ∧
    (pc < x.len → f.active? (.lth x.t x.e) = (d.report x.job.id o.tally.report).active? (.lth x.t x.e))

/-- LTH_NOP, LTH_END and LTH_BR (R133, R143): NOP goes on, END ends the program, BR goes to its target when its
condition holds on S[VA]. LTH_FSIG (R136, R266, R373): the fence of number S[VA] in the task's context takes S[VB] as
a signal, and with T = 1 the armed slot takes a trigger first; a number above 4,095 ends the task with cause 0x07, a
slot that is free or another context's with ACCESS_VIOLATION, cause 0x55. Loads and stores (R20, R80, R82, R142,
R145): LD fills its lanes from Loft, ST and STSC store the active lanes and entries alone, LDSC takes the exponents of
entries whose ordinals match. LTH_TQPOP, LTH_TQHDR and LTH_TQ_TIMEOUT (R137 to R139): with the queue's head ready,
TQPOP takes its next row, and the entry with its eighth row, and TQHDR its fields; a wait past TQ_TIMEOUT ends
INTERNAL, cause 0x06, its cycles counted. -/
def Obligations.LathControlAndMemory : Prop :=
  (∀ (t : Truss) (e : LathNo) (u : LathUpset) (d : Device) (x : LthTask) (s : State),
    (s.LathRuns t e 0x00 u d x → exec (.lthNop t e u) s = .next (s.after (d.lthRetire x (outOf x.bank)))) ∧
    (s.LathRuns t e 0x01 u d x → exec (.lthEnd t e u) s = .next (s.after (d.lthRetireTo x (outOf x.bank) x.len))) ∧
    (s.LathRuns t e 0x02 u d x → x.ins.t < 4 →
      exec (.lthBr t e u) s = .next (s.after (d.lthRetireTo x (outOf x.bank)
        (if x.ins.t = 0 ∨ (x.ins.t = 1 ∧ x.bank.s x.ins.va = 0) ∨ (x.ins.t = 2 ∧ x.bank.s x.ins.va ≠ 0) ∨
            (x.ins.t = 3 ∧ (x.bank.s x.ins.va).msb = true)
          then ((x.pc : Int) + x.ins.imm).toNat else x.pc + 1))))) ∧
  (∀ (t : Truss) (e : LathNo) (u : LathUpset) (d : Device) (x : LthTask) (s : State), s.LathRuns t e 0x03 u d x →
    (4095 < (x.bank.s x.ins.va).toNat →
      exec (.lthFsig t e u) s = .next (s.after (d.lthEnd x (endC stInternal 0x07 x.unit x.pc 0)))) ∧
    ((x.bank.s x.ins.va).toNat ≤ 4095 →
      (x.ins.t = 1 → d.trigger x.job.ctx (x.bank.s x.ins.vc) = none →
        exec (.lthFsig t e u) s = .next (s.after (d.lthEnd x (endC stViolation 0x55 x.unit 0 0)))) ∧
      (∀ (f : Device) (r : Device × Bool), (if x.ins.t = 1 then d.trigger x.job.ctx (x.bank.s x.ins.vc) else some d) = some f →
        f.signal x.job.ctx (x.bank.s x.ins.va).toNat (x.bank.s x.ins.vb) = r →
        exec (.lthFsig t e u) s = .next (s.after ((if r.2 then r.1.noteJob x.job.id noteFenceStale else r.1).lthRetire x
          (outOf x.bank)))))) ∧
  (∀ (t : Truss) (e : LathNo) (u : LathUpset) (d f : Device) (x : LthTask) (bs : List Byte) (tr a : Nat) (s : State),
    (s.LathRuns t e 0x40 u d x →
      d.ptrLoad x.job.ctx t x.unit false (lthPtr x.ins x.bank x.ins.va) (ldBytes x.ins.t) = (f, .ok bs) →
      exec (.lthLd t e u) s = .next (s.after (f.lthRetire x (outOf (if x.ins.t = 5
        then x.bank.setPairs x.ins.vd x.mask x.ins.mz (ldLanes x.ins.t bs) else x.put32 (ldLanes x.ins.t bs)))))) ∧
    (s.LathRuns t e 0x41 u d x →
      d.resolve x.job.ctx t false (lthPtr x.ins x.bank x.ins.va) (ldBytes x.ins.t) = some (tr, a) →
      d.ptrStores x.job.ctx t x.unit (lthPtr x.ins x.bank x.ins.va)
        (joinParts (stParts x (if x.ins.t = 4 then memRead (tget d.loft tr []) a 64 else []))) = (f, .ok ()) →
      exec (.lthSt t e u) s = .next (s.after (f.lthRetire x (outOf x.bank)))) ∧
    (s.LathRuns t e 0x42 u d x →
      d.ptrLoad x.job.ctx t x.unit false (lthPtr x.ins x.bank x.ins.va) (2 * (128 / blkSize x.ins.t)) = (f, .ok bs) →
      (∀ j, j < 128 / blkSize x.ins.t → x.blockOn (blkSize x.ins.t) j = true →
        entryOrd (leNat (slice bs (2 * j) 2)) = ((x.bank.s x.ins.vb).toNat + j) % 64) →
      exec (.lthLdsc t e u) s = .next (s.after (f.lthRetire x (outOf (x.put32 (lanes.map (fun i =>
        (entryExp (leNat (slice bs (2 * (i / blkSize x.ins.t)) 2)) : Int)))))))) ∧
    (s.LathRuns t e 0x43 u d x →
      d.resolve x.job.ctx t false (lthPtr x.ins x.bank x.ins.vd) (2 * (128 / blkSize x.ins.t)) = some (tr, a) →
      d.ptrStores x.job.ctx t x.unit (lthPtr x.ins x.bank x.ins.vd) (joinParts x.stscParts) = (f, .ok ()) →
      exec (.lthStsc t e u) s = .next (s.after (f.lthRetire x (outOf x.bank))))) ∧
  ((∀ (t : Truss) (e : LathNo) (u : LathUpset) (m d f g : Device) (x : LthTask) (h : TileEntry) (rest left : List TileEntry)
      (s : State), s.dev.lthMeet t e 0x44 = (m, some x) → (m.lthe t e).queue = h :: rest → m.tqReady x = true →
    m.lthUpset x u = (d, true) → d.tqGo x = f →
    (if h.popped = 7 then rest else { h with popped := h.popped + 1 } :: rest) = left →
    f.setLthe t e { f.lthe t e with queue := left, qowner := if left.isEmpty then none else (f.lthe t e).qowner } = g →
    exec (.lthTqpop t e u) s = .next (s.after (((if left.isEmpty then g.wakeQueue t e else g).count (Reg.LTH_TQ_POPS t e) 1).lthRetire
      x (outOf (x.bank.setGroup x.ins.vd x.mask x.ins.mz (tileRow h)))))) ∧
  (∀ (t : Truss) (e : LathNo) (u : LathUpset) (m d : Device) (x : LthTask) (h : TileEntry) (rest : List TileEntry) (s : State),
    s.dev.lthMeet t e 0x45 = (m, some x) → (m.lthe t e).queue = h :: rest → m.tqReady x = true → m.lthUpset x u = (d, true) →
    exec (.lthTqhdr t e u) s = .next (s.after ((d.tqGo x).lthRetire x (outOf (x.bank.setS x.ins.vd (tqHeader h)))))) ∧
  (∀ (t : Truss) (e : LathNo) (j : Job) (rest : List Job) (p : Word) (n a b f : Nat) (s : State), s.dev.jobs = j :: rest →
    j.engine = some (.lth t e) → j.run = .lth p n a b (some f) →
    f + max 1 (s.dev.fld (Reg.LTH_CTRL t e) Fld.LTH_CTRL_TQ_TIMEOUT) * 1000 < s.dev.now →
    exec (.lthTqTimeout t e) s = .next (s.after ((s.dev.endJob j.id
        (endC stInternal 0x06 (lthUnit t e) (s.dev.lthBank t e (s.dev.lthSlot t j.ctx)).pc.toNat 0)).lthWait t e 0)) ∧
    s.dev.countTq j.id = s.dev.count (Reg.LTH_TQ_WAIT t e) ((s.dev.now - f) * s.dev.mhzNow t / 1000)))

/-- Scalar and mask rows, and moves between lanes and scalars (R135, R140, R141): the bank that each leaves. -/
def Obligations.LathScalarsAndMasks : Prop :=
  (∀ (t : Truss) (e : LathNo) (u : LathUpset) (d : Device) (x : LthTask) (s : State) (i : Instr) (op : Nat) (b : LthBank),
    (i, op, b) ∈
      [(.lthSadd t e u, 0x08, x.bank.setS x.ins.vd (x.sa + x.sb)),
       (.lthSsub t e u, 0x09, x.bank.setS x.ins.vd (x.sa - x.sb)),
       (.lthSshl t e u, 0x0A, x.bank.setS x.ins.vd (x.sa <<< (x.sb.toNat % 64))),
       (.lthVext t e u, 0x0D, x.bank.setS x.ins.vd (BitVec.ofInt 64 ((x.bank.ints x.ins.va).getD (unsigned 7 x.ins.imm) 0))),
       (.lthVbcast t e u, 0x0E, x.bank.setVec x.ins.vd x.mask x.ins.mz (List.replicate 128 (x.sa.setWidth 32))),
       (.lthMand t e u, 0x26, x.bank.setMask x.ins.vd x.mask x.ins.mz (x.bank.maskReg x.ins.va &&& x.bank.maskReg x.ins.vb)),
       (.lthMor t e u, 0x27, x.bank.setMask x.ins.vd x.mask x.ins.mz (x.bank.maskReg x.ins.va ||| x.bank.maskReg x.ins.vb)),
       (.lthMnot t e u, 0x28, x.bank.setMask x.ins.vd x.mask x.ins.mz (~~~ x.bank.maskReg x.ins.va))] →
    s.LathRuns t e op u d x → exec i s = .next (s.after (d.lthRetire x (outOf b)))) ∧
  (∀ (t : Truss) (e : LathNo) (u : LathUpset) (d f : Device) (x : LthTask) (bs : List Byte) (s : State),
    s.LathRuns t e 0x0B u d x → d.ptrLoad x.job.ctx t x.unit false (lthPtr x.ins x.bank x.ins.va) 8 = (f, .ok bs) →
    exec (.lthSld t e u) s = .next (s.after (f.lthRetire x (outOf (x.bank.setS x.ins.vd (bytesWord bs)))))) ∧
  (∀ (t : Truss) (e : LathNo) (u : LathUpset) (d f : Device) (x : LthTask) (s : State), s.LathRuns t e 0x0C u d x →
    d.ptrStore x.job.ctx t x.unit false (lthPtr x.ins x.bank x.ins.va) (wordBytes (x.bank.s x.ins.vb)) = (f, .ok ()) →
    exec (.lthSst t e u) s = .next (s.after (f.lthRetire x (outOf x.bank))))

/-- S0 reads zero and MK0 reads all ones, whatever is written to them; the other scalars and masks read what was
written (R130). A vector write gives each active lane its value; a masked-off lane keeps its value, or takes zero
under MZ; no other register changes (R141). -/
def Obligations.LathRegisterWrites : Prop :=
  (∀ (b : LthBank) (k : Nat) (w : Word) (m v : BitVec 128) (mz : Bool),
    (b.setS 0 w).s 0 = 0 ∧ b.setS 0 w = b ∧ (b.setMask 0 m mz v).maskReg 0 = BitVec.allOnes 128 ∧ b.setMask 0 m mz v = b ∧
    (0 < k → k < 16 → (b.setS k w).s k = w) ∧ (∀ n, n < 16 → n ≠ k → k < 16 → (b.setS k w).s n = b.s n) ∧
    (0 < k → k < 8 → (b.setMask k m mz v).maskReg k = (v &&& m) ||| (if mz then 0 else b.maskReg k &&& ~~~ m))) ∧
  (∀ (b : LthBank) (r : Nat) (m : BitVec 128) (mz : Bool) (xs : List (BitVec 32)), r < 32 →
    ((b.setVec r m mz xs).vec r).length = 128 ∧
    (∀ i, i < 128 → ((b.setVec r m mz xs).vec r).getD i 0 =
      if m.getLsbD i then xs.getD i 0 else if mz then 0 else (b.vec r).getD i 0) ∧
    (∀ k, k ≠ r → (b.setVec r m mz xs).vec k = b.vec k) ∧
    (b.setVec r m mz xs).sr = b.sr ∧ (b.setVec r m mz xs).mask = b.mask ∧ (b.setVec r m mz xs).tbl = b.tbl)

/-- Integer rows (R141): ADD to MAX, AND to SRAR, MADD, CMP, SEL, MOV, LIMM, LIMMH and CVT answer these results; ADDS,
SUBS, ABS and the narrowing CVT count their saturations. Tracked, reducing and table rows (R55, R61, R77, R144 to
R149, R474), LDRR and LDTBL; RSUM, RMIN and RMAX write every lane, masked-off lanes too. Wide-lane rows (R150, R151):
IEEE 754 results of the lanes' format and the rounding T selects, with the flags of the active lanes. -/
def Obligations.LathRows : Prop :=
  (∀ (t : Truss) (e : LathNo) (u : LathUpset) (d : Device) (x : LthTask) (s : State) (i : Instr) (op : Nat) (o : LthOut),
    (i, op, o) ∈
      [(.lthAdd t e u, 0x10, x.map2 (· + ·)), (.lthSub t e u, 0x11, x.map2 (· - ·)),
       (.lthAdds t e u, 0x12, x.sat2 (· + ·)), (.lthSubs t e u, 0x13, x.sat2 (· - ·)),
       (.lthMul t e u, 0x14, x.map2 (· * ·)), (.lthMulh t e u, 0x15, x.map2 (fun a b => a * b / 2 ^ 32)),
       (.lthMadd t e u, 0x16, outOf (x.put32 ((((x.bank.ints x.ins.va).zip x.srcB).zip (x.bank.ints x.ins.vc)).map
          (fun p => p.1.1 * p.1.2 + p.2)))),
       (.lthAbs t e u, 0x17, x.counted ((x.bank.ints x.ins.va).map (fun a => satI32 a.natAbs)) x.put32),
       (.lthMin t e u, 0x18, x.map2 min), (.lthMax t e u, 0x19, x.map2 max),
       (.lthAnd t e u, 0x1A, x.bits2 (· &&& ·)), (.lthOr t e u, 0x1B, x.bits2 (· ||| ·)), (.lthXor t e u, 0x1C, x.bits2 (· ^^^ ·)),
       (.lthShl t e u, 0x1D, x.map2 (fun a b => if x.width ≤ shiftOf b then 0 else a * 2 ^ shiftOf b)),
       (.lthShr t e u, 0x1E, x.map2 (fun a b => ((unsigned 32 a / 2 ^ shiftOf b : Nat) : Int))),
       (.lthSra t e u, 0x1F, x.map2 (fun a b => a / 2 ^ shiftOf b)),
       (.lthSrar t e u, 0x20, x.map2 (fun a b => rneShift a (shiftOf b))),
       (.lthCmp t e u, 0x21, x.toMask (maskOf (fun i =>
          cmpHolds (x.ins.t % 8) x.width (((x.read x.ins.va).zip x.srcB).getD i (0, 0)).1
            (((x.read x.ins.va).zip x.srcB).getD i (0, 0)).2))),
       (.lthSel t e u, 0x22, outOf (x.put32 (lanes.map (fun i =>
          if (x.bank.maskReg x.ins.vc).getLsbD i then (x.bank.ints x.ins.va).getD i 0 else x.srcB.getD i 0)))),
       (.lthMov t e u, 0x23, x.map1 (fun a => a)),
       (.lthLimm t e u, 0x24, outOf (x.put32 (List.replicate 128 x.ins.imm))),
       (.lthLimmh t e u, 0x25, outOf (x.bank.setVec x.ins.vd x.mask x.ins.mz ((x.bank.vec x.ins.vd).map
          (fun v => BitVec.ofNat 32 (v.toNat % 2 ^ 24 + 2 ^ 24 * unsigned 8 x.ins.imm))))),
       (.lthCvt t e u, 0x29, if x.ins.t = 0 then outOf (x.bank.setPairs x.ins.vd x.mask x.ins.mz (x.bank.ints x.ins.va))
          else x.counted ((x.bank.pairs x.ins.va).map satI32) x.put32)] →
    s.LathRuns t e op u d x → exec i s = .next (s.after (d.lthRetire x o))) ∧
  ((∀ (t : Truss) (e : LathNo) (u : LathUpset) (d : Device) (x : LthTask) (s : State) (i : Instr) (op : Nat) (o : LthOut),
    (i, op, o) ∈
      [(.lthXadd t e u, 0x30, x.groupOut (((x.bank.group x.ins.va).zip (x.bank.group x.ins.vb)).map
          (fun p => ((alignedAdd p.1 p.2).1, (alignedAdd p.1 p.2).2, false)))),
       (.lthXcvt t e u, 0x31, x.groupOut ((if x.ins.t = 1 then x.bank.pairs x.ins.va else x.bank.ints x.ins.va).map
          (fun a => xcvt a x.ins.imm))),
       (.lthXrsum t e u, 0x32, x.xrsum), (.lthResc t e u, 0x33, x.resc), (.lthReq t e u, 0x34, x.req),
       (.lthRsum t e u, 0x38, outOf (x.bank.setPairs x.ins.vd (BitVec.allOnes 128) false (x.reduce (fun l => l.foldl (· + ·) 0)))),
       (.lthRmin t e u, 0x39, outOf (x.bank.setInts x.ins.vd (BitVec.allOnes 128) false (x.reduce (fun l => l.foldl min (2 ^ 31 - 1))))),
       (.lthRmax t e u, 0x3A, outOf (x.bank.setInts x.ins.vd (BitVec.allOnes 128) false (x.reduce (fun l => l.foldl max (-(2 ^ 31)))))),
       (.lthTbl t e u, 0x3B, x.counted ((x.bank.ints x.ins.va).map
          (tblEval (tget x.bank.tbl (unsigned 2 x.ins.imm) default))) x.put32),
       (.lthExp2 t e u, 0x3C, x.counted ((x.bank.ints x.ins.va).map
          (fun a => satI32 (rneScale (exp2Parts a).1 ((exp2Parts a).2 + unsigned 6 x.ins.imm - 30)))) x.put32),
       (.lthRcp t e u, 0x3D, x.counted ((x.bank.ints x.ins.va).map (rcp (unsigned 6 x.ins.imm))) x.put32),
       (.lthRsqrt t e u, 0x3E, x.counted ((x.bank.ints x.ins.va).map (rsqrt (unsigned 6 x.ins.imm))) x.put32)] →
    s.LathRuns t e op u d x → exec i s = .next (s.after (d.lthRetire x o))) ∧
  (∀ (t : Truss) (e : LathNo) (u : LathUpset) (d f : Device) (x : LthTask) (bs : List Byte) (s : State),
    (s.LathRuns t e 0x35 u d x →
      d.ptrLoad x.job.ctx t x.unit false (lthPtr x.ins x.bank x.ins.va) (if x.ins.t = 0 then 1024 else 8) = (f, .ok bs) →
      exec (.lthLdrr t e u) s = .next (s.after (f.lthRetire x (outOf (x.bank.setPairs x.ins.vd x.mask x.ins.mz
        (lanes.map (fun i => signed 64 (leNat (slice bs (if x.ins.t = 0 then 8 * i else 0) 8))))))))) ∧
    (s.LathRuns t e 0x46 u d x →
      d.ptrLoad x.job.ctx t x.unit false (lthPtr x.ins x.bank x.ins.va) 2056 = (f, .ok bs) →
      exec (.lthLdtbl t e u) s = .next (s.after (f.lthRetire x (outOf { x.bank with
        tbl := tset x.bank.tbl (unsigned 2 x.ins.imm) (tableOfBytes bs) })))))) ∧
  (∀ (t : Truss) (e : LathNo) (u : LathUpset) (d : Device) (x : LthTask) (s : State) (i : Instr) (op : Nat) (o : LthOut),
    (i, op, o) ∈
      [(.lthFadd t e u, 0x50, x.fp2 (fun a b => x.ffmt.add a b x.rm)),
       (.lthFsub t e u, 0x51, x.fp2 (fun a b => x.ffmt.sub a b x.rm)),
       (.lthFmul t e u, 0x52, x.fp2 (fun a b => x.ffmt.mul a b x.rm)),
       (.lthFfma t e u, 0x53, x.fpOut x.isPair (((x.fsrc x.ins.va).zip ((x.fsrc x.ins.vb).zip (x.fsrc x.ins.vc))).map
          (fun p => x.ffmt.fma p.1 p.2.1 p.2.2 x.rm))),
       (.lthFdiv t e u, 0x54, x.fp2 (fun a b => x.ffmt.div a b x.rm)),
       (.lthFsqrt t e u, 0x55, x.fpOut x.isPair ((x.fsrc x.ins.va).map (fun a => x.ffmt.sqrt a x.rm))),
       (.lthFmin t e u, 0x56, x.fp2 (x.ffmt.minMax false (x.ins.t.testBit 2))),
       (.lthFmax t e u, 0x57, x.fp2 (x.ffmt.minMax true (x.ins.t.testBit 2))),
       (.lthFcmp t e u, 0x58, x.fcmpOut), (.lthFcvt t e u, 0x59, x.fcvt)] →
    s.LathRuns t e op u d x → exec i s = .next (s.after (d.lthRetire x o)))

/-- The lanes of a lane-wise row on I32 lanes: lane i of VD is the operation of lane i of VA and of VB (or IMM),
wrapped to 32 bits, when lane i is active; saturating rows clamp to the range of I32 and count each active lane that
clamps (R141). -/
def Obligations.LathIntegerLanes : Prop :=
  ∀ (x : LthTask) (f : Int → Int → Int) (i : Nat), x.isPair = false → x.ins.vd < 32 → i < 128 →
    (∀ r, (x.bank.vec r).length = 128) →
    (x.mask.getLsbD i = true →
      ((x.map2 f).bank.vec x.ins.vd).getD i 0 = BitVec.ofInt 32 (f ((x.bank.ints x.ins.va).getD i 0) (x.srcB.getD i 0)) ∧
      ((x.sat2 f).bank.vec x.ins.vd).getD i 0 =
        BitVec.ofInt 32 (max (-(2 ^ 31)) (min (2 ^ 31 - 1) (f ((x.bank.ints x.ins.va).getD i 0) (x.srcB.getD i 0))))) ∧
    (x.mask.getLsbD i = false → x.ins.mz = false →
      ((x.map2 f).bank.vec x.ins.vd).getD i 0 = (x.bank.vec x.ins.vd).getD i 0 ∧
      ((x.sat2 f).bank.vec x.ins.vd).getD i 0 = (x.bank.vec x.ins.vd).getD i 0)

/-! ### Tables (06) -/

/-- THT_TASK (R162 to R166, R178): a look-up whose descriptor passes its checks binds the slot that VSEL selects, with
its generation, and opens its first bag next. A bound look-up that has stored every complete bag and asked for every
row opens its next bag. Rows of a look-up come in (R167, R171, R174): THT_ROW_ARRIVE for a local row, THT_REMOTE_REPLY
for a remote one; each is charged, put in its place, and every complete bag is stored. A remote reply to an ended task
is discarded, and a remote row with no reply by REMOTE_TO ends its task with REMOTE_LOST, cause 0x51. Deltas (R180 to
R183): THT_DELTA_TASK reads and folds its records, sends each owner its batch and then the markers, and yields while
acknowledgements are awaited; an owner takes DELTA_BATCH into staging and tells its source, refuses it whole, or
discards it as a duplicate (R356); END_OF_ROUND_MARKER adds its source to the round; DELTA_BATCH_ACK takes its batch
off the source's list. -/
def Obligations.LookUpsAndDeltas : Prop :=
  ((∀ (t : Truss) (j : Job) (d : Device) (bs : List Byte) (w : List Word) (b : Bool) (s : State),
    s.dev.active? (.tht t) = some j → bit j.cmd.c0 19 = false → j.run = .none → j.cmd.c1.toNat % 8 = 0 →
    s.dev.ptrLoad j.ctx t (unitCode t 8) false j.cmd.c1 64 = (d, .ok bs) → bytesWords bs = w →
    (d.table (thtTable w)).valid = true → j.ctx = (d.table (thtTable w)).ctx → thtStartCause w (d.table (thtTable w)) = none →
    (d.table (thtTable w)).bindSlot w = some b → d.tableExpelled (thtTable w) = false →
    exec (.thtTask t) s = .next (s.after (d.setTht j (.tht w (thtTable w) b ((d.table (thtTable w)).slot b).gen 0 [])))) ∧
  (∀ (t : Truss) (j k : Job) (d : Device) (w : List Word) (n gen next : Nat) (b : Bool) (bags : List ThtBag) (s : State),
    s.dev.active? (.tht t) = some j → bit j.cmd.c0 19 = false → j.run = .tht w n b gen next bags →
    s.dev.bagsDone j.id t = d → d.job? j.id = some k → k.state = .running → (∃ bags', k.run = .tht w n b gen next bags' ∧
      unasked bags' = []) → next < thtBags w →
    exec (.thtTask t) s = .next (s.after ((d.openBag k t).bagsDone k.id t)))) ∧
  ((∀ (t : Truss) (rtag : Nat) (u : Upset) (r : RowReq) (j : Job) (bs : List Byte) (e d : Device) (s : State),
    s.dev.rowReqs.find? (fun r => r.tag == rtag && r.truss == t.val && r.serve.isNone) = some r → r.settled = true →
    { s.dev with rowReqs := s.dev.rowReqs.filter (fun q => q.tag != rtag) } = e → e.job? r.job = some j → j.state ≠ .done →
    r.bytes = some bs → e.residue j (.tht t) u = (d, true) →
    exec (.thtRowArrive t rtag u) s = .next (s.after ((((d.count (Reg.THT_ROWS_LOCAL t) 1).charge j.ctx .thtRows 1 t).mapRow
      j.id r.bag r.pos r.sub (fun x => { x with data := some bs })).bagsDone j.id t))) ∧
  (∀ (rtag : Nat) (data : List Byte) (r : Remote) (j : Job) (s : State), s.dev.remote? rtag = some r → r.kind = 0 →
    s.dev.job? r.job = some j →
    exec (.thtRemoteReply rtag data) s = .next (s.after ((((s.dev.mapRow r.job r.bag r.pos r.sub (fun x => { x with
      data := some (slice data 0 r.len) })).charge j.ctx .thtRows 1 r.truss).remoteDone r).bagsDone r.job r.truss))) ∧
  (∀ (rtag : Nat) (data : List Byte) (s : State), s.dev.remote? rtag = none →
    exec (.thtRemoteReply rtag data) s = .next (s.after { s.dev with
      remotes := s.dev.remotes.filter (fun r => r.rtag != rtag) })) ∧
  (∀ (t : Truss) (r : Remote) (s : State),
    s.dev.remotes.find? (fun r => r.truss == t.val && r.kind == 0 && r.late s.dev.now) = some r →
    exec (.thtRemoteTimeout t) s = .next (s.after (s.dev.failRemote r.rtag stRemoteLost 0x51)))) ∧
  ((∀ (t : Truss) (j k : Job) (d d2 d3 d4 d5 : Device) (bs : List Byte) (w : List Word) (x : Table) (fs : List Folded)
      (os : List (Nat × DeltaBatch)) (s : State),
    s.dev.active? (.tht t) = some j → bit j.cmd.c0 19 = true → j.run = .none → j.cmd.c1.toNat % 8 = 0 →
    s.dev.ptrLoad j.ctx t (unitCode t 8) false j.cmd.c1 32 = (d, .ok bs) → bytesWords bs = w → d.table (thtTable w) = x →
    x.valid = true → j.ctx = x.ctx → deltaStartCause w x = none →
    d.deltaRecords j t (thtF w 3 31 0) x (thtF w 2 48 32) 0 0 [] = (d2, some fs) →
    (d2.setTht j (.delta w)).deltaOpens j t (d2.deltaBase j w x) fs ((fs.map (·.1)).eraseDups) = (d3, os) →
    d3.deltaSends j t os = d4 → d4.taskFailed j.id = false →
    (if thtF w 0 12 12 = 1 then d4.markers j t (d2.deltaBase j w x) (d4.ownersOf x) else d4) = d5 →
    d5.job? j.id = some k → k.state ≠ .done →
    exec (.thtDeltaTask t) s = .next (s.after
      (if d5.remotes.any (fun q => q.job == j.id) then d5.yieldJob j.id else d5.endJob j.id endOk))) ∧
  (∀ (b : DeltaBatch) (d : Device) (s : State), s.dev.serves = true →
    (s.dev.acceptBatch b = (d, .duplicate) → exec (.deltaBatch b) s = .next (s.after d)) ∧
    (s.dev.acceptBatch b = (d, .taken) → exec (.deltaBatch b) s = .next (s.after (d.tellSource b stOk 0))) ∧
    (∀ st c, s.dev.acceptBatch b = (d, .refused st c) → exec (.deltaBatch b) s = .next (s.after (d.tellSource b st c)))) ∧
  (∀ (source tgid gen round nsrc n : Nat) (b : Bool) (tb : Table) (r : Round) (s : State), s.dev.serves = true →
    s.dev.tableOf tgid = some (n, tb) → tb.slotOfGen gen acceptingStates = some b → (tb.slot b).round? round = some r →
    (tb.slot b).applied < round → r.closed = false → round ≤ (tb.slot b).applied + 4 → r.markers.contains source = false →
    exec (.endOfRoundMarker source tgid gen round nsrc) s = .next (s.after (s.dev.mapSlot n b (fun v =>
      v.putRound { r with markers := r.markers ++ [source], said := if r.markers.isEmpty then nsrc else r.said })))) ∧
  (∀ (rtag status cause : Nat) (r : Remote) (s : State), s.dev.remote? rtag = some r → r.kind = 3 →
    (status % 256 ≠ stOk → status % 256 ≠ stInternal → exec (.deltaBatchAck rtag status cause) s =
      .next (s.after (s.dev.failRemote rtag (status % 256) (cause % 256)))) ∧
    (status % 256 = stInternal → ∀ (d : Device) (j : Job), s.dev.failRemote rtag stInternal (cause % 256) = d →
      d.job? r.job = some j → exec (.deltaBatchAck rtag status cause) s = .next (s.after
        ((d.count (Reg.THT_REFUSED r.truss) 1).log 0x0C 3 (unitCode r.truss 8) j.ctx 2 0 (BitVec.ofNat 64 (cause % 256))
          (BitVec.ofNat 64 r.bag)))) ∧
    (status % 256 = stOk → 1 < r.pos → exec (.deltaBatchAck rtag status cause) s = .next (s.after { s.dev with
      remotes := s.dev.remotes.map (fun q => if q.rtag = rtag then { q with pos := q.pos - 1 } else q) })) ∧
    (∀ d : Device, status % 256 = stOk → r.pos ≤ 1 →
      { s.dev with remotes := s.dev.remotes.filter (fun q => q.rtag != rtag) } = d →
      exec (.deltaBatchAck rtag status cause) s =
        .next (s.after (if d.remotes.any (fun q => q.job == r.job) then d else d.endJob r.job endOk)))))

/-- ROUND_APPLY (R182, R184 to R186): the lowest open round, once closed or marked by all its sources, is applied in
order and the applied round advances. DIGEST_BUILD_DONE (R186, R187): SEAL leaves its slot STANDBY with the sum,
REBUILD compares. SLOT_RELEASE (R177): a RETIRING slot that nothing uses becomes EMPTY. The table operations (R159,
R176, R182, R186, Table 06-6), for a command of context 0 or of the table's context: DESC loads a descriptor while
both slots are EMPTY, OPEN puts an EMPTY slot into LOADING with a generation that the other slot does not hold, SEAL
and REBUILD start a digest build and wait, PUBLISH makes a STANDBY slot CURRENT and the CURRENT one RETIRING, DROP
empties a LOADING or STANDBY slot, and CLOSE_ROUND closes an open round. -/
def Obligations.TablesMoveOn : Prop :=
  ((∀ (n : Nat) (b : Bool) (r : Round) (d : Device) (s : State), s.dev.serves = true → (s.dev.table n).valid = true →
    ((s.dev.table n).slot b).build = none → ((s.dev.table n).slot b).state ≠ vEmpty →
    ((s.dev.table n).slot b).lowest = some r → r.complete = true →
    s.dev.writeRows n b (s.dev.table n) (r.updates.drop r.made) = (d, true) →
    exec (.roundApply n b) s = .next (s.after (d.roundDone n b r).serveAgain)) ∧
  (∀ (n j : Nat) (b : Bool) (d : Device) (sum : Word) (s : State), ((s.dev.table n).slot b).build = some (1, j) →
    s.dev.digestRows (s.dev.table n) b (s.dev.localRows (s.dev.table n)) 0 = (d, .ok sum) →
    exec (.digestBuildDone n b) s = .next (s.after
      (((d.endBuild n b).mapSlot n b (fun v => { v with digest := sum, state := vStandby })).endJob j endOk))) ∧
  (∀ (n j : Nat) (b : Bool) (d : Device) (sum : Word) (s : State), ((s.dev.table n).slot b).build = some (2, j) →
    s.dev.digestRows (s.dev.table n) b (s.dev.localRows (s.dev.table n)) 0 = (d, .ok sum) →
    (((s.dev.table n).slot b).digest = sum →
      exec (.digestBuildDone n b) s = .next (s.after
        (((d.endBuild n b).mapSlot n b (fun v => { v with digest := sum })).endJob j endOk)))) ∧
  (∀ (n : Nat) (b : Bool) (s : State), ((s.dev.table n).slot b).state = vRetiring → s.dev.boundTasks n b = 0 →
    s.dev.serving.any (fun p => p.2.kind == 1 && p.2.tgid == (s.dev.table n).tgid && p.2.gen == ((s.dev.table n).slot b).gen) = false →
    ((s.dev.table n).slot b).rounds = [] → ((s.dev.table n).slot b).build = none →
    exec (.slotRelease n b) s = .next (s.after (s.dev.mapSlot n b (fun v => { v with
      state := vEmpty, rounds := [], build := none }))))) ∧
  ((∀ (j : Nat) (k : Job) (d e : Device) (bs os : List Byte) (u : Table) (s : State), s.dev.tableOp? j 0 = some k →
    (s.dev.table k.cmd.tableNo).a.state = vEmpty → (s.dev.table k.cmd.tableNo).b.state = vEmpty →
    s.dev.vload 0 16 k.cmd.opUnit ((s.dev.fld Reg.THT_TDT_BASE Fld.THT_TDT_BASE_ADDR * 128 + 128 * k.cmd.tableNo : Nat) : Int) 128 =
      (d, .ok bs) →
    { s.dev.table k.cmd.tableNo with desc := bytesWords bs } = u → (k.ctx = 0 ∨ k.ctx = u.ctx) → descBad u.desc = false →
    (if u.own = 0 then (d, .ok []) else d.vload u.ctx 16 k.cmd.opUnit (u.f 5 51 0) (4 * u.nshard)) = (e, .ok os) →
    exec (.desc j) s = .next (s.after ((e.setTable k.cmd.tableNo { u with
      owners := (chunks 4 os.length os).map (fun c => leNat c % 2 ^ 18), valid := true }).endJob j endOk))) ∧
  (∀ (j op n : Nat) (k : Job) (t : Table) (b : Bool) (v w : VSlot) (s : State), s.dev.tableOp? j op = some k →
    k.cmd.tableNo = n → s.dev.table n = t → t.valid = true → (k.ctx = 0 ∨ k.ctx = t.ctx) → k.cmd.slotB = b → t.slot b = v →
    t.slot (!b) = w →
    (op = 1 → v.state = vEmpty → w.gen ≠ bits k.cmd.c1 31 0 →
      exec (.openSlot j) s = .next (s.after ((s.dev.setTable n (t.setSlot b { (default : VSlot) with
        state := vLoading, gen := bits k.cmd.c1 31 0 })).endJob j endOk))) ∧
    (op = 2 → v.state = vLoading → v.build = none → exec (.sealSlot j) s = .next (s.after (s.dev.startBuild k 1))) ∧
    (op = 3 → v.state = vStandby → w.state = vCurrent → exec (.publish j) s = .next (s.after ((s.dev.setTable n
      ((t.setSlot b { v with state := vCurrent }).setSlot (!b) { w with state := vRetiring })).endJob j endOk))) ∧
    (op = 3 → v.state = vStandby → w.state ≠ vCurrent → exec (.publish j) s = .next (s.after ((s.dev.setTable n
      (t.setSlot b { v with state := vCurrent })).endJob j endOk))) ∧
    (op = 4 → (v.state = vLoading ∨ v.state = vStandby) → v.rounds = [] → exec (.dropSlot j) s = .next (s.after
      ((s.dev.emptySlot n b).retryLocal.endJob j endOk))) ∧
    (op = 5 → (v.state = vStandby ∨ v.state = vCurrent ∨ v.state = vRetiring) → v.build = none →
      exec (.rebuild j) s = .next (s.after (s.dev.startBuild k 2))) ∧
    (op = 6 → ∀ r, v.round? (bits k.cmd.c2 31 0) = some r → r.closed = false → exec (.closeRound j) s = .next (s.after
      ((s.dev.mapSlot n b (fun v => v.putRound { r with closed := true })).endJob j endOk)))))

/-! ### Attention and sequences (07) -/

/-- ATN_TASK (R196, R198, R202, R204, R205): a task whose descriptor and segments pass their checks, with no edit
pending on a sequence that it walks, starts at its first segment with its sequences' walk counters raised, and reads
their roots; one with an edit pending is held at its start; and a started task that waits for a root reads those that
have not come. A root in an address space of the task that suits its descriptor is held, and the next is read.
ATN_PAGE_STEP (R206 to R212, R219 to R221): with the group's queries and the page's keys and values read and the
checks passed, every row's running pair takes its step, the step is counted and charged, and the task goes on.
ATN_APPEND_ROW (R207, R216) stores the next row's key, rotated under ROPE, its value and their entries in its slot,
and ATN_COMBINE_STEP (R211, R214, R215) writes the row that its partials make; each then goes to the next row. -/
def Obligations.AttentionTasks : Prop :=
  ((∀ (t : Truss) (j : Job) (d e : Device) (bs ss : List Byte) (w : List Word) (recs : List (List Word)) (seqs : List Nat)
    (s : State), s.dev.active? (.atn t) = some j → j.run = .none → j.cmd.c1.toNat % 8 = 0 →
    s.dev.ptrLoad j.ctx t (unitCode t 9) false j.cmd.c1 128 = (d, .ok bs) → bytesWords bs = w → atnStartCause w = none →
    d.atnLoad j t (atnF w 3 63 32) 0 (16 * atnNseg w) = (e, .ok ss) → (chunks 16 ss.length ss).map bytesWords = recs →
    segRefusal (atnRows w) 0 [] recs = none →
    (if atnWalks w then ((recs.map segOf).map AtnSeg.seq).eraseDups else []) = seqs →
    (seqs.filter (fun q => e.editPending q || decide (65535 ≤ e.walks q)) = [] →
      exec (.atnTask t) s = .next (s.after (((e.setAtnSt t { e.atnSt t with held := [] }).mapJob j.id (fun k => { k with
        run := .atn w (seqs.map (fun q => (q, []))) (recs.map segOf) 0 0 0 })).readRoots j t w (recs.map segOf) seqs))) ∧
    (∀ q qs, seqs.filter (fun q => e.editPending q || decide (65535 ≤ e.walks q)) = q :: qs →
      exec (.atnTask t) s = .next (s.after (e.setAtnSt t { e.atnSt t with held := q :: qs })))) ∧
  (∀ (t : Truss) (j : Job) (w : List Word) (rs : List (Nat × List Word)) (segs : List AtnSeg) (a b c : Nat) (s : State),
    s.dev.active? (.atn t) = some j → j.run = .atn w rs segs a b c →
    exec (.atnTask t) s = .next (s.after (s.dev.readRoots j t w segs ((rs.filter (fun r => r.2.isEmpty)).map (·.1))))) ∧
  (∀ (d e : Device) (j : Job) (t a q : Nat) (w r : List Word) (segs : List AtnSeg) (qs : List Nat) (bs : List Byte),
    d.rootAddr q = some a → d.vload j.ctx t (unitCode t 9) a 64 = (e, .ok bs) → bytesWords bs = r → rootBad w r = false →
    d.readRoots j t w segs [] = d ∧
    d.readRoots j t w segs (q :: qs) = (e.mapRoots j.id (fun x => if x.1 = q then (q, r) else x)).readRoots j t w segs qs)) ∧
  (∀ (t : Truss) (u : Upset) (j : Job) (slot seg grp page : Nat) (w : List Word) (rs : List (Nat × List Word))
    (segs : List AtnSeg) (sg : AtnSeg) (rows : List (Nat × Nat)) (phi : List Word) (qs : List AtnVec)
    (kvs : List (Nat × AtnVec × AtnVec)) (rot : List (AtnVec × Tally)) (outs : List PageOut) (d1 d2 d3 d4 : Device) (s : State),
    s.dev.atnRun? t 0 = some (j, slot) → j.run = .atn w rs segs seg grp page → segs.getD seg default = sg →
    atnPacked w = false → (segRange w sg).1 < (segRange w sg).2 → atnGroupRows w sg grp = rows →
    (∀ k, s.dev.phis j t w k = k d1 phi) →
    (∀ k, d1.atnVecs j t w (rows.map (fun r => (atnF w 2 31 0, r.1 * atnF w 2 55 32 + r.2 * atnDh w, atnF w 3 31 0,
      (r.1 * atnQpg w + r.2) * atnNb w, 0))) [] k = k d2 qs) →
    (∀ k, d2.pagedKeys j t w rs sg.seq ((segRange w sg).1 + page)
      (rows.foldl (fun m r => max m (sg.start + (r.1 - sg.first))) 0) k = k d3 kvs) →
    (rows.zip qs).map (fun p => p.2.roped w phi (sg.start + (p.1.1 - sg.first))) = rot →
    groupStep w sg ((if page = 0 then rows.map (fun r => RowState.fresh w r.1 r.2)
      else tget (s.dev.atnSt t).store (4 * j.id + slot) []).zip (rot.map (·.1))) kvs = outs →
    d3.atnResidue j t sg.seq ((segRange w sg).1 + page) page (outs.foldl (fun n o => n + o.keys) 0) u = (d4, true) →
    exec (.atnPageStep t u) s = .next (s.after
      (((if page = 0 then d4.atnTally j t (rot.foldl (fun a r => a.join r.2) default) else d4).pageCounts j t outs).pageFinish
        j t slot w segs seg grp page (outs.map PageOut.state)))) ∧
  ((∀ (t : Truss) (u : Upset) (j : Job) (slot seg grp page base : Nat) (w : List Word) (rs : List (Nat × List Word))
    (segs : List AtnSeg) (g : AtnSeg) (phi : List Word) (k v : AtnVec) (d1 d2 d3 d4 d5 d6 d7 : Device) (s : State),
    s.dev.atnRun? t 1 = some (j, slot) → j.run = .atn w rs segs seg grp page → segs.getD seg default = g →
    (∀ f, s.dev.walk j t w rs g.seq ((g.start + grp) / 64) f = f d1 base) → (∀ f, d1.phis j t w f = f d2 phi) →
    (∀ f, d2.atnVec j t w (atnF w 8 31 0) ((g.first + grp) * atnDh w) (atnF w 9 31 0) ((g.first + grp) * atnNb w) 3 f = f d3 k) →
    (∀ f, d3.atnVec j t w (atnF w 8 63 32) ((g.first + grp) * atnDh w) (atnF w 9 63 32) ((g.first + grp) * atnNb w) 4 f = f d4 v) →
    d4.atnResidue j t g.seq ((g.start + grp) / 64) grp 0 u = (d5, true) →
    (∀ f, d5.putSlot j t w base ((g.start + grp) % 64) ((k.roped w phi (g.start + grp)).1, v) f = f d6) →
    (d6.atnTally j t (k.roped w phi (g.start + grp)).2).count (Reg.ATN_APPENDED t) 1 = d7 →
    exec (.atnAppendRow t u) s = .next (s.after
      (if grp + 1 < g.nrow then d7.atnTo j t w segs seg (grp + 1) 0 else d7.atnTo j t w segs (seg + 1) 0 0))) ∧
  (∀ (t : Truss) (u : Upset) (j : Job) (slot seg grp page : Nat) (w : List Word) (rs : List (Nat × List Word))
    (segs : List AtnSeg) (g : AtnSeg) (p : Tracked × List Tracked) (d1 d2 d3 : Device) (s : State),
    s.dev.atnRun? t 2 = some (j, slot) → j.run = .atn w rs segs seg grp page → segs.getD seg default = g →
    s.dev.atnResidue j t g.seq 0 grp 0 u = (d1, true) →
    (∀ f, d1.combine j t w (g.first + grp / max 1 (atnQpg w)) (grp % max 1 (atnQpg w)) (atnNr w) 0
      (tzero, List.replicate (atnDh w) tzero) f = f d2 p) →
    (∀ f, d2.atnOutput j t w (g.first + grp / max 1 (atnQpg w)) (grp % max 1 (atnQpg w)) p.1 p.2 f = f d3) →
    exec (.atnCombineStep t u) s = .next (s.after
      (if grp + 1 < g.nrow * atnQpg w then d3.atnTo j t w segs seg (grp + 1) 0 else d3.atnTo j t w segs (seg + 1) 0 0))))

/-- A row attends to no key after its own position: two lists of keys that agree up to every row's position give the
same running pairs (R207, R208). -/
def Obligations.AttentionIsCausal : Prop :=
  ∀ (w : List Word) (sg : AtnSeg) (qs : List (RowState × AtnVec)) (kvs kvs' : List (Nat × AtnVec × AtnVec)),
    (∀ p ∈ qs, ∀ n, n = sg.start + (p.1.row - sg.first) →
      kvs.filter (fun x => decide (x.1 ≤ n)) = kvs'.filter (fun x => decide (x.1 ≤ n))) →
    groupStep w sg qs kvs = groupStep w sg qs kvs'

/-- The operations on a sequence's pages (R200 to R202, Table 07-3): APPEND writes its entry and then NPAGES at once;
TRUNCATE, RELOCATE and FORK of parked sequences are accepted and wait for their walks; with no walk left, an edit
applies, drops the look-aside entries of its sequences and ends; one whose walks last beyond EDIT_TO is refused, cause
0x0B, with the sequences as they were. A WAITING destination of FORK takes a root of its pool when the FORK applies.
-/
def Obligations.SequenceEdits : Prop :=
  (∀ (j q a : Nat) (k : Job) (r : List Word) (d f : Device) (s : State), s.dev.kvOp? j 0 = some k → kvSeq k = q →
    s.dev.mayEdit k q = true → (∀ g, s.dev.kvRoot k q g = g d a r) → rootPages r < 16384 → badSet r (kvAddr k) = false →
    (∀ g, d.appendSet k q a r (kvAddr k) g = g f) →
    exec (.kvAppend j) s = .next (s.after ((f.dropLab q).endJob j endOk))) ∧
  (∀ (j q a : Nat) (k : Job) (r : List Word) (d : Device) (s : State), s.dev.kvOp? j 1 = some k → kvSeq k = q →
    s.dev.mayEdit k q = true → (s.dev.seq q).parked = true → (∀ g, s.dev.kvRoot k q g = g d a r) → kvN k ≤ rootPages r →
    exec (.truncate j) s = .next (s.after (d.acceptEdit k 1 [q]))) ∧
  (∀ (j q a : Nat) (k : Job) (r : List Word) (d : Device) (s : State), s.dev.kvOp? j 2 = some k → kvSeq k = q →
    s.dev.mayEdit k q = true → (s.dev.seq q).parked = true → (∀ g, s.dev.kvRoot k q g = g d a r) → kvN k < rootPages r →
    badSet r (kvAddr k) = false →
    exec (.relocate j) s = .next (s.after (d.acceptEdit k 2 [q]))) ∧
  (∀ (j p q a b : Nat) (k : Job) (rd rs ptes : List Word) (d e f : Device) (s : State), s.dev.kvOp? j 3 = some k →
    kvSeq k = p → kvDst k = q → s.dev.mayEdit k p = true → s.dev.mayEdit k q = true → (s.dev.seq p).parked = true →
    ((s.dev.seq q).parked = true ∨ (s.dev.seq q).state = 1) → (∀ g, s.dev.kvRootAt k q (s.dev.forkAddr q) g = g d a rd) →
    (∀ g, d.kvRoot k p g = g e b rs) → (∀ g, e.readTable k p rs (min (kvN k) (rootPages rs)) g = g f ptes) →
    forkCause rs rd (kvN k) ptes = none →
    exec (.fork j) s = .next (s.after (f.acceptEdit k 3 [p, q]))) ∧
  (∀ (j a : Nat) (k : Job) (e : KvEdit) (r : List Word) (d f : Device) (s : State), s.dev.edit? j = some (k, e) →
    k.state ≠ .done → e.seqs.any (fun q => s.dev.walks q != 0) = false → k.waitFrom = none →
    (∀ g, s.dev.kvRoot k (e.seqs.headD 0) g = g d a r) →
    (e.op = 1 → e.n ≤ rootPages r → (∀ g, d.setPages k (e.seqs.headD 0) a r e.n g = g f) →
      exec (.kvEditApply j) s = .next (s.after (f.editDone k.id e))) ∧
    (e.op = 2 → e.n < rootPages r → badSet r e.addr = false →
      (∀ g, d.kvStore k (e.seqs.headD 0) (rootPt r + 8 * e.n) (wordBytes (pteWord e.addr)) g = g f) →
      exec (.kvEditApply j) s = .next (s.after (f.editDone k.id e))) ∧
    (∀ (p q b : Nat) (rd ptes : List Word) (d2 d3 d3' d4 d5 : Device), e.op = 3 → e.seqs = [p, q] →
      (∀ g, d.kvRootAt k q (d.forkAddr q) g = g d2 b rd) → (∀ g, d2.readTable k p r (min e.n (rootPages r)) g = g d3 ptes) →
      forkCause r rd e.n ptes = none → (match d3.forkRoot q with | some i => d3.takeRoot q i | none => d3) = d3' →
      (∀ g, d3'.kvStore k q (rootPt rd) (wordsBytes ptes) g = g d4) →
      (∀ g, d4.setPages k q b rd e.n g = g d5) →
      exec (.kvEditApply j) s = .next (s.after (((d5.markShared p).markShared q).editDone k.id e)))) ∧
  (∀ (j : Nat) (k : Job) (e : KvEdit) (s : State), s.dev.edit? j = some (k, e) → k.state ≠ .done → e.deadline ≤ s.dev.now →
    e.seqs.any (fun q => s.dev.walks q != 0) = true →
    exec (.kvEditTimeout j) s = .next (s.after ((s.dev.dropEdit j).kvRefuse k 0x0B 0)))

/-! ### Requests and courses (08) -/

/-- REQUEST_ARRIVAL (R225 to R228). A record takes the lowest free slot of its inbox and is placed there, after those
that wait for a translation; with no free slot or entry, a client that detaches, or a builder that takes none, the
SEND is answered RNR NAK; one longer than its slot puts the queue pair into the error state and detaches the client. A
record placed has its SEND answered, and where no check refuses it and its lane's group is not expelled it takes the
lowest FREE entry. RESULT_WRITE_DONE (R246, R248), ENTRY_RELEASE (R238, R248) and DETACH_COMPLETE (R254). -/
def Obligations.RequestsArriveAndEntriesAreReleased : Prop :=
  ((∀ (c : Nat) (rec : List Byte) (k : Client) (d : Device) (s : State), s.dev.arrivals = d → d.client c = k → k.attached = true →
    (k.detaching = true ∨ d.crsReceives = false ∨ k.freeSlot = none ∨ d.freeEntry = none →
      exec (.requestArrival c rec) s = .next (s.after (d.emit (.rnrNak k.qpn)))) ∧
    (∀ i e : Nat, k.detaching = false → d.crsReceives = true → k.freeSlot = some i → d.freeEntry = some e →
      (2 ^ k.slotLog2 < rec.length →
        exec (.requestArrival c rec) s = .next (s.after ((d.rdmaAnswer k.qpn 3 []).clientError c))) ∧
      (rec.length ≤ 2 ^ k.slotLog2 → exec (.requestArrival c rec) s = .next (s.after
        (d.setClient c { k with used := k.used ++ [i], held := k.held ++ [(i, rec)] }).arrivals)))) ∧
  (∀ (c i e : Nat) (rec : List Byte) (ps : List (Nat × List Byte)) (k : Client) (d d1 d2 d3 d4 : Device) (bs : List Byte)
      (x : SeqEntry), d.freeEntry = some e → d.client c = k →
    (d.rdmaIn k.ctx k.qpn rec.length).tryStore k.ctx k.ctx (k.slotAt i) rec = .ok (d1, true) →
    d1.tryLoad k.ctx k.ctx (k.slotAt i) 64 = .ok (d2, some bs) → d2.rdmaAnswer k.qpn 0 [] = d3 → d3.client c = k →
    bits (wordAt (bytesWords bs) 0) 9 8 ≠ 2 → reqEntry (bytesWords bs) c k.ctx i d3.now = x →
    d3.requestRefusal (bytesWords bs) k = none → (d3.setSeq e x).count Reg.CRS_ACCEPTED 1 = d4 →
    d4.laneExpelled (d4.model x.model).lane = false →
    Device.placeHeld c ((i, rec) :: ps) d = Device.placeHeld c ps (d4.setClient c { d4.client c with held := ps }))) ∧
  ((∀ (n e : Nat) (k : Ticket) (d : Device) (s : State), s.dev.tickets.find? (fun t => t.id == n) = some k →
    k.final = true → k.entry = some e → { s.dev with tickets := s.dev.tickets.filter (fun u => u.id != n) } = d →
    exec (.resultWriteDone n true) s = .next (s.after ((d.freeSlotOf k.client k.slot).setSeq e
      { (d.freeSlotOf k.client k.slot).seq e with resultDone := true }))) ∧
  (∀ (n : Nat) (k : Ticket) (s : State), s.dev.tickets.find? (fun t => t.id == n) = some k → k.final = false →
    exec (.resultWriteDone n true) s = .next (s.after { s.dev with
      tickets := s.dev.tickets.filter (fun u => u.id != n) })) ∧
  (∀ (e a n : Nat) (x : SeqEntry) (m : Model) (d f g h : Device) (bs ps : List Byte) (s : State), s.dev.results = d →
    d.releasable e = true → d.seq e = x → d.model x.model = m → x.shared = false → d.rootAddr e = some a →
    d.tryLoad x.ctx x.ctx a 64 = .ok (f, some bs) → bs.length = 64 →
    f.tryLoad x.ctx x.ctx (rootPt (bytesWords bs)) (8 * rootPages (bytesWords bs)) = .ok (g, some ps) → g.model x.model = m →
    x.root = some n → m.count + (bytesWords ps).length ≤ m.nring →
    (g.setModel x.model { m with rootsUsed := m.rootsUsed.filter (· != n) }).pushRing x.model ((bytesWords ps).map pteAddr) = .ok h →
    exec (.entryRelease e) s = .next (s.after
      (let i := { h.dropLab e with seqs := tdel (h.dropLab e).seqs e }
       match x.releaseReq with
       | some j => i.endJob j endOk
       | none => i))) ∧
  (∀ (c : Nat) (d : Device) (s : State), s.dev.results = d → (d.client c).detaching = true →
    d.seqs.any (fun p => p.2.client == c && p.2.inc) = false → d.tickets.any (fun t => t.client == c) = false →
    exec (.detachComplete c) s = .next (s.after { d with clients := tdel d.clients c })))

/-- COURSE_LAY and COURSE_OUTCOME_APPLY (R234 to R241). A lane that is on, does not run and has candidates lays a
course from them and writes the results then due; a completed course is applied once. -/
def Obligations.CoursesAreLaidAndApplied : Prop :=
  (∀ (l : LaneNo) (e : Device) (s : State), s.dev.crsOn = true →
    s.dev.fld (Reg.CRS_LANE_CFG l) Fld.CRS_LANE_CFG_EN ≠ 0 → (s.dev.lane l).running = false → s.dev.candidates l ≠ [] →
    s.dev.layCourse l (s.dev.reg (Reg.CRS_LANE_CFG l)) (s.dev.candidates l)
      ((s.dev.seqs.filter (fun p => (s.dev.model p.2.model).lane == l.val)).map (·.1)) = .ok e →
    exec (.courseLay l) s = .next (s.after e.results)) ∧
  (∀ (l : LaneNo) (r : Ending × Report) (e : Device) (s : State), (s.dev.lane l).running = true →
    (s.dev.lane l).result = some r → s.dev.applyCourse l r = .ok e →
    exec (.courseOutcomeApply l) s = .next (s.after e.results))

/-- A course stays within its lane's bounds (R235, R236): the decode phase lays at most DECMAX rows, the prefill phase
at most TOKBUDGET tokens, and the lane's correction factor (R245) stays between 512 and 4,096. The deadline policy
(R242 to R244): with DLM_CTRL.EN 0, or an entry whose prediction meets its budget, nothing changes; a late sequence
that has begun is marked late once under LATEPOL 1 and abandoned under LATEPOL 0; any other late entry is switched to
its fallback model or abandoned, and is not laid; the course's notes say so. -/
def Obligations.CoursesStayWithinTheirBounds : Prop :=
  ((∀ (decmax : Nat) (es : List Nat) (y z : Lay), y.laid.length ≤ decmax → es.foldlM (layDecode decmax) y = .ok z →
    z.laid.length ≤ decmax) ∧
  (∀ (budget l : Nat) (es : List Nat) (y z : Lay), y.tok ≤ budget → es.foldlM (layPrefill budget l) y = .ok z →
    z.tok ≤ budget) ∧
  (∀ (d : Device) (f actual predicted : Nat),
    512 ≤ (d.newFactor f actual predicted).1 ∧ (d.newFactor f actual predicted).1 ≤ 4096)) ∧
  (∀ (d : Device) (e p : Nat) (x : SeqEntry) (m : Model), d.seq e = x → d.model x.model = m →
    (d.fld Reg.DLM_CTRL Fld.DLM_CTRL_EN = 0 ∨ lateAt d.now p m x = false → d.judge e p = (d, true)) ∧
    (d.fld Reg.DLM_CTRL Fld.DLM_CTRL_EN ≠ 0 → lateAt d.now p m x = true →
      (x.kind = 1 → x.state ≠ sqWaiting → m.latepol = 1 → x.late = false →
        d.judge e p = ((((d.setSeq e { x with late := true }).count Reg.DLM_LATE 1).charge x.ctx .late 1 16).laneNote m.lane noteLate,
          true)) ∧
      (x.kind = 1 → x.state ≠ sqWaiting → m.latepol ≠ 1 →
        d.judge e p = ((d.abandonEntry e caDeadline stAbandoned).laneNote m.lane noteSwitch, false)) ∧
      (x.kind ≠ 1 ∨ x.state = sqWaiting → d.judge e p = ((d.switchOrAbandon e).laneNote m.lane noteSwitch, false))))

/-- The course-control operations (Table 08-8): ATTACH, DETACH and MODEL of context 0 (R225, R231, R232, R254; a model
that no entry names is in force at once, log entry 102), PARK, UNPARK, RELEASE and CANCEL of an entry's context (R230,
R248, R251 to R253), and POOL_ADD (R238). -/
def Obligations.CourseControlOperations : Prop :=
  (∀ (j : Nat) (k : Job) (x : Client) (s : State), s.dev.crsOp? j 0 = some k → k.ctx = 0 →
    x = { attached := true, detaching := false, ctx := bits k.cmd.c3 29 24, qpn := bits k.cmd.c3 23 0, base := k.cmd.c2.toNat
          nslot := bits k.cmd.c3 42 30, slotLog2 := bits k.cmd.c3 47 43, used := [], held := [] } →
    (s.dev.client k.crsNum).attached = false → thas s.dev.qps x.qpn = true → (tget s.dev.qps x.qpn default).error = false →
    (tget s.dev.qps x.qpn default).role = 2 → (s.dev.ctx x.ctx).state = 1 → 0 < x.nslot → x.nslot ≤ 4096 →
    8 ≤ x.slotLog2 → x.slotLog2 ≤ 20 → s.dev.clients.any (fun p => p.2.attached && p.2.qpn == x.qpn) = false →
    exec (.attach j) s = .next (s.after ((s.dev.setClient k.crsNum x).endJob j endOk))) ∧
  (∀ (j : Nat) (k : Job) (s : State), s.dev.crsOp? j 1 = some k → k.ctx = 0 → (s.dev.client k.crsNum).attached = true →
    (s.dev.client k.crsNum).detaching = false →
    exec (.detach j) s = .next (s.after ((s.dev.detachClient k.crsNum).endJob j endOk))) ∧
  (∀ (j m : Nat) (k : Job) (d : Device) (bs : List Byte) (new : Model) (s : State), s.dev.crsOp? j 2 = some k → k.ctx = 0 →
    k.crsNum = m →
    s.dev.vload 0 16 k.cmd.opUnit ((s.dev.fld Reg.CRS_MTAB_BASE Fld.CRS_MTAB_BASE_ADDR * 128 + 128 * m : Nat) : Int) 128 = (d, .ok bs) →
    { d.model m with loaded := true, words := bytesWords bs, next := none } = new → d.modelBad m new = false →
    (d.seqs.any (fun p => p.2.model == m) = true →
      exec (.model j) s = .next (s.after ((d.setModel m { d.model m with next := some (bytesWords bs) }).endJob j endOk))) ∧
    (d.seqs.any (fun p => p.2.model == m) = false →
      exec (.model j) s = .next (s.after ((d.setModel m (if (d.model m).loaded && !modelMoved (d.model m) new then new
        else { new with rootsUsed := [], head := 0, count := 0 })).endJob j endOk)))) ∧
  (∀ (j op e : Nat) (k : Job) (x : SeqEntry) (s : State), s.dev.crsOp? j op = some k → k.crsEntry = e → s.dev.seq e = x →
    x.state ≠ sqFree → (k.ctx = 0 ∨ k.ctx = x.ctx) →
    (op = 3 → x.state ≤ sqDecode → x.inc = false →
      exec (.park j) s = .next (s.after ((s.dev.setSeq e { x with state := sqParked, pstate := x.state }).endJob j endOk))) ∧
    (op = 3 → x.state ≤ sqDecode → x.inc = true →
      exec (.park j) s = .next (s.after ((s.dev.setSeq e { x with pendPark := true }).endJob j endOk))) ∧
    (op = 4 → x.state = sqParked →
      exec (.unpark j) s = .next (s.after ((s.dev.setSeq e { x with state := x.pstate, pstate := 0 }).endJob j endOk))) ∧
    (op = 5 → x.final = true → x.resultDone = true → x.releaseReq = none → (s.dev.model x.model).keep = true →
      exec (.courseRelease j) s = .next (s.after ((s.dev.setSeq e { x with releaseReq := some j }).mapJob j (fun k =>
        { k with state := .waiting })))) ∧
    (op = 6 → x.final = false → x.inc = true →
      exec (.cancel j) s = .next (s.after (((s.dev.setSeq e { x with pendCancel := true }).endJob j endOk).results))) ∧
    (op = 6 → x.final = false → x.inc = false →
      exec (.cancel j) s = .next (s.after ((((s.dev.setSeq e { x with cancelled := true }).finishEntry e).endJob j endOk).results)))) ∧
  (∀ (j n : Nat) (k : Job) (m : Model) (d e : Device) (bs : List Byte) (s : State), s.dev.crsOp? j 7 = some k →
    s.dev.model k.crsNum = m → m.loaded = true → (k.ctx = 0 ∨ k.ctx = m.ctx) → bits k.cmd.c3 31 0 = n → m.count + n ≤ m.nring →
    s.dev.vload m.ctx 16 k.cmd.opUnit (k.cmd.c2.toNat : Int) (8 * n) = (d, .ok bs) → bs.length = 8 * n →
    m.ringPlace m.count + n ≤ m.nring → d.vstore m.ctx 16 (unitCode 0 11) (m.ringAt m.count : Nat) bs = (e, .ok ()) →
    exec (.poolAdd j) s = .next (s.after ((e.setModel k.crsNum { e.model k.crsNum with count := m.count + n }).endJob j endOk)))

/-! ### The Eave, the Ridge, the Gutter and contexts (09, 10) -/

/-- A doorbell takes its target only while it lies less than the ring's size ahead of the expected entry (R259); a
poll reads the expected slot once per 250 ns while a target is outstanding; one found nowhere for TIMEOUT, no stall
holding, is stale: it is counted and told to context 0 with what was found (R260); a value out of range changes no
target. EAVE_CFG takes no change of BASE or SIZE_LOG2 while EN is 1, and EAVE_EXPECT is taken only while EN is 0
(R258, R443). EAVE_ACCEPT (R258, R259, R261 to R264), the read that an acceptance or a doorbell write asks for:
nothing is taken from a slot whose stamp is not the expected one, and no read follows; an entry for which the store or
its context has no room stalls acceptance; else the expected number moves on by one, modulo 2^32, and an entry that no
check ends joins the store behind its context's last one. A stall that no longer holds ends there (`Device.unstall`).
The Gutter rings (R289 to R292) and the fence latch (Tables 09-22, 09-23). A failed write takes back its record and
the later ones and blocks the ring; a consumer count outside what has been written is ignored and counted; re-arming
unblocks the ring and sends what it holds; a quota of 0, or one that takes the sum of quotas beyond 4,096, is not
taken. -/
def Obligations.EaveAndGutter : Prop :=
  (∀ (v : Word) (s : State), s.dev.clk.stage = .thatched →
    (∀ e : Eave, e = { s.dev.eave with due := s.dev.ridgeOn } →
      exec (.eaveDoorbell v) s = .next (s.after
        (if (bits v 31 0 + 2 ^ 32 - s.dev.expect) % 2 ^ 32 < s.dev.eaveSize then
          { s.dev with eave := { e with
              target := some (bits v 31 0), door := bits v 31 0, stale := false, since := s.dev.now } }
         else ({ s.dev with eave := e }).count Reg.EAVE_DB_IGNORED 1))) ∧
    (∀ d : Device, { s.dev with eave := { s.dev.eave with lastPoll := s.dev.now } } = d → s.dev.eave.target ≠ none →
      s.dev.eave.stale = false → s.dev.eave.lastPoll + 250 ≤ s.dev.now → s.dev.eaveEn = true →
      exec .eavePoll s = .next (s.after d.eaveAccept)) ∧
    (∀ x : RingEntry, s.dev.eave.target ≠ none → s.dev.eave.stale = false → s.dev.eave.stall = false →
      s.dev.eave.since + max 1 (s.dev.fld Reg.EAVE_POLL Fld.EAVE_POLL_TIMEOUT) * 1000 ≤ s.dev.now → s.dev.eaveSlot = some x →
      exec .staleDoorbell s = .next (s.after ((({ s.dev with eave := { s.dev.eave with stale := true } }).count
        Reg.EAVE_STALE 1).event stStale (pack [(0, 32, s.dev.eave.door), (32, 32, x.stamp)]) s.dev.expect))) ∧
    (6 ≤ bits v 52 48 → bits v 52 48 ≤ 16 → bit (s.dev.reg Reg.EAVE_CFG) 53 = false →
      exec (.eaveCfgWrite v) s = .next (s.after (Device.unstall { s.dev.setReg Reg.EAVE_CFG (v &&& 0x003F0FFFFFFFFFC0#64) with
        eave := { s.dev.eave with heldEnable := false, due := s.dev.eave.due && bit v 53 } }))) ∧
    (s.dev.eaveEn = false →
      exec (.eaveExpectWrite v) s = .next (s.after (s.dev.setReg Reg.EAVE_EXPECT (v &&& 0xFFFFFFFF#64)))) ∧
    (s.dev.eaveEn = true → exec (.eaveExpectWrite v) s = .next (s.after s.dev))) ∧
  (∀ (e : RingEntry) (s : State), s.dev.ridgeOn = true → s.dev.eaveSlot = some e →
    (s.dev.eave.due = false → s.dev.eave.stall = false → exec .eaveAccept s = .next (s.after s.dev)) ∧
    (∀ u : Device, s.dev.eave.due = true ∨ s.dev.eave.stall = true → e.stamp ≠ s.dev.expect → s.dev.unstall = u →
      exec .eaveAccept s = .next (s.after { u with eave := { u.eave with due := false } })) ∧
    (s.dev.eave.due = true → e.stamp = s.dev.expect → s.dev.storeFull e.ctx = true → s.dev.eave.stall = false →
      exec .eaveAccept s = .next (s.after { s.dev with eave := { s.dev.eave with stall := true, stallFrom := s.dev.now } })) ∧
    (∀ (x : Nat) (u d : Device), s.dev.eave.due = true ∨ s.dev.eave.stall = true → e.stamp = s.dev.expect →
      s.dev.storeFull e.ctx = false → s.dev.unstall = u → (u.expect + 1) % 2 ^ 32 = x →
      ({ u.setFld Reg.EAVE_EXPECT Fld.EAVE_EXPECT_X x with eave := { u.eave.passed x with due := true } }).count
        Reg.EAVE_ACCEPTED 1 = d → d.acceptEnding e = none →
      exec .eaveAccept s = .next (s.after { d with
        nextEntry := d.nextEntry + 1
        entries := d.entries ++ [{
          id := d.nextEntry, stamp := e.stamp, ctx := e.ctx, tag := e.tag, wen := bit (wordAt e.w 3) 12, wctx := e.wctx
          widx := bits (wordAt e.w 3) 11 0, wval := wordAt e.w 1, sen := bit (wordAt e.w 3) 32
          sigok := bit (wordAt e.w 3) 33, sidx := bits (wordAt e.w 3) 31 20, sval := wordAt e.w 2
          conc := bit (wordAt e.w 3) 34, cmd := e.cmd, state := .accepted, lane := none
          prev := (d.ctx e.ctx).lastEntry, ending := none }]
        ctxs := tset d.ctxs e.ctx { d.ctx e.ctx with lastEntry := some d.nextEntry } }))) ∧
  (∀ (c : Ctx) (v : Word) (s : State), s.dev.Up →
    (∀ (n : Nat) (g : Gutter), s.dev.gutter c = g → thas g.sent n = true →
      exec (.gutWriteFail c n) s = .next (s.after ((s.dev.setGutter c { g.takeBack n with blocked := g.blocked }).gutBlock c))) ∧
    ((((s.dev.gutter c).written + 2 ^ 32 - s.dev.fld (Reg.GUT_CONS c) Fld.GUT_CONS_CONS) % 2 ^ 32 <
        (bits v 31 0 + 2 ^ 32 - s.dev.fld (Reg.GUT_CONS c) Fld.GUT_CONS_CONS) % 2 ^ 32) →
      exec (.gutConsWrite c v) s = .next (s.after (s.dev.count Reg.GUT_CONS_IGNORED 1))) ∧
    (∀ left, (bits v 31 0 + 2 ^ 32 - s.dev.fld (Reg.GUT_CONS c) Fld.GUT_CONS_CONS) % 2 ^ 32 ≤
        ((s.dev.gutter c).written + 2 ^ 32 - s.dev.fld (Reg.GUT_CONS c) Fld.GUT_CONS_CONS) % 2 ^ 32 →
      ((s.dev.gutter c).written + 2 ^ 32 - bits v 31 0) % 2 ^ 32 = left →
      exec (.gutConsWrite c v) s = .next (s.after (((s.dev.setReg (Reg.GUT_CONS c) (BitVec.ofNat 64 (bits v 31 0))).setGutter c
        { s.dev.gutter c with sent := (s.dev.gutter c).sent.filter (fun p => decide ((s.dev.gutter c).written - left ≤ p.1)) }).gutDrain
          ((s.dev.gutter c).held.length + 1) c))) ∧
    (∀ q d, (if bits v 28 16 = 0 ∨ 4096 < bits v 28 16 + s.dev.otherQuotas c then s.dev.quota c else bits v 28 16) = q →
      s.dev.setReg (Reg.GUT_CTL c) (pack [(1, 1, bits v 1 1), (16, 13, q)]) = d →
      (bit v 0 = false → exec (.gutQuotaWrite c v) s = .next (s.after d)) ∧
      (bit v 0 = true → bit v 1 = false → exec (.gutRearm c v) s = .next (s.after ((d.setGutter c
        { d.gutter c with blocked := false, redirected := false }).gutDrain ((d.gutter c).held.length + 1) c)))) ∧
    exec (.ridgeFenceSelWrite v) s = .next (s.after ((s.dev.setReg Reg.RIDGE_FENCE_SEL (v &&& 0x3FFFF#64)).setReg
      Reg.RIDGE_FENCE_VAL (s.dev.fence (bits v 17 12) (bits v 11 0)))))

/-- ENTRY_START (R265, R289) and ENTRY_COMPLETE (R267, R278, R279): an entry starts once it may and its command is
issued; it completes, with the status and the report of its commands, when every one of them has ended. Commands of
the Ridge itself (R268, R269, R271, R275, R283): NOP, FENCE_SET, EXEC of a well-formed buffer, and SOF_PRELOAD on a
slice that takes it. -/
def Obligations.EntriesAndRidgeCommands : Prop :=
  ((∀ (e : Nat) (x : Entry) (d : Device) (s : State), s.dev.clk.stage = .thatched → s.dev.entry? e = some x →
    s.dev.mayStart x = true → (s.dev.mapEntry e (fun y => { y with state := .started })).unstall = d →
    (x.ending = none → exec (.entryStart e) s = .next (s.after (d.issue e x.ctx none 0 x.cmd false))) ∧
    (∀ g, x.ending = some g →
      exec (.entryStart e) s = .next (s.after (d.issueEnded e x.ctx none 0 x.cmd g default)))) ∧
  (∀ (e : Nat) (x : Entry) (s : State), s.dev.entry? e = some x → x.state = .started →
    (s.dev.jobsOf e).all s.dev.settled = true →
    exec (.entryComplete e) s = .next (s.after (s.dev.completeEntry x (entryResult (s.dev.jobsOf e)).1
      (entryResult (s.dev.jobsOf e)).2 true)))) ∧
  ((∀ (j : Nat) (k : Job) (s : State), s.dev.issued? j 0x00 = some k →
    exec (.cmdNop j) s = .next (s.after (s.dev.endJob j endOk))) ∧
  (∀ (j : Nat) (k : Job) (s : State), s.dev.issued? j 0x0A = some k →
    exec (.fenceSet j) s = .next (s.after ((s.dev.setFence (k.cmd.arg 36 31) (k.cmd.arg 30 19) k.cmd.c1).endJob j endOk))) ∧
  (∀ (j n : Nat) (k : Job) (d : Device) (bs : List Byte) (s : State), s.dev.issued? j 0x01 = some k →
    bits k.cmd.c2 31 0 = n → s.dev.bufs.any (fun b => b.job == j) = false → k.cmd.c1.toNat % 32 = 0 → 0 < n → n ≤ 65536 →
    s.dev.bufDepth 5 k.buf < 4 → k.buf.isSome = true ∨ s.dev.noPlace k.entry = false →
    s.dev.vload k.ctx 16 0 (k.cmd.c1.toNat : Int) (32 * n) = (d, .ok bs) → scanOk (cmdsOf bs) = true →
    exec (.exec j) s = .next (s.after (d.openBuf k k.ctx (cmdsOf bs) none none))) ∧
  (∀ (j t lines va ways : Nat) (k : Job) (d : Device) (ps : List (Nat × Nat)) (s : State),
    s.dev.issued? j 0x2B = some k → k.cmd.truss = t → s.dev.trussEnding k.ctx t 0 k.index = none →
    bits k.cmd.c2 16 0 = lines → lines ≤ 65536 → (s.dev.sof t).enabled = true → (s.dev.sof t).disabling = false →
    (s.dev.sof t).preload = none → bits k.cmd.c2 47 32 &&& (s.dev.sof t).wayMask = ways → ways ≠ 0 →
    k.ctx = 0 ∨ ways &&& s.dev.fillWays t k.ctx = ways → k.cmd.c1.toNat / 128 * 128 = va →
    vaOk (va : Int) (128 * preloadLines lines) = true →
    s.dev.translateAll k.ctx t 0 false (pieces (2 ^ 21) va (128 * preloadLines lines)) = (d, .ok ps) →
    exec (.sofPreload j) s = .next (s.after ((d.setSof t { d.sof t with
      preload := some ⟨lineRuns ps, BitVec.ofNat 16 ways, some j, va, k.ctx⟩, preloadDone := 0 }).mapJob j (fun k =>
        { k with state := .waiting })))))

/-- Fences go forward only (R266): a signal with a value at or after the fence's sets it, one before it changes no
fence and is counted, and no signal touches another fence. -/
def Obligations.FencesGoForward : Prop :=
  ∀ (d : Device) (c i : Nat) (v : Word),
    ((d.signal c i v).1.fence c i = if atOrAfter v (d.fence c i) then v else d.fence c i) ∧
    ((d.signal c i v).2 = true ↔ atOrAfter v (d.fence c i) = false) ∧
    (∀ b k, fenceKey b k ≠ fenceKey c i → (d.signal c i v).1.fence b k = d.fence b k)

/-- The control commands of a command buffer (R263, R266, R268, R276, R277, R299): one with a reserved field that is
not zero ends; else WAIT until its fence is at or after its value, a wait that has been accepted standing, SIGNAL and
BARRIER once every task issued before them has ended, LOOP, ENDLOOP, IF, ELSE and ENDIF by their places. Stored graphs
(R280 to R283): SEAL stores a new version that new launches bind, PATCH writes default slots of the current version
(KIND 0) or makes a further one with other commands (KIND 1), DROP takes the number, and LAUNCH, by the owner or
context 0, runs the version bound with its slots. -/
def Obligations.BuffersAndStoredGraphs : Prop :=
  (∀ (b opc : Nat) (x : Buf) (c : Cmd) (f : CmdForm) (s : State), s.dev.atControl? b opc = some (x, c) →
    cmdForm c.opc = some f →
    (c.reserved f x.slots.isSome = true → ∀ p ∈ [(0x08, Instr.cmdWait b), (0x09, .cmdSignal b), (0x0B, .barrier b),
        (0x0C, .loop b), (0x0D, .endloop b), (0x0E, .ifCmd b), (0x0F, .elseCmd b), (0x10, .endif b)], p.1 = opc →
      exec p.2 s = .next (s.after (s.dev.bufFail x c (endC stInternal 0x01 0 x.pc 0)))) ∧
    (c.reserved f x.slots.isSome = false →
    (opc = 0x08 → x.stands = true ∨ s.dev.mayWait x.ctx (c.arg 36 31) = true →
      exec (.cmdWait b) s = .next (s.after
        (if atOrAfter (s.dev.fence (c.arg 36 31) (c.arg 30 19)) c.c1 then s.dev.bufTo b (x.pc + 1)
         else s.dev.mapBuf b (fun y => { y with stands := true })))) ∧
    (opc = 0x08 → x.stands = false → s.dev.mayWait x.ctx (c.arg 36 31) = false →
      exec (.cmdWait b) s = .next (s.after (s.dev.bufFail x c (endC stViolation 0 0 x.pc 0)))) ∧
    (opc = 0x09 → s.dev.barrierOk b = true → atOrAfter c.c1 (s.dev.fence x.ctx (c.arg 30 19)) = true →
      exec (.cmdSignal b) s = .next (s.after ((s.dev.signal x.ctx (c.arg 30 19) c.c1).1.bufTo b (x.pc + 1)))) ∧
    (∀ d, opc = 0x09 → s.dev.barrierOk b = true → atOrAfter c.c1 (s.dev.fence x.ctx (c.arg 30 19)) = false →
      (s.dev.count Reg.RIDGE_FENCE_STALE 1).issueEnded x.entry x.ctx (some b) x.pc c endOk
        ((default : Report).note noteFenceStale) = d →
      exec (.cmdSignal b) s = .next (s.after (d.bufTo b (x.pc + 1)))) ∧
    (opc = 0x0B → exec (.barrier b) s =
      .next (s.after (if s.dev.barrierOk b then s.dev.bufTo b (x.pc + 1) else s.dev))) ∧
    (opc = 0x0C → c.arg 19 19 = 0 → c.c1 ≠ 0 → exec (.loop b) s = .next (s.after ((s.dev.mapBuf b (fun y =>
      { y with frames := ⟨x.pc, c.c1.toNat - 1⟩ :: y.frames })).bufTo b (x.pc + 1)))) ∧
    (opc = 0x0C → c.arg 19 19 = 0 → c.c1 = 0 →
      exec (.loop b) s = .next (s.after (s.dev.bufTo b (x.closingAt false + 1)))) ∧
    (∀ (d : Device) (bs : List Byte), s.dev.barrierOk x.id = true → c.arg 23 20 ≤ 5 → c.c1.toNat % 8 = 0 →
      s.dev.vload x.ctx 16 0 (c.c1.toNat : Int) 8 = (d, .ok bs) →
      (opc = 0x0C → c.arg 19 19 ≠ 0 → exec (.loop b) s = .next (s.after (d.bufTo b
        (if condHolds (c.arg 23 20) (bytesWord bs) c.c2 then x.pc + 1 else x.closingAt false + 1)))) ∧
      (opc = 0x0E → condHolds (c.arg 23 20) (bytesWord bs) c.c2 = true →
        exec (.ifCmd b) s = .next (s.after (d.bufTo b (x.pc + 1)))) ∧
      (∀ e, opc = 0x0E → condHolds (c.arg 23 20) (bytesWord bs) c.c2 = false → x.cmds[x.closingAt true]? = some e →
        exec (.ifCmd b) s = .next (s.after (d.bufTo b
          (if e.opc = 0x0F then x.closingAt true + 1 else x.closingAt true))))) ∧
    (∀ fr rest, opc = 0x0D → x.frames = fr :: rest → fr.start = opening x.cmds x.pc 0 →
      exec (.endloop b) s = .next (s.after (if fr.left = 0 then (s.dev.mapBuf b (fun y => { y with frames := rest })).bufTo b (x.pc + 1)
        else (s.dev.mapBuf b (fun y => { y with frames := { fr with left := fr.left - 1 } :: rest })).bufTo b (fr.start + 1)))) ∧
    (opc = 0x0D → x.frames = [] → exec (.endloop b) s = .next (s.after (s.dev.bufTo b (opening x.cmds x.pc 0)))) ∧
    (opc = 0x0F → exec (.elseCmd b) s = .next (s.after (s.dev.bufTo b (x.closingAt false)))) ∧
    (opc = 0x10 → exec (.endif b) s = .next (s.after (s.dev.bufTo b (x.pc + 1)))))) ∧
  ((∀ (j g n m : Nat) (k : Job) (d e : Device) (bs ds : List Byte) (v : GraphVer) (old : Option Graph) (s : State),
    s.dev.issued? j 0x03 = some k → k.cmd.arg 34 19 = g → bits k.cmd.c2 31 0 = n → k.cmd.arg 39 35 = m →
    s.dev.foreignGraph g k.ctx = false → m ≤ 16 → k.cmd.c1.toNat % 32 = 0 → k.cmd.c3.toNat % 8 = 0 → 0 < n → n ≤ 65536 →
    s.dev.vload k.ctx 16 0 (k.cmd.c1.toNat : Int) (32 * n) = (d, .ok bs) → k.cmd.c3 ≠ 0 →
    d.vload k.ctx 16 0 (k.cmd.c3.toNat : Int) (8 * m) = (e, .ok ds) → e.graph? g = old →
    v = ⟨Graph.newKey old, Graph.nextVersion old, cmdsOf bs, bytesWords ds⟩ → scanOk (cmdsOf bs) = true → substOk m (cmdsOf bs) = true → e.graphFits v = true →
    exec (.graphSeal j) s = .next (s.after
      (({ e with graphs := tset e.graphs g ⟨k.ctx, v.key, (match old with | some x => x.vers | none => []) ++ [v]⟩ }).pruneGraph g
        |>.endJob j endOk))) ∧
  (∀ (j g first n : Nat) (k : Job) (x : Graph) (v : GraphVer) (d : Device) (bs : List Byte) (s : State),
    s.dev.issued? j 0x04 = some k → k.cmd.arg 34 19 = g → bits k.cmd.c2 31 0 = first → bits k.cmd.c3 31 0 = n →
    k.cmd.arg 35 35 = 0 → s.dev.foreignGraph g k.ctx = false → s.dev.graph? g = some x → x.cur? = some v →
    k.cmd.c1.toNat % 8 = 0 → first + n ≤ v.defaults.length →
    s.dev.vload k.ctx 16 0 (k.cmd.c1.toNat : Int) (8 * n) = (d, .ok bs) →
    exec (.graphPatch j) s = .next (s.after (({ d with graphs := tset d.graphs g { x with vers := x.vers.map (fun (u : GraphVer) =>
      if u.key = v.key then
        { v with defaults := v.defaults.take first ++ bytesWords bs ++ v.defaults.drop (first + n) } else u) } }).endJob j endOk))) ∧
  (∀ (j g first n : Nat) (k : Job) (x : Graph) (v w : GraphVer) (d : Device) (bs : List Byte) (s : State),
    s.dev.issued? j 0x04 = some k → k.cmd.arg 34 19 = g → bits k.cmd.c2 31 0 = first → bits k.cmd.c3 31 0 = n →
    k.cmd.arg 35 35 = 1 → s.dev.foreignGraph g k.ctx = false → s.dev.graph? g = some x → x.cur? = some v →
    k.cmd.c1.toNat % 32 = 0 → first + n ≤ v.cmds.length →
    s.dev.vload k.ctx 16 0 (k.cmd.c1.toNat : Int) (32 * n) = (d, .ok bs) →
    w = ⟨Graph.newKey (some x), v.version + 1, v.cmds.take first ++ cmdsOf bs ++ v.cmds.drop (first + n), v.defaults⟩ →
    scanOk w.cmds = true → substOk v.defaults.length w.cmds = true →
    d.bufs.any (fun b => b.graph == some (g, v.key)) = false ∨ d.graphFits w = true →
    exec (.graphPatch j) s = .next (s.after (({ d with
      graphs := tset d.graphs g { x with current := w.key, vers := x.vers ++ [w] } }).pruneGraph g |>.endJob j endOk))) ∧
  (∀ (j : Nat) (k : Job) (x : Graph) (v : GraphVer) (s : State), s.dev.issued? j 0x05 = some k →
    s.dev.foreignGraph (k.cmd.arg 34 19) k.ctx = false → s.dev.graph? (k.cmd.arg 34 19) = some x → x.cur? = some v →
    exec (.graphDrop j) s = .next (s.after ((s.dev.dropGraph (k.cmd.arg 34 19)).endJob j endOk))) ∧
  (∀ (j g : Nat) (k : Job) (x : Graph) (v : GraphVer) (d : Device) (bs : List Byte) (s : State),
    s.dev.issued? j 0x02 = some k → k.cmd.arg 34 19 = g → s.dev.bufs.any (fun b => b.job == j) = false →
    s.dev.graph? g = some x → x.cur? = some v → (x.owner = k.ctx ∨ k.ctx = 0) → k.cmd.c1.toNat % 8 = 0 →
    s.dev.noPlace k.entry = false → k.cmd.c1 ≠ 0 →
    s.dev.vload k.ctx 16 0 (k.cmd.c1.toNat : Int) (8 * v.defaults.length) = (d, .ok bs) →
    exec (.launch j) s = .next (s.after ((d.count Reg.RIDGE_LAUNCHES 1).openBuf k x.owner v.cmds
      (some (launchSlots v (bytesWords bs) k.cmd)) (some (g, v.key))))))

/-- How engines take and give up tasks (R272, R284, R301 to R305): a free engine takes the first of its ready tasks; a
busy one may have its next task preloaded, the translations of a transfer's addresses filled; at a pre-emption point a
task told to stop does, and is counted, and a forced one, counted too, ends with INTERNAL, cause 0x09. -/
def Obligations.EnginesTakeAndGiveUpTasks : Prop :=
  ∀ (g : Engine) (j : Job) (s : State),
    (s.dev.clk.stage = .thatched → engTruss g ≠ 16 → s.dev.engineFree g = true → s.dev.nextTask g = some j →
      (j.run ≠ .none ∨ s.dev.trussEnding j.ctx (engTruss g) (engUnit g) j.index = none) → s.dev.engineOn (engTruss g) = true →
      s.dev.enginesFree j = true →
      exec (.engineTaskStart g) s = .next (s.after (s.dev.startTask g j))) ∧
    (s.dev.clk.stage = .thatched → s.dev.fld Reg.RIDGE_CTRL Fld.RIDGE_CTRL_AHEAD ≠ 0 → s.dev.running? g ≠ none →
      s.dev.nextTask g = some j → j.preloaded = false → j.state = .ready → j.run = .none →
      exec (.shingleAhead g) s = .next (s.after (((s.dev.dropAhead g none).mapJob j.id (fun j => { j with preloaded := true })).fillAhead g j))) ∧
    (engTruss g ≠ 16 → s.dev.running? g = some j → s.dev.atPoint g j = true → j.forced = false → j.preemptReq = true →
      s.dev.engineOn (engTruss g) = true →
      exec (.enginePreempt g) s = .next (s.after (s.dev.preemptTask g j))) ∧
    (engTruss g ≠ 16 → s.dev.running? g = some j → s.dev.atPoint g j = true → j.forced = true →
      exec (.enginePreempt g) s = .next (s.after
        (((((s.dev.noteJob j.id notePreempted).count (Reg.CTX_PREEMPT j.ctx) 1).endJob j.id (endC stInternal 0x09 (engUnit g) 0 0)).dropWork g j).dropAhead g none)))

/-- CTX_CREATE, CTX_SET, CTX_GRANT, GRANT_COMPLETE and CTX_RELEASE (R295 to R299). RELEASE_COMPLETE (R298),
CTX_DESTROY (R300) and DESTROY_PROCEED (R300): a release completes when no started task of its context is left on the
truss and it owns no queue there; a destruction ends the entries that have not started, then waits for the context's
work, takes its trusses, its translations and its graphs, and ends once its records are out and its meter record is
written. -/
def Obligations.ContextsLiveAndEnd : Prop :=
  ((∀ (j len : Nat) (k : Job) (s : State), s.dev.ctxOp? j .create = some k → k.target ≠ 0 →
    (s.dev.ctx k.target).state = 0 → k.ctxReserved .create = false → k.lenLimit = some len →
    exec (.ctxCreate j) s = .next (s.after ((s.dev.createCtx k.target
      { state := 1, prio := bits k.cmd.c1 2 0, lenLimit := len, tenant := bits k.cmd.c1 47 32
        fmask := k.cmd.c2, destroy := none, lastEntry := none }).endJob j endOk))) ∧
  (∀ (j len : Nat) (k : Job) (s : State), s.dev.ctxOp? j .set = some k → k.target ≠ 0 →
    (s.dev.ctx k.target).state = 1 → k.ctxReserved .set = false → k.lenLimit = some len →
    exec (.ctxSet j) s = .next (s.after ((s.dev.setCtx k.target { s.dev.ctx k.target with
      prio := bits k.cmd.c1 2 0, lenLimit := len, fmask := k.cmd.c2 }).endJob j endOk))) ∧
  (∀ (j t n i b : Nat) (k : Job) (x : TrussSt) (s : State), s.dev.ctxOp? j .grant = some k →
    (s.dev.ctx k.target).state = 1 → k.ctxReserved .grant = false → bits k.cmd.c1 3 0 = t → bits k.cmd.c1 15 8 = n →
    0 < n → n ≤ 120 → s.dev.grantable t = true → s.dev.slotOf? k.target t = none → s.dev.trussSt t = x →
    x.freeSlot = some i → x.freeRun n = some b →
    exec (.ctxGrant j) s = .next (s.after ((s.dev.setTruss t { x with
      slots := tset x.slots i { valid := true, ctx := k.target, base := b, size := n, ready := false } }).mapJob j (fun k =>
        { k with state := .waiting })))) ∧
  (∀ (j t i : Nat) (k : Job) (x : ShareSlot) (d : Device) (s : State), s.dev.job? j = some k → k.cmd.opc = 0x31 →
    k.cmd.arg 22 19 = 3 → k.state = .waiting → bits k.cmd.c1 3 0 = t → s.dev.slotOf? k.target t = some (i, x) →
    x.ready = false → (s.dev.loftZero t (x.base * granule) (x.size * granule)).clearSlot t i = d →
    exec (.grantComplete j) s = .next (s.after ((d.setTruss t { d.trussSt t with
      slots := tset (d.trussSt t).slots i { x with ready := true } }).endJob j endOk))) ∧
  (∀ (j t : Nat) (k : Job) (s : State), s.dev.ctxOp? j .release = some k → (s.dev.ctx k.target).state = 1 →
    k.ctxReserved .release = false → bits k.cmd.c1 3 0 = t → s.dev.slotOf? k.target t ≠ none →
    exec (.ctxRelease j) s = .next (s.after ((s.dev.startRelease k.target t (bit k.cmd.c1 8) (some j)).mapJob j (fun k =>
      { k with state := .waiting }))))) ∧
  ((∀ (c : Ctx) (t : Truss) (i j : Nat) (sl : ShareSlot) (s : State), s.dev.slotOf? c t = some (i, sl) → sl.ready = true →
    (s.dev.trussSt t).releasing.filter (fun r => r.1 == c.val) = [(c.val, false, some j)] →
    s.dev.jobs.any (fun j => j.startedTask && j.ctx == c.val && j.onTruss t) = false →
    [0, 1].any (fun e => (tget s.dev.lth (2 * t.val + e) default).owns c.val) = false →
    exec (.releaseComplete c t) s = .next (s.after ((s.dev.setTruss t { s.dev.trussSt t with
      slots := tdel (s.dev.trussSt t).slots i
      releasing := (s.dev.trussSt t).releasing.filter (fun r => r.1 != c.val) }).endJob j endOk).startTests)) ∧
  (∀ (j c : Nat) (k : Job) (x : Context) (d : Device) (s : State), s.dev.ctxOp? j .destroy = some k → k.target = c →
    s.dev.ctx c = x → c ≠ 0 → x.state ≠ 0 → k.ctxReserved .destroy = false → x.destroy = none →
    s.dev.contextNamed c = false →
    (((s.dev.setCtx c { x with state := 2, destroy := some (j, bit k.cmd.c1 0, 3) }).endUnstarted c).mapJob j (fun k =>
      { k with state := .waiting })) = d →
    exec (.ctxDestroy j) s = .next (s.after (if bit k.cmd.c1 0 then d.forceContext c else d).serveAgain)) ∧
  (∀ (c : Ctx) (j : Nat) (s : State), (s.dev.ctx c).destroy = some (j, false, 3) → s.dev.contextBusy c = true →
    exec (.destroyProceed c) s = .next (s.after s.dev.serveAgain)) ∧
  (∀ (c : Ctx) (j : Nat) (d : Device) (s : State), (s.dev.ctx c).destroy = some (j, false, 8) →
    (s.dev.gutter c).held = [] → s.dev.meterFinal c = some d →
    exec (.destroyProceed c) s = .next (s.after
      ((d.setCtx c default).endJob j endOk).serveAgain)))

/-! ### Translation and HBM (10, 11) -/

/-- XLT_ANSWER (R311, R314): an answer to a request that still waits maps its page, fails it or asks for patience, and
requests of other devices go on; one that no request waits for is counted late. The translation requests (R310, R312,
R313): one unanswered for RESEND is sent again, up to RETRIES times, and then fails with XLT_FAULT, cause 0x42; a
failed ring write blocks the ring; a consumer count beyond what was written is not taken; XLT_REQ_CFG unblocks the
ring; and a REQID withdrawn by a destruction is free again after the late-answer interval. MAP, UNMAP and FLUSH
(R315): MAP installs its page; UNMAP and FLUSH remove the context's translations over their range and complete when
nothing in flight still uses their pages. -/
def Obligations.TranslationRequestsAndAnswers : Prop :=
  (∀ (v : Word) (r : XReq) (s : State), s.dev.Up →
    (s.dev.xlt.reqs.find? (fun r => r.reqid == bits v 11 0) = none →
      exec (.xltAnswer v) s = .next (s.after (s.dev.count Reg.XLT_ANSWER_LATE 1).serveAgain)) ∧
    (s.dev.xlt.reqs.find? (fun r => r.reqid == bits v 11 0) = some r → r.destroyed = false → r.withdrawn = false →
      (∀ (x : Xlation) (d : Device), bits v 17 16 = 0 → s.dev.answerPage r.ctx r.va v = some x →
        r.waiters.foldl (fun d w => if w.2.1 < 16 then { d with xlt := d.xlt.fillL1 w.2.1 x } else d) (s.dev.install x) = d →
        exec (.xltAnswer v) s = .next (s.after ((r.waiters.foldl (fun d w =>
          if w.2.2.2 && !x.wr then d.failWaiter stViolation 0x45 w else d.wake w.1) d).freeReq r.reqid).serveAgain)) ∧
      (bits v 17 16 = 0 → s.dev.answerPage r.ctx r.va v = none →
        exec (.xltAnswer v) s = .next (s.after (s.dev.failReq r stViolation 0x46).serveAgain)) ∧
      (bits v 17 16 = 1 → exec (.xltAnswer v) s = .next (s.after (s.dev.failReq r stXltFault 0x41).serveAgain)) ∧
      (bits v 17 16 = 2 → exec (.xltAnswer v) s = .next (s.after (s.dev.failReq r stViolation 0x47).serveAgain)) ∧
      (bits v 17 16 = 3 → exec (.xltAnswer v) s =
        .next (s.after (s.dev.mapReq r.reqid (fun r => { r with since := s.dev.now, resends := 0 })).serveAgain)))) ∧
  (∀ (n : Nat) (v : Word) (r : XReq) (s : State), s.dev.Up →
    (s.dev.xlt.reqs.find? (fun r => r.reqid == n) = some r →
      (r.sent = true → r.withdrawn = false → r.destroyed = false → r.since + s.dev.resendNs ≤ s.dev.now →
        (r.resends < s.dev.fld Reg.XLT_CTRL Fld.XLT_CTRL_RETRIES →
          exec (.xltResend n) s = .next (s.after ((s.dev.mapReq n (fun r =>
            { r with resends := r.resends + 1, resent := true, sent := false })).xltSend n).serveAgain)) ∧
        (s.dev.fld Reg.XLT_CTRL Fld.XLT_CTRL_RETRIES ≤ r.resends →
          exec (.xltResend n) s = .next (s.after (s.dev.failReq r stXltFault 0x42).serveAgain))) ∧
      (r.destroyed = true →
        r.since + s.dev.resendNs * (s.dev.fld Reg.XLT_CTRL Fld.XLT_CTRL_RETRIES + 1) ≤ s.dev.now →
        exec (.xltReqidReclaim n) s = .next (s.after (s.dev.freeReq n)))) ∧
    exec .xltRingWriteFail s = .next (s.after s.dev.xltRingFail.serveAgain) ∧
    ((s.dev.xlt.prod + 2 ^ 32 - s.dev.fld Reg.XLT_REQ_CONS Fld.XLT_REQ_CONS_CONS) % 2 ^ 32 <
        (bits v 31 0 + 2 ^ 32 - s.dev.fld Reg.XLT_REQ_CONS Fld.XLT_REQ_CONS_CONS) % 2 ^ 32 →
      exec (.xltReqConsWrite v) s = .next (s.after s.dev)) ∧
    ((bits v 31 0 + 2 ^ 32 - s.dev.fld Reg.XLT_REQ_CONS Fld.XLT_REQ_CONS_CONS) % 2 ^ 32 ≤
        (s.dev.xlt.prod + 2 ^ 32 - s.dev.fld Reg.XLT_REQ_CONS Fld.XLT_REQ_CONS_CONS) % 2 ^ 32 →
      exec (.xltReqConsWrite v) s = .next (s.after ((s.dev.setReg Reg.XLT_REQ_CONS (BitVec.ofNat 64 (bits v 31 0))).xltDrain
        s.dev.xlt.ringHeld.length))) ∧
    (∀ d : Device, 6 ≤ bits v 4 0 → bits v 4 0 ≤ 12 → s.dev.setReg Reg.XLT_REQ_CFG (v &&& 0xFFFFFFFFFFFFFF1F#64) = d →
      exec (.xltReqCfgWrite v) s = .next (s.after ({ d with xlt := { d.xlt with blocked := false } }.xltDrain
        d.xlt.ringHeld.length)))) ∧
  ((∀ (j : Nat) (k : Job) (x : Xlation) (s : State), s.dev.xltOp? j 0 = some k →
    k.cmd.c2.toNat &&& answerReserved = 0 → k.cmd.c1.toNat < 2 ^ 52 →
    s.dev.answerPage k.ctx k.cmd.c1.toNat k.cmd.c2 = some x →
    exec (.xltMap j) s = .next (s.after ((s.dev.install x).endJob j endOk).serveAgain)) ∧
  (∀ (j : Nat) (k : Job) (s : State),
    (s.dev.xltOp? j 1 = some k → (k.cmd.c2 = 0 ∨ k.cmd.c1.toNat + k.cmd.c2.toNat ≤ 2 ^ 52) →
      exec (.xltUnmap j) s = .next (s.after (s.dev.unmap k).serveAgain)) ∧
    (s.dev.xltOp? j 2 = some k → exec (.xltFlush j) s = .next (s.after (s.dev.unmap k).serveAgain)) ∧
    (s.dev.job? j = some k → k.cmd.opc = 0x32 → k.state = .waiting → k.waitFrom = none →
      (s.dev.xlt.pins.filter (fun p => p.1 == j)).any (fun p => s.dev.pinHolds k.ctx k.covers p.2) = false →
      exec (.xltUnmapComplete j) s = .next (s.after (s.dev.unmapDone k).serveAgain))))

/-- After UNMAP or FLUSH no translation of the context over the range is left at either level (R315). -/
def Obligations.UnmapRemovesTranslations : Prop :=
  ∀ (x : Xlt) (c a n : Nat) (e : Xlation), e.ctx = c → overlap e.va (pageSize e.size) a n = true →
    (∀ k l, (k, l) ∈ (x.remove c a n).l1 → e ∉ l) ∧ (∀ k l, (k, l) ∈ (x.remove c a n).l2 → e ∉ l)

/-- A write request within one granule of reachable addresses on a controller that is not held (R22, R329, R330): it
completes; bytes outside it read as before unless it covers an uncorrectable sector in part, which is a read that is
logged; and where no sector of it is uncorrectable and none lies on a retired channel, its bytes read as written.
Contexts are numbered below 64 (10). -/
def Obligations.HbmWritesOnlyItsBytes : Prop :=
  ∀ (a : Nat) (bs : List Byte) (use : MemUse) (c : Ctx) (job : Option Nat) (s : State), s.Settled →
    a % 4096 + bs.length ≤ 4096 → s.dev.hbm.allReachable a bs.length = true → s.dev.heldAt a = false →
    (∀ i k, job = some i → s.dev.job? i = some k → k.ctx < 64) →
    ∃ t : State, exec (.memWriteRequest a bs ⟨use, job⟩ c .clean) s = .next t ∧
      ((pieces 32 a bs.length).all (fun p => p.2 == 32 || !s.dev.hbm.sectorBad p.1) = true →
        ∀ x, x < a ∨ a + bs.length ≤ x → memGet t.dev.hbm.mem x = memGet s.dev.hbm.mem x) ∧
      (memWf s.dev.hbm.mem = true → s.dev.hbm.bad = [] → (∀ x, s.dev.hbm.onRetired x = false) →
        ∀ i, i < bs.length → memGet t.dev.hbm.mem (a + i) = bs.getD i 0)

/-- HBM, the Loft slices and the staging buffer stay in canonical form under every command that stores to HBM by
itself and under the Loft patrol. The canonical form is the model's (DESIGN CHOICE, log entry 1). -/
def Obligations.MemoriesStayCanonical : Prop :=
  ∀ (s t : State) (a line : Nat) (bs : List Byte) (k : MemUse) (c : Ctx) (job : Option Nat) (p : OnChip)
    (ops : List (Nat × NmaOp)) (e : SectorErr) (errs : List SectorErr) (v : Word) (u : Truss) (o : EccErr),
    s.dev.MemoryWf →
    exec (.memWriteRequest a bs ⟨k, job⟩ c p) s = .next t ∨ exec (.memReadRequest a ⟨k, job⟩ c e p) s = .next t ∨
      exec (.nmaOp ops ⟨k, job⟩ c) s = .next t ∨ exec .maintHoldEnd s = .next t ∨ exec (.frameConvert v) s = .next t ∨
      exec (.scrub a errs) s = .next t ∨ exec (.loftPatrol u line o) s = .next t →
    t.dev.MemoryWf

/-- Reads, near-memory operations, ageing and scrub (R324 to R327, R329 to R333): an access that its path does not
bring through is not made; a request for a held channel waits at its controller; a served one that fails ends its
issuing task; a near-memory operation's flags reach that task's notes; and the scrub decodes the four sectors of its
burst. Maintenance (R334 to R337): the next slot is announced at least ANNOUNCE ahead; in a slot each stack's own
channel is retrained and queued work is done; the hold's end releases every channel; a sweep ends; and the channel
commands queue their work. -/
def Obligations.HbmRequestsAndMaintenance : Prop :=
  ((∀ (a : Nat) (k : MemUse) (c : Ctx) (job : Option Nat) (e : SectorErr) (p : OnChip) (d : Device) (s : State),
    (s.dev.crossPath a job p = (d, false) → exec (.memReadRequest a ⟨k, job⟩ c e p) s = .next (s.after d)) ∧
    (s.dev.crossPath a job p = (d, true) → d.heldAt a = true →
      exec (.memReadRequest a ⟨k, job⟩ c e p) s = .next (s.after { d with hbm := { d.hbm with
        waiting := d.hbm.waiting ++ [⟨d.hbm.nextReq, a, .read e, memClass k, c, job, d.now⟩]
        nextReq := d.hbm.nextReq + 1 } })) ∧
    (s.dev.crossPath a job p = (d, true) → d.heldAt a = false → d.hbm.reachable a = false →
      exec (.memReadRequest a ⟨k, job⟩ c e p) s = .next (s.after (d.failIssuerTask job stViolation 0x46 a))) ∧
    (∀ x ok, s.dev.crossPath a job p = (d, true) → d.heldAt a = false → d.hbm.reachable a = true →
      (d.chargeHbm c .hbmRd a 32).decodeSector (if job.isSome then 2 else 0) a e = (x, ok) →
      exec (.memReadRequest a ⟨k, job⟩ c e p) s = .next (s.after (if ok then x else x.failIssuerTask job stUncorr 0 a)))) ∧
  (∀ (ops : List (Nat × NmaOp)) (a : Nat) (op : NmaOp) (k : MemUse) (c : Ctx) (job : Option Nat) (s : State),
    nmaGroupOk ((a, op) :: ops) = true → s.dev.heldAt a = false →
    exec (.nmaOp ((a, op) :: ops) ⟨k, job⟩ c) s = .next (s.after
      (((a, op) :: ops).foldl (fun d p => d.serveOp c job p) s.dev))) ∧
  (∀ (a : Nat) (op : NmaOp) (c : Ctx) (j n : Nat) (o : NmaOut) (d : Device), a / 32 * 32 = n →
    d.hbm.reachable n = true → d.hbm.sectorBad n = false → nmaOn op (memRead d.hbm.mem n 32) (a - n) = o →
    d.serveOp c (some j) (a, op) = ((((d.hbmStore 2 c n o.sector).1.count Reg.MEM_NMA_OPS 1).count Reg.MEM_NMA_SAT o.clamps).report
      j { (default : Report) with notes := flagNotes o.flags })) ∧
  (∀ (q : MemReq) (s : State), s.dev.hbm.waiting.find? (fun p => p.id == q.id && p.cls != 0 &&
      decide (p.since + max 1 (s.dev.fld Reg.MEM_PRIO Fld.MEM_PRIO_AGE) < s.dev.now)) = some q →
    exec (.memAge q.id) s = .next (s.after ({ s.dev with hbm := { s.dev.hbm with
      waiting := s.dev.hbm.waiting.map (fun (p : MemReq) => if p.id = q.id then
        { p with cls := p.cls - 1, since := p.since + max 1 (s.dev.fld Reg.MEM_PRIO Fld.MEM_PRIO_AGE) } else p) } }.count
      Reg.MEM_AGED 1))) ∧
  (∀ (a b : Nat) (errs : List SectorErr) (s : State), s.dev.fld Reg.MEM_CTRL Fld.MEM_CTRL_SCRUB_EN ≠ 0 → a / 128 * 128 = b →
    s.dev.hbm.reachable b = true → s.dev.hbm.onRetired b = false → s.dev.heldAt b = false →
    exec (.scrub a errs) s = .next (s.after ((List.range 4).foldl (fun d k =>
      (d.decodeSector 0 (b + 32 * k) (errs.getD k (.lanes []))).1)
        ((s.dev.count Reg.MEM_SCRUB_BURSTS 1).chargeHbm deviceAccount .hbmRd b 128))))) ∧
  ((∀ s : State, s.dev.Up → exec .maintAnnounce s = .next (s.after s.dev.announceSlot)) ∧
  (∀ d : Device, d.fld Reg.MEM_MAINT Fld.MEM_MAINT_EN = 1 → d.hbm.nextSpacings = [] → 0 < d.hbm.spacing →
    ∃ t, d.announceSlot.hbm.announced = d.hbm.announced ++ [t] ∧ d.now + d.announceNs ≤ t ∧ t % d.hbm.spacing = 0) ∧
  (∀ (failing : List Nat) (t own : Nat) (rest : List Nat) (h : Hbm) (w : List (Nat × Nat × Nat) × List (Nat × Nat × Nat))
    (s : State),
    s.dev.hbm.announced = t :: rest → t ≤ s.dev.now → s.dev.fld Reg.MEM_MAINT Fld.MEM_MAINT_EN ≠ 0 →
    s.dev.hbm.spacingAt t = h → t / max 1 h.spacing % 32 = own →
    pickWork own (h.queued.filter (fun w => w.2.1 != 1 || w.1 % 32 != own)) [] = w →
    exec (.maintSlot failing) s = .next (s.after (w.1.foldl (fun d x => d.doWork x failing)
      ((List.range 16).foldl (fun d k => d.retrain (32 * k + own) (failing.contains (32 * k + own)))
        { s.dev with hbm := { h with announced := rest, lastSlot := t, queued := w.2 } })))) ∧
  (∀ s : State, s.dev.hbm.chans.any (fun p => p.2.held) = true →
    exec .maintHoldEnd s = .next (s.after (s.dev.turns.foldl
      (fun d q => d.serveReq q) ({ s.dev with hbm := { s.dev.hbm with
        chans := s.dev.hbm.chans.map (fun (p : Nat × Chan) => (p.1, { p.2 with held := false })), waiting := [] } }.count
          Reg.MEM_HOLD_NS (min 4000 (s.dev.now - s.dev.hbm.lastSlot)))))) ∧
  (∀ (floor run : Nat) (ws : List MemReq) (a b : List MemReq) (p q : MemReq), (ws.map (fun r => r.id)).Nodup →
    ws = a ++ p :: b → q ∈ b → p.meets q = true →
    ∃ x y, serveOrder floor ws.length run ws = x ++ p :: y ∧ q ∈ y) ∧
  (∀ (c mib : Nat) (h : Chan) (s : State), s.dev.chan c = h → h.sweeping = true →
    (mib < 1152 → exec (.laneSweepDone ⟨c, mib⟩) s = .next (s.after
      (((s.dev.setChan c { h with sweep := max h.sweep mib }).charge deviceAccount .hbmRd ((mib - h.sweep) * 2 ^ 20)
        (c / 32)).charge deviceAccount .hbmWr ((mib - h.sweep) * 2 ^ 20) (c / 32)))) ∧
    (∀ d : Device, 1152 ≤ mib → s.dev.setChan c { h with sweeping := false, sweep := max h.sweep 1152 } = d →
      exec (.laneSweepDone ⟨c, mib⟩) s = .next (s.after ((Device.charge { d with hbm := { d.hbm with
          rewritten := d.hbm.rewritten.filter (fun x => d.hbm.chanOf (32 * x) != c) } }
        deviceAccount .hbmRd ((1152 - h.sweep) * 2 ^ 20) (c / 32)).charge deviceAccount .hbmWr
          ((1152 - h.sweep) * 2 ^ 20) (c / 32))))) ∧
  (∀ (v : Word) (s : State), s.dev.Up →
    (bits v 1 0 = 1 → exec (.memPcRetrain v) s = .next (s.after (s.dev.queueWork s.dev.selChan 1 (bits v 13 8)))) ∧
    (bits v 1 0 = 2 → exec (.memPcRepair v) s = .next (s.after (s.dev.queueWork s.dev.selChan 2 (bits v 13 8)))) ∧
    (bits v 1 0 = 3 → exec (.memPcRetire v) s = .next (s.after (s.dev.queueWork s.dev.selChan 3 (bits v 13 8))))))

/-- MEM_MAINT, the map slots and frame conversion (R334, R338, R339): slots begin at a multiple of SPACING at least
ANNOUNCE ahead; a map slot that a frame follows is not written; an accepted conversion switches its frame and reads as
zero from then on, and a refused one only says why. -/
def Obligations.MapSlotsAndFrames : Prop :=
  ∀ (v : Word) (s : State), s.dev.Up →
    (∀ d : Device, bit v 0 = false →
      s.dev.setReg Reg.MEM_MAINT (pack [(0, 1, bits v 0 0), (16, 16, max 100 (bits v 31 16)), (32, 16, bits v 47 32)]) = d →
      exec (.memMaintWrite v) s = .next (s.after { d with hbm := { d.hbm with
        announced := [], spacing := max 100 (bits v 31 16) * 1000, nextSpacings := [] } })) ∧
    (∀ d : Device, bit v 0 = true → s.dev.fld Reg.MEM_MAINT Fld.MEM_MAINT_EN = 0 →
      s.dev.setReg Reg.MEM_MAINT (pack [(0, 1, bits v 0 0), (16, 16, max 100 (bits v 31 16)), (32, 16, bits v 47 32)]) = d →
      exec (.memMaintWrite v) s = .next (s.after { d with hbm := { d.hbm with
        spacing := max 100 (bits v 31 16) * 1000, nextSpacings := []
        firstSlot := multipleAfter (max 100 (bits v 31 16) * 1000) (d.now + d.announceNs) } })) ∧
    (∀ (m : Fin 2) (r : Fin 9), s.dev.hbm.followed m = true →
      exec (.mapSlotWrite m r v) s = .next (s.after (s.dev.setFld Reg.MEM_STATUS Fld.MEM_STATUS_MAP_REFUSED 1))) ∧
    (∀ (m : Fin 2) (h : Hbm), s.dev.hbm.followed m = false → (s.dev.hbm.slot m).k ≤ 32 →
      s.dev.hbm.retiredInUse (s.dev.hbm.slot m).excl = false →
      s.dev.hbm.setSlot m { s.dev.hbm.slot m with seed := bits v 31 0, valid := bit v 63 } = h →
      exec (.mapSlotWrite m 0 v) s = .next (s.after { s.dev with hbm := h })) ∧
    (∀ (f m : Nat) (d : Device), s.dev.setReg Reg.MEM_FRAME_CMD (v &&& 0x7FF#64) = d → bit v 63 = true → bits v 9 0 = f →
      bits v 10 10 = m →
      (∀ c, d.convertCause f m = c → c ≠ 0 →
        exec (.frameConvert v) s = .next (s.after (d.setFld Reg.MEM_STATUS Fld.MEM_STATUS_FRAME_CAUSE c))) ∧
      (d.convertCause f m = 0 → memWf s.dev.hbm.mem = true → ∃ e : Device,
        exec (.frameConvert v) s = .next (s.after e) ∧ e.hbm.converting = some f ∧
        e.hbm.onMap1.contains f = (m == 1) ∧ (∀ x, x / 2 ^ 30 = f → memGet e.hbm.mem x = 0) ∧
        (∀ x, x / 2 ^ 30 ≠ f → memGet e.hbm.mem x = memGet s.dev.hbm.mem x))) ∧
    (∀ f, s.dev.hbm.converting = some f →
      exec .frameConvertDone s = .next (s.after ({ s.dev with hbm := { s.dev.hbm with converting := none } }.charge
        deviceAccount .hbmWr (512 * (512 - (s.dev.hbm.slotOf f).k) * 4096) 16)))

/-! ### Links, rings and collectives (12) -/

/-- LINK_FLIT_RX (R348, R350, R353): a flit with a bad CRC is discarded and a replay asked for, the link going down
once RETRY_MAX replays have been asked for in a row; one out of sequence is discarded; a good one is counted,
acknowledged, its trailer taken up, and a packet that it ends goes on or is taken here. LINK_HEARTBEAT and
LINK_HB_TIMEOUT (R351), LINK_DOWN (R356) and LINK_TRAINED (R352, R353, R357): a neighbour that held this path and
trains again with the same peer lets what it held go on (R366). Notices about requests that left the device (R359,
R361, R362, Table 12-5): a held notice restarts an open request's limit once, unless its link runs version 1.1; an
unreachable notice ends its task, or its collective, with REMOTE_LOST, cause 0x52 where a link went down and 0x53
otherwise, and a refusal ends a task with the status and cause it names. -/
def Obligations.LinksAndNotices : Prop :=
  (∀ (l : LinkNo) (f : Flit) (x : Link) (s : State), s.dev.link l = x →
    (∀ d : Device, x.isUp = true → (if f.corrected then (s.dev.setLink l { x with lastRx := s.dev.now }).count (Reg.LNK_FEC_CORR l) 1
        else s.dev.setLink l { x with lastRx := s.dev.now }) = d →
      (∀ e : Device, f.crcOk = false →
        (d.setLink l { x with lastRx := s.dev.now, replays := x.replays + 1 }).emit (.replayRequest l x.rxSeq) = e →
        exec (.linkFlitRx l f) s = .next (s.after
          (if max 1 (e.fld Reg.LNK_CTRL Fld.LNK_CTRL_RETRY_MAX) ≤ x.replays + 1 then e.goDown l 2 else e))) ∧
      (f.crcOk = true → f.seq ≠ x.rxSeq → exec (.linkFlitRx l f) s = .next (s.after d)) ∧
      (∀ e : Device, f.crcOk = true → f.seq = x.rxSeq →
        (((d.setLink l { x with lastRx := s.dev.now, rxSeq := x.rxSeq + 1, replays := 0, rxPart := x.rxPart + 1 }).count
          (Reg.LNK_FLITS_RX l) 1).emit (.ack l (x.rxSeq + 1))).trailer l f = e →
        exec (.linkFlitRx l f) s = .next (s.after (match f.packet with
          | some p => if (e.link l).isUp then e.packetIn l p else e
          | none => e)))) ∧
    (x.isUp = true →
      exec (.linkHeartbeat l) s = .next (s.after ((s.dev.setLink l { x with lastTx := s.dev.now }).emit (.heartbeat l)))) ∧
    (x.lastRx + max 1 (s.dev.fld Reg.LNK_CTRL Fld.LNK_CTRL_HB_TIMEOUT) * 1000 ≤ s.dev.now →
      exec (.linkHbTimeout l) s = .next (s.after (s.dev.goDown l 1))) ∧
    (s.dev.now < x.lastRx + max 1 (s.dev.fld Reg.LNK_CTRL Fld.LNK_CTRL_HB_TIMEOUT) * 1000 →
      exec (.linkHbTimeout l) s = .next (s.after s.dev)) ∧
    (∀ c, exec (.linkDown l c) s = .next (s.after (s.dev.goDown l (c % 16)))) ∧
    (x.isUp = false → s.dev.linksOn = true → s.dev.spanRing (l / 8) = true → (s.dev.splice (l / 16)).bypassOpen = true →
      (∀ (half : Bool) (version peer : Nat) (depths : List Nat) (t : Tbl Nat) (y : Link) (d : Device),
        half = false ∨ version ≠ 1 → (List.range 8).map (fun k => (k, depths.getD k 0)) = t →
        y = { (default : Link) with
          state := 2, half := half, version := if version = 1 then 1 else 2
          fec := version != 1 && s.dev.fld (Reg.SPN_CFG (l / 8)) Fld.SPN_CFG_FEC == 1
          cause := x.cause, peer := peer % 2 ^ 18, depth := t, credit := t, lastRx := s.dev.now, lastTx := s.dev.now } →
        s.dev.setLink l y = d →
        exec (.linkTrained l (.up half version depths peer)) s = .next (s.after
          (if y.peer == x.peer && (d.splice (l / 16)).holds (l.val / 8 % 2 == 0) &&
              (d.upLinks (l / 8)).all (fun k => (d.link k).state == 2) then d.releaseHeld (l / 16) (l.val / 8 % 2 == 0) else d))) ∧
      (∀ (depths : List Nat) (peer : Nat), ∀ r ∈ [TrainResult.up true 1 depths peer, .noLanes, .gap],
        exec (.linkTrained l r) s = .next (s.after (s.dev.trainFailed l 4 4))) ∧
      exec (.linkTrained l .noCommonVersion) s = .next (s.after (s.dev.trainFailed l 0 5)))) ∧
  ((∀ (l : LinkNo) (rtag : Nat) (lost : Bool) (s : State),
    ((s.dev.link l).version ≠ 1 → exec (.heldNotice ⟨l, rtag⟩) s = .next (s.after (s.dev.grace rtag))) ∧
    ((s.dev.link l).version = 1 → exec (.heldNotice ⟨l, rtag⟩) s = .next (s.after s.dev)) ∧
    (s.dev.colTag rtag = none → exec (.unreachable ⟨rtag, lost⟩) s =
      .next (s.after (s.dev.failRemote rtag stRemoteLost (if lost then 0x52 else 0x53)))) ∧
    (∀ e c dev, s.dev.colTag rtag = some (e, c, dev) → exec (.unreachable ⟨rtag, lost⟩) s =
      .next (s.after (s.dev.colAbort e c 6 dev stRemoteLost (if lost then 0x52 else 0x53) dev))) ∧
    (∀ status cause, exec (.remoteRefusal rtag status cause) s =
      .next (s.after (s.dev.failRemote rtag (status % 256) (cause % 256))))) ∧
  (∀ (source rtag dim : Nat) (h : HeldPkt) (d : Device) (p : Packet) (s : State),
    [0, 1, 2].findSome? (fun i => ((s.dev.splice i).holding.find? (fun h => h.packet.src == source && h.packet.rtag == rtag
      && isRequest h.packet && !h.noticed && decide (h.since + 10000 < s.dev.now))).map (fun h => (i, h))) = some (dim, h) →
    s.dev.setSplice dim { s.dev.splice dim with holding := (s.dev.splice dim).holding.map (fun (k : HeldPkt) =>
        if k.packet.src == source && k.packet.rtag == rtag && isRequest k.packet && !k.noticed &&
          decide (k.since + 10000 < s.dev.now) then { k with noticed := true } else k) } = d →
    s.dev.note 0x0B source h.packet.ctx rtag [] = p →
    (source = s.dev.devnum → exec (.heldNoticeSent source rtag) s = .next (s.after (d.grace rtag))) ∧
    (∀ l, source ≠ s.dev.devnum → s.dev.firstLink p = some l →
      ((s.dev.link l).version ≠ 1 →
        exec (.heldNoticeSent source rtag) s = .next (s.after ((d.count (Reg.LNK_HELD_NOTICES l) 1).send p).1)) ∧
      ((s.dev.link l).version = 1 → exec (.heldNoticeSent source rtag) s = .next (s.after s.dev)))) ∧
  (∀ (d : Device) (rtag : Nat) (r : Remote), d.remotes = [r] → r.rtag = rtag → r.graced = false →
    (d.grace rtag).remotes = [{ r with
      graced := true, deadline := some (d.now + d.fld Reg.LNK_CTRL Fld.LNK_CTRL_HOLD_GRACE * 1000) }] ∧
    ((d.grace rtag).grace rtag).remotes = (d.grace rtag).remotes))

/-- Flits are sent only within the credits of their own channel and class and within the retry buffer (R350, R353):
sending takes them from both and touches no other channel's credits, and a packet all sent waits for its
acknowledgement. -/
def Obligations.CreditsCoverWhatIsSent : Prop :=
  ∀ (x : Link) (t : TxPkt) (n now : Nat), n ≤ x.room (chanKey t.packet) →
    tget (x.sent t n now).credit (chanKey t.packet) 0 + n = tget x.credit (chanKey t.packet) 0 ∧
    (∀ k, k ≠ chanKey t.packet → tget (x.sent t n now).credit k 0 = tget x.credit k 0) ∧
    (0 < n → (x.sent t n now).txSeq - x.acked ≤ x.retryCap) ∧
    (x.sent t n now).retry = x.retry ++ [(x.txSeq, n, t.packet)] ∧
    (flitsOf t.packet - t.sent ≤ n → (x.sent t n now).unacked = x.unacked ++ [(x.txSeq + n - 1, t.packet)])

/-- Joining and leaving a ring (R363 to R367): a join closes with its neighbours' HELD, opens its bypass, trains its
links within its limit, and ends with the new membership; BUSY and silence are tried again; a leave drains and asks,
then opens no more; a neighbour's request makes this device hold the path; and during a Flashing restart it is
answered BUSY (R410). -/
def Obligations.SplicesOfRings : Prop :=
  ∀ (dim : Dim) (x : Splice) (s : State), s.dev.splice dim = x →
    (s.dev.Up → s.dev.splicing = false → x.state = 0 → s.dev.ringUsed dim = true → s.dev.devnumValid = true →
      s.dev.linksOn = true →
      exec (.spliceJoin dim) s = .next (s.after (({ s.dev with clk := { s.dev.clk with joinBegun := true } }.setSplice dim
        { x with state := 1, step := 1, heldPlus := false, heldMinus := false, since := s.dev.now, silences := 0, coeffs := true }).askBoth
          dim 1))) ∧
    (s.dev.Up → s.dev.splicing = false → x.state = 2 →
      exec (.spliceLeave dim) s = .next (s.after ((s.dev.setSplice dim
        { x with state := 3, step := 0, heldPlus := false, heldMinus := false, since := s.dev.now }).checkLeave dim))) ∧
    (∀ plus, s.dev.linksOn = true → x.state ≠ 2 ∨ x.holds plus = true ∨ s.dev.fls.restarting = true →
      exec (.joinRequest dim plus) s = .next (s.after (s.dev.spliceMsg dim plus 4))) ∧
    (∀ (plus : Bool) (y : Splice), s.dev.linksOn = true → x.state = 2 → x.holds plus = false → s.dev.fls.restarting = false →
      y = (if plus then { x with holdPlus := true, owesPlus := true } else { x with holdMinus := true, owesMinus := true }) →
      exec (.joinRequest dim plus) s = .next (s.after
        (((s.dev.setSplice dim y).upLinks (spanNo dim plus)).foldl (fun d l =>
          ((d.link l).txq.filter (fun t => t.sent == 0)).foldl (fun d t => d.holdPacket dim plus t)
            (d.setLink l { d.link l with txq := (d.link l).txq.filter (fun t => t.sent != 0) }))
            (s.dev.setSplice dim y) |>.checkHeld dim plus))) ∧
    (x.state = 1 → x.step = 1 → x.heldMinus = true →
      exec (.joinHeld dim true) s = .next (s.after (s.dev.setSplice dim { x with heldPlus := true, step := 3 }))) ∧
    (x.state = 3 → x.step = 1 → x.heldPlus = true →
      exec (.joinHeld dim false) s = .next (s.after ((s.dev.setSplice dim
        { x with heldMinus := true, step := 3, bypassOpen := false }).ringDown dim 6))) ∧
    (x.state = 1 → x.step = 3 →
      exec (.bypassOpenDone dim) s = .next (s.after ((List.range 16).foldl
        (fun d k => d.setLink (16 * dim + k) { d.link (16 * dim + k) with state := 1 })
        (s.dev.setSplice dim { x with step := 4, bypassOpen := true, since := s.dev.now })))) ∧
    (∀ (old : Bool) (d : Device), x.state = 1 → x.step = 4 → s.dev.ringUp dim = false →
      x.since + s.dev.trainLimit dim old ≤ s.dev.now →
      (List.range 16).foldl (fun d k => d.setLink (16 * dim + k) { d.link (16 * dim + k) with state := 0 })
        ((s.dev.setSplice dim { x with bypassOpen := false }).ringDown dim 6) = d →
      exec (.joinTrainTimeout ⟨dim, old⟩) s = .next (s.after (d.joinFailed dim 3))) ∧
    (x.state = 1 → x.step = 1 →
      (∀ busyAt, x.since ≤ busyAt → busyAt + 10000000 ≤ s.dev.now →
        exec (.joinRetry ⟨dim, busyAt⟩) s = .next (s.after (((s.dev.setSplice dim
          { x with since := s.dev.now, heldPlus := false, heldMinus := false }).setFld Reg.SPN_SPLICE
            Fld.SPN_SPLICE_LAST 2).askBoth dim 1))) ∧
      (x.since + 1000000000 ≤ s.dev.now →
        (x.silences = 0 → exec (.joinNoAnswer dim) s = .next (s.after ((s.dev.setSplice dim
          { x with since := s.dev.now, silences := 1 }).askBoth dim 1))) ∧
        (x.silences ≠ 0 → exec (.joinNoAnswer dim) s = .next (s.after (s.dev.joinFailed dim 4))))) ∧
    (∀ (m : Word) (d e g : Device), x.state ≠ 0 → s.dev.ringUsed dim = true →
      (x.state = 1 → x.step = 4 ∧ s.dev.ringUp dim = true ∧ m.toNat.testBit (coordOf s.dev.devnum dim) = true) →
      s.dev.setSplice dim { x with members := BitVec.ofNat 64 (m.toNat % 2 ^ s.dev.ringSize dim), holdPlus := false
                                   holdMinus := false, owesPlus := false, owesMinus := false, holding := [] } = d →
      (d.upLinks (spanNo dim true) ++ d.upLinks (spanNo dim false)).foldl (fun d l => d.setLink l { d.link l with state := 2 }) d = e →
      (if x.state = 1 then e.endSplice dim 2 1 else if x.state = 3 && x.step = 3 then e.endSplice dim 0 1 else e) = g →
      exec (.membershipUpdate dim m) s = .next (s.after (x.holding.foldl (fun d h => d.resend ⟨h.packet, 0, none⟩ false)
        (g.spliceMsg dim true 5))))

/-- Collectives (R356, R372 to R378): a command that no engine can take is refused, a new one is taken up, an armed
one starts once triggered, and a running one goes on; a data packet is taken and its engine works on; one that no
collective here takes is staged, a duplicate is discarded, and another member's call for a packet is answered; a
collective without progress for TIMEOUT ends with REMOTE_LOST, cause 0x54, and a member's abort ends it. The sum of
two integer contributions is taken element by element, modulo the element's width (R375): I32 is `elem` 0 and I64
`elem` 1. -/
def Obligations.CollectivesRun : Prop :=
  ((∀ (e : ColNo) (j : Nat) (first again : List AddErr) (k : Job) (s : State), s.dev.job? j = some k → k.cmd.opc = 0x25 →
    k.state ≠ .done → k.waitFrom = none → s.dev.clk.stage = .thatched →
    (∀ (n : Nat) (c : Collective), s.dev.colOf? (fun c => c.job == j) = some (n, c) →
      exec (.colTask e ⟨j, ⟨first, again⟩⟩) s = .next (s.after ((s.dev.mapJob j (fun k => { k with
        state := .running, since := if k.state = .running then k.since else s.dev.now })).colGo n c first again))) ∧
    (s.dev.colOf? (fun c => c.job == j) = none → s.dev.colPick k = none → k.state = .issued →
      exec (.colTask e ⟨j, ⟨first, again⟩⟩) s = .next (s.after (s.dev.colRefuse k e.val 0x06))) ∧
    (s.dev.colOf? (fun c => c.job == j) = none → s.dev.colPick k = some e.val → k.state = .issued →
      [0, 1].findSome? (fun m => (s.dev.colEng m).armed.find? (fun a => a.col.job == j)) = none →
      exec (.colTask e ⟨j, ⟨first, again⟩⟩) s = .next (s.after (s.dev.colNew e k first again))) ∧
    (∀ a : Armed, s.dev.colOf? (fun c => c.job == j) = none → s.dev.colPick k = some e.val →
      [0, 1].findSome? (fun m => (s.dev.colEng m).armed.find? (fun a => a.col.job == j)) = some a → a.started = false →
      a.trig ≤ a.count → (s.dev.colEng e).running.length < 16 →
      exec (.colTask e ⟨j, ⟨first, again⟩⟩) s = .next (s.after (s.dev.colStart e a.col first again)))) ∧
  (∀ (e : ColNo) (p q : Packet) (first again : List AddErr) (s : State), s.dev.serves = true →
    (p.kind = 0x0A → p.payload = [1] → exec (.colDataRx e p ⟨first, again⟩) s = .next (s.after (s.dev.colAgain p))) ∧
    (p.kind ≠ 0x0A → { p with kind := 0x09, via := none } = q →
      (s.dev.colSeen q = true → exec (.colDataRx e p ⟨first, again⟩) s = .next (s.after (s.dev.takeHeld q))) ∧
      (s.dev.colSeen q = false → s.dev.colFor q = none → exec (.colDataRx e p ⟨first, again⟩) s =
        .next (s.after (s.dev.setColEng e { s.dev.colEng e with staged := (s.dev.colEng e).staged ++ [q] }))) ∧
      (∀ (n : Nat) (c : Collective), s.dev.colSeen q = false → s.dev.colFor q = some (n, c) →
        exec (.colDataRx e p ⟨first, again⟩) s = .next (s.after (((s.dev.takeHeld q).colData n c q).colWork n first again))))) ∧
  (∀ (e : ColNo) (id i : Nat) (c : Collective) (s : State), (s.dev.colEng e).running.find? (fun c => c.colid == id &&
      decide (c.lastProgress + max 1 (s.dev.fld Reg.COL_CTRL Fld.COL_CTRL_TIMEOUT) * 1000000 ≤ s.dev.now)) = some c →
    (List.range c.nmem).find? (fun i => c.missing (s.dev.placeIn c) i) = some i →
    exec (.colTimeout e id) s = .next (s.after (s.dev.colAbort e c 5 (c.group.getD i 0) stRemoteLost 0x54 (c.group.getD i 0)))) ∧
  (∀ (e : ColNo) (p q : Packet) (s : State), s.dev.serves = true → { p with kind := 0x0D } = q →
    (s.dev.colFor q = none → exec (.colAbortRx e p) s =
      .next (s.after (s.dev.setColEng e { s.dev.colEng e with staged := (s.dev.colEng e).staged ++ [q] }))) ∧
    (∀ (n : Nat) (c : Collective), s.dev.colFor q = some (n, c) →
      exec (.colAbortRx e p) s = .next (s.after (s.dev.colAborted n c q))))) ∧
  (∀ (elem w n i : Nat) (a b : List Byte), elem < 2 → (if elem = 0 then 4 else 8) = w → a.length = n * w → b.length = n * w → i < n →
    (colBytes elem (pairAdd elem (colVals elem a) (colVals elem b)).1).length = n * w ∧
    leNat (((colBytes elem (pairAdd elem (colVals elem a) (colVals elem b)).1).drop (i * w)).take w) =
      (leNat ((a.drop (i * w)).take w) + leNat ((b.drop (i * w)).take w)) % 2 ^ (8 * w))

/-! ### Resilience and metering (13, 14) -/

/-- Quarantine and tests of trusses (R392, R394 to R396): a truss whose quarantine is pending leaves service once
nobody holds it, and after QWAIT its holders are released by force; TEST waits or starts, TEST_FORCE of a held truss
is refused with RESULT 3, RELAX returns a truss to step 0, UNQUARANTINE tests a quarantined truss or returns a
collective engine; and the end of a test leaves its result. A quarantined truss is out of service: its state says so,
its slice is off, and the store keeps it (R391, R392). -/
def Obligations.TrussesAreTestedAndQuarantined : Prop :=
  (∀ (t : Truss) (v : Word) (u : Nat) (d : Device) (s : State), s.dev.Up → bits v 4 0 = u →
    s.dev.setReg Reg.FLT_TRUSS_CMD (v &&& 0xFF#64) = d →
    ((s.dev.susp t).qpend = true → s.dev.holders t = 0 → (s.dev.trussSt t).state = 1 →
      exec (.quarantineApply t) s = .next (s.after (s.dev.quarantine t (s.dev.windowed (s.dev.susp t).events).length))) ∧
    ((s.dev.susp t).qpend = true → s.dev.fld Reg.FLT_CTRL Fld.FLT_CTRL_QWAIT ≠ 0 →
      (s.dev.susp t).qpendAt + s.dev.fld Reg.FLT_CTRL Fld.FLT_CTRL_QWAIT * 10 ^ 9 ≤ s.dev.now →
      exec (.quarantineForce t) s = .next (s.after ((s.dev.trussSt t).slots.foldl (fun d p =>
        if p.2.valid && !(d.trussSt t).releasing.any (fun r => r.1 == p.2.ctx && r.2.1) then d.startRelease p.2.ctx t true none
        else d) s.dev))) ∧
    (bits v 7 5 = 1 → bit v 63 = true → u < 16 → (d.trussSt u).state = 1 → (d.susp u).testWait = false →
      exec (.test v) s = .next (s.after (d.askTest u 0))) ∧
    (bits v 7 5 = 2 → bit v 63 = true → u < 16 → (d.trussSt u).state = 1 → d.holders u ≠ 0 →
      exec (.testForce v) s = .next (s.after (d.setSusp u { d.susp u with result := 3 }))) ∧
    (bits v 7 5 = 2 → bit v 63 = true → u < 16 → (d.trussSt u).state = 1 → d.holders u = 0 → (d.susp u).testWait = false →
      exec (.testForce v) s = .next (s.after (d.askTest u 0))) ∧
    (bits v 7 5 = 3 → bit v 63 = true → u < 16 → (d.trussSt u).state = 1 → (d.susp u).qpend = false →
      d.fls.restarting = false → exec (.relax v) s = .next (s.after (d.applyStep u 0))) ∧
    (bits v 7 5 = 4 → bit v 63 = true → u < 16 → (d.trussSt u).state = 4 → (d.susp u).testWait = false →
      exec (.unquarantine v) s = .next (s.after (d.askTest u 1))) ∧
    (bits v 7 5 = 4 → bit v 63 = true → 16 ≤ u → u < 18 →
      exec (.unquarantine v) s = .next (s.after { d with
        colq := d.colq &&& ~~~ (1#2 <<< (u - 16)), suspects := tset d.suspects u { d.susp u with events := [] } })) ∧
    (∀ pass unit us e, (s.dev.susp t).testing = true → s.dev.endTest t pass unit us = e →
      (e.fls.imageJob = none → exec (.trussTestDone t pass unit us) s = .next (s.after e)) ∧
      (∀ r, e.fls.imageJob = some (t.val, r) → exec (.trussTestDone t pass unit us) s = .next (s.after
        (({ e with fls := { e.fls with imageJob := none } }).flsFinish r (flsDone flsOk 0)).flsGo)))) ∧
  (∀ (d : Device) (t n : Nat), t < 16 →
    (d.quarantine t n).fls.storedQuar.getLsbD t = true ∧ ((d.quarantine t n).trussSt t).state = 4 ∧
    ((d.quarantine t n).susp t).qpend = false ∧ (tget (d.quarantine t n).soffit t default).enabled = false ∧
    (∀ u, u ≠ t → (d.quarantine t n).trussSt u = d.trussSt u))

/-- Weight digests and replica groups (R397 to R405): REP_WREG_N reads the region table, a completed scan records its
digest and tells a difference from the reference, REP_CFG_g and epochs go by the group's record, and REJOIN takes an
expelled group back. -/
def Obligations.WeightsAndReplicas : Prop :=
  (∀ (v : Word) (e : Device) (s : State), s.dev.Up →
    Device.loadRegions { s.dev.setReg Reg.REP_WREG_N (v &&& 0x1FF#64) with regionsDue := true } = .ok e →
    exec (.repWregNWrite v) s = .next (s.after e)) ∧
  (∀ (n i : Nat) (r : Region) (e : Device) (bs : List Byte) (s : State), s.dev.regionsDue = false →
    s.dev.regions.find? (fun p => p.1 == n) = some (i, r) → s.dev.fld Reg.REP_CTRL Fld.REP_CTRL_WSCAN_EN ≠ 0 →
    s.dev.clk.stage = .thatched → s.dev.tableBad = false → s.dev.scanWaits r = false →
    s.dev.tryLoad deviceAccount r.ctx r.base r.len = .ok (e, some bs) →
    exec (.weightScanDone n) s = .next (s.after (e.scanned i r bs).serveAgain)) ∧
  (∀ (d : Device) (i : Nat) (r : Region) (bs : List Byte), r.refValid = false ∨ weightDigest bs = r.ref →
    d.scanned i r bs = (d.setRegion i { r with scanned := some (weightDigest bs), asked := none }).count Reg.REP_WSCANS 1) ∧
  (∀ (g : GroupNo) (v : Word) (d : Device) (s : State), s.dev.Up → s.dev.setReg (Reg.REP_CFG g) (v &&& 0x7FFFFFF#64) = d →
    (bit v 0 = false → exec (.repCfgWrite g v) s =
      .next (s.after (d.setGroup g { d.group g with loaded := false, due := none, sent := [] }))) ∧
    (bit v 0 = true → exec (.repCfgWrite g v) s =
      .next (s.after ((d.setGroup g { d.group g with loaded := false, due := none, sent := [] }).groupGo g)))) ∧
  (∀ (g : GroupNo) (e : Device) (s : State), s.dev.groupOn g = true → s.dev.clk.stage = .thatched →
    (s.dev.group g).loaded = true → (s.dev.group g).due = none → (s.dev.group g).expelled = false →
    s.dev.resolveEpoch g = .ok e →
    exec (.replicaResolve g) s = .next (s.after e)) ∧
  (∀ (g : GroupNo) (s : State), s.dev.Up → (s.dev.group g).expelled = true →
    exec (.rejoin g) s = .next (s.after (s.dev.setGroup g { s.dev.group g with expelled := false, rejoined := true })))

/-- A vote (R403): a member whose digest a majority of all members contradicts expels itself only in a group of three
or more; no majority flags; a majority with the own digest leaves only a count; and equal digests change nothing. -/
def Obligations.VotesFollowTheMajority : Prop :=
  ∀ (n : Nat) (own : Word) (ds : List Word), ds.length ≤ n → own ∈ ds →
    (vote n own ds = .expel ↔ 3 ≤ n ∧ ∃ v, v ∈ ds ∧ v ≠ own ∧ n < 2 * ds.count v) ∧
    ((∀ v ∈ ds, v = own) → vote n own ds = .agree) ∧
    (n < 2 * ds.count own → (∃ v, v ∈ ds ∧ v ≠ own) → vote n own ds = .peerOdd)

/-- Metering commands (R420, R421, R425). -/
def Obligations.MeterCommands : Prop :=
  (∀ (d : Device) (s : State), s.dev.meter.lastTick + 1000 ≤ s.dev.now →
    Device.trussIds.foldl (fun d t => d.tickTruss t) s.dev.fillAll = d →
    exec .meterTick s = .next (s.after { d with meter := { d.meter.charge deviceAccount MQ.energy.num
        (Config.leakage d.meter.ticks) with
      ticks := d.meter.ticks + 1
      lastTick := (d.meter.charge deviceAccount MQ.energy.num (Config.leakage d.meter.ticks)).lastTick + 1000
      measured := min ((d.meter.charge deviceAccount MQ.energy.num (Config.leakage d.meter.ticks)).measured +
        Config.energyMeasured d.meter.ticks) counterMax } })) ∧
  (∀ (ns : Nat) (rs : List MeterRec) (s : State), s.dev.fld Reg.MTR_CTRL Fld.MTR_CTRL_PERIOD * 1000000 = ns → ns ≠ 0 →
    s.dev.meter.lastPeriod / ns < s.dev.now / ns →
    ((List.range 64).filter (fun c => (s.dev.ctx c).state != 0) ++ [deviceAccount]).map (fun a => s.dev.acctRec 0 a 0) = rs →
    exec .meterPeriodic s = .next (s.after (rs.foldl (fun d r => d.meterPeriodic1 r)
      { s.dev with meter := { s.dev.meter with lastPeriod := s.dev.now } }))) ∧
  (∀ s : State, s.dev.Up →
    (s.dev.meterEn = true → 67 ≤ s.dev.meterFree →
      exec .meterSnapshot s = .next (s.after ((s.dev.snapRecs (s.dev.meter.snap + 1)).foldl (fun d r => d.meterWrite r)
        { s.dev with meter := { s.dev.meter with snap := s.dev.meter.snap + 1 } }))) ∧
    (s.dev.meterEn = false ∨ s.dev.meterFree < 67 →
      exec .meterSnapshot s = .next (s.after (s.dev.setFld Reg.MTR_SNAP Fld.MTR_SNAP_REFUSED 1))) ∧
    (∀ v : Word, (s.dev.reg Reg.MTR_RING_CONS).toNat ≤ v.toNat → v.toNat ≤ (s.dev.reg Reg.MTR_RING_PROD).toNat →
      exec (.mtrRingConsWrite v) s = .next (s.after (s.dev.setReg Reg.MTR_RING_CONS v)))) ∧
  (∀ (d : Device) (s : State), s.dev.fld Reg.MTR_CTRL Fld.MTR_CTRL_AUDIT_EN ≠ 0 → s.dev.meter.lastAudit + 1000000 ≤ s.dev.now →
    { s.dev with meter := { s.dev.meter with lastAudit := s.dev.now } } = d →
    Device.trussIds.foldl (fun n t => n + (s.dev.trussSt t).defect) 0 = 0 → s.dev.gut.foldl (fun n p => n + p.2.defect) 0 = 0 →
    (List.range quantities).foldl (fun n q => n + s.dev.meter.defect q) 0 = 0 →
    exec .meterAudit s = .next (s.after d))

/-- A final record retires its account (R422): each quantity is added to the retired sum and the account's count is
zero; its hidden fraction passes to the device account's; no other account and no other quantity changes. -/
def Obligations.RetirementEmptiesTheAccount : Prop :=
  (∀ (d e : Device) (c : Nat), d.meterFinal c = some e →
    e.meter = (List.range quantities).foldl (fun m q => m.retire c q) (d.meterWrite (d.acctRec 1 c 0)).meter) ∧
  (∀ (m : Meter) (a q : Nat), a < 64 → q < 32 →
    tget (m.retire a q).acct (32 * a + q) default = ⟨0, 0⟩ ∧
    tget (m.retire a q).retired q 0 = min (tget m.retired q 0 + (tget m.acct (32 * a + q) default).whole) counterMax ∧
    (∀ p, p ≠ q → tget (m.retire a q).retired p 0 = tget m.retired p 0) ∧
    (∀ b p, p < 32 → (b, p) ≠ (a, q) → (b, p) ≠ (64, q) →
      tget (m.retire a q).acct (32 * b + p) default = tget m.acct (32 * b + p) default) ∧
    ((tget m.acct (32 * 64 + q) default).whole + ((tget m.acct (32 * 64 + q) default).frac +
        (tget m.acct (32 * a + q) default).frac) / quantityUnit q ≤ counterMax →
      (tget (m.retire a q).acct (32 * 64 + q) default).whole * quantityUnit q + (tget (m.retire a q).acct (32 * 64 + q) default).frac =
        (tget m.acct (32 * 64 + q) default).whole * quantityUnit q + (tget m.acct (32 * 64 + q) default).frac +
          (tget m.acct (32 * a + q) default).frac))

/-- Metering conserves (R417, R422, R423): while no count comes to its maximum, a charge and a retirement keep, for
every quantity, that the accounts' counts and the retired sum make the total. -/
def Obligations.MeteringConserves : Prop :=
  (∀ (m : Meter) (a q amt p : Nat), a < 65 → q < 32 → p < 32 → (tget m.acct (32 * a + q) default).frac < quantityUnit q →
    m.HasRoom q (amt / quantityUnit q + 1) → m.Conserves p → (m.charge a q amt).Conserves p) ∧
  (∀ (m : Meter) (a q p : Nat), a < 64 → q < 32 → p < 32 → (∀ b, (tget m.acct (32 * b + q) default).frac < quantityUnit q) →
    m.HasRoom q ((tget m.acct (32 * a + q) default).whole + 1) → m.Conserves p → (m.retire a q).Conserves p)

/-! ### The Flashing partition (15) -/

/-- Commands on the mailbox (R428, R429, R436, R438, R445): STATUS answers the mirror's words, IMAGE_SELECT marks its
bank, PLIMIT takes values from 600, those above 1,800 as 1,800, NONCE answers and holds its nonce, and FW_ACTIVATE
ends as its planned restart begins. A value out of range is refused with cause 0x0B and changes nothing else. Commands
by the management protocol (R344, R407, R432, R440, R444, R463): SVN_COMMIT raises an SVN to that of the running
object, SET_DEVNUM gives the device its number, START begins Batten, RESTART resets every other domain and goes on as
from power-good, and SUBSCRIBE fills or empties a manager slot. Commands that read an object from the staging buffer
(R430, R431, R436, R437): an image that no check refuses is stored in the bank that does not run and marked, firmware
under the vendor's key of no lower SVN is stored, a key record with the nonce held enrols, revokes or makes
owner-only, and a truss image resets and configures its truss, whose test then runs. Restarts of the recovery
controller (R409 to R411): a failure aborts what was carried out and is counted, and the third within an hour drops
the device to Tarp; back in time, the partition replays what was held and records the restart; one that is late drops
the device. FLT_LOG_CONS is taken only between the old count and PROD (R407). -/
def Obligations.FlashingCommands : Prop :=
  (∀ (a : Nat) (w : Bool) (d : Device) (s : State), (wordAt s.dev.fls.mboxArgs 0).toNat = a → s.dev.flsTaken = d →
    (s.dev.MailboxRuns 0x01 → exec (.status (.mailbox w)) s =
      .next (s.after (d.flsFinish (.mailbox w) ⟨flsOk, 0, d.flsStatus, d.flsKeys⟩).flsGo)) ∧
    (s.dev.MailboxRuns 0x04 → a ≤ 1 → exec (.imageSelect (.mailbox true)) s =
      .next (s.after ({ d with fls := { d.fls with nextBank := a } }.flsFinish (.mailbox true) (flsDone flsOk 0)).flsGo)) ∧
    (s.dev.MailboxRuns 0x04 → 1 < a → exec (.imageSelect (.mailbox w)) s =
      .next (s.after (d.flsFinish (.mailbox w) (flsDone flsRefused 0x0B)).flsGo)) ∧
    (s.dev.MailboxRuns 0x0A → 600 ≤ a → exec (.plimit (.mailbox true)) s =
      .next (s.after ({ d with fls := { d.fls with plimit := min 1800 a } }.flsFinish (.mailbox true) (flsDone flsOk 0)).flsGo)) ∧
    (s.dev.MailboxRuns 0x0A → a < 600 → exec (.plimit (.mailbox w)) s =
      .next (s.after (d.flsFinish (.mailbox w) (flsDone flsRefused 0x0B)).flsGo)) ∧
    (∀ fresh : BitVec 32, s.dev.MailboxRuns 0x10 → exec (.nonce (.mailbox w) fresh) s =
      .next (s.after ({ d with fls := { d.fls with nonce := some fresh } }.flsFinish (.mailbox w)
        ⟨flsOk, 0, BitVec.ofNat 64 fresh.toNat, 0⟩).flsGo)) ∧
    (s.dev.MailboxRuns 0x06 → exec (.fwActivate (.mailbox w)) s =
      .next (s.after ((d.flsFinish (.mailbox w) (flsDone flsOk 0)).beginRestart 3).flsGo))) ∧
  (∀ (h : MgmtHdr) (tag : BitVec 8) (a b c e : Word) (w : Bool) (d : Device) (s : State), s.dev.mgmtIn h = d →
    (s.dev.MgmtRuns h 0x09 → a = 0 → exec (.svnCommit (.mgmt h tag a b c e w)) s =
      .next (s.after ({ d with fls := { d.fls with svnFw := max d.fls.svnFw d.fls.runSvnFw } }.flsReplied h tag 0 0))) ∧
    (s.dev.MgmtRuns h 0x09 → a = 1 → exec (.svnCommit (.mgmt h tag a b c e w)) s =
      .next (s.after ({ d with fls := { d.fls with svnDev := max d.fls.svnDev d.fls.runSvnDev } }.flsReplied h tag 0 0))) ∧
    (s.dev.MgmtRuns h 0x09 → a = 2 → exec (.svnCommit (.mgmt h tag a b c e w)) s =
      .next (s.after ({ d with fls := { d.fls with svnTruss := max d.fls.svnTruss d.fls.runSvnTruss } }.flsReplied h tag 0 0))) ∧
    (s.dev.MgmtRuns h 0x0B → a.toNat < 2 ^ 18 → exec (.setDevnum (.mgmt h tag a b c e w)) s =
      .next (s.after ({ d with devnum := a.toNat, devnumValid := true }.flsReplied h tag 0 0))) ∧
    (s.dev.MgmtRuns h 0x0C → bit a 0 = false → exec (.start (.mgmt h tag a b c e w)) s =
      .next (s.after (d.beginBatten.flsReplied h tag 0 0))) ∧
    (s.dev.MgmtRuns h 0x0C → bit a 0 = true → w = true → exec (.start (.mgmt h tag a b c e w)) s =
      .next (s.after ({ d.beginBatten with fls := { d.beginBatten.fls with autostart := bit a 1 } }.flsReplied h tag 0 0))) ∧
    (s.dev.MgmtRuns h 0x0D → exec (.restart (.mgmt h tag a b c e w)) s =
      .next (s.after ((Device.beginStart { d.dropDomains with clk := { d.dropDomains.clk with endedTarp := true } } 3).flsReplied
        h tag 0 0))) ∧
    (s.dev.MgmtRuns h 0x0E → a.toNat ≤ 7 → bit c 0 = true → exec (.subscribe (.mgmt h tag a b c e w)) s =
      .next (s.after ({ d with fls := { d.fls with managers := tset d.fls.managers a.toNat b.toNat } }.flsReplied h tag 0 0))) ∧
    (s.dev.MgmtRuns h 0x0E → a.toNat ≤ 7 → bit c 0 = false → exec (.subscribe (.mgmt h tag a b c e w)) s =
      .next (s.after ({ d with fls := { d.fls with managers := tdel d.fls.managers a.toNat } }.flsReplied h tag 0 0)))) ∧
  (∀ (h : MgmtHdr) (tag : BitVec 8) (a b c e : Word) (d : Device) (bs : List Byte) (s : State), s.dev.mgmtIn h = d →
    (s.dev.MgmtRuns h 0x03 → b.toNat + readLen (imgLimit 1) c.toNat ≤ stagingSize →
      memRead d.fls.staging b.toNat (readLen (imgLimit 1) c.toNat) = bs → d.imageCause 1 none bs = none → d.fls.bank = 0 →
      exec (.imageStage (.mgmt h tag a b c e true)) s = .next (s.after
        ({ d with fls := { d.fls with bankB := imgObject bs, nextBank := 1 } }.flsReplied h tag 0 0).serveAgain)) ∧
    (s.dev.MgmtRuns h 0x05 → c.toNat ≤ fwLimit → b.toNat + c.toNat ≤ stagingSize →
      memRead d.fls.staging b.toNat c.toNat = bs → d.fwSigned bs = true → d.fls.svnFw ≤ Config.fwSvn bs % 64 →
      d.fls.fwbank = 0 →
      exec (.fwStage (.mgmt h tag a b c e true)) s = .next (s.after
        ({ d with fls := { d.fls with fwB := bs } }.flsReplied h tag 0 0).serveAgain)) ∧
    (b.toNat + keyRecordBytes ≤ stagingSize → memRead d.fls.staging b.toNat keyRecordBytes = bs →
      d.fls.nonce = some (BitVec.ofNat 32 (imgField bs 8 4)) → d.recordSigned bs = true →
      (∀ k : Nat, s.dev.MgmtRuns h 0x07 → a.toNat = k → k ≤ 3 → d.fls.enrolled.toNat.testBit k = false →
        exec (.keyEnroll (.mgmt h tag a b c e true)) s = .next (s.after ({ d with fls := { d.fls with
          nonce := none, enrolled := d.fls.enrolled ||| (1#4 <<< k)
          keyHash := tset d.fls.keyHash k (recordKey bs) } }.flsReplied h tag 0 0).serveAgain)) ∧
      (∀ k : Nat, s.dev.MgmtRuns h 0x08 → a.toNat = k → k ≤ 3 → d.fls.ownerOnly = false →
        exec (.keyRevoke (.mgmt h tag a b c e true)) s = .next (s.after ({ d with fls := { d.fls with
          nonce := none, revoked := d.fls.revoked ||| (1#4 <<< k) } }.flsReplied h tag 0 0).serveAgain)) ∧
      (s.dev.MgmtRuns h 0x0F → (slice bs 16 516).all (· == 0) = true →
        exec (.ownerOnly (.mgmt h tag a b c e true)) s = .next (s.after ({ d with fls := { d.fls with
          nonce := none, ownerOnly := true } }.flsReplied h tag 0 0).serveAgain))) ∧
    (∀ (t : Nat) (f : Device), s.dev.MgmtRuns h 0x02 → a.toNat = t → t ≤ 15 →
      b.toNat + readLen (imgLimit 2) c.toNat ≤ stagingSize →
      memRead d.fls.staging b.toNat (readLen (imgLimit 2) c.toNat) = bs → d.imageCause 2 (some t) bs = none →
      ((d.setTruss t { d.trussSt t with state := 2 }).resetTruss t).applyImage t (imgObject bs) = f →
      exec (.trussImage (.mgmt h tag a b c e true)) s = .next (s.after
        (Device.askTest { f with fls := { f.fls with
          trussImages := tset f.fls.trussImages t (imgObject bs), runSvnTruss := imgField (imgObject bs) 16 4 % 64
          imageJob := some (t, .mgmt h tag a b c e true) } } t 2).serveAgain))) ∧
  ((∀ (w : Bool) (d : Device) (s : State), s.dev.flsOn = true → s.dev.beginRestart (if w then 2 else 1) = d →
    (d.fls.failTimes.length < 3 → exec (.flashingRestart w) s = .next (s.after d)) ∧
    (3 ≤ d.fls.failTimes.length →
      exec (.flashingRestart w) s = .next (s.after (d.tarpDropNow (if w then 2 else 1) d.restartMicros)))) ∧
  (∀ s : State, s.dev.fls.restarting = true →
    (s.dev.restartLate = true →
      exec .tarpDrop s = .next (s.after (s.dev.tarpDropNow s.dev.fls.restartCause s.dev.restartMicros))) ∧
    (s.dev.restartLate = false → s.dev.fls.restartCause ≠ 3 →
      exec .flashingRestartDone s = .next (s.after
        ((Device.replayHeld { s.dev with fls := { s.dev.fls with restarting := false } }).log 0x11 2 0 noCtx 8 0
          (BitVec.ofNat 64 s.dev.fls.restartCause) (BitVec.ofNat 64 s.dev.restartMicros))))) ∧
  (∀ (v : Word) (s : State), s.dev.Up →
    ((s.dev.reg Reg.FLT_LOG_CONS).toNat ≤ v.toNat → v.toNat ≤ (s.dev.reg Reg.FLT_LOG_PROD).toNat →
      exec (.fltLogConsWrite v) s = .next (s.after (s.dev.setReg Reg.FLT_LOG_CONS v))) ∧
    (v.toNat < (s.dev.reg Reg.FLT_LOG_CONS).toNat ∨ (s.dev.reg Reg.FLT_LOG_PROD).toNat < v.toNat →
      exec (.fltLogConsWrite v) s = .next (s.after s.dev))))

/-- Security version numbers only rise, and no fuse is cleared, under every Flashing command (R431, R432). -/
def Obligations.FusesOnlyGoOneWay : Prop :=
  ∀ (r : FlsReq) (fresh : BitVec 32) (i : Instr) (s t : State),
    i ∈ [.status r, .trussImage r, .imageStage r, .imageSelect r, .fwStage r, .fwActivate r, .keyEnroll r, .keyRevoke r,
      .svnCommit r, .plimit r, .setDevnum r, .start r, .restart r, .subscribe r, .ownerOnly r, .nonce r fresh] →
    exec i s = .next t →
    s.dev.fls.svnFw ≤ t.dev.fls.svnFw ∧ s.dev.fls.svnDev ≤ t.dev.fls.svnDev ∧ s.dev.fls.svnTruss ≤ t.dev.fls.svnTruss ∧
    s.dev.fls.enrolled &&& t.dev.fls.enrolled = s.dev.fls.enrolled ∧ s.dev.fls.revoked &&& t.dev.fls.revoked = s.dev.fls.revoked ∧
    (s.dev.fls.ownerOnly = true → t.dev.fls.ownerOnly = true)

/-! ### Resets, stages, clocks and the network (15, 16) -/

/-- POWER_GOOD, DEVICE_RESET and THERMAL_TRIP (R445, R452, R468): leaving reset begins a start, a pin that falls
resets the device whole, and at 115 °C everything stops, THERMTRIP_L is asserted, and nothing is left running. What a
device reset and a drop to Tarp keep (Tables 15-1, 15-11; R411, R415): the non-volatile store and the fuses; over a
drop also the counters, in which each link that was up counts as gone down, the counter of time, the ports and the
meter's accounts. Nothing else of the other domains stays. -/
def Obligations.ResetsOfTheDevice : Prop :=
  ((∀ (late : Bool) (s : State), s.dev.clk.pwrgd = false → s.dev.clk.resetL = false → s.dev.clk.stage = .off →
    (late = false → exec (.powerGood late) s = .next (s.after
      (Device.beginStart { s.dev with clk := { s.dev.clk with pwrgd := true, resetL := true } } 1))) ∧
    (late = true → exec (.powerGood late) s = .next (s.after
      { s.dev with clk := { s.dev.clk with pwrgd := true, resetL := false } }))) ∧
  (∀ (late : Bool) (s : State), s.dev.clk.pwrgd = true → s.dev.clk.resetL = false → s.dev.clk.stage = .off → late = false →
    exec (.powerGood late) s = .next (s.after
      (Device.beginStart { s.dev with clk := { s.dev.clk with pwrgd := true, resetL := true } } 2))) ∧
  (∀ (p r : Bool) (s : State), s.dev.clk.pwrgd = true → s.dev.clk.resetL = true →
    (p = false ∨ r = false → exec (.deviceReset p r) s = .next (s.after (s.dev.fullReset p r))) ∧
    (p = true → r = true → exec (.deviceReset p r) s = .next (s.after s.dev))) ∧
  (∀ (celsius : Nat) (s : State), 115 ≤ celsius → s.dev.clk.pwrgd = true → s.dev.clk.stage ≠ .tripped →
    ∃ d : Device, exec (.thermalTrip celsius) s = .next (s.after d) ∧
      d.clk.stage = .tripped ∧ d.clk.thermtrip = true ∧ d.jobs = [] ∧ d.entries = [] ∧ d.bufs = [] ∧ d.splices = [] ∧
      d.raf = [] ∧ d.lth = [] ∧ d.links = [] ∧ d.fls.mboxBusy = false ∧ d.fls.restarting = false ∧ d.fls.line = [])) ∧
  ((∀ (d : Device) (p r : Bool),
    (d.fullReset p r).regs = [] ∧ (d.fullReset p r).hbm.mem = [] ∧ (d.fullReset p r).loft = [] ∧
    (d.fullReset p r).fls.bankA = d.fls.bankA ∧ (d.fullReset p r).fls.bankB = d.fls.bankB ∧
    (d.fullReset p r).fls.enrolled = d.fls.enrolled ∧ (d.fullReset p r).fls.revoked = d.fls.revoked ∧
    (d.fullReset p r).fls.svnFw = d.fls.svnFw ∧ (d.fullReset p r).fls.plimit = d.fls.plimit ∧
    (d.fullReset p r).fls.storedQuar = d.fls.storedQuar ∧ (d.fullReset p r).clk.now = 0) ∧
  (∀ (d e : Device) (off : Nat),
    (d.links.filter (fun p => p.2.isUp)).foldl (fun d p => d.count (Reg.LNK_DOWNS p.1) 1) d = e →
    d.dropDomains.reg off = (if keptOverDrop off then e.reg off else resetAt off) ∧ d.dropDomains.ports = d.ports ∧
    d.dropDomains.clk.now = d.clk.now ∧ d.dropDomains.clk.stage = .tarp ∧ d.dropDomains.meter.acct = d.meter.acct ∧
    d.dropDomains.jobs = [] ∧ d.dropDomains.ctxs = [] ∧ d.dropDomains.qps = [] ∧ d.dropDomains.splices = []))

/-- The start stages (R439 to R443): Tarp from power-good starts the counter and goes on to Batten under AUTOSTART;
Batten fails with START_ERR 0x10 when neither image bank passes, else loads its image, trains, and joins its rings;
Thatched begins once the trusses have been tested, with context 0 alive. The reference clocks (R447, R448): losing
CORE_REFCLK holds the counter and, past Stage Tarp, drops the device to it; losing LINK_REFCLK takes every link down
and losing NET_REFCLK both ports; a clock that returns is good again, and the counter counts on from the value it
held. -/
def Obligations.StartStagesAndClocks : Prop :=
  ((∀ (a b : Bool) (d : Device) (s : State), s.dev.clk.stage = .beforeTarp → s.dev.clk.startKind = 3 →
    Device.reportStored { s.dev with clk := { s.dev.clk with stage := .tarp } } = d →
    exec (.stageTarp a b) s = .next (s.after (if d.fls.autostart && !d.fls.romOnly then d.beginBatten else d))) ∧
  (∀ (a b : Bool) (d e : Device) (s : State), s.dev.clk.stage = .beforeTarp → s.dev.clk.startKind ≠ 3 →
    s.dev.startFirmware a b = e →
    Device.reportStored ([0, 1].foldl (fun d p => d.portTarp p) { e with clk := { e.clk with
      stage := .tarp, counting := true, coreOk := true, linkOk := true, netOk := true } }) = d →
    exec (.stageTarp a b) s = .next (s.after (if d.fls.autostart && !d.fls.romOnly then d.beginBatten else d))) ∧
  (∀ (f : BattenFindings) (s : State), s.dev.clk.starting = true → s.dev.fls.restarting = false → s.dev.clk.battenStep = 0 →
    (s.dev.pickImage = none → exec (.stageBatten f) s = .next (s.after (s.dev.battenFail 0x10))) ∧
    (∀ bank bad, s.dev.pickImage = some (bank, none) → f.clocksOk = true → s.dev.clk.coreOk = true →
      s.dev.clk.linkOk = true → s.dev.clk.netOk = true → f.railsOk = true →
      (f.failedChannels.filter (· < 512)).eraseDups = bad →
      (32 < bad.length → exec (.stageBatten f) s = .next (s.after (s.dev.battenFail 0x13))) ∧
      (∀ d : Device, bad.length ≤ 32 →
        ((((s.dev.loadImage bank).retrainPorts.powerTrusses).trainHbm bad).trainSpans f.failedRings) = d →
        exec (.stageBatten f) s =
          .next (s.after (Device.joinNext f 3 (if d.devnumValid then d else d.startErr 0x22) 0))))) ∧
  (∀ (failing : List Nat) (d : Device) (s : State), s.dev.clk.stage = .batten →
    ((List.range 16).foldl (fun d t => d.startTest failing t) s.dev).createCtx 0
      { (default : Context) with state := 1, prio := 7, lenLimit := 1000 } = d →
    exec (.stageThatched failing) s = .next (s.after { d with
      clk := { d.clk with stage := .thatched }, eave := { d.eave with heldEnable := false } }))) ∧
  (∀ s : State, s.dev.flsOn = true →
    (∀ d : Device, s.dev.clk.coreOk = true → s.dev.clk.stage = .thatched →
      { s.dev with clk := { s.dev.clk with
        coreOk := false, counting := false, locked := 0, ridgeLock := false, loftLock := false } } = d →
      exec .coreRefclkLoss s = .next (s.after (d.tarpDropNow 0 0))) ∧
    (∀ d : Device, s.dev.clk.linkOk = true → (List.range 48).foldl (fun d l => d.goDown l 0) s.dev = d →
      exec .linkRefclkLoss s =
        .next (s.after (({ d with clk := { d.clk with linkOk := false } }).logOpen 0 0 noCtx 0 0 0 0))) ∧
    (s.dev.clk.netOk = true → exec .netRefclkLoss s = .next (s.after
      ([0, 1].foldl (fun (d : Device) p => d.portFail p)
        (({ s.dev with clk := { s.dev.clk with netOk := false } }).logOpen 0 0 noCtx 0 0 0 0)).serveAgain)) ∧
    exec (.refclkRestored .core) s =
      .next (s.after { s.dev with clk := { s.dev.clk with coreOk := true, counting := true } }) ∧
    exec (.refclkRestored .link) s = .next (s.after { s.dev with clk := { s.dev.clk with linkOk := true } }) ∧
    exec (.refclkRestored .net) s = .next (s.after { s.dev with clk := { s.dev.clk with netOk := true } }))

/-- RDMA on the memory region and the Eave ring (R257, R321, R330, R458, R459): with the owner's role and rkey a read
answers the bytes and a write stores them, unless it reaches the Eave ring and splits an entry; another role or rkey
draws a remote access error; a packet outside the subset a NAK. Ports, queue pairs and management operations (R410,
R433, R454 to R459, R461, R464): a port that fails takes its queue pairs into error and one that comes up serves them
again; a queue pair takes the lowest free number at the port rate, and the owner learns both rkeys; one destroyed is
gone; NET_CFG sets a port's addresses; STAGE_DATA fills the staging buffer; SPDM answers busy during a restart. -/
def Obligations.NetworkCommands : Prop :=
  (∀ (qpn : Nat) (rkey : BitVec 32) (addr : Nat) (bs : List Byte) (s : State),
    (s.dev.MemoryOpen qpn rkey → bs.length ≤ rdmaMax →
      (∀ d : Device, s.dev.splitsEntry addr bs.length = false →
        (s.dev.rdmaIn 0 qpn bs.length).hbmStore 0 0 addr bs = (d, none) →
        exec (.rdmaMemoryWrite qpn rkey addr bs) s = .next (s.after (d.rdmaAnswer qpn 0 [])) ∧
        exec (.eaveRingWrite qpn rkey addr bs) s = .next (s.after (d.rdmaAnswer qpn 0 []))) ∧
      (s.dev.splitsEntry addr bs.length = true →
        exec (.rdmaMemoryWrite qpn rkey addr bs) s =
          .next (s.after ((s.dev.rdmaIn 0 qpn bs.length).rdmaAnswer qpn nakAccess [])) ∧
        exec (.eaveRingWrite qpn rkey addr bs) s =
          .next (s.after ((s.dev.rdmaIn 0 qpn bs.length).rdmaAnswer qpn nakAccess []))) ∧
      (∀ (d : Device) (n : Nat), n ≤ rdmaMax → (s.dev.rdmaIn 0 qpn 0).hbmLoad 0 0 addr n = (d, .ok bs) →
        exec (.rdmaMemoryRead qpn rkey addr n) s = .next (s.after ((d.charge 0 .eth n 16).rdmaAnswer qpn 0 bs)))) ∧
    (s.dev.qpOn qpn = true → (tget s.dev.qps qpn default).role ≠ roleOwner ∨ rkey ≠ s.dev.rkeyMemory →
      exec (.rdmaMemoryWrite qpn rkey addr bs) s =
        .next (s.after ((s.dev.rdmaIn 0 qpn bs.length).rdmaAnswer qpn nakAccess []))) ∧
    (∀ (p : PortNo) (k : RoceKind), (tget s.dev.ports p.val default).up = true → s.dev.qpOn qpn = true →
      (tget s.dev.qps qpn default).port = p.val →
      (k = .atomic ∨ k = .immediate ∨ k = .sendInvalidate → exec (.rocePacket p qpn k) s =
        .next (s.after ((s.dev.count (Reg.ETH_RX_FRAMES p) 1).rdmaAnswer qpn nakInvalid []))) ∧
      (k = .send → (tget s.dev.qps qpn default).role ≠ roleClient → exec (.rocePacket p qpn k) s =
        .next (s.after ((s.dev.count (Reg.ETH_RX_FRAMES p) 1).rdmaAnswer qpn nakAccess []))))) ∧
  ((∀ (p : PortNo) (s : State), exec (.portDown p) s = .next (s.after (s.dev.portFail p).serveAgain)) ∧
  (∀ (p : PortNo) (phy : Nat) (x : Port) (s : State), s.dev.flsOn = true → s.dev.clk.netOk = true →
    tget s.dev.ports p.val default = x → x.up = false →
    exec (.portUp p phy) s = .next (s.after { s.dev with
      ports := tset s.dev.ports p.val { x with up := true, phy := phy % 2 }
      fls := { s.dev.fls with phy := tset s.dev.fls.phy p.val (phy % 2) }
      qps := tupd s.dev.qps (fun _ (q : Qp) => if q.port = p.val then { q with error := false } else q) })) ∧
  (∀ (h : MgmtHdr) (d : Device) (s : State), s.dev.mgmtIn h = d →
    (∀ (q : QpParams) (psn n : Nat) (x : Qp), s.dev.Admits h false → d.roceOn = true → q.role = roleOwner → q.mtu = 4096 →
      d.freeQpn = some n →
      x = { port := q.port, role := q.role, ip := q.ip, remote := q.remoteQpn, psn := q.psn, ownPsn := psn % 2 ^ 24
            mtu := q.mtu, retries := q.retries, rnrRetries := q.rnrRetries, timeout := q.timeout, error := false
            rate := portRate, lastCnpTx := none, lastCnpRx := none, lastCut := none, lastRaise := d.now } →
      exec (.qpCreate h q psn) s = .next (s.after ({ d with qps := tset d.qps n x }.replyKept h.port (keptReply h
        ⟨0, [BitVec.ofNat 64 n, BitVec.ofNat 64 (psn % 2 ^ 24), BitVec.ofNat 64 d.rkeyControl.toNat,
          BitVec.ofNat 64 d.rkeyMemory.toNat], []⟩)))) ∧
    (∀ (n : Nat) (e : Device), s.dev.Admits h false → d.roceOn = true → thas d.qps n = true → d.qpUsersFail n = e →
      exec (.qpDestroy h n) s =
        .next (s.after (({ e with qps := tdel e.qps n }).replyKept h.port (keptReply h mgOk)).serveAgain)) ∧
    (∀ (p : PortNo) (v4 v6 vlan : Nat) (pfc : Option Nat) (x : Port), s.dev.AdmitsAccess h false →
      x = { tget d.ports p.val default with
            addrSet := true, ipv4 := v4 % 2 ^ 32, ipv6 := v6 % 2 ^ 128, vlan := vlan % 2 ^ 12, pfc := pfc.map (· % 8) } →
      exec (.netCfg h p v4 v6 vlan pfc) s = .next (s.after
        ({ d with ports := tset d.ports p.val x }.replyKept h.port (keptReply h mgOk)))) ∧
    (∀ (off : Nat) (bs : List Byte), s.dev.Admits h false → d.fls.restarting = false → bs.length ≤ 1024 →
      off + bs.length ≤ stagingSize →
      exec (.stageData h off bs) s = .next (s.after
        ({ d with fls := { d.fls with staging := memWrite d.fls.staging off bs } }.replyKept h.port (keptReply h mgOk)))) ∧
    (∀ req : List Byte, s.dev.Admits h true → d.fls.restarting = true →
      exec (.spdmRequest h req) s = .next (s.after (d.replyKept h.port (keptReply h ⟨0, [], [0x12, 0x7F, 0x03, 0x00]⟩)))) ∧
    (∀ (req : List Byte) (e : Device) (bs : List Byte), s.dev.Admits h true → d.fls.restarting = false →
      d.spdm req = (e, bs) →
      exec (.spdmRequest h req) s = .next (s.after (e.replyKept h.port (keptReply h ⟨0, [], bs⟩))))))

/-- Congestion (R460): a congestion mark draws at most one notification per 50 µs, a notification halves the send rate
at most once per 50 µs and never below the lowest rate, and each 55 µs without one raises it by a twentieth of the
port rate, never beyond it. -/
def Obligations.CongestionControlsTheRate : Prop :=
  ∀ (qpn : Nat) (q : Qp) (d : Device) (s : State), s.dev.qpOn qpn = true → tget s.dev.qps qpn default = q →
    (s.dev.count (Reg.ETH_ECN_CE q.port) 1 = d → rested q.lastCnpTx s.dev.now = true →
      exec (.ecnCeRx qpn) s = .next (s.after
        ((({ d with qps := tset d.qps qpn { q with lastCnpTx := some s.dev.now } }).count (Reg.ETH_CNP_TX q.port) 1).emit (.cnp qpn)))) ∧
    (s.dev.count (Reg.ETH_ECN_CE q.port) 1 = d → rested q.lastCnpTx s.dev.now = false →
      exec (.ecnCeRx qpn) s = .next (s.after d)) ∧
    (s.dev.count (Reg.ETH_CNP_RX q.port) 1 = d → rested q.lastCut s.dev.now = true →
      exec (.cnpRx qpn) s = .next (s.after { d with qps := tset d.qps qpn { q with
        lastCnpRx := some s.dev.now, lastRaise := s.dev.now, rate := max minRate (q.rate / 2), lastCut := some s.dev.now } })) ∧
    (s.dev.count (Reg.ETH_CNP_RX q.port) 1 = d → rested q.lastCut s.dev.now = false →
      exec (.cnpRx qpn) s = .next (s.after { d with qps := tset d.qps qpn { q with
        lastCnpRx := some s.dev.now, lastRaise := s.dev.now } })) ∧
    (q.rate < portRate → q.lastRaise + 55000 ≤ s.dev.now →
      exec (.rateRecovery qpn) s = .next (s.after { s.dev with qps := tset s.dev.qps qpn { q with
        rate := min portRate (q.rate + portRate / 20), lastRaise := s.dev.now } }))
end

