-- ==== Sys2Proof/Laws/Attention.lean ====
section
/-! SUPPORT. The accesses of the attention engine and of the sequence commands are written with what follows them: one law
for each, which says what follows once the access has succeeded. -/
namespace Sys2Proof.Machine

open Sys2Proof

/-! ### Roots and page tables of a sequence (R194, R200) -/

theorem Device.kvRootAt_ok {d e : Device} {j : Job} {q a : Nat} {o : Option Nat} {bs : List Byte} (ha : o = some a)
    (h : d.vload (d.seq q).ctx 16 j.cmd.opUnit a 64 = (e, .ok bs)) : ∀ k, d.kvRootAt j q o k = k e a (bytesWords bs) := by
  intro k; unfold Device.kvRootAt; rw [ha]; dsimp only; rw [h]; rfl

theorem Device.kvRoot_ok {d e : Device} {j : Job} {q a : Nat} {bs : List Byte} (ha : d.rootAddr q = some a)
    (h : d.vload (d.seq q).ctx 16 j.cmd.opUnit a 64 = (e, .ok bs)) : ∀ k, d.kvRoot j q k = k e a (bytesWords bs) :=
  Device.kvRootAt_ok ha h

theorem Device.kvStore_ok {d e : Device} {j : Job} {q va : Nat} {bs : List Byte}
    (h : d.vstore (d.seq q).ctx 16 j.cmd.opUnit va bs = (e, .ok ())) : ∀ k, d.kvStore j q va bs k = k e := by
  intro k; unfold Device.kvStore; dsimp only; rw [h]; rfl

theorem Device.readTable_ok {d e : Device} {j : Job} {q n : Nat} {r : Root} {bs : List Byte} (hn : n ≠ 0)
    (h : d.vload (d.seq q).ctx 16 j.cmd.opUnit (rootPt r) (8 * n) = (e, .ok bs)) :
    ∀ k, d.readTable j q r n k = k e (bytesWords bs) := by
  intro k; unfold Device.readTable; dsimp only; rw [if_neg hn, h]; rfl

theorem Device.setPages_ok {d e : Device} {j : Job} {q a n : Nat} {r : Root}
    (h : d.vstore (d.seq q).ctx 16 j.cmd.opUnit (a + 8 : Nat) (wordBytes (pack [(0, 15, n), (15, 49, bits (wordAt r 1) 63 15)])) = (e, .ok ())) :
    ∀ k, d.setPages j q a r n k = k e := Device.kvStore_ok h

theorem Device.appendSet_ok {d e f : Device} {j : Job} {q a addr : Nat} {r : Root}
    (h : d.vstore (d.seq q).ctx 16 j.cmd.opUnit (rootPt r + 8 * rootPages r : Nat) (wordBytes (pteWord addr)) = (e, .ok ()))
    (g : e.vstore (e.seq q).ctx 16 j.cmd.opUnit (a + 8 : Nat)
      (wordBytes (pack [(0, 15, rootPages r + 1), (15, 49, bits (wordAt r 1) 63 15)])) = (f, .ok ())) :
    ∀ k, d.appendSet j q a r addr k = k f := by
  intro k; unfold Device.appendSet; dsimp only; rw [Device.kvStore_ok h]; exact Device.setPages_ok g k

/-! ### Walks (R196, R197) -/

theorem Device.readRoots_one {d e : Device} {j : Job} {t q a : Nat} {w : AtnDesc} {bs : List Byte}
    (ha : d.rootAddr q = some a) (h : d.vload j.ctx t (unitCode t 9) a 64 = (e, .ok bs))
    (hb : rootBad w (bytesWords bs) = false) : ∀ segs, d.readRoots j t w segs [q] =
      e.mapRoots j.id (fun x => if x.1 = q then (q, bytesWords bs) else x) := by
  intro segs; unfold Device.readRoots; rw [ha]; dsimp only; rw [h]; dsimp only [Device.andThen]
  rw [hb]; rfl

/-- A page whose entry the look-aside buffer holds, inside the window. -/
theorem Device.walk_hit {d e : Device} {j : Job} {t seq page : Nat} {w : AtnDesc} {rs : List (Nat × List Word)} {x : LabEntry}
    {r : Root} (hr : rootOf rs seq = r) (hp : page < rootPages r)
    (hx : (d.atnSt t).lab.find? (fun e => e.seq == seq && e.page == page) = some x)
    (he : ((d.setAtnSt t { d.atnSt t with lab := x :: (d.atnSt t).lab.filter (· != x) }).count (Reg.ATN_LAB_HIT t) 1) = e)
    (hok : pteOk x.pte = true)
    (hlo : ¬ (pteAddr x.pte + (atnLayer w * rootHeads r + atnKvh w) * rootStride r < rootLo r ∨
      rootHi r < pteAddr x.pte + (atnLayer w * rootHeads r + atnKvh w) * rootStride r + 136 * atnDh w)) :
    ∀ k, d.walk j t w rs seq page k = k e (pteAddr x.pte + (atnLayer w * rootHeads r + atnKvh w) * rootStride r) := by
  intro k; unfold Device.walk; dsimp only; rw [hr, if_pos hp]
  unfold Device.walkEntry Device.labRead; dsimp only; rw [hx]; dsimp only
  rw [hok, he]; simp only [Bool.not_true, Bool.false_eq_true, if_false]; rw [if_neg hlo]

/-! ### Queries, keys and values (R205 to R207) -/

theorem Device.phis_plain {d : Device} {j : Job} {t : Nat} {w : AtnDesc} (h : atnRope w = false) :
    ∀ k, d.phis j t w k = k d [] := by
  intro k; unfold Device.phis; rw [h]; rfl

theorem Device.atnVec_ok {d e f : Device} {j : Job} {t base delta sbase l operand : Nat} {w : AtnDesc} {cs ss : List Byte}
    {v : AtnVec} (hc : d.atnLoad j t base delta (atnDh w) = (e, .ok cs))
    (hs : e.atnLoad j t sbase (2 * l) (2 * atnNb w) = (f, .ok ss)) (hv : (atnVecOf operand l (atnDh w) cs ss).toOption = some v) :
    ∀ k, d.atnVec j t w base delta sbase l operand k = k f v := by
  intro k; unfold Device.atnVec; rw [hc]; dsimp only [Device.andThen]; rw [hs]; dsimp only
  split
  · rename_i x hx; rw [hx] at hv; exact absurd hv (by simp [Except.toOption])
  · rename_i u hu; rw [hu] at hv; obtain rfl : u = v := by simpa [Except.toOption] using hv
    rfl

theorem Device.atnVecs_one {d f : Device} {j : Job} {t : Nat} {w : AtnDesc} {x : Nat × Nat × Nat × Nat × Nat} {v : AtnVec}
    (h : ∀ k, d.atnVec j t w x.1 x.2.1 x.2.2.1 x.2.2.2.1 x.2.2.2.2 k = k f v) :
    ∀ k, d.atnVecs j t w [x] [] k = k f [v] := by
  intro k; unfold Device.atnVecs; rw [h]; rfl

theorem Device.pagedKeys_ok {d e f1 f2 f3 f4 : Device} {j : Job} {t seq page top base n : Nat} {w : AtnDesc}
    {rs : List (Nat × List Word)} {kc vc ks vs : List Byte} {l : List (Nat × AtnVec × AtnVec)}
    (hn : min 64 (top + 1 - 64 * page) = n) (h0 : n ≠ 0) (hw : ∀ k, d.walk j t w rs seq page k = k e base)
    (h1 : e.vload j.ctx t (unitCode t 9) base (n * atnDh w) = (f1, .ok kc))
    (h2 : f1.vload j.ctx t (unitCode t 9) (base + 64 * atnDh w) (n * atnDh w) = (f2, .ok vc))
    (h3 : f2.vload j.ctx t (unitCode t 9) (base + 128 * atnDh w) (2 * n * atnNb w) = (f3, .ok ks))
    (h4 : f3.vload j.ctx t (unitCode t 9) (base + 132 * atnDh w) (2 * n * atnNb w) = (f4, .ok vs))
    (hl : (pageKvs (atnDh w) page n kc vc ks vs).toOption = some l) :
    ∀ k, d.pagedKeys j t w rs seq page top k = k f4 l := by
  intro k; unfold Device.pagedKeys; dsimp only; rw [hn, if_neg h0, hw, h1]; dsimp only [Device.andThen]; rw [h2]; dsimp only
  rw [h3]; dsimp only; rw [h4]; dsimp only
  split
  · rename_i x hx; rw [hx] at hl; exact absurd hl (by simp [Except.toOption])
  · rename_i u hu; rw [hu] at hl; obtain rfl : u = l := by simpa [Except.toOption] using hl
    rfl

/-! ### Appends and outputs (R214 to R216) -/

theorem Device.putSlot_ok {d f1 f2 f3 f4 : Device} {j : Job} {t base slot : Nat} {w : AtnDesc} {kv : AtnVec × AtnVec}
    {en : AtnVec → List Byte} (he : (fun v : AtnVec => v.exps.zipIdx.flatMap
      (fun e => leBytes 2 (scaleEntry e.1 ((slot * atnNb w + e.2) % 64)))) = en)
    (h1 : d.vstore j.ctx t (unitCode t 9) (base + slot * atnDh w) (packCodes fmtS8 kv.1.codes) = (f1, .ok ()))
    (h2 : f1.vstore j.ctx t (unitCode t 9) (base + 64 * atnDh w + slot * atnDh w) (packCodes fmtS8 kv.2.codes) = (f2, .ok ()))
    (h3 : f2.vstore j.ctx t (unitCode t 9) (base + 128 * atnDh w + 2 * slot * atnNb w) (en kv.1) = (f3, .ok ()))
    (h4 : f3.vstore j.ctx t (unitCode t 9) (base + 132 * atnDh w + 2 * slot * atnNb w) (en kv.2) = (f4, .ok ())) :
    ∀ k, d.putSlot j t w base slot kv k = k f4 := by
  subst he
  intro k; unfold Device.putSlot; dsimp only; rw [h1]; dsimp only [Device.andThen]; rw [h2]; dsimp only
  rw [h3]; dsimp only; rw [h4]

theorem Device.combine_one {d e f : Device} {j : Job} {t row head off nr : Nat} {w : AtnDesc} {bs : List Byte}
    {acc : Tracked × List Tracked} (hr : nr = 1)
    (ho : (row * atnQpg w + head) * atnNr w * atnZ w = off)
    (h1 : d.atnLoad j t (atnF w 5 63 32) off (atnZ w) = (e, .ok bs))
    (hf : ¬ ((bs.getD (atnZ w - 112) 0).toNat % 2 = 0 ∨ leNat (slice bs (atnZ w - 116) 4) ≠ atnTag w))
    (h2 : e.atnStore j t (atnF w 5 63 32) (off + atnZ w - 112) [BitVec.ofNat 8 ((bs.getD (atnZ w - 112) 0).toNat - 1)] = (f, .ok ())) :
    ∀ k, d.combine j t w row head nr 0 acc k = k (f.atnTally j t { (default : Tally) with
        sat := b2n (alignedAdd acc.1 (partialPair w bs).1).2 + (alignedAdds acc.2 (partialPair w bs).2).2 })
      ((alignedAdd acc.1 (partialPair w bs).1).1, (alignedAdds acc.2 (partialPair w bs).2).1) := by
  subst hr; intro k; unfold Device.combine; dsimp only; rw [Nat.add_zero, ho, h1]; dsimp only [Device.andThen]; rw [if_neg hf, h2]; rfl

theorem Device.atnOutput_ok {d e f : Device} {j : Job} {t row head : Nat} {w : AtnDesc} {l : Tracked} {acc : List Tracked}
    (h : d.atnStores j t (outputStores w row head (outputElems l acc)).1 = (e, .ok ()))
    (hf : (e.atnTally j t (outputStores w row head (outputElems l acc)).2).count (Reg.ATN_ROWS t) 1 = f) :
    ∀ k, d.atnOutput j t w row head l acc k = k (if l.a = 0 then (f.noteJob j.id noteEmptyRow).count (Reg.ATN_EMPTY t) 1 else f) := by
  intro k; unfold Device.atnOutput; dsimp only; rw [h]; dsimp only [Device.andThen]; rw [hf]

end Sys2Proof.Machine
end

