-- ==== Sys2Proof/Laws/Memory.lean ====
section
/-! SUPPORT. Laws of the byte memories and the sparse tables: a read after a write, what a write leaves alone, and that
every memory operation keeps the canonical form. -/
namespace Sys2Proof.Machine

open Sys2Proof

/-! ### Canonical form -/

theorem wfFrom_mono {lo hi : Nat} {m : Memory} (h : wfFrom (some hi) m = true) (hl : lo ≤ hi) :
    wfFrom (some lo) m = true := by
  cases m with
  | nil => rfl
  | cons p r =>
    simp only [wfFrom, Bool.and_eq_true, decide_eq_true_eq] at h ⊢
    exact ⟨⟨by omega, h.1.2⟩, h.2⟩

theorem wfFrom_none {lo : Nat} {m : Memory} (h : wfFrom (some lo) m = true) : wfFrom none m = true := by
  cases m with
  | nil => rfl
  | cons p r =>
    simp only [wfFrom, Bool.and_eq_true, decide_eq_true_eq] at h ⊢
    exact ⟨h.1.2, h.2⟩

/-- An address below every entry reads as unlisted. -/
theorem memGet_below {lo a : Nat} {m : Memory} (h : wfFrom (some lo) m = true) (ha : a ≤ lo) : memGet m a = 0 := by
  induction m generalizing lo with
  | nil => rfl
  | cons p r ih =>
    simp only [wfFrom, Bool.and_eq_true, decide_eq_true_eq] at h
    have : ¬ p.1 = a := by omega
    simp only [memGet, this, if_false]
    exact ih h.2 (by omega)

theorem wfFrom_memSet {lo a : Nat} {m : Memory} (b : Byte) (h : wfFrom (some lo) m = true) (ha : lo < a) :
    wfFrom (some lo) (memSet m a b) = true := by
  induction m generalizing lo with
  | nil =>
    simp only [memSet]
    split
    · rfl
    · rename_i hb
      simp only [wfFrom, Bool.and_eq_true, decide_eq_true_eq, bne_iff_ne]
      exact ⟨⟨ha, hb⟩, trivial⟩
  | cons p r ih =>
    obtain ⟨j, c⟩ := p
    simp only [wfFrom, Bool.and_eq_true, decide_eq_true_eq, bne_iff_ne] at h
    simp only [memSet]
    split
    · split
      · simp only [wfFrom, Bool.and_eq_true, decide_eq_true_eq, bne_iff_ne]; exact h
      · rename_i hj hb
        simp only [wfFrom, Bool.and_eq_true, decide_eq_true_eq, bne_iff_ne]
        exact ⟨⟨ha, hb⟩, ⟨hj, h.1.2⟩, h.2⟩
    · split
      · split
        · exact wfFrom_mono h.2 (by omega)
        · rename_i hb
          simp only [wfFrom, Bool.and_eq_true, decide_eq_true_eq, bne_iff_ne]
          exact ⟨⟨h.1.1, hb⟩, h.2⟩
      · rename_i h1 h2
        simp only [wfFrom, Bool.and_eq_true, decide_eq_true_eq, bne_iff_ne]
        exact ⟨h.1, ih h.2 (by omega)⟩

/-- A byte write keeps the canonical form. -/
theorem memWf_memSet {m : Memory} (a : Nat) (b : Byte) (h : memWf m = true) : memWf (memSet m a b) = true := by
  cases m with
  | nil =>
    simp only [memSet]
    split
    · rfl
    · rename_i hb
      simp only [memWf, wfFrom, Bool.and_eq_true, bne_iff_ne]
      exact ⟨hb, trivial⟩
  | cons p r =>
    obtain ⟨j, c⟩ := p
    simp only [memWf, wfFrom, Bool.and_eq_true, bne_iff_ne] at h
    simp only [memSet]
    split
    · split
      · simp only [memWf, wfFrom, Bool.and_eq_true, bne_iff_ne]; exact h
      · rename_i hj hb
        simp only [memWf, wfFrom, Bool.and_eq_true, decide_eq_true_eq, bne_iff_ne]
        exact ⟨hb, ⟨hj, h.1⟩, h.2⟩
    · split
      · split
        · exact wfFrom_none h.2
        · rename_i hb
          simp only [memWf, wfFrom, Bool.and_eq_true, bne_iff_ne]
          exact ⟨hb, h.2⟩
      · rename_i h1 h2
        simp only [memWf, wfFrom, Bool.and_eq_true, bne_iff_ne]
        exact ⟨h.1, wfFrom_memSet b h.2 (by omega)⟩

/-- A write of bytes keeps the canonical form. -/
theorem memWf_memWrite {m : Memory} (a : Nat) (bs : List Byte) (h : memWf m = true) : memWf (memWrite m a bs) = true := by
  induction bs generalizing m a with
  | nil => exact h
  | cons b r ih => exact ih (a + 1) (memWf_memSet a b h)

theorem wfFrom_filter {lo : Option Nat} {m : Memory} (p : Nat × Byte → Bool) (h : wfFrom lo m = true) :
    wfFrom lo (m.filter p) = true := by
  induction m generalizing lo with
  | nil => exact h
  | cons c r ih =>
    rw [List.filter_cons]
    cases lo with
    | none =>
      simp only [wfFrom, Bool.and_eq_true] at h
      split
      · simp only [wfFrom, Bool.and_eq_true]; exact ⟨h.1, ih h.2⟩
      · exact wfFrom_none (ih h.2)
    | some l =>
      simp only [wfFrom, Bool.and_eq_true, decide_eq_true_eq] at h
      split
      · simp only [wfFrom, Bool.and_eq_true, decide_eq_true_eq]; exact ⟨h.1, ih h.2⟩
      · exact wfFrom_mono (ih h.2) (by omega)

/-- Dropping a range, as a zeroing does, keeps the canonical form. -/
theorem memWf_filter {m : Memory} (p : Nat × Byte → Bool) (h : memWf m = true) : memWf (m.filter p) = true :=
  wfFrom_filter p h

/-! ### Reads after writes -/

/-- A byte write leaves every other byte alone. -/
theorem memGet_memSet_ne {m : Memory} {a x : Nat} (b : Byte) (hx : x ≠ a) : memGet (memSet m a b) x = memGet m x := by
  induction m with
  | nil =>
    simp only [memSet]
    split
    · rfl
    · simp [memGet, Ne.symm hx]
  | cons p r ih =>
    obtain ⟨j, c⟩ := p
    simp only [memSet]
    split
    · split
      · rfl
      · simp [memGet, Ne.symm hx]
    · split
      · rename_i hj
        subst hj
        split <;> simp [memGet, Ne.symm hx]
      · simp only [memGet]
        split
        · rfl
        · exact ih

/-- A byte write is read back. -/
theorem memGet_memSet_self {m : Memory} (a : Nat) (b : Byte) (h : memWf m = true) : memGet (memSet m a b) a = b := by
  suffices H : ∀ lo, wfFrom lo m = true → memGet (memSet m a b) a = b from H none h
  clear h
  induction m with
  | nil =>
    intro lo h
    simp only [memSet]
    split
    · rename_i hb; exact hb.symm
    · simp [memGet]
  | cons p r ih =>
    intro lo h
    obtain ⟨j, c⟩ := p
    have hr : wfFrom (some j) r = true := by
      cases lo <;> simp only [wfFrom, Bool.and_eq_true] at h <;> exact h.2
    simp only [memSet]
    split
    · rename_i hj
      split
      · rename_i hb
        have : ¬ j = a := by omega
        simp [memGet, this, hb, memGet_below hr (Nat.le_of_lt hj)]
      · simp [memGet]
    · split
      · rename_i hj
        subst hj
        split
        · rename_i hb
          simp [hb, memGet_below hr (Nat.le_refl _)]
        · simp [memGet]
      · rename_i h1 h2
        have : ¬ j = a := by omega
        simp only [memGet, this, if_false]
        exact ih (some j) hr

/-- A write of bytes leaves every byte outside its range alone. -/
theorem memGet_memWrite_out {m : Memory} {a x : Nat} (bs : List Byte) (hx : x < a ∨ a + bs.length ≤ x) :
    memGet (memWrite m a bs) x = memGet m x := by
  induction bs generalizing m a with
  | nil => rfl
  | cons b r ih =>
    simp only [List.length_cons] at hx
    simp only [memWrite]
    rw [ih (by omega), memGet_memSet_ne b (by omega)]

/-- A write of bytes is read back. -/
theorem memGet_memWrite_in {m : Memory} {a i : Nat} (bs : List Byte) (h : memWf m = true) (hi : i < bs.length) :
    memGet (memWrite m a bs) (a + i) = bs.getD i 0 := by
  induction bs generalizing m a i with
  | nil => simp at hi
  | cons b r ih =>
    simp only [memWrite]
    cases i with
    | zero =>
      rw [memGet_memWrite_out r (by omega)]
      simpa using memGet_memSet_self a b h
    | succ k =>
      have : a + (k + 1) = a + 1 + k := by omega
      rw [this, ih (memWf_memSet a b h) (by simpa using hi)]
      simp

theorem memRead_length (m : Memory) (a n : Nat) : (memRead m a n).length = n := by
  induction n generalizing a with
  | zero => rfl
  | succ n ih => simp [memRead, ih]

/-! ### Sparse tables -/

@[simp] theorem tget_nil {α : Type} (k : Nat) (d : α) : tget [] k d = d := rfl

@[simp] theorem tget_tset_self {α : Type} (t : Tbl α) (k : Nat) (v d : α) : tget (tset t k v) k d = v := by
  induction t with
  | nil => simp [tset, tget]
  | cons p r ih =>
    obtain ⟨j, u⟩ := p
    simp only [tset]
    split
    · simp [tget]
    · split
      · simp [tget]
      · rename_i h1 h2
        have : ¬ j = k := fun e => h2 e.symm
        simp [tget, this, ih]

theorem tget_tset_ne {α : Type} (t : Tbl α) {k l : Nat} (v d : α) (h : l ≠ k) : tget (tset t k v) l d = tget t l d := by
  induction t with
  | nil => simp [tset, tget, Ne.symm h]
  | cons p r ih =>
    obtain ⟨j, u⟩ := p
    simp only [tset]
    split
    · simp [tget, Ne.symm h]
    · split
      · rename_i h2
        subst h2
        simp [tget, Ne.symm h]
      · simp only [tget]
        split
        · rfl
        · exact ih

/-! ### The memories of the device -/

/-- A list of pieces, each written in turn, keeps the canonical form of HBM. -/
theorem Hbm.writePiece_wf {h : Hbm} (a : Nat) (bs : List Byte) (hw : memWf h.mem = true) :
    memWf (h.writePiece a bs).1.mem = true := by
  unfold Hbm.writePiece
  extract_lets g
  have hg : memWf g.mem = true := by unfold g; split <;> exact hw
  clear_value g
  split
  · exact hg
  · split
    · split
      · exact memWf_memWrite a bs hg
      · exact hg
    · exact memWf_memWrite a bs hg

/-- Every HBM write keeps the canonical form. -/
theorem Hbm.write_wf {h : Hbm} (a : Nat) (bs : List Byte) (hw : memWf h.mem = true) : memWf (h.write a bs).1.mem = true := by
  unfold Hbm.write
  split
  · exact hw
  · generalize pieces 32 a bs.length = ps
    suffices H : ∀ (acc : Hbm × Option MemErr), memWf acc.1.mem = true →
        memWf (ps.foldl (fun (acc : Hbm × Option MemErr) p =>
          let r := acc.1.writePiece p.1 (slice bs (p.1 - a) p.2)
          (r.1, firstErr acc.2 r.2)) acc).1.mem = true from H (h, none) hw
    induction ps with
    | nil => intro acc ha; exact ha
    | cons p r ih => intro acc ha; exact ih _ (Hbm.writePiece_wf _ _ ha)

/-- A write reaching the controllers keeps the canonical form of HBM. -/
theorem Device.hbmWrite_wf {d : Device} (a : Nat) (bs : List Byte) (hw : memWf d.hbm.mem = true) :
    memWf (d.hbmWrite a bs).1.hbm.mem = true := by
  unfold Device.hbmWrite
  simp only
  split
  · exact hw
  · exact Hbm.write_wf a bs hw

/-- Every Loft store keeps the canonical form of every slice. -/
theorem Device.loftWrite_wf {d : Device} (t a : Nat) (bs : List Byte) (hw : ∀ u, memWf (tget d.loft u []) = true) :
    ∀ u, memWf (tget (d.loftWrite t a bs).1.loft u []) = true := by
  unfold Device.loftWrite
  generalize pieces 32 a bs.length = ps
  suffices H : ∀ (acc : Device × Option MemErr), (∀ u, memWf (tget acc.1.loft u []) = true) →
      ∀ u, memWf (tget (ps.foldl (fun (acc : Device × Option MemErr) p =>
        let part := slice bs (p.1 - a) p.2
        let put (d : Device) : Device := { d with loft := tset d.loft t (memWrite (tget d.loft t []) p.1 part) }
        if acc.1.loftBad.contains (t, p.1 / 32) then
          if p.2 = 32 then
            (put { acc.1 with loftBad := acc.1.loftBad.filter (· != (t, p.1 / 32)) }, acc.2)
          else (acc.1, firstErr acc.2 (some (.uncorrectable p.1)))
        else (put acc.1, acc.2)) acc).1.loft u []) = true from H (d, none) hw
  induction ps with
  | nil => intro acc ha; exact ha
  | cons p r ih =>
    intro acc ha
    refine ih _ ?_
    intro u
    have hput : memWf (tget (tset acc.1.loft t (memWrite (tget acc.1.loft t []) p.1 (slice bs (p.1 - a) p.2))) u []) = true := by
      by_cases hu : u = t
      · subst hu
        rw [tget_tset_self]
        exact memWf_memWrite _ _ (ha u)
      · rw [tget_tset_ne _ _ _ hu]
        exact ha u
    dsimp only
    split
    · split
      · exact hput
      · exact ha u
    · exact hput

/-- Zeroing a Loft range keeps the canonical form of every slice. -/
theorem Device.loftZero_wf {d : Device} (t a n : Nat) (hw : ∀ u, memWf (tget d.loft u []) = true) :
    ∀ u, memWf (tget (d.loftZero t a n).loft u []) = true := by
  intro u
  unfold Device.loftZero
  by_cases hu : u = t
  · subst hu
    dsimp only
    rw [tget_tset_self]
    exact memWf_filter _ (hw u)
  · dsimp only
    rw [tget_tset_ne _ _ _ hu]
    exact hw u

end Sys2Proof.Machine
end

