-- ==== Sys2Proof/Laws/Record.lean ====
section
/-! SUPPORT. What counting, charging, recording and settling may change: the laws that a proof about a command cites
instead of unfolding those operations. -/
namespace Sys2Proof.Machine

open Sys2Proof

/-- `d'` differs from `d` only in what reporting touches: register words, the reports in the Flashing store, the Gutter
rings, the meter, the record rate, what has been sent, the bound, and the HBM bytes of the fault-log ring with the Soffit
lines that hold them. -/
structure Reported (d d' : Device) : Prop where
  clk : d'.clk = d.clk
  loft : d'.loft = d.loft
  loftBad : d'.loftBad = d.loftBad
  patrol : d'.patrol = d.patrol
  truss : d'.truss = d.truss
  rowReqs : d'.rowReqs = d.rowReqs
  raf : d'.raf = d.raf
  lth : d'.lth = d.lth
  atn : d'.atn = d.atn
  jobs : d'.jobs = d.jobs
  nextJob : d'.nextJob = d.nextJob
  nextReady : d'.nextReady = d.nextReady
  entries : d'.entries = d.entries
  nextEntry : d'.nextEntry = d.nextEntry
  bufs : d'.bufs = d.bufs
  nextBuf : d'.nextBuf = d.nextBuf
  graphs : d'.graphs = d.graphs
  fences : d'.fences = d.fences
  eave : d'.eave = d.eave
  ctxs : d'.ctxs = d.ctxs
  xlt : d'.xlt = d.xlt
  tables : d'.tables = d.tables
  remotes : d'.remotes = d.remotes
  serving : d'.serving = d.serving
  nextTag : d'.nextTag = d.nextTag
  flows : d'.flows = d.flows
  heldLocal : d'.heldLocal = d.heldLocal
  kvEdits : d'.kvEdits = d.kvEdits
  seqs : d'.seqs = d.seqs
  clients : d'.clients = d.clients
  models : d'.models = d.models
  lanes : d'.lanes = d.lanes
  crsSnap : d'.crsSnap = d.crsSnap
  tickets : d'.tickets = d.tickets
  nextTicket : d'.nextTicket = d.nextTicket
  links : d'.links = d.links
  splices : d'.splices = d.splices
  cols : d'.cols = d.cols
  suspects : d'.suspects = d.suspects
  colq : d'.colq = d.colq
  regions : d'.regions = d.regions
  tableBad : d'.tableBad = d.tableBad
  regionsDue : d'.regionsDue = d.regionsDue
  groups : d'.groups = d.groups
  qps : d'.qps = d.qps
  ports : d'.ports = d.ports
  rkeyControl : d'.rkeyControl = d.rkeyControl
  rkeyMemory : d'.rkeyMemory = d.rkeyMemory
  devnum : d'.devnum = d.devnum
  devnumValid : d'.devnumValid = d.devnumValid
  free : d'.free = d.free
  fls : ∃ a b, d'.fls = { d.fls with storedRecs := a, heldRecs := b }
  hbm : ∃ m b r, d'.hbm = { d.hbm with mem := m, bad := b, rewritten := r }

theorem Reported.rfl' (d : Device) : Reported d d := by
  constructor <;> first | rfl | exact ⟨_, _, rfl⟩ | exact ⟨_, _, _, rfl⟩

theorem Reported.trans {a b c : Device} (h : Reported a b) (k : Reported b c) : Reported a c := by
  constructor
  case fls => obtain ⟨p, q, e⟩ := h.fls; obtain ⟨u, v, f⟩ := k.fls; exact ⟨u, v, by rw [f, e]⟩
  case hbm => obtain ⟨p, q, z, e⟩ := h.hbm; obtain ⟨u, v, y, f⟩ := k.hbm; exact ⟨u, v, y, by rw [f, e]⟩
  case clk => exact k.clk.trans h.clk
  case loft => exact k.loft.trans h.loft
  case loftBad => exact k.loftBad.trans h.loftBad
  case patrol => exact k.patrol.trans h.patrol
  case truss => exact k.truss.trans h.truss
  case rowReqs => exact k.rowReqs.trans h.rowReqs
  case raf => exact k.raf.trans h.raf
  case lth => exact k.lth.trans h.lth
  case atn => exact k.atn.trans h.atn
  case jobs => exact k.jobs.trans h.jobs
  case nextJob => exact k.nextJob.trans h.nextJob
  case nextReady => exact k.nextReady.trans h.nextReady
  case entries => exact k.entries.trans h.entries
  case nextEntry => exact k.nextEntry.trans h.nextEntry
  case bufs => exact k.bufs.trans h.bufs
  case nextBuf => exact k.nextBuf.trans h.nextBuf
  case graphs => exact k.graphs.trans h.graphs
  case fences => exact k.fences.trans h.fences
  case eave => exact k.eave.trans h.eave
  case ctxs => exact k.ctxs.trans h.ctxs
  case xlt => exact k.xlt.trans h.xlt
  case tables => exact k.tables.trans h.tables
  case remotes => exact k.remotes.trans h.remotes
  case serving => exact k.serving.trans h.serving
  case nextTag => exact k.nextTag.trans h.nextTag
  case flows => exact k.flows.trans h.flows
  case heldLocal => exact k.heldLocal.trans h.heldLocal
  case kvEdits => exact k.kvEdits.trans h.kvEdits
  case seqs => exact k.seqs.trans h.seqs
  case clients => exact k.clients.trans h.clients
  case models => exact k.models.trans h.models
  case lanes => exact k.lanes.trans h.lanes
  case crsSnap => exact k.crsSnap.trans h.crsSnap
  case tickets => exact k.tickets.trans h.tickets
  case nextTicket => exact k.nextTicket.trans h.nextTicket
  case links => exact k.links.trans h.links
  case splices => exact k.splices.trans h.splices
  case cols => exact k.cols.trans h.cols
  case suspects => exact k.suspects.trans h.suspects
  case colq => exact k.colq.trans h.colq
  case regions => exact k.regions.trans h.regions
  case tableBad => exact k.tableBad.trans h.tableBad
  case regionsDue => exact k.regionsDue.trans h.regionsDue
  case groups => exact k.groups.trans h.groups
  case qps => exact k.qps.trans h.qps
  case ports => exact k.ports.trans h.ports
  case rkeyControl => exact k.rkeyControl.trans h.rkeyControl
  case rkeyMemory => exact k.rkeyMemory.trans h.rkeyMemory
  case devnum => exact k.devnum.trans h.devnum
  case devnumValid => exact k.devnumValid.trans h.devnumValid
  case free => exact k.free.trans h.free

/-- A change of register words, rings, meter, rate, output and bound alone. -/
theorem Reported.of (d : Device) (r : Tbl Word) (g : Tbl Gutter) (m : Meter) (x : Tbl (Nat × Nat)) (o : List Output) (n : Nat)
    (b : BitVec 7) (s : Tbl Soffit) :
    Reported d { d with regs := r, gut := g, meter := m, rate := x, out := o, logSeq := n, bound := b, soffit := s } := by
  constructor <;> first | rfl | exact ⟨_, _, rfl⟩ | exact ⟨_, _, _, rfl⟩

/-- A count changes registers only (R413). -/
theorem Device.count_regs_only (d : Device) (off n : Nat) : ∃ r, d.count off n = { d with regs := r } := by
  unfold Device.count
  split
  · exact ⟨_, rfl⟩
  · dsimp only
    split
    · unfold Device.setOvf; split <;> exact ⟨_, rfl⟩
    · exact ⟨_, rfl⟩

theorem Device.count_reported (d : Device) (off n : Nat) : Reported d (d.count off n) := by
  unfold Device.count
  split
  · exact .rfl' d
  · simp only [Device.setReg, Device.setOvf]
    repeat' split
    all_goals exact .of d _ _ _ _ _ _ _ _

theorem Device.setReg_reported (d : Device) (off : Nat) (w : Word) : Reported d (d.setReg off w) := .of d _ _ _ _ _ _ _ _

theorem Device.charge_reported (d : Device) (a : Nat) (q : MQ) (n t : Nat) : Reported d (d.charge a q n t) :=
  .of d _ _ _ _ _ _ _ _

theorem Device.emit_reported (d : Device) (o : Output) : Reported d (d.emit o) := .of d _ _ _ _ _ _ _ _

theorem Device.rdmaOut_reported (d : Device) (c q k a : Nat) (bs : List Byte) : Reported d (d.rdmaOut c q k a bs) :=
  (Device.count_reported _ _ _).trans ((Device.charge_reported _ _ _ _ _).trans (Device.emit_reported _ _))

theorem Device.rdmaIn_reported (d : Device) (c q n : Nat) : Reported d (d.rdmaIn c q n) :=
  (Device.count_reported _ _ _).trans (Device.charge_reported _ _ _ _ _)

theorem Device.rdmaAnswer_reported (d : Device) (q st : Nat) (bs : List Byte) : Reported d (d.rdmaAnswer q st bs) := by
  unfold Device.rdmaAnswer
  dsimp only
  split
  · exact (Device.count_reported _ _ _).trans (Device.emit_reported _ _)
  · exact (Device.count_reported _ _ _).trans ((Device.count_reported _ _ _).trans (Device.emit_reported _ _))

theorem Device.setGutter_reported (d : Device) (c : Nat) (g : Gutter) : Reported d (d.setGutter c g) :=
  .of d _ _ _ _ _ _ _ _

theorem Device.gutSend_reported (d : Device) (c : Nat) (r : GutRec) : Reported d (d.gutSend c r) := by
  have h : ∀ g : Gutter, Reported d (if r.again then d.setGutter c g
      else (d.setGutter c g).count (if r.isEvent then Reg.GUT_EVENTS else Reg.GUT_RECORDS) 1) := by
    intro g
    split
    · exact Device.setGutter_reported d c g
    · exact (Device.setGutter_reported d c g).trans (Device.count_reported _ _ _)
  exact (h _).trans (Device.rdmaOut_reported _ _ _ _ _ _)

theorem Device.gutDrain_reported (f : Nat) (d : Device) (c : Nat) : Reported d (Device.gutDrain f d c) := by
  induction f generalizing d with
  | zero => exact .rfl' d
  | succ f ih =>
    unfold Device.gutDrain
    dsimp only
    split
    · exact .rfl' d
    · split
      · exact .rfl' d
      · exact ((Device.setGutter_reported d c _).trans (Device.gutSend_reported _ _ _)).trans (ih _)

theorem Device.gutPut_reported (d : Device) (c : Nat) (r : GutRec) : Reported d (d.gutPut c r) :=
  (Device.setGutter_reported d _ _).trans (Device.gutDrain_reported _ _ _)

theorem Device.event_reported (d : Device) (st : Nat) (w : Word) (x : Nat) : Reported d (d.event st w x) := by
  unfold Device.event
  split
  · exact .rfl' d
  · exact Device.gutPut_reported d 0 _

/-! ### HBM writes -/

theorem Hbm.writePiece_only (h : Hbm) (a : Nat) (bs : List Byte) :
    ∃ m b r, (h.writePiece a bs).1 = { h with mem := m, bad := b, rewritten := r } := by
  unfold Hbm.writePiece
  dsimp only
  split <;> split <;> first | exact ⟨_, _, _, rfl⟩ | skip
  all_goals split <;> first | exact ⟨_, _, _, rfl⟩ | skip
  all_goals split <;> exact ⟨_, _, _, rfl⟩

/-- A write of HBM changes bytes, bad sectors and those rewritten under a sweep only. -/
theorem Hbm.write_only (h : Hbm) (a : Nat) (bs : List Byte) :
    ∃ m b r, (h.write a bs).1 = { h with mem := m, bad := b, rewritten := r } := by
  unfold Hbm.write
  split
  · exact ⟨_, _, _, rfl⟩
  · generalize pieces 32 a bs.length = ps
    suffices H : ∀ (acc : Hbm × Option MemErr), (∃ m b r, acc.1 = { h with mem := m, bad := b, rewritten := r }) →
        ∃ m b r, (ps.foldl (fun (acc : Hbm × Option MemErr) p =>
          let r := acc.1.writePiece p.1 (slice bs (p.1 - a) p.2)
          (r.1, firstErr acc.2 r.2)) acc).1 = { h with mem := m, bad := b, rewritten := r } from H (h, none) ⟨_, _, _, rfl⟩
    induction ps with
    | nil => intro acc ha; exact ha
    | cons p r ih =>
      intro acc ha
      refine ih _ ?_
      obtain ⟨m, b, r, e⟩ := ha
      obtain ⟨m', b', r', e'⟩ := Hbm.writePiece_only acc.1 p.1 (slice bs (p.1 - a) p.2)
      exact ⟨m', b', r', by dsimp only; rw [e', e]⟩

theorem Device.hbmWrite_reported (d : Device) (a : Nat) (bs : List Byte) : Reported d (d.hbmWrite a bs).1 := by
  unfold Device.hbmWrite
  dsimp only
  split
  · exact .rfl' d
  · obtain ⟨m, b, r, e⟩ := Hbm.write_only d.hbm a bs
    constructor <;> first | rfl | exact ⟨_, _, rfl⟩ | exact ⟨m, b, r, e⟩

/-! ### The fault log and the bound -/

theorem Device.logToRing_reported (d : Device) (r : FaultRec) : Reported d (d.logToRing r) := by
  unfold Device.logToRing
  dsimp only
  split
  · split
    · exact (Device.hbmWrite_reported d _ _).trans ((Device.count_reported _ _ _).trans (Device.setReg_reported _ _ _))
    · exact (Device.hbmWrite_reported d _ _).trans ((Device.charge_reported _ _ _ _ _).trans (Device.setReg_reported _ _ _))
  · exact (Device.count_reported _ _ _).trans (Device.setReg_reported _ _ _)

theorem Device.logKeep_reported (d : Device) (r : FaultRec) : Reported d (d.logKeep r) := by
  unfold Device.logKeep
  split
  · constructor <;> first | rfl | exact ⟨_, _, rfl⟩ | exact ⟨_, _, _, rfl⟩
  · exact .rfl' d

theorem Device.toManagers_reported (d : Device) (r : FaultRec) : Reported d (d.toManagers r) := .of d _ _ _ _ _ _ _ _

theorem Device.logWrite_reported (d : Device) (r : FaultRec) : Reported d (d.logWrite r) := by
  unfold Device.logWrite
  dsimp only
  have h0 := (Device.logToRing_reported d r).trans (Device.count_reported _ Reg.FLT_RECORDS 1)
  generalize (d.logToRing r).count Reg.FLT_RECORDS 1 = e at h0 ⊢
  have h := h0.trans ((Device.event_reported e 0x7F (pack [(0, 8, 0x21), (8, 8, r.severity), (16, 16, r.kind), (32, 32, r.seq)])
    e.expect).trans (Device.logKeep_reported _ r))
  split
  · exact h
  · split
    · refine h.trans ?_
      constructor <;> first | rfl | exact ⟨_, _, rfl⟩ | exact ⟨_, _, _, rfl⟩
    · exact h.trans (Device.toManagers_reported _ _)

/-- A fault-log record changes nothing but what reporting touches. -/
theorem Device.log_reported (d : Device) (kind sev unit ctx action : Nat) (addr i0 i1 : Word) :
    Reported d (d.log kind sev unit ctx action addr i0 i1) := by
  unfold Device.log
  dsimp only
  split
  · exact (Reported.of d _ _ _ _ _ _ _ _).trans (Device.count_reported _ _ _)
  · exact (Reported.of d _ _ _ _ _ _ _ _).trans (Device.logWrite_reported _ _)

/-- FLT_BOUND follows its conditions after every command. -/
theorem settle_bound (d : Device) : (settle d).bound = boundCond (settle d) := rfl

/-- Settling changes nothing but what reporting touches. -/
theorem settle_reported (d : Device) : Reported d (settle d) := by
  unfold settle
  dsimp only
  split
  · exact .of d _ _ _ _ _ _ _ _
  · refine (Device.log_reported d 0x14 3 0 noCtx 0 0 (boundWord d.bound) (boundWord (boundCond d))).trans ?_
    exact .of _ _ _ _ _ _ _ _ _

/-- While no condition falls, settling changes FLT_BOUND alone. -/
theorem settle_quiet {d : Device} (h : d.bound &&& ~~~ boundCond d = 0) : settle d = { d with bound := boundCond d } := by
  unfold settle
  dsimp only
  rw [if_pos h]

theorem Device.chargeBusy_reported (d : Device) (id : Nat) : Reported d (d.chargeBusy id) := by
  unfold Device.chargeBusy
  repeat' split
  all_goals first | exact Device.charge_reported _ _ _ _ _ | exact .rfl' d

theorem Device.countWait_reported (d : Device) (id : Nat) : Reported d (d.countWait id) := by
  unfold Device.countWait
  repeat' split
  all_goals first | exact Device.count_reported _ _ _ | exact .rfl' d

theorem Device.countTq_reported (d : Device) (id : Nat) : Reported d (d.countTq id) := by
  unfold Device.countTq
  repeat' split
  all_goals first | exact Device.count_reported _ _ _ | exact .rfl' d

/-- Ending a command counts and charges, and changes that command (R271). -/
theorem Device.endJob_eq (d : Device) (id : Nat) (e : Ending) : ∃ d', Reported d d' ∧ d.endJob id e =
    d'.mapJob id (fun j => if j.state = .done then j else
      { j with state := .done, run := .none, waitFrom := none, ending := some e }) :=
  ⟨_, (Device.chargeBusy_reported d id).trans ((Device.countWait_reported _ _).trans (Device.countTq_reported _ _)), rfl⟩

theorem Device.endJob_ctxs (d : Device) (id : Nat) (e : Ending) : (d.endJob id e).ctxs = d.ctxs := by
  obtain ⟨d', h, k⟩ := d.endJob_eq id e
  rw [k]; exact h.ctxs

/-- A meaning keeps the queue and leaves a device that has settled. -/
theorem onDevice_next {s t : State} {f : Device → Device} (h : onDevice s f = .next t) :
    t.dev = settle (f s.dev) ∧ t.pending = s.pending := by
  unfold onDevice at h
  cases h
  exact ⟨rfl, rfl⟩

theorem onRegister_next {s t : State} {off : Nat} {f : Device → Device} (h : onRegister s off f = .next t) :
    t.dev = settle (if s.dev.windowOpen off then f s.dev else s.dev) ∧ t.pending = s.pending :=
  onDevice_next h

/-- A row answers the state after whatever device its effect comes to. -/
theorem onDevice_eq {s : State} {f : Device → Device} {e : Device} (h : f s.dev = e) : onDevice s f = .next (s.after e) := by
  subst h; rfl

/-- From Stage Batten on, the control window serves every offset. -/
theorem Device.Up.windowOpen {d : Device} (h : d.Up) (off : Nat) : d.windowOpen off = true := by
  unfold Device.windowOpen; rcases h with h | h <;> rw [h]

/-- A register row answers the state after its effect while its register is served. -/
theorem onRegister_eq {s : State} {off : Nat} {f : Device → Device} {e : Device} (h : s.dev.windowOpen off = true)
    (h' : f s.dev = e) : onRegister s off f = .next (s.after e) :=
  onDevice_eq ((if_pos h).trans h')

end Sys2Proof.Machine
end

