-- ==== Sys2Proof/Laws/Hbm.lean ====
section
/-! SUPPORT. Every operation of the HBM controllers, of the fault log and of a command's ending keeps the memories of the
device in canonical form. -/
namespace Sys2Proof.Machine

open Sys2Proof

/-- An address-wise choice of entries reads as chosen. -/
theorem memGet_filter (f : Nat → Bool) (m : Memory) (x : Nat) :
    memGet (m.filter (fun p => f p.1)) x = if f x then memGet m x else 0 := by
  induction m with
  | nil => simp [memGet]
  | cons p r ih =>
    obtain ⟨j, b⟩ := p
    rw [List.filter_cons]
    by_cases h : j = x
    · subst h
      cases hf : f j <;> simp [memGet, hf, ih]
    · cases hf : f j <;> simp [memGet, h, ih]

theorem Device.MemoryWf.setReg {d : Device} (h : d.MemoryWf) (off : Nat) (w : Word) : (d.setReg off w).MemoryWf := h

theorem Device.MemoryWf.count {d : Device} (h : d.MemoryWf) (off n : Nat) : (d.count off n).MemoryWf := by
  obtain ⟨r, e⟩ := d.count_regs_only off n
  rw [e]; exact h

theorem Device.MemoryWf.charge {d : Device} (h : d.MemoryWf) (a : Nat) (q : MQ) (n t : Nat) : (d.charge a q n t).MemoryWf := h

theorem Device.MemoryWf.chargeHbm {d : Device} (h : d.MemoryWf) (a : Nat) (q : MQ) (n t : Nat) :
    (d.chargeHbm a q n t).MemoryWf := h

theorem Device.MemoryWf.rdmaOut {d : Device} (h : d.MemoryWf) (c q k a : Nat) (bs : List Byte) : (d.rdmaOut c q k a bs).MemoryWf := by
  unfold Device.rdmaOut
  exact h.count (Reg.ETH_TX_FRAMES (tget d.qps q default).port) (max 1 (ceilDiv bs.length (max 1 (tget d.qps q default).mtu)))

theorem Device.MemoryWf.gutSend {d : Device} (h : d.MemoryWf) (c : Nat) (r : GutRec) : (d.gutSend c r).MemoryWf := by
  have k : ∀ g : Gutter, (if r.again then d.setGutter c g
      else (d.setGutter c g).count (if r.isEvent then Reg.GUT_EVENTS else Reg.GUT_RECORDS) 1).MemoryWf := by
    intro g; split
    · exact h
    · exact Device.MemoryWf.count (d := d.setGutter c g) h _ _
  unfold Device.gutSend
  exact (k _).rdmaOut _ _ _ _ _

theorem Device.MemoryWf.gutDrain (f : Nat) {d : Device} (h : d.MemoryWf) (c : Nat) : (Device.gutDrain f d c).MemoryWf := by
  induction f generalizing d with
  | zero => exact h
  | succ f ih =>
    unfold Device.gutDrain
    dsimp only
    split
    · exact h
    · split
      · exact h
      · exact ih (Device.MemoryWf.gutSend (d := d.setGutter c _) h _ _)

theorem Device.MemoryWf.gutPut {d : Device} (h : d.MemoryWf) (c : Nat) (r : GutRec) : (d.gutPut c r).MemoryWf :=
  Device.MemoryWf.gutDrain _ (d := d.setGutter _ _) h _

theorem Device.MemoryWf.event {d : Device} (h : d.MemoryWf) (st : Nat) (w : Word) (x : Nat) : (d.event st w x).MemoryWf := by
  unfold Device.event
  split
  · exact h
  · exact h.gutPut _ _

theorem Device.MemoryWf.hbmWrite {d : Device} (h : d.MemoryWf) (a : Nat) (bs : List Byte) : (d.hbmWrite a bs).1.MemoryWf := by
  refine ⟨Device.hbmWrite_wf a bs h.1, ?_⟩
  unfold Device.hbmWrite
  dsimp only
  split <;> exact h.2

theorem Device.MemoryWf.logToRing {d : Device} (h : d.MemoryWf) (r : FaultRec) : (d.logToRing r).MemoryWf := by
  unfold Device.logToRing
  refine Device.MemoryWf.setReg ?_ _ _
  split
  · dsimp only
    split
    · exact (h.hbmWrite _ _).count _ _
    · exact (h.hbmWrite _ _).charge _ _ _ _
  · exact h.count _ _

theorem Device.MemoryWf.logWrite {d : Device} (h : d.MemoryWf) (r : FaultRec) : (d.logWrite r).MemoryWf := by
  unfold Device.logWrite
  extract_lets d1 d2 d3
  have h1 : d1.MemoryWf := (h.logToRing r).count _ _
  have h2 : d2.MemoryWf := h1.event _ _ _
  clear_value d2
  have h3 : d3.MemoryWf := by unfold d3 Device.logKeep; split <;> exact h2
  clear_value d3
  split
  · exact h3
  · split <;> exact h3

theorem Device.MemoryWf.log {d : Device} (h : d.MemoryWf) (kind sev unit ctx action : Nat) (addr i0 i1 : Word) :
    (d.log kind sev unit ctx action addr i0 i1).MemoryWf := by
  have k : ∀ x n, Device.MemoryWf { d with rate := x, logSeq := n } := fun _ _ => h
  unfold Device.log
  extract_lets key last ns
  split
  · exact (k _ d.logSeq).count _ _
  · exact (k _ _).logWrite _

theorem Device.MemoryWf.settle {d : Device} (h : d.MemoryWf) : (settle d).MemoryWf := by
  unfold Machine.settle
  dsimp only
  split
  · exact h
  · exact h.log _ _ _ _ _ _ _ _

/-- A row keeps the canonical form where its effect does. -/
theorem onDevice_wf {s t : State} {f : Device → Device} (h : onDevice s f = .next t) (k : (f s.dev).MemoryWf) :
    t.dev.MemoryWf := by
  rw [(onDevice_next h).1]; exact k.settle

theorem Device.MemoryWf.memErrInfo {d : Device} (h : d.MemoryWf) (c k g s l : Nat) : (d.memErrInfo c k g s l).MemoryWf := by
  unfold Device.memErrInfo; split <;> exact h

theorem Device.MemoryWf.memEvent {d : Device} (h : d.MemoryWf) (c k g s l v a x : Nat) :
    (d.memEvent c k g s l v a x).MemoryWf := (h.memErrInfo _ _ _ _ _).log _ _ _ _ _ _ _ _

theorem Device.MemoryWf.noteUncorr {d : Device} (h : d.MemoryWf) (action a : Nat) : (d.noteUncorr action a).MemoryWf := by
  unfold Device.noteUncorr
  split
  · exact h
  · split
    · exact h
    · exact (h.count _ _).memEvent _ _ _ _ _ _ _ _

theorem Device.MemoryWf.foldl {α : Type} {d : Device} (h : d.MemoryWf) (l : List α) (f : Device → α → Device)
    (k : ∀ (e : Device) x, e.MemoryWf → (f e x).MemoryWf) : (l.foldl f d).MemoryWf := by
  induction l generalizing d with
  | nil => exact h
  | cons x r ih => exact ih (k _ _ h)

theorem Device.MemoryWf.hbmStore {d : Device} (h : d.MemoryWf) (action acct a : Nat) (bs : List Byte) :
    (d.hbmStore action acct a bs).1.MemoryWf := by
  unfold Device.hbmStore
  dsimp only
  split
  · exact h.hbmWrite _ _
  · unfold Device.noteUnmade
    exact Device.MemoryWf.foldl ((h.hbmWrite a bs).chargeHbm _ _ _ _) _ _ (fun e x k => k.noteUncorr _ _)
  · exact h.hbmWrite _ _

theorem Device.MemoryWf.retireChan {d : Device} (h : d.MemoryWf) (c : Nat) : (d.retireChan c).MemoryWf := by
  unfold Device.retireChan
  dsimp only
  split
  · exact h
  · exact (Device.MemoryWf.count (d := d.setChan _ _) h _ _).memEvent _ _ _ _ _ _ _ _

theorem Device.MemoryWf.queueWork {d : Device} (h : d.MemoryWf) (c op l : Nat) : (d.queueWork c op l).MemoryWf := by
  unfold Device.queueWork; split <;> exact h

theorem Device.MemoryWf.countLane {d : Device} (h : d.MemoryWf) (c l : Nat) : (d.countLane c l).MemoryWf := by
  have m : ∀ e : Device, e.MemoryWf → (e.markLane c l).MemoryWf := by
    intro e h
    unfold Device.markLane
    dsimp only
    split
    · exact h
    · have k := Device.MemoryWf.memEvent (d := e.setChan c { e.chan c with marks := (e.chan c).marks ++ [l] }) h c 2 0 0 l 2 0 0
      split
      · split
        · exact k.retireChan _
        · exact k
      · split
        · exact k.queueWork _ _ _
        · exact k
  unfold Device.countLane
  dsimp only
  split
  · exact m (d.setChan _ _) h
  · exact h

theorem Device.MemoryWf.decodeSector {d : Device} (h : d.MemoryWf) (action a : Nat) (e : SectorErr) :
    (d.decodeSector action a e).1.MemoryWf := by
  have g : (d.giveUp action a).MemoryWf := by
    have k : Device.MemoryWf { d with hbm := { d.hbm with bad := a / 32 :: d.hbm.bad } } := h
    exact k.noteUncorr _ _
  unfold Device.decodeSector
  split
  · exact h
  · dsimp only
    split
    · exact h
    · split
      · exact h.noteUncorr _ _
      · split
        · exact g
        · split
          · exact h
          · split
            · split
              · exact Device.MemoryWf.foldl (Device.MemoryWf.chargeHbm (h.count _ _) _ _ _ _) _ _ (fun e x k => k.countLane _ _)
              · exact g
            · split
              · exact Device.MemoryWf.foldl (Device.MemoryWf.chargeHbm (h.count _ _) _ _ _ _) _ _ (fun e x k => k.countLane _ _)
              · exact g

theorem Device.MemoryWf.endJob {d : Device} (h : d.MemoryWf) (id : Nat) (e : Ending) : (d.endJob id e).MemoryWf := by
  have h1 : (d.chargeBusy id).MemoryWf := by unfold Device.chargeBusy; repeat' split
                                             all_goals exact h
  have h2 : ((d.chargeBusy id).countWait id).MemoryWf := by
    unfold Device.countWait; repeat' split
    all_goals first | exact h1 | exact h1.count _ _
  have h3 : (((d.chargeBusy id).countWait id).countTq id).MemoryWf := by
    unfold Device.countTq; repeat' split
    all_goals first | exact h2 | exact h2.count _ _
  exact h3

theorem Device.MemoryWf.failIssuerTask {d : Device} (h : d.MemoryWf) (job : Option Nat) (st cause a : Nat) :
    (d.failIssuerTask job st cause a).MemoryWf := by
  unfold Device.failIssuerTask
  split
  · exact h
  · exact h.endJob _ _

theorem Device.MemoryWf.crossPath {d : Device} (h : d.MemoryWf) (a : Nat) (job : Option Nat) (p : OnChip) :
    (d.crossPath a job p).1.MemoryWf := by
  unfold Device.crossPath
  cases p with
  | clean => exact h
  | corrected => exact h.count _ _
  | resent => exact h.count _ _
  | failed p =>
    dsimp only
    refine Device.MemoryWf.failIssuerTask (Device.MemoryWf.log ?_ _ _ _ _ _ _ _ _) _ _ _ _
    split
    · exact (h.count _ _).memErrInfo _ _ _ _ _
    · exact h.count _ _

/-- Serving a request of any kind keeps the canonical form. -/
theorem Device.MemoryWf.serveReq {d : Device} (h : d.MemoryWf) (q : MemReq) : (d.serveReq q).MemoryWf := by
  unfold Device.serveReq
  split
  · unfold Device.serveRead
    split
    · exact h.failIssuerTask _ _ _ _
    · have k : ∀ (x : Nat) e, ((d.chargeHbm q.ctx .hbmRd q.addr 32).decodeSector x q.addr e).1.MemoryWf :=
        fun x e => Device.MemoryWf.decodeSector (d := d.chargeHbm q.ctx .hbmRd q.addr 32) h x q.addr e
      dsimp only
      split
      · exact k _ _
      · exact (k _ _).failIssuerTask _ _ _ _
  · rename_i bs _
    have k := h.hbmStore (reqAction q.job) q.ctx q.addr bs
    unfold Device.serveWrite
    split <;> (rename_i e; rw [e] at k)
    · exact k
    · exact k.failIssuerTask _ _ _ _
    · exact k.failIssuerTask _ _ _ _
  · refine h.foldl _ _ (fun e p h => ?_)
    have n : (e.nma (reqAction q.job) q.ctx p.1 p.2).1.MemoryWf := by
      unfold Device.nma
      dsimp only
      split
      · exact h
      · split
        · exact h.noteUncorr _ _
        · exact ((h.hbmStore _ _ _ _).count _ _).count _ _
    unfold Device.serveOp
    split <;> (rename_i x; rw [x] at n)
    · split <;> exact n
    · exact n.failIssuerTask _ _ _ _
    · exact n.failIssuerTask _ _ _ _
  · split
    · exact Device.MemoryWf.foldl (Device.MemoryWf.chargeHbm (h.count _ _) _ _ _ _) _ _ (fun e k h => h.decodeSector _ _ _)
    · exact h

theorem Device.MemoryWf.request {d : Device} (h : d.MemoryWf) (a : Nat) (w : MemWork) (u : MemUse) (c : Nat) (job : Option Nat) :
    (d.request a w u c job).MemoryWf := by
  unfold Device.request
  dsimp only
  split
  · exact h
  · exact h.serveReq _

/-- A write to reachable HBM with no sector in error and no channel retired makes no error (R329). -/
theorem Hbm.write_plain {h : Hbm} (a : Nat) (bs : List Byte) (hb : h.bad = []) (hr : ∀ a, h.onRetired a = false)
    (hn : h.allReachable a bs.length = true) : (h.write a bs).2 = none := by
  have hp : ∀ (k : Hbm) (q : Nat) (cs : List Byte), k.bad = [] → (∀ a, k.onRetired a = false) →
      (k.writePiece q cs).2 = none ∧ (k.writePiece q cs).1.bad = [] ∧ ∀ a, (k.writePiece q cs).1.onRetired a = false := by
    intro k q cs kb kr
    have hk : ∀ (x : List Nat) (m : Memory) (b : List Nat) (a : Nat),
        ({ k with rewritten := x, mem := m, bad := b } : Hbm).onRetired a = false := fun _ _ _ a => kr a
    unfold Hbm.writePiece
    dsimp only
    split <;> simp only [kb, List.contains_nil, Bool.false_eq_true, if_false]
    · rw [if_neg (by simp [hk])]; exact ⟨rfl, rfl, hk _ _ _⟩
    · rw [if_neg (by simpa using kr q)]; exact ⟨rfl, rfl, hk _ _ _⟩
  have hf : ∀ (l : List (Nat × Nat)) (acc : Hbm × Option MemErr), acc.2 = none → acc.1.bad = [] →
      (∀ a, acc.1.onRetired a = false) →
      (l.foldl (fun (acc : Hbm × Option MemErr) p =>
        let r := acc.1.writePiece p.1 (slice bs (p.1 - a) p.2)
        (r.1, firstErr acc.2 r.2)) acc).2 = none := by
    intro l
    induction l with
    | nil => intro acc h1 _ _; exact h1
    | cons p l ih =>
      intro acc h1 h2 h3
      obtain ⟨e1, e2, e3⟩ := hp acc.1 p.1 (slice bs (p.1 - a) p.2) h2 h3
      exact ih _ (by simp only [firstErr, h1, e1]) e2 e3
  unfold Hbm.write
  rw [hn]
  exact hf _ _ rfl hb hr

end Sys2Proof.Machine
end

