-- ==== Sys2Proof/Laws/State.lean ====
section
/-! SUPPORT. One lemma per field per update of the device, each true by unfolding the update, so that a proof about a
command never opens a record. The updates that go through these (a field of a register, a count, a charge) have their laws
in Laws/Record.lean. -/
namespace Sys2Proof.Machine

open Sys2Proof

/-! ### Device.setReg -/

@[simp] theorem Device.setReg_clk (d : Device) (off : Nat) (w : Word) : (d.setReg off w).clk = d.clk := rfl
@[simp] theorem Device.setReg_fls (d : Device) (off : Nat) (w : Word) : (d.setReg off w).fls = d.fls := rfl
@[simp] theorem Device.setReg_regs (d : Device) (off : Nat) (w : Word) : (d.setReg off w).regs = tset d.regs off w := rfl
@[simp] theorem Device.setReg_bound (d : Device) (off : Nat) (w : Word) : (d.setReg off w).bound = d.bound := rfl
@[simp] theorem Device.setReg_hbm (d : Device) (off : Nat) (w : Word) : (d.setReg off w).hbm = d.hbm := rfl
@[simp] theorem Device.setReg_loft (d : Device) (off : Nat) (w : Word) : (d.setReg off w).loft = d.loft := rfl
@[simp] theorem Device.setReg_loftBad (d : Device) (off : Nat) (w : Word) : (d.setReg off w).loftBad = d.loftBad := rfl
@[simp] theorem Device.setReg_patrol (d : Device) (off : Nat) (w : Word) : (d.setReg off w).patrol = d.patrol := rfl
@[simp] theorem Device.setReg_truss (d : Device) (off : Nat) (w : Word) : (d.setReg off w).truss = d.truss := rfl
@[simp] theorem Device.setReg_soffit (d : Device) (off : Nat) (w : Word) : (d.setReg off w).soffit = d.soffit := rfl
@[simp] theorem Device.setReg_rowReqs (d : Device) (off : Nat) (w : Word) : (d.setReg off w).rowReqs = d.rowReqs := rfl
@[simp] theorem Device.setReg_raf (d : Device) (off : Nat) (w : Word) : (d.setReg off w).raf = d.raf := rfl
@[simp] theorem Device.setReg_lth (d : Device) (off : Nat) (w : Word) : (d.setReg off w).lth = d.lth := rfl
@[simp] theorem Device.setReg_atn (d : Device) (off : Nat) (w : Word) : (d.setReg off w).atn = d.atn := rfl
@[simp] theorem Device.setReg_jobs (d : Device) (off : Nat) (w : Word) : (d.setReg off w).jobs = d.jobs := rfl
@[simp] theorem Device.setReg_nextJob (d : Device) (off : Nat) (w : Word) : (d.setReg off w).nextJob = d.nextJob := rfl
@[simp] theorem Device.setReg_nextReady (d : Device) (off : Nat) (w : Word) : (d.setReg off w).nextReady = d.nextReady := rfl
@[simp] theorem Device.setReg_entries (d : Device) (off : Nat) (w : Word) : (d.setReg off w).entries = d.entries := rfl
@[simp] theorem Device.setReg_nextEntry (d : Device) (off : Nat) (w : Word) : (d.setReg off w).nextEntry = d.nextEntry := rfl
@[simp] theorem Device.setReg_bufs (d : Device) (off : Nat) (w : Word) : (d.setReg off w).bufs = d.bufs := rfl
@[simp] theorem Device.setReg_nextBuf (d : Device) (off : Nat) (w : Word) : (d.setReg off w).nextBuf = d.nextBuf := rfl
@[simp] theorem Device.setReg_graphs (d : Device) (off : Nat) (w : Word) : (d.setReg off w).graphs = d.graphs := rfl
@[simp] theorem Device.setReg_fences (d : Device) (off : Nat) (w : Word) : (d.setReg off w).fences = d.fences := rfl
@[simp] theorem Device.setReg_gut (d : Device) (off : Nat) (w : Word) : (d.setReg off w).gut = d.gut := rfl
@[simp] theorem Device.setReg_eave (d : Device) (off : Nat) (w : Word) : (d.setReg off w).eave = d.eave := rfl
@[simp] theorem Device.setReg_ctxs (d : Device) (off : Nat) (w : Word) : (d.setReg off w).ctxs = d.ctxs := rfl
@[simp] theorem Device.setReg_xlt (d : Device) (off : Nat) (w : Word) : (d.setReg off w).xlt = d.xlt := rfl
@[simp] theorem Device.setReg_tables (d : Device) (off : Nat) (w : Word) : (d.setReg off w).tables = d.tables := rfl
@[simp] theorem Device.setReg_remotes (d : Device) (off : Nat) (w : Word) : (d.setReg off w).remotes = d.remotes := rfl
@[simp] theorem Device.setReg_serving (d : Device) (off : Nat) (w : Word) : (d.setReg off w).serving = d.serving := rfl
@[simp] theorem Device.setReg_nextTag (d : Device) (off : Nat) (w : Word) : (d.setReg off w).nextTag = d.nextTag := rfl
@[simp] theorem Device.setReg_flows (d : Device) (off : Nat) (w : Word) : (d.setReg off w).flows = d.flows := rfl
@[simp] theorem Device.setReg_heldLocal (d : Device) (off : Nat) (w : Word) : (d.setReg off w).heldLocal = d.heldLocal := rfl
@[simp] theorem Device.setReg_kvEdits (d : Device) (off : Nat) (w : Word) : (d.setReg off w).kvEdits = d.kvEdits := rfl
@[simp] theorem Device.setReg_seqs (d : Device) (off : Nat) (w : Word) : (d.setReg off w).seqs = d.seqs := rfl
@[simp] theorem Device.setReg_clients (d : Device) (off : Nat) (w : Word) : (d.setReg off w).clients = d.clients := rfl
@[simp] theorem Device.setReg_models (d : Device) (off : Nat) (w : Word) : (d.setReg off w).models = d.models := rfl
@[simp] theorem Device.setReg_lanes (d : Device) (off : Nat) (w : Word) : (d.setReg off w).lanes = d.lanes := rfl
@[simp] theorem Device.setReg_crsSnap (d : Device) (off : Nat) (w : Word) : (d.setReg off w).crsSnap = d.crsSnap := rfl
@[simp] theorem Device.setReg_tickets (d : Device) (off : Nat) (w : Word) : (d.setReg off w).tickets = d.tickets := rfl
@[simp] theorem Device.setReg_nextTicket (d : Device) (off : Nat) (w : Word) : (d.setReg off w).nextTicket = d.nextTicket := rfl
@[simp] theorem Device.setReg_links (d : Device) (off : Nat) (w : Word) : (d.setReg off w).links = d.links := rfl
@[simp] theorem Device.setReg_splices (d : Device) (off : Nat) (w : Word) : (d.setReg off w).splices = d.splices := rfl
@[simp] theorem Device.setReg_cols (d : Device) (off : Nat) (w : Word) : (d.setReg off w).cols = d.cols := rfl
@[simp] theorem Device.setReg_logSeq (d : Device) (off : Nat) (w : Word) : (d.setReg off w).logSeq = d.logSeq := rfl
@[simp] theorem Device.setReg_rate (d : Device) (off : Nat) (w : Word) : (d.setReg off w).rate = d.rate := rfl
@[simp] theorem Device.setReg_suspects (d : Device) (off : Nat) (w : Word) : (d.setReg off w).suspects = d.suspects := rfl
@[simp] theorem Device.setReg_colq (d : Device) (off : Nat) (w : Word) : (d.setReg off w).colq = d.colq := rfl
@[simp] theorem Device.setReg_regions (d : Device) (off : Nat) (w : Word) : (d.setReg off w).regions = d.regions := rfl
@[simp] theorem Device.setReg_tableBad (d : Device) (off : Nat) (w : Word) : (d.setReg off w).tableBad = d.tableBad := rfl
@[simp] theorem Device.setReg_regionsDue (d : Device) (off : Nat) (w : Word) : (d.setReg off w).regionsDue = d.regionsDue := rfl
@[simp] theorem Device.setReg_groups (d : Device) (off : Nat) (w : Word) : (d.setReg off w).groups = d.groups := rfl
@[simp] theorem Device.setReg_meter (d : Device) (off : Nat) (w : Word) : (d.setReg off w).meter = d.meter := rfl
@[simp] theorem Device.setReg_qps (d : Device) (off : Nat) (w : Word) : (d.setReg off w).qps = d.qps := rfl
@[simp] theorem Device.setReg_ports (d : Device) (off : Nat) (w : Word) : (d.setReg off w).ports = d.ports := rfl
@[simp] theorem Device.setReg_rkeyControl (d : Device) (off : Nat) (w : Word) : (d.setReg off w).rkeyControl = d.rkeyControl := rfl
@[simp] theorem Device.setReg_rkeyMemory (d : Device) (off : Nat) (w : Word) : (d.setReg off w).rkeyMemory = d.rkeyMemory := rfl
@[simp] theorem Device.setReg_devnum (d : Device) (off : Nat) (w : Word) : (d.setReg off w).devnum = d.devnum := rfl
@[simp] theorem Device.setReg_devnumValid (d : Device) (off : Nat) (w : Word) : (d.setReg off w).devnumValid = d.devnumValid := rfl
@[simp] theorem Device.setReg_out (d : Device) (off : Nat) (w : Word) : (d.setReg off w).out = d.out := rfl
@[simp] theorem Device.setReg_free (d : Device) (off : Nat) (w : Word) : (d.setReg off w).free = d.free := rfl

/-! ### Device.emit -/

@[simp] theorem Device.emit_clk (d : Device) (o : Output) : (d.emit o).clk = d.clk := rfl
@[simp] theorem Device.emit_fls (d : Device) (o : Output) : (d.emit o).fls = d.fls := rfl
@[simp] theorem Device.emit_regs (d : Device) (o : Output) : (d.emit o).regs = d.regs := rfl
@[simp] theorem Device.emit_bound (d : Device) (o : Output) : (d.emit o).bound = d.bound := rfl
@[simp] theorem Device.emit_hbm (d : Device) (o : Output) : (d.emit o).hbm = d.hbm := rfl
@[simp] theorem Device.emit_loft (d : Device) (o : Output) : (d.emit o).loft = d.loft := rfl
@[simp] theorem Device.emit_loftBad (d : Device) (o : Output) : (d.emit o).loftBad = d.loftBad := rfl
@[simp] theorem Device.emit_patrol (d : Device) (o : Output) : (d.emit o).patrol = d.patrol := rfl
@[simp] theorem Device.emit_truss (d : Device) (o : Output) : (d.emit o).truss = d.truss := rfl
@[simp] theorem Device.emit_soffit (d : Device) (o : Output) : (d.emit o).soffit = d.soffit := rfl
@[simp] theorem Device.emit_rowReqs (d : Device) (o : Output) : (d.emit o).rowReqs = d.rowReqs := rfl
@[simp] theorem Device.emit_raf (d : Device) (o : Output) : (d.emit o).raf = d.raf := rfl
@[simp] theorem Device.emit_lth (d : Device) (o : Output) : (d.emit o).lth = d.lth := rfl
@[simp] theorem Device.emit_atn (d : Device) (o : Output) : (d.emit o).atn = d.atn := rfl
@[simp] theorem Device.emit_jobs (d : Device) (o : Output) : (d.emit o).jobs = d.jobs := rfl
@[simp] theorem Device.emit_nextJob (d : Device) (o : Output) : (d.emit o).nextJob = d.nextJob := rfl
@[simp] theorem Device.emit_nextReady (d : Device) (o : Output) : (d.emit o).nextReady = d.nextReady := rfl
@[simp] theorem Device.emit_entries (d : Device) (o : Output) : (d.emit o).entries = d.entries := rfl
@[simp] theorem Device.emit_nextEntry (d : Device) (o : Output) : (d.emit o).nextEntry = d.nextEntry := rfl
@[simp] theorem Device.emit_bufs (d : Device) (o : Output) : (d.emit o).bufs = d.bufs := rfl
@[simp] theorem Device.emit_nextBuf (d : Device) (o : Output) : (d.emit o).nextBuf = d.nextBuf := rfl
@[simp] theorem Device.emit_graphs (d : Device) (o : Output) : (d.emit o).graphs = d.graphs := rfl
@[simp] theorem Device.emit_fences (d : Device) (o : Output) : (d.emit o).fences = d.fences := rfl
@[simp] theorem Device.emit_gut (d : Device) (o : Output) : (d.emit o).gut = d.gut := rfl
@[simp] theorem Device.emit_eave (d : Device) (o : Output) : (d.emit o).eave = d.eave := rfl
@[simp] theorem Device.emit_ctxs (d : Device) (o : Output) : (d.emit o).ctxs = d.ctxs := rfl
@[simp] theorem Device.emit_xlt (d : Device) (o : Output) : (d.emit o).xlt = d.xlt := rfl
@[simp] theorem Device.emit_tables (d : Device) (o : Output) : (d.emit o).tables = d.tables := rfl
@[simp] theorem Device.emit_remotes (d : Device) (o : Output) : (d.emit o).remotes = d.remotes := rfl
@[simp] theorem Device.emit_serving (d : Device) (o : Output) : (d.emit o).serving = d.serving := rfl
@[simp] theorem Device.emit_nextTag (d : Device) (o : Output) : (d.emit o).nextTag = d.nextTag := rfl
@[simp] theorem Device.emit_flows (d : Device) (o : Output) : (d.emit o).flows = d.flows := rfl
@[simp] theorem Device.emit_heldLocal (d : Device) (o : Output) : (d.emit o).heldLocal = d.heldLocal := rfl
@[simp] theorem Device.emit_kvEdits (d : Device) (o : Output) : (d.emit o).kvEdits = d.kvEdits := rfl
@[simp] theorem Device.emit_seqs (d : Device) (o : Output) : (d.emit o).seqs = d.seqs := rfl
@[simp] theorem Device.emit_clients (d : Device) (o : Output) : (d.emit o).clients = d.clients := rfl
@[simp] theorem Device.emit_models (d : Device) (o : Output) : (d.emit o).models = d.models := rfl
@[simp] theorem Device.emit_lanes (d : Device) (o : Output) : (d.emit o).lanes = d.lanes := rfl
@[simp] theorem Device.emit_crsSnap (d : Device) (o : Output) : (d.emit o).crsSnap = d.crsSnap := rfl
@[simp] theorem Device.emit_tickets (d : Device) (o : Output) : (d.emit o).tickets = d.tickets := rfl
@[simp] theorem Device.emit_nextTicket (d : Device) (o : Output) : (d.emit o).nextTicket = d.nextTicket := rfl
@[simp] theorem Device.emit_links (d : Device) (o : Output) : (d.emit o).links = d.links := rfl
@[simp] theorem Device.emit_splices (d : Device) (o : Output) : (d.emit o).splices = d.splices := rfl
@[simp] theorem Device.emit_cols (d : Device) (o : Output) : (d.emit o).cols = d.cols := rfl
@[simp] theorem Device.emit_logSeq (d : Device) (o : Output) : (d.emit o).logSeq = d.logSeq := rfl
@[simp] theorem Device.emit_rate (d : Device) (o : Output) : (d.emit o).rate = d.rate := rfl
@[simp] theorem Device.emit_suspects (d : Device) (o : Output) : (d.emit o).suspects = d.suspects := rfl
@[simp] theorem Device.emit_colq (d : Device) (o : Output) : (d.emit o).colq = d.colq := rfl
@[simp] theorem Device.emit_regions (d : Device) (o : Output) : (d.emit o).regions = d.regions := rfl
@[simp] theorem Device.emit_tableBad (d : Device) (o : Output) : (d.emit o).tableBad = d.tableBad := rfl
@[simp] theorem Device.emit_regionsDue (d : Device) (o : Output) : (d.emit o).regionsDue = d.regionsDue := rfl
@[simp] theorem Device.emit_groups (d : Device) (o : Output) : (d.emit o).groups = d.groups := rfl
@[simp] theorem Device.emit_meter (d : Device) (o : Output) : (d.emit o).meter = d.meter := rfl
@[simp] theorem Device.emit_qps (d : Device) (o : Output) : (d.emit o).qps = d.qps := rfl
@[simp] theorem Device.emit_ports (d : Device) (o : Output) : (d.emit o).ports = d.ports := rfl
@[simp] theorem Device.emit_rkeyControl (d : Device) (o : Output) : (d.emit o).rkeyControl = d.rkeyControl := rfl
@[simp] theorem Device.emit_rkeyMemory (d : Device) (o : Output) : (d.emit o).rkeyMemory = d.rkeyMemory := rfl
@[simp] theorem Device.emit_devnum (d : Device) (o : Output) : (d.emit o).devnum = d.devnum := rfl
@[simp] theorem Device.emit_devnumValid (d : Device) (o : Output) : (d.emit o).devnumValid = d.devnumValid := rfl
@[simp] theorem Device.emit_out (d : Device) (o : Output) : (d.emit o).out = d.out ++ [o] := rfl
@[simp] theorem Device.emit_free (d : Device) (o : Output) : (d.emit o).free = d.free := rfl

/-! ### Device.setFence -/

@[simp] theorem Device.setFence_clk (d : Device) (c i : Nat) (v : Word) : (d.setFence c i v).clk = d.clk := rfl
@[simp] theorem Device.setFence_fls (d : Device) (c i : Nat) (v : Word) : (d.setFence c i v).fls = d.fls := rfl
@[simp] theorem Device.setFence_regs (d : Device) (c i : Nat) (v : Word) : (d.setFence c i v).regs = d.regs := rfl
@[simp] theorem Device.setFence_bound (d : Device) (c i : Nat) (v : Word) : (d.setFence c i v).bound = d.bound := rfl
@[simp] theorem Device.setFence_hbm (d : Device) (c i : Nat) (v : Word) : (d.setFence c i v).hbm = d.hbm := rfl
@[simp] theorem Device.setFence_loft (d : Device) (c i : Nat) (v : Word) : (d.setFence c i v).loft = d.loft := rfl
@[simp] theorem Device.setFence_loftBad (d : Device) (c i : Nat) (v : Word) : (d.setFence c i v).loftBad = d.loftBad := rfl
@[simp] theorem Device.setFence_patrol (d : Device) (c i : Nat) (v : Word) : (d.setFence c i v).patrol = d.patrol := rfl
@[simp] theorem Device.setFence_truss (d : Device) (c i : Nat) (v : Word) : (d.setFence c i v).truss = d.truss := rfl
@[simp] theorem Device.setFence_soffit (d : Device) (c i : Nat) (v : Word) : (d.setFence c i v).soffit = d.soffit := rfl
@[simp] theorem Device.setFence_rowReqs (d : Device) (c i : Nat) (v : Word) : (d.setFence c i v).rowReqs = d.rowReqs := rfl
@[simp] theorem Device.setFence_raf (d : Device) (c i : Nat) (v : Word) : (d.setFence c i v).raf = d.raf := rfl
@[simp] theorem Device.setFence_lth (d : Device) (c i : Nat) (v : Word) : (d.setFence c i v).lth = d.lth := rfl
@[simp] theorem Device.setFence_atn (d : Device) (c i : Nat) (v : Word) : (d.setFence c i v).atn = d.atn := rfl
@[simp] theorem Device.setFence_jobs (d : Device) (c i : Nat) (v : Word) : (d.setFence c i v).jobs = d.jobs := rfl
@[simp] theorem Device.setFence_nextJob (d : Device) (c i : Nat) (v : Word) : (d.setFence c i v).nextJob = d.nextJob := rfl
@[simp] theorem Device.setFence_nextReady (d : Device) (c i : Nat) (v : Word) : (d.setFence c i v).nextReady = d.nextReady := rfl
@[simp] theorem Device.setFence_entries (d : Device) (c i : Nat) (v : Word) : (d.setFence c i v).entries = d.entries := rfl
@[simp] theorem Device.setFence_nextEntry (d : Device) (c i : Nat) (v : Word) : (d.setFence c i v).nextEntry = d.nextEntry := rfl
@[simp] theorem Device.setFence_bufs (d : Device) (c i : Nat) (v : Word) : (d.setFence c i v).bufs = d.bufs := rfl
@[simp] theorem Device.setFence_nextBuf (d : Device) (c i : Nat) (v : Word) : (d.setFence c i v).nextBuf = d.nextBuf := rfl
@[simp] theorem Device.setFence_graphs (d : Device) (c i : Nat) (v : Word) : (d.setFence c i v).graphs = d.graphs := rfl
@[simp] theorem Device.setFence_fences (d : Device) (c i : Nat) (v : Word) : (d.setFence c i v).fences = tset d.fences (fenceKey c i) v := rfl
@[simp] theorem Device.setFence_gut (d : Device) (c i : Nat) (v : Word) : (d.setFence c i v).gut = d.gut := rfl
@[simp] theorem Device.setFence_eave (d : Device) (c i : Nat) (v : Word) : (d.setFence c i v).eave = d.eave := rfl
@[simp] theorem Device.setFence_ctxs (d : Device) (c i : Nat) (v : Word) : (d.setFence c i v).ctxs = d.ctxs := rfl
@[simp] theorem Device.setFence_xlt (d : Device) (c i : Nat) (v : Word) : (d.setFence c i v).xlt = d.xlt := rfl
@[simp] theorem Device.setFence_tables (d : Device) (c i : Nat) (v : Word) : (d.setFence c i v).tables = d.tables := rfl
@[simp] theorem Device.setFence_remotes (d : Device) (c i : Nat) (v : Word) : (d.setFence c i v).remotes = d.remotes := rfl
@[simp] theorem Device.setFence_serving (d : Device) (c i : Nat) (v : Word) : (d.setFence c i v).serving = d.serving := rfl
@[simp] theorem Device.setFence_nextTag (d : Device) (c i : Nat) (v : Word) : (d.setFence c i v).nextTag = d.nextTag := rfl
@[simp] theorem Device.setFence_flows (d : Device) (c i : Nat) (v : Word) : (d.setFence c i v).flows = d.flows := rfl
@[simp] theorem Device.setFence_heldLocal (d : Device) (c i : Nat) (v : Word) : (d.setFence c i v).heldLocal = d.heldLocal := rfl
@[simp] theorem Device.setFence_kvEdits (d : Device) (c i : Nat) (v : Word) : (d.setFence c i v).kvEdits = d.kvEdits := rfl
@[simp] theorem Device.setFence_seqs (d : Device) (c i : Nat) (v : Word) : (d.setFence c i v).seqs = d.seqs := rfl
@[simp] theorem Device.setFence_clients (d : Device) (c i : Nat) (v : Word) : (d.setFence c i v).clients = d.clients := rfl
@[simp] theorem Device.setFence_models (d : Device) (c i : Nat) (v : Word) : (d.setFence c i v).models = d.models := rfl
@[simp] theorem Device.setFence_lanes (d : Device) (c i : Nat) (v : Word) : (d.setFence c i v).lanes = d.lanes := rfl
@[simp] theorem Device.setFence_crsSnap (d : Device) (c i : Nat) (v : Word) : (d.setFence c i v).crsSnap = d.crsSnap := rfl
@[simp] theorem Device.setFence_tickets (d : Device) (c i : Nat) (v : Word) : (d.setFence c i v).tickets = d.tickets := rfl
@[simp] theorem Device.setFence_nextTicket (d : Device) (c i : Nat) (v : Word) : (d.setFence c i v).nextTicket = d.nextTicket := rfl
@[simp] theorem Device.setFence_links (d : Device) (c i : Nat) (v : Word) : (d.setFence c i v).links = d.links := rfl
@[simp] theorem Device.setFence_splices (d : Device) (c i : Nat) (v : Word) : (d.setFence c i v).splices = d.splices := rfl
@[simp] theorem Device.setFence_cols (d : Device) (c i : Nat) (v : Word) : (d.setFence c i v).cols = d.cols := rfl
@[simp] theorem Device.setFence_logSeq (d : Device) (c i : Nat) (v : Word) : (d.setFence c i v).logSeq = d.logSeq := rfl
@[simp] theorem Device.setFence_rate (d : Device) (c i : Nat) (v : Word) : (d.setFence c i v).rate = d.rate := rfl
@[simp] theorem Device.setFence_suspects (d : Device) (c i : Nat) (v : Word) : (d.setFence c i v).suspects = d.suspects := rfl
@[simp] theorem Device.setFence_colq (d : Device) (c i : Nat) (v : Word) : (d.setFence c i v).colq = d.colq := rfl
@[simp] theorem Device.setFence_regions (d : Device) (c i : Nat) (v : Word) : (d.setFence c i v).regions = d.regions := rfl
@[simp] theorem Device.setFence_tableBad (d : Device) (c i : Nat) (v : Word) : (d.setFence c i v).tableBad = d.tableBad := rfl
@[simp] theorem Device.setFence_regionsDue (d : Device) (c i : Nat) (v : Word) : (d.setFence c i v).regionsDue = d.regionsDue := rfl
@[simp] theorem Device.setFence_groups (d : Device) (c i : Nat) (v : Word) : (d.setFence c i v).groups = d.groups := rfl
@[simp] theorem Device.setFence_meter (d : Device) (c i : Nat) (v : Word) : (d.setFence c i v).meter = d.meter := rfl
@[simp] theorem Device.setFence_qps (d : Device) (c i : Nat) (v : Word) : (d.setFence c i v).qps = d.qps := rfl
@[simp] theorem Device.setFence_ports (d : Device) (c i : Nat) (v : Word) : (d.setFence c i v).ports = d.ports := rfl
@[simp] theorem Device.setFence_rkeyControl (d : Device) (c i : Nat) (v : Word) : (d.setFence c i v).rkeyControl = d.rkeyControl := rfl
@[simp] theorem Device.setFence_rkeyMemory (d : Device) (c i : Nat) (v : Word) : (d.setFence c i v).rkeyMemory = d.rkeyMemory := rfl
@[simp] theorem Device.setFence_devnum (d : Device) (c i : Nat) (v : Word) : (d.setFence c i v).devnum = d.devnum := rfl
@[simp] theorem Device.setFence_devnumValid (d : Device) (c i : Nat) (v : Word) : (d.setFence c i v).devnumValid = d.devnumValid := rfl
@[simp] theorem Device.setFence_out (d : Device) (c i : Nat) (v : Word) : (d.setFence c i v).out = d.out := rfl
@[simp] theorem Device.setFence_free (d : Device) (c i : Nat) (v : Word) : (d.setFence c i v).free = d.free := rfl

/-! ### Device.setTruss -/

@[simp] theorem Device.setTruss_clk (d : Device) (t : Nat) (x : TrussSt) : (d.setTruss t x).clk = d.clk := rfl
@[simp] theorem Device.setTruss_fls (d : Device) (t : Nat) (x : TrussSt) : (d.setTruss t x).fls = d.fls := rfl
@[simp] theorem Device.setTruss_regs (d : Device) (t : Nat) (x : TrussSt) : (d.setTruss t x).regs = d.regs := rfl
@[simp] theorem Device.setTruss_bound (d : Device) (t : Nat) (x : TrussSt) : (d.setTruss t x).bound = d.bound := rfl
@[simp] theorem Device.setTruss_hbm (d : Device) (t : Nat) (x : TrussSt) : (d.setTruss t x).hbm = d.hbm := rfl
@[simp] theorem Device.setTruss_loft (d : Device) (t : Nat) (x : TrussSt) : (d.setTruss t x).loft = d.loft := rfl
@[simp] theorem Device.setTruss_loftBad (d : Device) (t : Nat) (x : TrussSt) : (d.setTruss t x).loftBad = d.loftBad := rfl
@[simp] theorem Device.setTruss_patrol (d : Device) (t : Nat) (x : TrussSt) : (d.setTruss t x).patrol = d.patrol := rfl
@[simp] theorem Device.setTruss_truss (d : Device) (t : Nat) (x : TrussSt) : (d.setTruss t x).truss = tset d.truss t x := rfl
@[simp] theorem Device.setTruss_soffit (d : Device) (t : Nat) (x : TrussSt) : (d.setTruss t x).soffit = d.soffit := rfl
@[simp] theorem Device.setTruss_rowReqs (d : Device) (t : Nat) (x : TrussSt) : (d.setTruss t x).rowReqs = d.rowReqs := rfl
@[simp] theorem Device.setTruss_raf (d : Device) (t : Nat) (x : TrussSt) : (d.setTruss t x).raf = d.raf := rfl
@[simp] theorem Device.setTruss_lth (d : Device) (t : Nat) (x : TrussSt) : (d.setTruss t x).lth = d.lth := rfl
@[simp] theorem Device.setTruss_atn (d : Device) (t : Nat) (x : TrussSt) : (d.setTruss t x).atn = d.atn := rfl
@[simp] theorem Device.setTruss_jobs (d : Device) (t : Nat) (x : TrussSt) : (d.setTruss t x).jobs = d.jobs := rfl
@[simp] theorem Device.setTruss_nextJob (d : Device) (t : Nat) (x : TrussSt) : (d.setTruss t x).nextJob = d.nextJob := rfl
@[simp] theorem Device.setTruss_nextReady (d : Device) (t : Nat) (x : TrussSt) : (d.setTruss t x).nextReady = d.nextReady := rfl
@[simp] theorem Device.setTruss_entries (d : Device) (t : Nat) (x : TrussSt) : (d.setTruss t x).entries = d.entries := rfl
@[simp] theorem Device.setTruss_nextEntry (d : Device) (t : Nat) (x : TrussSt) : (d.setTruss t x).nextEntry = d.nextEntry := rfl
@[simp] theorem Device.setTruss_bufs (d : Device) (t : Nat) (x : TrussSt) : (d.setTruss t x).bufs = d.bufs := rfl
@[simp] theorem Device.setTruss_nextBuf (d : Device) (t : Nat) (x : TrussSt) : (d.setTruss t x).nextBuf = d.nextBuf := rfl
@[simp] theorem Device.setTruss_graphs (d : Device) (t : Nat) (x : TrussSt) : (d.setTruss t x).graphs = d.graphs := rfl
@[simp] theorem Device.setTruss_fences (d : Device) (t : Nat) (x : TrussSt) : (d.setTruss t x).fences = d.fences := rfl
@[simp] theorem Device.setTruss_gut (d : Device) (t : Nat) (x : TrussSt) : (d.setTruss t x).gut = d.gut := rfl
@[simp] theorem Device.setTruss_eave (d : Device) (t : Nat) (x : TrussSt) : (d.setTruss t x).eave = d.eave := rfl
@[simp] theorem Device.setTruss_ctxs (d : Device) (t : Nat) (x : TrussSt) : (d.setTruss t x).ctxs = d.ctxs := rfl
@[simp] theorem Device.setTruss_xlt (d : Device) (t : Nat) (x : TrussSt) : (d.setTruss t x).xlt = d.xlt := rfl
@[simp] theorem Device.setTruss_tables (d : Device) (t : Nat) (x : TrussSt) : (d.setTruss t x).tables = d.tables := rfl
@[simp] theorem Device.setTruss_remotes (d : Device) (t : Nat) (x : TrussSt) : (d.setTruss t x).remotes = d.remotes := rfl
@[simp] theorem Device.setTruss_serving (d : Device) (t : Nat) (x : TrussSt) : (d.setTruss t x).serving = d.serving := rfl
@[simp] theorem Device.setTruss_nextTag (d : Device) (t : Nat) (x : TrussSt) : (d.setTruss t x).nextTag = d.nextTag := rfl
@[simp] theorem Device.setTruss_flows (d : Device) (t : Nat) (x : TrussSt) : (d.setTruss t x).flows = d.flows := rfl
@[simp] theorem Device.setTruss_heldLocal (d : Device) (t : Nat) (x : TrussSt) : (d.setTruss t x).heldLocal = d.heldLocal := rfl
@[simp] theorem Device.setTruss_kvEdits (d : Device) (t : Nat) (x : TrussSt) : (d.setTruss t x).kvEdits = d.kvEdits := rfl
@[simp] theorem Device.setTruss_seqs (d : Device) (t : Nat) (x : TrussSt) : (d.setTruss t x).seqs = d.seqs := rfl
@[simp] theorem Device.setTruss_clients (d : Device) (t : Nat) (x : TrussSt) : (d.setTruss t x).clients = d.clients := rfl
@[simp] theorem Device.setTruss_models (d : Device) (t : Nat) (x : TrussSt) : (d.setTruss t x).models = d.models := rfl
@[simp] theorem Device.setTruss_lanes (d : Device) (t : Nat) (x : TrussSt) : (d.setTruss t x).lanes = d.lanes := rfl
@[simp] theorem Device.setTruss_crsSnap (d : Device) (t : Nat) (x : TrussSt) : (d.setTruss t x).crsSnap = d.crsSnap := rfl
@[simp] theorem Device.setTruss_tickets (d : Device) (t : Nat) (x : TrussSt) : (d.setTruss t x).tickets = d.tickets := rfl
@[simp] theorem Device.setTruss_nextTicket (d : Device) (t : Nat) (x : TrussSt) : (d.setTruss t x).nextTicket = d.nextTicket := rfl
@[simp] theorem Device.setTruss_links (d : Device) (t : Nat) (x : TrussSt) : (d.setTruss t x).links = d.links := rfl
@[simp] theorem Device.setTruss_splices (d : Device) (t : Nat) (x : TrussSt) : (d.setTruss t x).splices = d.splices := rfl
@[simp] theorem Device.setTruss_cols (d : Device) (t : Nat) (x : TrussSt) : (d.setTruss t x).cols = d.cols := rfl
@[simp] theorem Device.setTruss_logSeq (d : Device) (t : Nat) (x : TrussSt) : (d.setTruss t x).logSeq = d.logSeq := rfl
@[simp] theorem Device.setTruss_rate (d : Device) (t : Nat) (x : TrussSt) : (d.setTruss t x).rate = d.rate := rfl
@[simp] theorem Device.setTruss_suspects (d : Device) (t : Nat) (x : TrussSt) : (d.setTruss t x).suspects = d.suspects := rfl
@[simp] theorem Device.setTruss_colq (d : Device) (t : Nat) (x : TrussSt) : (d.setTruss t x).colq = d.colq := rfl
@[simp] theorem Device.setTruss_regions (d : Device) (t : Nat) (x : TrussSt) : (d.setTruss t x).regions = d.regions := rfl
@[simp] theorem Device.setTruss_tableBad (d : Device) (t : Nat) (x : TrussSt) : (d.setTruss t x).tableBad = d.tableBad := rfl
@[simp] theorem Device.setTruss_regionsDue (d : Device) (t : Nat) (x : TrussSt) : (d.setTruss t x).regionsDue = d.regionsDue := rfl
@[simp] theorem Device.setTruss_groups (d : Device) (t : Nat) (x : TrussSt) : (d.setTruss t x).groups = d.groups := rfl
@[simp] theorem Device.setTruss_meter (d : Device) (t : Nat) (x : TrussSt) : (d.setTruss t x).meter = d.meter := rfl
@[simp] theorem Device.setTruss_qps (d : Device) (t : Nat) (x : TrussSt) : (d.setTruss t x).qps = d.qps := rfl
@[simp] theorem Device.setTruss_ports (d : Device) (t : Nat) (x : TrussSt) : (d.setTruss t x).ports = d.ports := rfl
@[simp] theorem Device.setTruss_rkeyControl (d : Device) (t : Nat) (x : TrussSt) : (d.setTruss t x).rkeyControl = d.rkeyControl := rfl
@[simp] theorem Device.setTruss_rkeyMemory (d : Device) (t : Nat) (x : TrussSt) : (d.setTruss t x).rkeyMemory = d.rkeyMemory := rfl
@[simp] theorem Device.setTruss_devnum (d : Device) (t : Nat) (x : TrussSt) : (d.setTruss t x).devnum = d.devnum := rfl
@[simp] theorem Device.setTruss_devnumValid (d : Device) (t : Nat) (x : TrussSt) : (d.setTruss t x).devnumValid = d.devnumValid := rfl
@[simp] theorem Device.setTruss_out (d : Device) (t : Nat) (x : TrussSt) : (d.setTruss t x).out = d.out := rfl
@[simp] theorem Device.setTruss_free (d : Device) (t : Nat) (x : TrussSt) : (d.setTruss t x).free = d.free := rfl

/-! ### Device.setCtx -/

@[simp] theorem Device.setCtx_clk (d : Device) (c : Nat) (x : Context) : (d.setCtx c x).clk = d.clk := rfl
@[simp] theorem Device.setCtx_fls (d : Device) (c : Nat) (x : Context) : (d.setCtx c x).fls = d.fls := rfl
@[simp] theorem Device.setCtx_regs (d : Device) (c : Nat) (x : Context) : (d.setCtx c x).regs = d.regs := rfl
@[simp] theorem Device.setCtx_bound (d : Device) (c : Nat) (x : Context) : (d.setCtx c x).bound = d.bound := rfl
@[simp] theorem Device.setCtx_hbm (d : Device) (c : Nat) (x : Context) : (d.setCtx c x).hbm = d.hbm := rfl
@[simp] theorem Device.setCtx_loft (d : Device) (c : Nat) (x : Context) : (d.setCtx c x).loft = d.loft := rfl
@[simp] theorem Device.setCtx_loftBad (d : Device) (c : Nat) (x : Context) : (d.setCtx c x).loftBad = d.loftBad := rfl
@[simp] theorem Device.setCtx_patrol (d : Device) (c : Nat) (x : Context) : (d.setCtx c x).patrol = d.patrol := rfl
@[simp] theorem Device.setCtx_truss (d : Device) (c : Nat) (x : Context) : (d.setCtx c x).truss = d.truss := rfl
@[simp] theorem Device.setCtx_soffit (d : Device) (c : Nat) (x : Context) : (d.setCtx c x).soffit = d.soffit := rfl
@[simp] theorem Device.setCtx_rowReqs (d : Device) (c : Nat) (x : Context) : (d.setCtx c x).rowReqs = d.rowReqs := rfl
@[simp] theorem Device.setCtx_raf (d : Device) (c : Nat) (x : Context) : (d.setCtx c x).raf = d.raf := rfl
@[simp] theorem Device.setCtx_lth (d : Device) (c : Nat) (x : Context) : (d.setCtx c x).lth = d.lth := rfl
@[simp] theorem Device.setCtx_atn (d : Device) (c : Nat) (x : Context) : (d.setCtx c x).atn = d.atn := rfl
@[simp] theorem Device.setCtx_jobs (d : Device) (c : Nat) (x : Context) : (d.setCtx c x).jobs = d.jobs := rfl
@[simp] theorem Device.setCtx_nextJob (d : Device) (c : Nat) (x : Context) : (d.setCtx c x).nextJob = d.nextJob := rfl
@[simp] theorem Device.setCtx_nextReady (d : Device) (c : Nat) (x : Context) : (d.setCtx c x).nextReady = d.nextReady := rfl
@[simp] theorem Device.setCtx_entries (d : Device) (c : Nat) (x : Context) : (d.setCtx c x).entries = d.entries := rfl
@[simp] theorem Device.setCtx_nextEntry (d : Device) (c : Nat) (x : Context) : (d.setCtx c x).nextEntry = d.nextEntry := rfl
@[simp] theorem Device.setCtx_bufs (d : Device) (c : Nat) (x : Context) : (d.setCtx c x).bufs = d.bufs := rfl
@[simp] theorem Device.setCtx_nextBuf (d : Device) (c : Nat) (x : Context) : (d.setCtx c x).nextBuf = d.nextBuf := rfl
@[simp] theorem Device.setCtx_graphs (d : Device) (c : Nat) (x : Context) : (d.setCtx c x).graphs = d.graphs := rfl
@[simp] theorem Device.setCtx_fences (d : Device) (c : Nat) (x : Context) : (d.setCtx c x).fences = d.fences := rfl
@[simp] theorem Device.setCtx_gut (d : Device) (c : Nat) (x : Context) : (d.setCtx c x).gut = d.gut := rfl
@[simp] theorem Device.setCtx_eave (d : Device) (c : Nat) (x : Context) : (d.setCtx c x).eave = d.eave := rfl
@[simp] theorem Device.setCtx_ctxs (d : Device) (c : Nat) (x : Context) : (d.setCtx c x).ctxs = tset d.ctxs c x := rfl
@[simp] theorem Device.setCtx_xlt (d : Device) (c : Nat) (x : Context) : (d.setCtx c x).xlt = d.xlt := rfl
@[simp] theorem Device.setCtx_tables (d : Device) (c : Nat) (x : Context) : (d.setCtx c x).tables = d.tables := rfl
@[simp] theorem Device.setCtx_remotes (d : Device) (c : Nat) (x : Context) : (d.setCtx c x).remotes = d.remotes := rfl
@[simp] theorem Device.setCtx_serving (d : Device) (c : Nat) (x : Context) : (d.setCtx c x).serving = d.serving := rfl
@[simp] theorem Device.setCtx_nextTag (d : Device) (c : Nat) (x : Context) : (d.setCtx c x).nextTag = d.nextTag := rfl
@[simp] theorem Device.setCtx_flows (d : Device) (c : Nat) (x : Context) : (d.setCtx c x).flows = d.flows := rfl
@[simp] theorem Device.setCtx_heldLocal (d : Device) (c : Nat) (x : Context) : (d.setCtx c x).heldLocal = d.heldLocal := rfl
@[simp] theorem Device.setCtx_kvEdits (d : Device) (c : Nat) (x : Context) : (d.setCtx c x).kvEdits = d.kvEdits := rfl
@[simp] theorem Device.setCtx_seqs (d : Device) (c : Nat) (x : Context) : (d.setCtx c x).seqs = d.seqs := rfl
@[simp] theorem Device.setCtx_clients (d : Device) (c : Nat) (x : Context) : (d.setCtx c x).clients = d.clients := rfl
@[simp] theorem Device.setCtx_models (d : Device) (c : Nat) (x : Context) : (d.setCtx c x).models = d.models := rfl
@[simp] theorem Device.setCtx_lanes (d : Device) (c : Nat) (x : Context) : (d.setCtx c x).lanes = d.lanes := rfl
@[simp] theorem Device.setCtx_crsSnap (d : Device) (c : Nat) (x : Context) : (d.setCtx c x).crsSnap = d.crsSnap := rfl
@[simp] theorem Device.setCtx_tickets (d : Device) (c : Nat) (x : Context) : (d.setCtx c x).tickets = d.tickets := rfl
@[simp] theorem Device.setCtx_nextTicket (d : Device) (c : Nat) (x : Context) : (d.setCtx c x).nextTicket = d.nextTicket := rfl
@[simp] theorem Device.setCtx_links (d : Device) (c : Nat) (x : Context) : (d.setCtx c x).links = d.links := rfl
@[simp] theorem Device.setCtx_splices (d : Device) (c : Nat) (x : Context) : (d.setCtx c x).splices = d.splices := rfl
@[simp] theorem Device.setCtx_cols (d : Device) (c : Nat) (x : Context) : (d.setCtx c x).cols = d.cols := rfl
@[simp] theorem Device.setCtx_logSeq (d : Device) (c : Nat) (x : Context) : (d.setCtx c x).logSeq = d.logSeq := rfl
@[simp] theorem Device.setCtx_rate (d : Device) (c : Nat) (x : Context) : (d.setCtx c x).rate = d.rate := rfl
@[simp] theorem Device.setCtx_suspects (d : Device) (c : Nat) (x : Context) : (d.setCtx c x).suspects = d.suspects := rfl
@[simp] theorem Device.setCtx_colq (d : Device) (c : Nat) (x : Context) : (d.setCtx c x).colq = d.colq := rfl
@[simp] theorem Device.setCtx_regions (d : Device) (c : Nat) (x : Context) : (d.setCtx c x).regions = d.regions := rfl
@[simp] theorem Device.setCtx_tableBad (d : Device) (c : Nat) (x : Context) : (d.setCtx c x).tableBad = d.tableBad := rfl
@[simp] theorem Device.setCtx_regionsDue (d : Device) (c : Nat) (x : Context) : (d.setCtx c x).regionsDue = d.regionsDue := rfl
@[simp] theorem Device.setCtx_groups (d : Device) (c : Nat) (x : Context) : (d.setCtx c x).groups = d.groups := rfl
@[simp] theorem Device.setCtx_meter (d : Device) (c : Nat) (x : Context) : (d.setCtx c x).meter = d.meter := rfl
@[simp] theorem Device.setCtx_qps (d : Device) (c : Nat) (x : Context) : (d.setCtx c x).qps = d.qps := rfl
@[simp] theorem Device.setCtx_ports (d : Device) (c : Nat) (x : Context) : (d.setCtx c x).ports = d.ports := rfl
@[simp] theorem Device.setCtx_rkeyControl (d : Device) (c : Nat) (x : Context) : (d.setCtx c x).rkeyControl = d.rkeyControl := rfl
@[simp] theorem Device.setCtx_rkeyMemory (d : Device) (c : Nat) (x : Context) : (d.setCtx c x).rkeyMemory = d.rkeyMemory := rfl
@[simp] theorem Device.setCtx_devnum (d : Device) (c : Nat) (x : Context) : (d.setCtx c x).devnum = d.devnum := rfl
@[simp] theorem Device.setCtx_devnumValid (d : Device) (c : Nat) (x : Context) : (d.setCtx c x).devnumValid = d.devnumValid := rfl
@[simp] theorem Device.setCtx_out (d : Device) (c : Nat) (x : Context) : (d.setCtx c x).out = d.out := rfl
@[simp] theorem Device.setCtx_free (d : Device) (c : Nat) (x : Context) : (d.setCtx c x).free = d.free := rfl

/-! ### Device.setSof -/

@[simp] theorem Device.setSof_clk (d : Device) (t : Nat) (x : Soffit) : (d.setSof t x).clk = d.clk := rfl
@[simp] theorem Device.setSof_fls (d : Device) (t : Nat) (x : Soffit) : (d.setSof t x).fls = d.fls := rfl
@[simp] theorem Device.setSof_regs (d : Device) (t : Nat) (x : Soffit) : (d.setSof t x).regs = d.regs := rfl
@[simp] theorem Device.setSof_bound (d : Device) (t : Nat) (x : Soffit) : (d.setSof t x).bound = d.bound := rfl
@[simp] theorem Device.setSof_hbm (d : Device) (t : Nat) (x : Soffit) : (d.setSof t x).hbm = d.hbm := rfl
@[simp] theorem Device.setSof_loft (d : Device) (t : Nat) (x : Soffit) : (d.setSof t x).loft = d.loft := rfl
@[simp] theorem Device.setSof_loftBad (d : Device) (t : Nat) (x : Soffit) : (d.setSof t x).loftBad = d.loftBad := rfl
@[simp] theorem Device.setSof_patrol (d : Device) (t : Nat) (x : Soffit) : (d.setSof t x).patrol = d.patrol := rfl
@[simp] theorem Device.setSof_truss (d : Device) (t : Nat) (x : Soffit) : (d.setSof t x).truss = d.truss := rfl
@[simp] theorem Device.setSof_soffit (d : Device) (t : Nat) (x : Soffit) : (d.setSof t x).soffit = tset d.soffit t x := rfl
@[simp] theorem Device.setSof_rowReqs (d : Device) (t : Nat) (x : Soffit) : (d.setSof t x).rowReqs = d.rowReqs := rfl
@[simp] theorem Device.setSof_raf (d : Device) (t : Nat) (x : Soffit) : (d.setSof t x).raf = d.raf := rfl
@[simp] theorem Device.setSof_lth (d : Device) (t : Nat) (x : Soffit) : (d.setSof t x).lth = d.lth := rfl
@[simp] theorem Device.setSof_atn (d : Device) (t : Nat) (x : Soffit) : (d.setSof t x).atn = d.atn := rfl
@[simp] theorem Device.setSof_jobs (d : Device) (t : Nat) (x : Soffit) : (d.setSof t x).jobs = d.jobs := rfl
@[simp] theorem Device.setSof_nextJob (d : Device) (t : Nat) (x : Soffit) : (d.setSof t x).nextJob = d.nextJob := rfl
@[simp] theorem Device.setSof_nextReady (d : Device) (t : Nat) (x : Soffit) : (d.setSof t x).nextReady = d.nextReady := rfl
@[simp] theorem Device.setSof_entries (d : Device) (t : Nat) (x : Soffit) : (d.setSof t x).entries = d.entries := rfl
@[simp] theorem Device.setSof_nextEntry (d : Device) (t : Nat) (x : Soffit) : (d.setSof t x).nextEntry = d.nextEntry := rfl
@[simp] theorem Device.setSof_bufs (d : Device) (t : Nat) (x : Soffit) : (d.setSof t x).bufs = d.bufs := rfl
@[simp] theorem Device.setSof_nextBuf (d : Device) (t : Nat) (x : Soffit) : (d.setSof t x).nextBuf = d.nextBuf := rfl
@[simp] theorem Device.setSof_graphs (d : Device) (t : Nat) (x : Soffit) : (d.setSof t x).graphs = d.graphs := rfl
@[simp] theorem Device.setSof_fences (d : Device) (t : Nat) (x : Soffit) : (d.setSof t x).fences = d.fences := rfl
@[simp] theorem Device.setSof_gut (d : Device) (t : Nat) (x : Soffit) : (d.setSof t x).gut = d.gut := rfl
@[simp] theorem Device.setSof_eave (d : Device) (t : Nat) (x : Soffit) : (d.setSof t x).eave = d.eave := rfl
@[simp] theorem Device.setSof_ctxs (d : Device) (t : Nat) (x : Soffit) : (d.setSof t x).ctxs = d.ctxs := rfl
@[simp] theorem Device.setSof_xlt (d : Device) (t : Nat) (x : Soffit) : (d.setSof t x).xlt = d.xlt := rfl
@[simp] theorem Device.setSof_tables (d : Device) (t : Nat) (x : Soffit) : (d.setSof t x).tables = d.tables := rfl
@[simp] theorem Device.setSof_remotes (d : Device) (t : Nat) (x : Soffit) : (d.setSof t x).remotes = d.remotes := rfl
@[simp] theorem Device.setSof_serving (d : Device) (t : Nat) (x : Soffit) : (d.setSof t x).serving = d.serving := rfl
@[simp] theorem Device.setSof_nextTag (d : Device) (t : Nat) (x : Soffit) : (d.setSof t x).nextTag = d.nextTag := rfl
@[simp] theorem Device.setSof_flows (d : Device) (t : Nat) (x : Soffit) : (d.setSof t x).flows = d.flows := rfl
@[simp] theorem Device.setSof_heldLocal (d : Device) (t : Nat) (x : Soffit) : (d.setSof t x).heldLocal = d.heldLocal := rfl
@[simp] theorem Device.setSof_kvEdits (d : Device) (t : Nat) (x : Soffit) : (d.setSof t x).kvEdits = d.kvEdits := rfl
@[simp] theorem Device.setSof_seqs (d : Device) (t : Nat) (x : Soffit) : (d.setSof t x).seqs = d.seqs := rfl
@[simp] theorem Device.setSof_clients (d : Device) (t : Nat) (x : Soffit) : (d.setSof t x).clients = d.clients := rfl
@[simp] theorem Device.setSof_models (d : Device) (t : Nat) (x : Soffit) : (d.setSof t x).models = d.models := rfl
@[simp] theorem Device.setSof_lanes (d : Device) (t : Nat) (x : Soffit) : (d.setSof t x).lanes = d.lanes := rfl
@[simp] theorem Device.setSof_crsSnap (d : Device) (t : Nat) (x : Soffit) : (d.setSof t x).crsSnap = d.crsSnap := rfl
@[simp] theorem Device.setSof_tickets (d : Device) (t : Nat) (x : Soffit) : (d.setSof t x).tickets = d.tickets := rfl
@[simp] theorem Device.setSof_nextTicket (d : Device) (t : Nat) (x : Soffit) : (d.setSof t x).nextTicket = d.nextTicket := rfl
@[simp] theorem Device.setSof_links (d : Device) (t : Nat) (x : Soffit) : (d.setSof t x).links = d.links := rfl
@[simp] theorem Device.setSof_splices (d : Device) (t : Nat) (x : Soffit) : (d.setSof t x).splices = d.splices := rfl
@[simp] theorem Device.setSof_cols (d : Device) (t : Nat) (x : Soffit) : (d.setSof t x).cols = d.cols := rfl
@[simp] theorem Device.setSof_logSeq (d : Device) (t : Nat) (x : Soffit) : (d.setSof t x).logSeq = d.logSeq := rfl
@[simp] theorem Device.setSof_rate (d : Device) (t : Nat) (x : Soffit) : (d.setSof t x).rate = d.rate := rfl
@[simp] theorem Device.setSof_suspects (d : Device) (t : Nat) (x : Soffit) : (d.setSof t x).suspects = d.suspects := rfl
@[simp] theorem Device.setSof_colq (d : Device) (t : Nat) (x : Soffit) : (d.setSof t x).colq = d.colq := rfl
@[simp] theorem Device.setSof_regions (d : Device) (t : Nat) (x : Soffit) : (d.setSof t x).regions = d.regions := rfl
@[simp] theorem Device.setSof_tableBad (d : Device) (t : Nat) (x : Soffit) : (d.setSof t x).tableBad = d.tableBad := rfl
@[simp] theorem Device.setSof_regionsDue (d : Device) (t : Nat) (x : Soffit) : (d.setSof t x).regionsDue = d.regionsDue := rfl
@[simp] theorem Device.setSof_groups (d : Device) (t : Nat) (x : Soffit) : (d.setSof t x).groups = d.groups := rfl
@[simp] theorem Device.setSof_meter (d : Device) (t : Nat) (x : Soffit) : (d.setSof t x).meter = d.meter := rfl
@[simp] theorem Device.setSof_qps (d : Device) (t : Nat) (x : Soffit) : (d.setSof t x).qps = d.qps := rfl
@[simp] theorem Device.setSof_ports (d : Device) (t : Nat) (x : Soffit) : (d.setSof t x).ports = d.ports := rfl
@[simp] theorem Device.setSof_rkeyControl (d : Device) (t : Nat) (x : Soffit) : (d.setSof t x).rkeyControl = d.rkeyControl := rfl
@[simp] theorem Device.setSof_rkeyMemory (d : Device) (t : Nat) (x : Soffit) : (d.setSof t x).rkeyMemory = d.rkeyMemory := rfl
@[simp] theorem Device.setSof_devnum (d : Device) (t : Nat) (x : Soffit) : (d.setSof t x).devnum = d.devnum := rfl
@[simp] theorem Device.setSof_devnumValid (d : Device) (t : Nat) (x : Soffit) : (d.setSof t x).devnumValid = d.devnumValid := rfl
@[simp] theorem Device.setSof_out (d : Device) (t : Nat) (x : Soffit) : (d.setSof t x).out = d.out := rfl
@[simp] theorem Device.setSof_free (d : Device) (t : Nat) (x : Soffit) : (d.setSof t x).free = d.free := rfl

/-! ### Device.setLthe -/

@[simp] theorem Device.setLthe_clk (d : Device) (t e : Nat) (x : LthEngine) : (d.setLthe t e x).clk = d.clk := rfl
@[simp] theorem Device.setLthe_fls (d : Device) (t e : Nat) (x : LthEngine) : (d.setLthe t e x).fls = d.fls := rfl
@[simp] theorem Device.setLthe_regs (d : Device) (t e : Nat) (x : LthEngine) : (d.setLthe t e x).regs = d.regs := rfl
@[simp] theorem Device.setLthe_bound (d : Device) (t e : Nat) (x : LthEngine) : (d.setLthe t e x).bound = d.bound := rfl
@[simp] theorem Device.setLthe_hbm (d : Device) (t e : Nat) (x : LthEngine) : (d.setLthe t e x).hbm = d.hbm := rfl
@[simp] theorem Device.setLthe_loft (d : Device) (t e : Nat) (x : LthEngine) : (d.setLthe t e x).loft = d.loft := rfl
@[simp] theorem Device.setLthe_loftBad (d : Device) (t e : Nat) (x : LthEngine) : (d.setLthe t e x).loftBad = d.loftBad := rfl
@[simp] theorem Device.setLthe_patrol (d : Device) (t e : Nat) (x : LthEngine) : (d.setLthe t e x).patrol = d.patrol := rfl
@[simp] theorem Device.setLthe_truss (d : Device) (t e : Nat) (x : LthEngine) : (d.setLthe t e x).truss = d.truss := rfl
@[simp] theorem Device.setLthe_soffit (d : Device) (t e : Nat) (x : LthEngine) : (d.setLthe t e x).soffit = d.soffit := rfl
@[simp] theorem Device.setLthe_rowReqs (d : Device) (t e : Nat) (x : LthEngine) : (d.setLthe t e x).rowReqs = d.rowReqs := rfl
@[simp] theorem Device.setLthe_raf (d : Device) (t e : Nat) (x : LthEngine) : (d.setLthe t e x).raf = d.raf := rfl
@[simp] theorem Device.setLthe_lth (d : Device) (t e : Nat) (x : LthEngine) : (d.setLthe t e x).lth = tset d.lth (2 * t + e) x := rfl
@[simp] theorem Device.setLthe_atn (d : Device) (t e : Nat) (x : LthEngine) : (d.setLthe t e x).atn = d.atn := rfl
@[simp] theorem Device.setLthe_jobs (d : Device) (t e : Nat) (x : LthEngine) : (d.setLthe t e x).jobs = d.jobs := rfl
@[simp] theorem Device.setLthe_nextJob (d : Device) (t e : Nat) (x : LthEngine) : (d.setLthe t e x).nextJob = d.nextJob := rfl
@[simp] theorem Device.setLthe_nextReady (d : Device) (t e : Nat) (x : LthEngine) : (d.setLthe t e x).nextReady = d.nextReady := rfl
@[simp] theorem Device.setLthe_entries (d : Device) (t e : Nat) (x : LthEngine) : (d.setLthe t e x).entries = d.entries := rfl
@[simp] theorem Device.setLthe_nextEntry (d : Device) (t e : Nat) (x : LthEngine) : (d.setLthe t e x).nextEntry = d.nextEntry := rfl
@[simp] theorem Device.setLthe_bufs (d : Device) (t e : Nat) (x : LthEngine) : (d.setLthe t e x).bufs = d.bufs := rfl
@[simp] theorem Device.setLthe_nextBuf (d : Device) (t e : Nat) (x : LthEngine) : (d.setLthe t e x).nextBuf = d.nextBuf := rfl
@[simp] theorem Device.setLthe_graphs (d : Device) (t e : Nat) (x : LthEngine) : (d.setLthe t e x).graphs = d.graphs := rfl
@[simp] theorem Device.setLthe_fences (d : Device) (t e : Nat) (x : LthEngine) : (d.setLthe t e x).fences = d.fences := rfl
@[simp] theorem Device.setLthe_gut (d : Device) (t e : Nat) (x : LthEngine) : (d.setLthe t e x).gut = d.gut := rfl
@[simp] theorem Device.setLthe_eave (d : Device) (t e : Nat) (x : LthEngine) : (d.setLthe t e x).eave = d.eave := rfl
@[simp] theorem Device.setLthe_ctxs (d : Device) (t e : Nat) (x : LthEngine) : (d.setLthe t e x).ctxs = d.ctxs := rfl
@[simp] theorem Device.setLthe_xlt (d : Device) (t e : Nat) (x : LthEngine) : (d.setLthe t e x).xlt = d.xlt := rfl
@[simp] theorem Device.setLthe_tables (d : Device) (t e : Nat) (x : LthEngine) : (d.setLthe t e x).tables = d.tables := rfl
@[simp] theorem Device.setLthe_remotes (d : Device) (t e : Nat) (x : LthEngine) : (d.setLthe t e x).remotes = d.remotes := rfl
@[simp] theorem Device.setLthe_serving (d : Device) (t e : Nat) (x : LthEngine) : (d.setLthe t e x).serving = d.serving := rfl
@[simp] theorem Device.setLthe_nextTag (d : Device) (t e : Nat) (x : LthEngine) : (d.setLthe t e x).nextTag = d.nextTag := rfl
@[simp] theorem Device.setLthe_flows (d : Device) (t e : Nat) (x : LthEngine) : (d.setLthe t e x).flows = d.flows := rfl
@[simp] theorem Device.setLthe_heldLocal (d : Device) (t e : Nat) (x : LthEngine) : (d.setLthe t e x).heldLocal = d.heldLocal := rfl
@[simp] theorem Device.setLthe_kvEdits (d : Device) (t e : Nat) (x : LthEngine) : (d.setLthe t e x).kvEdits = d.kvEdits := rfl
@[simp] theorem Device.setLthe_seqs (d : Device) (t e : Nat) (x : LthEngine) : (d.setLthe t e x).seqs = d.seqs := rfl
@[simp] theorem Device.setLthe_clients (d : Device) (t e : Nat) (x : LthEngine) : (d.setLthe t e x).clients = d.clients := rfl
@[simp] theorem Device.setLthe_models (d : Device) (t e : Nat) (x : LthEngine) : (d.setLthe t e x).models = d.models := rfl
@[simp] theorem Device.setLthe_lanes (d : Device) (t e : Nat) (x : LthEngine) : (d.setLthe t e x).lanes = d.lanes := rfl
@[simp] theorem Device.setLthe_crsSnap (d : Device) (t e : Nat) (x : LthEngine) : (d.setLthe t e x).crsSnap = d.crsSnap := rfl
@[simp] theorem Device.setLthe_tickets (d : Device) (t e : Nat) (x : LthEngine) : (d.setLthe t e x).tickets = d.tickets := rfl
@[simp] theorem Device.setLthe_nextTicket (d : Device) (t e : Nat) (x : LthEngine) : (d.setLthe t e x).nextTicket = d.nextTicket := rfl
@[simp] theorem Device.setLthe_links (d : Device) (t e : Nat) (x : LthEngine) : (d.setLthe t e x).links = d.links := rfl
@[simp] theorem Device.setLthe_splices (d : Device) (t e : Nat) (x : LthEngine) : (d.setLthe t e x).splices = d.splices := rfl
@[simp] theorem Device.setLthe_cols (d : Device) (t e : Nat) (x : LthEngine) : (d.setLthe t e x).cols = d.cols := rfl
@[simp] theorem Device.setLthe_logSeq (d : Device) (t e : Nat) (x : LthEngine) : (d.setLthe t e x).logSeq = d.logSeq := rfl
@[simp] theorem Device.setLthe_rate (d : Device) (t e : Nat) (x : LthEngine) : (d.setLthe t e x).rate = d.rate := rfl
@[simp] theorem Device.setLthe_suspects (d : Device) (t e : Nat) (x : LthEngine) : (d.setLthe t e x).suspects = d.suspects := rfl
@[simp] theorem Device.setLthe_colq (d : Device) (t e : Nat) (x : LthEngine) : (d.setLthe t e x).colq = d.colq := rfl
@[simp] theorem Device.setLthe_regions (d : Device) (t e : Nat) (x : LthEngine) : (d.setLthe t e x).regions = d.regions := rfl
@[simp] theorem Device.setLthe_tableBad (d : Device) (t e : Nat) (x : LthEngine) : (d.setLthe t e x).tableBad = d.tableBad := rfl
@[simp] theorem Device.setLthe_regionsDue (d : Device) (t e : Nat) (x : LthEngine) : (d.setLthe t e x).regionsDue = d.regionsDue := rfl
@[simp] theorem Device.setLthe_groups (d : Device) (t e : Nat) (x : LthEngine) : (d.setLthe t e x).groups = d.groups := rfl
@[simp] theorem Device.setLthe_meter (d : Device) (t e : Nat) (x : LthEngine) : (d.setLthe t e x).meter = d.meter := rfl
@[simp] theorem Device.setLthe_qps (d : Device) (t e : Nat) (x : LthEngine) : (d.setLthe t e x).qps = d.qps := rfl
@[simp] theorem Device.setLthe_ports (d : Device) (t e : Nat) (x : LthEngine) : (d.setLthe t e x).ports = d.ports := rfl
@[simp] theorem Device.setLthe_rkeyControl (d : Device) (t e : Nat) (x : LthEngine) : (d.setLthe t e x).rkeyControl = d.rkeyControl := rfl
@[simp] theorem Device.setLthe_rkeyMemory (d : Device) (t e : Nat) (x : LthEngine) : (d.setLthe t e x).rkeyMemory = d.rkeyMemory := rfl
@[simp] theorem Device.setLthe_devnum (d : Device) (t e : Nat) (x : LthEngine) : (d.setLthe t e x).devnum = d.devnum := rfl
@[simp] theorem Device.setLthe_devnumValid (d : Device) (t e : Nat) (x : LthEngine) : (d.setLthe t e x).devnumValid = d.devnumValid := rfl
@[simp] theorem Device.setLthe_out (d : Device) (t e : Nat) (x : LthEngine) : (d.setLthe t e x).out = d.out := rfl
@[simp] theorem Device.setLthe_free (d : Device) (t e : Nat) (x : LthEngine) : (d.setLthe t e x).free = d.free := rfl

/-! ### Device.setGutter -/

@[simp] theorem Device.setGutter_clk (d : Device) (c : Nat) (x : Gutter) : (d.setGutter c x).clk = d.clk := rfl
@[simp] theorem Device.setGutter_fls (d : Device) (c : Nat) (x : Gutter) : (d.setGutter c x).fls = d.fls := rfl
@[simp] theorem Device.setGutter_regs (d : Device) (c : Nat) (x : Gutter) : (d.setGutter c x).regs = d.regs := rfl
@[simp] theorem Device.setGutter_bound (d : Device) (c : Nat) (x : Gutter) : (d.setGutter c x).bound = d.bound := rfl
@[simp] theorem Device.setGutter_hbm (d : Device) (c : Nat) (x : Gutter) : (d.setGutter c x).hbm = d.hbm := rfl
@[simp] theorem Device.setGutter_loft (d : Device) (c : Nat) (x : Gutter) : (d.setGutter c x).loft = d.loft := rfl
@[simp] theorem Device.setGutter_loftBad (d : Device) (c : Nat) (x : Gutter) : (d.setGutter c x).loftBad = d.loftBad := rfl
@[simp] theorem Device.setGutter_patrol (d : Device) (c : Nat) (x : Gutter) : (d.setGutter c x).patrol = d.patrol := rfl
@[simp] theorem Device.setGutter_truss (d : Device) (c : Nat) (x : Gutter) : (d.setGutter c x).truss = d.truss := rfl
@[simp] theorem Device.setGutter_soffit (d : Device) (c : Nat) (x : Gutter) : (d.setGutter c x).soffit = d.soffit := rfl
@[simp] theorem Device.setGutter_rowReqs (d : Device) (c : Nat) (x : Gutter) : (d.setGutter c x).rowReqs = d.rowReqs := rfl
@[simp] theorem Device.setGutter_raf (d : Device) (c : Nat) (x : Gutter) : (d.setGutter c x).raf = d.raf := rfl
@[simp] theorem Device.setGutter_lth (d : Device) (c : Nat) (x : Gutter) : (d.setGutter c x).lth = d.lth := rfl
@[simp] theorem Device.setGutter_atn (d : Device) (c : Nat) (x : Gutter) : (d.setGutter c x).atn = d.atn := rfl
@[simp] theorem Device.setGutter_jobs (d : Device) (c : Nat) (x : Gutter) : (d.setGutter c x).jobs = d.jobs := rfl
@[simp] theorem Device.setGutter_nextJob (d : Device) (c : Nat) (x : Gutter) : (d.setGutter c x).nextJob = d.nextJob := rfl
@[simp] theorem Device.setGutter_nextReady (d : Device) (c : Nat) (x : Gutter) : (d.setGutter c x).nextReady = d.nextReady := rfl
@[simp] theorem Device.setGutter_entries (d : Device) (c : Nat) (x : Gutter) : (d.setGutter c x).entries = d.entries := rfl
@[simp] theorem Device.setGutter_nextEntry (d : Device) (c : Nat) (x : Gutter) : (d.setGutter c x).nextEntry = d.nextEntry := rfl
@[simp] theorem Device.setGutter_bufs (d : Device) (c : Nat) (x : Gutter) : (d.setGutter c x).bufs = d.bufs := rfl
@[simp] theorem Device.setGutter_nextBuf (d : Device) (c : Nat) (x : Gutter) : (d.setGutter c x).nextBuf = d.nextBuf := rfl
@[simp] theorem Device.setGutter_graphs (d : Device) (c : Nat) (x : Gutter) : (d.setGutter c x).graphs = d.graphs := rfl
@[simp] theorem Device.setGutter_fences (d : Device) (c : Nat) (x : Gutter) : (d.setGutter c x).fences = d.fences := rfl
@[simp] theorem Device.setGutter_gut (d : Device) (c : Nat) (x : Gutter) : (d.setGutter c x).gut = tset d.gut c x := rfl
@[simp] theorem Device.setGutter_eave (d : Device) (c : Nat) (x : Gutter) : (d.setGutter c x).eave = d.eave := rfl
@[simp] theorem Device.setGutter_ctxs (d : Device) (c : Nat) (x : Gutter) : (d.setGutter c x).ctxs = d.ctxs := rfl
@[simp] theorem Device.setGutter_xlt (d : Device) (c : Nat) (x : Gutter) : (d.setGutter c x).xlt = d.xlt := rfl
@[simp] theorem Device.setGutter_tables (d : Device) (c : Nat) (x : Gutter) : (d.setGutter c x).tables = d.tables := rfl
@[simp] theorem Device.setGutter_remotes (d : Device) (c : Nat) (x : Gutter) : (d.setGutter c x).remotes = d.remotes := rfl
@[simp] theorem Device.setGutter_serving (d : Device) (c : Nat) (x : Gutter) : (d.setGutter c x).serving = d.serving := rfl
@[simp] theorem Device.setGutter_nextTag (d : Device) (c : Nat) (x : Gutter) : (d.setGutter c x).nextTag = d.nextTag := rfl
@[simp] theorem Device.setGutter_flows (d : Device) (c : Nat) (x : Gutter) : (d.setGutter c x).flows = d.flows := rfl
@[simp] theorem Device.setGutter_heldLocal (d : Device) (c : Nat) (x : Gutter) : (d.setGutter c x).heldLocal = d.heldLocal := rfl
@[simp] theorem Device.setGutter_kvEdits (d : Device) (c : Nat) (x : Gutter) : (d.setGutter c x).kvEdits = d.kvEdits := rfl
@[simp] theorem Device.setGutter_seqs (d : Device) (c : Nat) (x : Gutter) : (d.setGutter c x).seqs = d.seqs := rfl
@[simp] theorem Device.setGutter_clients (d : Device) (c : Nat) (x : Gutter) : (d.setGutter c x).clients = d.clients := rfl
@[simp] theorem Device.setGutter_models (d : Device) (c : Nat) (x : Gutter) : (d.setGutter c x).models = d.models := rfl
@[simp] theorem Device.setGutter_lanes (d : Device) (c : Nat) (x : Gutter) : (d.setGutter c x).lanes = d.lanes := rfl
@[simp] theorem Device.setGutter_crsSnap (d : Device) (c : Nat) (x : Gutter) : (d.setGutter c x).crsSnap = d.crsSnap := rfl
@[simp] theorem Device.setGutter_tickets (d : Device) (c : Nat) (x : Gutter) : (d.setGutter c x).tickets = d.tickets := rfl
@[simp] theorem Device.setGutter_nextTicket (d : Device) (c : Nat) (x : Gutter) : (d.setGutter c x).nextTicket = d.nextTicket := rfl
@[simp] theorem Device.setGutter_links (d : Device) (c : Nat) (x : Gutter) : (d.setGutter c x).links = d.links := rfl
@[simp] theorem Device.setGutter_splices (d : Device) (c : Nat) (x : Gutter) : (d.setGutter c x).splices = d.splices := rfl
@[simp] theorem Device.setGutter_cols (d : Device) (c : Nat) (x : Gutter) : (d.setGutter c x).cols = d.cols := rfl
@[simp] theorem Device.setGutter_logSeq (d : Device) (c : Nat) (x : Gutter) : (d.setGutter c x).logSeq = d.logSeq := rfl
@[simp] theorem Device.setGutter_rate (d : Device) (c : Nat) (x : Gutter) : (d.setGutter c x).rate = d.rate := rfl
@[simp] theorem Device.setGutter_suspects (d : Device) (c : Nat) (x : Gutter) : (d.setGutter c x).suspects = d.suspects := rfl
@[simp] theorem Device.setGutter_colq (d : Device) (c : Nat) (x : Gutter) : (d.setGutter c x).colq = d.colq := rfl
@[simp] theorem Device.setGutter_regions (d : Device) (c : Nat) (x : Gutter) : (d.setGutter c x).regions = d.regions := rfl
@[simp] theorem Device.setGutter_tableBad (d : Device) (c : Nat) (x : Gutter) : (d.setGutter c x).tableBad = d.tableBad := rfl
@[simp] theorem Device.setGutter_regionsDue (d : Device) (c : Nat) (x : Gutter) : (d.setGutter c x).regionsDue = d.regionsDue := rfl
@[simp] theorem Device.setGutter_groups (d : Device) (c : Nat) (x : Gutter) : (d.setGutter c x).groups = d.groups := rfl
@[simp] theorem Device.setGutter_meter (d : Device) (c : Nat) (x : Gutter) : (d.setGutter c x).meter = d.meter := rfl
@[simp] theorem Device.setGutter_qps (d : Device) (c : Nat) (x : Gutter) : (d.setGutter c x).qps = d.qps := rfl
@[simp] theorem Device.setGutter_ports (d : Device) (c : Nat) (x : Gutter) : (d.setGutter c x).ports = d.ports := rfl
@[simp] theorem Device.setGutter_rkeyControl (d : Device) (c : Nat) (x : Gutter) : (d.setGutter c x).rkeyControl = d.rkeyControl := rfl
@[simp] theorem Device.setGutter_rkeyMemory (d : Device) (c : Nat) (x : Gutter) : (d.setGutter c x).rkeyMemory = d.rkeyMemory := rfl
@[simp] theorem Device.setGutter_devnum (d : Device) (c : Nat) (x : Gutter) : (d.setGutter c x).devnum = d.devnum := rfl
@[simp] theorem Device.setGutter_devnumValid (d : Device) (c : Nat) (x : Gutter) : (d.setGutter c x).devnumValid = d.devnumValid := rfl
@[simp] theorem Device.setGutter_out (d : Device) (c : Nat) (x : Gutter) : (d.setGutter c x).out = d.out := rfl
@[simp] theorem Device.setGutter_free (d : Device) (c : Nat) (x : Gutter) : (d.setGutter c x).free = d.free := rfl

/-! ### Device.setLink -/

@[simp] theorem Device.setLink_clk (d : Device) (l : Nat) (x : Link) : (d.setLink l x).clk = d.clk := rfl
@[simp] theorem Device.setLink_fls (d : Device) (l : Nat) (x : Link) : (d.setLink l x).fls = d.fls := rfl
@[simp] theorem Device.setLink_regs (d : Device) (l : Nat) (x : Link) : (d.setLink l x).regs = d.regs := rfl
@[simp] theorem Device.setLink_bound (d : Device) (l : Nat) (x : Link) : (d.setLink l x).bound = d.bound := rfl
@[simp] theorem Device.setLink_hbm (d : Device) (l : Nat) (x : Link) : (d.setLink l x).hbm = d.hbm := rfl
@[simp] theorem Device.setLink_loft (d : Device) (l : Nat) (x : Link) : (d.setLink l x).loft = d.loft := rfl
@[simp] theorem Device.setLink_loftBad (d : Device) (l : Nat) (x : Link) : (d.setLink l x).loftBad = d.loftBad := rfl
@[simp] theorem Device.setLink_patrol (d : Device) (l : Nat) (x : Link) : (d.setLink l x).patrol = d.patrol := rfl
@[simp] theorem Device.setLink_truss (d : Device) (l : Nat) (x : Link) : (d.setLink l x).truss = d.truss := rfl
@[simp] theorem Device.setLink_soffit (d : Device) (l : Nat) (x : Link) : (d.setLink l x).soffit = d.soffit := rfl
@[simp] theorem Device.setLink_rowReqs (d : Device) (l : Nat) (x : Link) : (d.setLink l x).rowReqs = d.rowReqs := rfl
@[simp] theorem Device.setLink_raf (d : Device) (l : Nat) (x : Link) : (d.setLink l x).raf = d.raf := rfl
@[simp] theorem Device.setLink_lth (d : Device) (l : Nat) (x : Link) : (d.setLink l x).lth = d.lth := rfl
@[simp] theorem Device.setLink_atn (d : Device) (l : Nat) (x : Link) : (d.setLink l x).atn = d.atn := rfl
@[simp] theorem Device.setLink_jobs (d : Device) (l : Nat) (x : Link) : (d.setLink l x).jobs = d.jobs := rfl
@[simp] theorem Device.setLink_nextJob (d : Device) (l : Nat) (x : Link) : (d.setLink l x).nextJob = d.nextJob := rfl
@[simp] theorem Device.setLink_nextReady (d : Device) (l : Nat) (x : Link) : (d.setLink l x).nextReady = d.nextReady := rfl
@[simp] theorem Device.setLink_entries (d : Device) (l : Nat) (x : Link) : (d.setLink l x).entries = d.entries := rfl
@[simp] theorem Device.setLink_nextEntry (d : Device) (l : Nat) (x : Link) : (d.setLink l x).nextEntry = d.nextEntry := rfl
@[simp] theorem Device.setLink_bufs (d : Device) (l : Nat) (x : Link) : (d.setLink l x).bufs = d.bufs := rfl
@[simp] theorem Device.setLink_nextBuf (d : Device) (l : Nat) (x : Link) : (d.setLink l x).nextBuf = d.nextBuf := rfl
@[simp] theorem Device.setLink_graphs (d : Device) (l : Nat) (x : Link) : (d.setLink l x).graphs = d.graphs := rfl
@[simp] theorem Device.setLink_fences (d : Device) (l : Nat) (x : Link) : (d.setLink l x).fences = d.fences := rfl
@[simp] theorem Device.setLink_gut (d : Device) (l : Nat) (x : Link) : (d.setLink l x).gut = d.gut := rfl
@[simp] theorem Device.setLink_eave (d : Device) (l : Nat) (x : Link) : (d.setLink l x).eave = d.eave := rfl
@[simp] theorem Device.setLink_ctxs (d : Device) (l : Nat) (x : Link) : (d.setLink l x).ctxs = d.ctxs := rfl
@[simp] theorem Device.setLink_xlt (d : Device) (l : Nat) (x : Link) : (d.setLink l x).xlt = d.xlt := rfl
@[simp] theorem Device.setLink_tables (d : Device) (l : Nat) (x : Link) : (d.setLink l x).tables = d.tables := rfl
@[simp] theorem Device.setLink_remotes (d : Device) (l : Nat) (x : Link) : (d.setLink l x).remotes = d.remotes := rfl
@[simp] theorem Device.setLink_serving (d : Device) (l : Nat) (x : Link) : (d.setLink l x).serving = d.serving := rfl
@[simp] theorem Device.setLink_nextTag (d : Device) (l : Nat) (x : Link) : (d.setLink l x).nextTag = d.nextTag := rfl
@[simp] theorem Device.setLink_flows (d : Device) (l : Nat) (x : Link) : (d.setLink l x).flows = d.flows := rfl
@[simp] theorem Device.setLink_heldLocal (d : Device) (l : Nat) (x : Link) : (d.setLink l x).heldLocal = d.heldLocal := rfl
@[simp] theorem Device.setLink_kvEdits (d : Device) (l : Nat) (x : Link) : (d.setLink l x).kvEdits = d.kvEdits := rfl
@[simp] theorem Device.setLink_seqs (d : Device) (l : Nat) (x : Link) : (d.setLink l x).seqs = d.seqs := rfl
@[simp] theorem Device.setLink_clients (d : Device) (l : Nat) (x : Link) : (d.setLink l x).clients = d.clients := rfl
@[simp] theorem Device.setLink_models (d : Device) (l : Nat) (x : Link) : (d.setLink l x).models = d.models := rfl
@[simp] theorem Device.setLink_lanes (d : Device) (l : Nat) (x : Link) : (d.setLink l x).lanes = d.lanes := rfl
@[simp] theorem Device.setLink_crsSnap (d : Device) (l : Nat) (x : Link) : (d.setLink l x).crsSnap = d.crsSnap := rfl
@[simp] theorem Device.setLink_tickets (d : Device) (l : Nat) (x : Link) : (d.setLink l x).tickets = d.tickets := rfl
@[simp] theorem Device.setLink_nextTicket (d : Device) (l : Nat) (x : Link) : (d.setLink l x).nextTicket = d.nextTicket := rfl
@[simp] theorem Device.setLink_links (d : Device) (l : Nat) (x : Link) : (d.setLink l x).links = tset d.links l x := rfl
@[simp] theorem Device.setLink_splices (d : Device) (l : Nat) (x : Link) : (d.setLink l x).splices = d.splices := rfl
@[simp] theorem Device.setLink_cols (d : Device) (l : Nat) (x : Link) : (d.setLink l x).cols = d.cols := rfl
@[simp] theorem Device.setLink_logSeq (d : Device) (l : Nat) (x : Link) : (d.setLink l x).logSeq = d.logSeq := rfl
@[simp] theorem Device.setLink_rate (d : Device) (l : Nat) (x : Link) : (d.setLink l x).rate = d.rate := rfl
@[simp] theorem Device.setLink_suspects (d : Device) (l : Nat) (x : Link) : (d.setLink l x).suspects = d.suspects := rfl
@[simp] theorem Device.setLink_colq (d : Device) (l : Nat) (x : Link) : (d.setLink l x).colq = d.colq := rfl
@[simp] theorem Device.setLink_regions (d : Device) (l : Nat) (x : Link) : (d.setLink l x).regions = d.regions := rfl
@[simp] theorem Device.setLink_tableBad (d : Device) (l : Nat) (x : Link) : (d.setLink l x).tableBad = d.tableBad := rfl
@[simp] theorem Device.setLink_regionsDue (d : Device) (l : Nat) (x : Link) : (d.setLink l x).regionsDue = d.regionsDue := rfl
@[simp] theorem Device.setLink_groups (d : Device) (l : Nat) (x : Link) : (d.setLink l x).groups = d.groups := rfl
@[simp] theorem Device.setLink_meter (d : Device) (l : Nat) (x : Link) : (d.setLink l x).meter = d.meter := rfl
@[simp] theorem Device.setLink_qps (d : Device) (l : Nat) (x : Link) : (d.setLink l x).qps = d.qps := rfl
@[simp] theorem Device.setLink_ports (d : Device) (l : Nat) (x : Link) : (d.setLink l x).ports = d.ports := rfl
@[simp] theorem Device.setLink_rkeyControl (d : Device) (l : Nat) (x : Link) : (d.setLink l x).rkeyControl = d.rkeyControl := rfl
@[simp] theorem Device.setLink_rkeyMemory (d : Device) (l : Nat) (x : Link) : (d.setLink l x).rkeyMemory = d.rkeyMemory := rfl
@[simp] theorem Device.setLink_devnum (d : Device) (l : Nat) (x : Link) : (d.setLink l x).devnum = d.devnum := rfl
@[simp] theorem Device.setLink_devnumValid (d : Device) (l : Nat) (x : Link) : (d.setLink l x).devnumValid = d.devnumValid := rfl
@[simp] theorem Device.setLink_out (d : Device) (l : Nat) (x : Link) : (d.setLink l x).out = d.out := rfl
@[simp] theorem Device.setLink_free (d : Device) (l : Nat) (x : Link) : (d.setLink l x).free = d.free := rfl

/-! ### Device.setSplice -/

@[simp] theorem Device.setSplice_clk (d : Device) (l : Nat) (x : Splice) : (d.setSplice l x).clk = d.clk := rfl
@[simp] theorem Device.setSplice_fls (d : Device) (l : Nat) (x : Splice) : (d.setSplice l x).fls = d.fls := rfl
@[simp] theorem Device.setSplice_regs (d : Device) (l : Nat) (x : Splice) : (d.setSplice l x).regs = d.regs := rfl
@[simp] theorem Device.setSplice_bound (d : Device) (l : Nat) (x : Splice) : (d.setSplice l x).bound = d.bound := rfl
@[simp] theorem Device.setSplice_hbm (d : Device) (l : Nat) (x : Splice) : (d.setSplice l x).hbm = d.hbm := rfl
@[simp] theorem Device.setSplice_loft (d : Device) (l : Nat) (x : Splice) : (d.setSplice l x).loft = d.loft := rfl
@[simp] theorem Device.setSplice_loftBad (d : Device) (l : Nat) (x : Splice) : (d.setSplice l x).loftBad = d.loftBad := rfl
@[simp] theorem Device.setSplice_patrol (d : Device) (l : Nat) (x : Splice) : (d.setSplice l x).patrol = d.patrol := rfl
@[simp] theorem Device.setSplice_truss (d : Device) (l : Nat) (x : Splice) : (d.setSplice l x).truss = d.truss := rfl
@[simp] theorem Device.setSplice_soffit (d : Device) (l : Nat) (x : Splice) : (d.setSplice l x).soffit = d.soffit := rfl
@[simp] theorem Device.setSplice_rowReqs (d : Device) (l : Nat) (x : Splice) : (d.setSplice l x).rowReqs = d.rowReqs := rfl
@[simp] theorem Device.setSplice_raf (d : Device) (l : Nat) (x : Splice) : (d.setSplice l x).raf = d.raf := rfl
@[simp] theorem Device.setSplice_lth (d : Device) (l : Nat) (x : Splice) : (d.setSplice l x).lth = d.lth := rfl
@[simp] theorem Device.setSplice_atn (d : Device) (l : Nat) (x : Splice) : (d.setSplice l x).atn = d.atn := rfl
@[simp] theorem Device.setSplice_jobs (d : Device) (l : Nat) (x : Splice) : (d.setSplice l x).jobs = d.jobs := rfl
@[simp] theorem Device.setSplice_nextJob (d : Device) (l : Nat) (x : Splice) : (d.setSplice l x).nextJob = d.nextJob := rfl
@[simp] theorem Device.setSplice_nextReady (d : Device) (l : Nat) (x : Splice) : (d.setSplice l x).nextReady = d.nextReady := rfl
@[simp] theorem Device.setSplice_entries (d : Device) (l : Nat) (x : Splice) : (d.setSplice l x).entries = d.entries := rfl
@[simp] theorem Device.setSplice_nextEntry (d : Device) (l : Nat) (x : Splice) : (d.setSplice l x).nextEntry = d.nextEntry := rfl
@[simp] theorem Device.setSplice_bufs (d : Device) (l : Nat) (x : Splice) : (d.setSplice l x).bufs = d.bufs := rfl
@[simp] theorem Device.setSplice_nextBuf (d : Device) (l : Nat) (x : Splice) : (d.setSplice l x).nextBuf = d.nextBuf := rfl
@[simp] theorem Device.setSplice_graphs (d : Device) (l : Nat) (x : Splice) : (d.setSplice l x).graphs = d.graphs := rfl
@[simp] theorem Device.setSplice_fences (d : Device) (l : Nat) (x : Splice) : (d.setSplice l x).fences = d.fences := rfl
@[simp] theorem Device.setSplice_gut (d : Device) (l : Nat) (x : Splice) : (d.setSplice l x).gut = d.gut := rfl
@[simp] theorem Device.setSplice_eave (d : Device) (l : Nat) (x : Splice) : (d.setSplice l x).eave = d.eave := rfl
@[simp] theorem Device.setSplice_ctxs (d : Device) (l : Nat) (x : Splice) : (d.setSplice l x).ctxs = d.ctxs := rfl
@[simp] theorem Device.setSplice_xlt (d : Device) (l : Nat) (x : Splice) : (d.setSplice l x).xlt = d.xlt := rfl
@[simp] theorem Device.setSplice_tables (d : Device) (l : Nat) (x : Splice) : (d.setSplice l x).tables = d.tables := rfl
@[simp] theorem Device.setSplice_remotes (d : Device) (l : Nat) (x : Splice) : (d.setSplice l x).remotes = d.remotes := rfl
@[simp] theorem Device.setSplice_serving (d : Device) (l : Nat) (x : Splice) : (d.setSplice l x).serving = d.serving := rfl
@[simp] theorem Device.setSplice_nextTag (d : Device) (l : Nat) (x : Splice) : (d.setSplice l x).nextTag = d.nextTag := rfl
@[simp] theorem Device.setSplice_flows (d : Device) (l : Nat) (x : Splice) : (d.setSplice l x).flows = d.flows := rfl
@[simp] theorem Device.setSplice_heldLocal (d : Device) (l : Nat) (x : Splice) : (d.setSplice l x).heldLocal = d.heldLocal := rfl
@[simp] theorem Device.setSplice_kvEdits (d : Device) (l : Nat) (x : Splice) : (d.setSplice l x).kvEdits = d.kvEdits := rfl
@[simp] theorem Device.setSplice_seqs (d : Device) (l : Nat) (x : Splice) : (d.setSplice l x).seqs = d.seqs := rfl
@[simp] theorem Device.setSplice_clients (d : Device) (l : Nat) (x : Splice) : (d.setSplice l x).clients = d.clients := rfl
@[simp] theorem Device.setSplice_models (d : Device) (l : Nat) (x : Splice) : (d.setSplice l x).models = d.models := rfl
@[simp] theorem Device.setSplice_lanes (d : Device) (l : Nat) (x : Splice) : (d.setSplice l x).lanes = d.lanes := rfl
@[simp] theorem Device.setSplice_crsSnap (d : Device) (l : Nat) (x : Splice) : (d.setSplice l x).crsSnap = d.crsSnap := rfl
@[simp] theorem Device.setSplice_tickets (d : Device) (l : Nat) (x : Splice) : (d.setSplice l x).tickets = d.tickets := rfl
@[simp] theorem Device.setSplice_nextTicket (d : Device) (l : Nat) (x : Splice) : (d.setSplice l x).nextTicket = d.nextTicket := rfl
@[simp] theorem Device.setSplice_links (d : Device) (l : Nat) (x : Splice) : (d.setSplice l x).links = d.links := rfl
@[simp] theorem Device.setSplice_splices (d : Device) (l : Nat) (x : Splice) : (d.setSplice l x).splices = tset d.splices l x := rfl
@[simp] theorem Device.setSplice_cols (d : Device) (l : Nat) (x : Splice) : (d.setSplice l x).cols = d.cols := rfl
@[simp] theorem Device.setSplice_logSeq (d : Device) (l : Nat) (x : Splice) : (d.setSplice l x).logSeq = d.logSeq := rfl
@[simp] theorem Device.setSplice_rate (d : Device) (l : Nat) (x : Splice) : (d.setSplice l x).rate = d.rate := rfl
@[simp] theorem Device.setSplice_suspects (d : Device) (l : Nat) (x : Splice) : (d.setSplice l x).suspects = d.suspects := rfl
@[simp] theorem Device.setSplice_colq (d : Device) (l : Nat) (x : Splice) : (d.setSplice l x).colq = d.colq := rfl
@[simp] theorem Device.setSplice_regions (d : Device) (l : Nat) (x : Splice) : (d.setSplice l x).regions = d.regions := rfl
@[simp] theorem Device.setSplice_tableBad (d : Device) (l : Nat) (x : Splice) : (d.setSplice l x).tableBad = d.tableBad := rfl
@[simp] theorem Device.setSplice_regionsDue (d : Device) (l : Nat) (x : Splice) : (d.setSplice l x).regionsDue = d.regionsDue := rfl
@[simp] theorem Device.setSplice_groups (d : Device) (l : Nat) (x : Splice) : (d.setSplice l x).groups = d.groups := rfl
@[simp] theorem Device.setSplice_meter (d : Device) (l : Nat) (x : Splice) : (d.setSplice l x).meter = d.meter := rfl
@[simp] theorem Device.setSplice_qps (d : Device) (l : Nat) (x : Splice) : (d.setSplice l x).qps = d.qps := rfl
@[simp] theorem Device.setSplice_ports (d : Device) (l : Nat) (x : Splice) : (d.setSplice l x).ports = d.ports := rfl
@[simp] theorem Device.setSplice_rkeyControl (d : Device) (l : Nat) (x : Splice) : (d.setSplice l x).rkeyControl = d.rkeyControl := rfl
@[simp] theorem Device.setSplice_rkeyMemory (d : Device) (l : Nat) (x : Splice) : (d.setSplice l x).rkeyMemory = d.rkeyMemory := rfl
@[simp] theorem Device.setSplice_devnum (d : Device) (l : Nat) (x : Splice) : (d.setSplice l x).devnum = d.devnum := rfl
@[simp] theorem Device.setSplice_devnumValid (d : Device) (l : Nat) (x : Splice) : (d.setSplice l x).devnumValid = d.devnumValid := rfl
@[simp] theorem Device.setSplice_out (d : Device) (l : Nat) (x : Splice) : (d.setSplice l x).out = d.out := rfl
@[simp] theorem Device.setSplice_free (d : Device) (l : Nat) (x : Splice) : (d.setSplice l x).free = d.free := rfl

/-! ### Device.setTable -/

@[simp] theorem Device.setTable_clk (d : Device) (t : Nat) (x : Table) : (d.setTable t x).clk = d.clk := rfl
@[simp] theorem Device.setTable_fls (d : Device) (t : Nat) (x : Table) : (d.setTable t x).fls = d.fls := rfl
@[simp] theorem Device.setTable_regs (d : Device) (t : Nat) (x : Table) : (d.setTable t x).regs = d.regs := rfl
@[simp] theorem Device.setTable_bound (d : Device) (t : Nat) (x : Table) : (d.setTable t x).bound = d.bound := rfl
@[simp] theorem Device.setTable_hbm (d : Device) (t : Nat) (x : Table) : (d.setTable t x).hbm = d.hbm := rfl
@[simp] theorem Device.setTable_loft (d : Device) (t : Nat) (x : Table) : (d.setTable t x).loft = d.loft := rfl
@[simp] theorem Device.setTable_loftBad (d : Device) (t : Nat) (x : Table) : (d.setTable t x).loftBad = d.loftBad := rfl
@[simp] theorem Device.setTable_patrol (d : Device) (t : Nat) (x : Table) : (d.setTable t x).patrol = d.patrol := rfl
@[simp] theorem Device.setTable_truss (d : Device) (t : Nat) (x : Table) : (d.setTable t x).truss = d.truss := rfl
@[simp] theorem Device.setTable_soffit (d : Device) (t : Nat) (x : Table) : (d.setTable t x).soffit = d.soffit := rfl
@[simp] theorem Device.setTable_rowReqs (d : Device) (t : Nat) (x : Table) : (d.setTable t x).rowReqs = d.rowReqs := rfl
@[simp] theorem Device.setTable_raf (d : Device) (t : Nat) (x : Table) : (d.setTable t x).raf = d.raf := rfl
@[simp] theorem Device.setTable_lth (d : Device) (t : Nat) (x : Table) : (d.setTable t x).lth = d.lth := rfl
@[simp] theorem Device.setTable_atn (d : Device) (t : Nat) (x : Table) : (d.setTable t x).atn = d.atn := rfl
@[simp] theorem Device.setTable_jobs (d : Device) (t : Nat) (x : Table) : (d.setTable t x).jobs = d.jobs := rfl
@[simp] theorem Device.setTable_nextJob (d : Device) (t : Nat) (x : Table) : (d.setTable t x).nextJob = d.nextJob := rfl
@[simp] theorem Device.setTable_nextReady (d : Device) (t : Nat) (x : Table) : (d.setTable t x).nextReady = d.nextReady := rfl
@[simp] theorem Device.setTable_entries (d : Device) (t : Nat) (x : Table) : (d.setTable t x).entries = d.entries := rfl
@[simp] theorem Device.setTable_nextEntry (d : Device) (t : Nat) (x : Table) : (d.setTable t x).nextEntry = d.nextEntry := rfl
@[simp] theorem Device.setTable_bufs (d : Device) (t : Nat) (x : Table) : (d.setTable t x).bufs = d.bufs := rfl
@[simp] theorem Device.setTable_nextBuf (d : Device) (t : Nat) (x : Table) : (d.setTable t x).nextBuf = d.nextBuf := rfl
@[simp] theorem Device.setTable_graphs (d : Device) (t : Nat) (x : Table) : (d.setTable t x).graphs = d.graphs := rfl
@[simp] theorem Device.setTable_fences (d : Device) (t : Nat) (x : Table) : (d.setTable t x).fences = d.fences := rfl
@[simp] theorem Device.setTable_gut (d : Device) (t : Nat) (x : Table) : (d.setTable t x).gut = d.gut := rfl
@[simp] theorem Device.setTable_eave (d : Device) (t : Nat) (x : Table) : (d.setTable t x).eave = d.eave := rfl
@[simp] theorem Device.setTable_ctxs (d : Device) (t : Nat) (x : Table) : (d.setTable t x).ctxs = d.ctxs := rfl
@[simp] theorem Device.setTable_xlt (d : Device) (t : Nat) (x : Table) : (d.setTable t x).xlt = d.xlt := rfl
@[simp] theorem Device.setTable_tables (d : Device) (t : Nat) (x : Table) : (d.setTable t x).tables = tset d.tables t x := rfl
@[simp] theorem Device.setTable_remotes (d : Device) (t : Nat) (x : Table) : (d.setTable t x).remotes = d.remotes := rfl
@[simp] theorem Device.setTable_serving (d : Device) (t : Nat) (x : Table) : (d.setTable t x).serving = d.serving := rfl
@[simp] theorem Device.setTable_nextTag (d : Device) (t : Nat) (x : Table) : (d.setTable t x).nextTag = d.nextTag := rfl
@[simp] theorem Device.setTable_flows (d : Device) (t : Nat) (x : Table) : (d.setTable t x).flows = d.flows := rfl
@[simp] theorem Device.setTable_heldLocal (d : Device) (t : Nat) (x : Table) : (d.setTable t x).heldLocal = d.heldLocal := rfl
@[simp] theorem Device.setTable_kvEdits (d : Device) (t : Nat) (x : Table) : (d.setTable t x).kvEdits = d.kvEdits := rfl
@[simp] theorem Device.setTable_seqs (d : Device) (t : Nat) (x : Table) : (d.setTable t x).seqs = d.seqs := rfl
@[simp] theorem Device.setTable_clients (d : Device) (t : Nat) (x : Table) : (d.setTable t x).clients = d.clients := rfl
@[simp] theorem Device.setTable_models (d : Device) (t : Nat) (x : Table) : (d.setTable t x).models = d.models := rfl
@[simp] theorem Device.setTable_lanes (d : Device) (t : Nat) (x : Table) : (d.setTable t x).lanes = d.lanes := rfl
@[simp] theorem Device.setTable_crsSnap (d : Device) (t : Nat) (x : Table) : (d.setTable t x).crsSnap = d.crsSnap := rfl
@[simp] theorem Device.setTable_tickets (d : Device) (t : Nat) (x : Table) : (d.setTable t x).tickets = d.tickets := rfl
@[simp] theorem Device.setTable_nextTicket (d : Device) (t : Nat) (x : Table) : (d.setTable t x).nextTicket = d.nextTicket := rfl
@[simp] theorem Device.setTable_links (d : Device) (t : Nat) (x : Table) : (d.setTable t x).links = d.links := rfl
@[simp] theorem Device.setTable_splices (d : Device) (t : Nat) (x : Table) : (d.setTable t x).splices = d.splices := rfl
@[simp] theorem Device.setTable_cols (d : Device) (t : Nat) (x : Table) : (d.setTable t x).cols = d.cols := rfl
@[simp] theorem Device.setTable_logSeq (d : Device) (t : Nat) (x : Table) : (d.setTable t x).logSeq = d.logSeq := rfl
@[simp] theorem Device.setTable_rate (d : Device) (t : Nat) (x : Table) : (d.setTable t x).rate = d.rate := rfl
@[simp] theorem Device.setTable_suspects (d : Device) (t : Nat) (x : Table) : (d.setTable t x).suspects = d.suspects := rfl
@[simp] theorem Device.setTable_colq (d : Device) (t : Nat) (x : Table) : (d.setTable t x).colq = d.colq := rfl
@[simp] theorem Device.setTable_regions (d : Device) (t : Nat) (x : Table) : (d.setTable t x).regions = d.regions := rfl
@[simp] theorem Device.setTable_tableBad (d : Device) (t : Nat) (x : Table) : (d.setTable t x).tableBad = d.tableBad := rfl
@[simp] theorem Device.setTable_regionsDue (d : Device) (t : Nat) (x : Table) : (d.setTable t x).regionsDue = d.regionsDue := rfl
@[simp] theorem Device.setTable_groups (d : Device) (t : Nat) (x : Table) : (d.setTable t x).groups = d.groups := rfl
@[simp] theorem Device.setTable_meter (d : Device) (t : Nat) (x : Table) : (d.setTable t x).meter = d.meter := rfl
@[simp] theorem Device.setTable_qps (d : Device) (t : Nat) (x : Table) : (d.setTable t x).qps = d.qps := rfl
@[simp] theorem Device.setTable_ports (d : Device) (t : Nat) (x : Table) : (d.setTable t x).ports = d.ports := rfl
@[simp] theorem Device.setTable_rkeyControl (d : Device) (t : Nat) (x : Table) : (d.setTable t x).rkeyControl = d.rkeyControl := rfl
@[simp] theorem Device.setTable_rkeyMemory (d : Device) (t : Nat) (x : Table) : (d.setTable t x).rkeyMemory = d.rkeyMemory := rfl
@[simp] theorem Device.setTable_devnum (d : Device) (t : Nat) (x : Table) : (d.setTable t x).devnum = d.devnum := rfl
@[simp] theorem Device.setTable_devnumValid (d : Device) (t : Nat) (x : Table) : (d.setTable t x).devnumValid = d.devnumValid := rfl
@[simp] theorem Device.setTable_out (d : Device) (t : Nat) (x : Table) : (d.setTable t x).out = d.out := rfl
@[simp] theorem Device.setTable_free (d : Device) (t : Nat) (x : Table) : (d.setTable t x).free = d.free := rfl

/-! ### Device.setSeq -/

@[simp] theorem Device.setSeq_clk (d : Device) (e : Nat) (x : SeqEntry) : (d.setSeq e x).clk = d.clk := rfl
@[simp] theorem Device.setSeq_fls (d : Device) (e : Nat) (x : SeqEntry) : (d.setSeq e x).fls = d.fls := rfl
@[simp] theorem Device.setSeq_regs (d : Device) (e : Nat) (x : SeqEntry) : (d.setSeq e x).regs = d.regs := rfl
@[simp] theorem Device.setSeq_bound (d : Device) (e : Nat) (x : SeqEntry) : (d.setSeq e x).bound = d.bound := rfl
@[simp] theorem Device.setSeq_hbm (d : Device) (e : Nat) (x : SeqEntry) : (d.setSeq e x).hbm = d.hbm := rfl
@[simp] theorem Device.setSeq_loft (d : Device) (e : Nat) (x : SeqEntry) : (d.setSeq e x).loft = d.loft := rfl
@[simp] theorem Device.setSeq_loftBad (d : Device) (e : Nat) (x : SeqEntry) : (d.setSeq e x).loftBad = d.loftBad := rfl
@[simp] theorem Device.setSeq_patrol (d : Device) (e : Nat) (x : SeqEntry) : (d.setSeq e x).patrol = d.patrol := rfl
@[simp] theorem Device.setSeq_truss (d : Device) (e : Nat) (x : SeqEntry) : (d.setSeq e x).truss = d.truss := rfl
@[simp] theorem Device.setSeq_soffit (d : Device) (e : Nat) (x : SeqEntry) : (d.setSeq e x).soffit = d.soffit := rfl
@[simp] theorem Device.setSeq_rowReqs (d : Device) (e : Nat) (x : SeqEntry) : (d.setSeq e x).rowReqs = d.rowReqs := rfl
@[simp] theorem Device.setSeq_raf (d : Device) (e : Nat) (x : SeqEntry) : (d.setSeq e x).raf = d.raf := rfl
@[simp] theorem Device.setSeq_lth (d : Device) (e : Nat) (x : SeqEntry) : (d.setSeq e x).lth = d.lth := rfl
@[simp] theorem Device.setSeq_atn (d : Device) (e : Nat) (x : SeqEntry) : (d.setSeq e x).atn = d.atn := rfl
@[simp] theorem Device.setSeq_jobs (d : Device) (e : Nat) (x : SeqEntry) : (d.setSeq e x).jobs = d.jobs := rfl
@[simp] theorem Device.setSeq_nextJob (d : Device) (e : Nat) (x : SeqEntry) : (d.setSeq e x).nextJob = d.nextJob := rfl
@[simp] theorem Device.setSeq_nextReady (d : Device) (e : Nat) (x : SeqEntry) : (d.setSeq e x).nextReady = d.nextReady := rfl
@[simp] theorem Device.setSeq_entries (d : Device) (e : Nat) (x : SeqEntry) : (d.setSeq e x).entries = d.entries := rfl
@[simp] theorem Device.setSeq_nextEntry (d : Device) (e : Nat) (x : SeqEntry) : (d.setSeq e x).nextEntry = d.nextEntry := rfl
@[simp] theorem Device.setSeq_bufs (d : Device) (e : Nat) (x : SeqEntry) : (d.setSeq e x).bufs = d.bufs := rfl
@[simp] theorem Device.setSeq_nextBuf (d : Device) (e : Nat) (x : SeqEntry) : (d.setSeq e x).nextBuf = d.nextBuf := rfl
@[simp] theorem Device.setSeq_graphs (d : Device) (e : Nat) (x : SeqEntry) : (d.setSeq e x).graphs = d.graphs := rfl
@[simp] theorem Device.setSeq_fences (d : Device) (e : Nat) (x : SeqEntry) : (d.setSeq e x).fences = d.fences := rfl
@[simp] theorem Device.setSeq_gut (d : Device) (e : Nat) (x : SeqEntry) : (d.setSeq e x).gut = d.gut := rfl
@[simp] theorem Device.setSeq_eave (d : Device) (e : Nat) (x : SeqEntry) : (d.setSeq e x).eave = d.eave := rfl
@[simp] theorem Device.setSeq_ctxs (d : Device) (e : Nat) (x : SeqEntry) : (d.setSeq e x).ctxs = d.ctxs := rfl
@[simp] theorem Device.setSeq_xlt (d : Device) (e : Nat) (x : SeqEntry) : (d.setSeq e x).xlt = d.xlt := rfl
@[simp] theorem Device.setSeq_tables (d : Device) (e : Nat) (x : SeqEntry) : (d.setSeq e x).tables = d.tables := rfl
@[simp] theorem Device.setSeq_remotes (d : Device) (e : Nat) (x : SeqEntry) : (d.setSeq e x).remotes = d.remotes := rfl
@[simp] theorem Device.setSeq_serving (d : Device) (e : Nat) (x : SeqEntry) : (d.setSeq e x).serving = d.serving := rfl
@[simp] theorem Device.setSeq_nextTag (d : Device) (e : Nat) (x : SeqEntry) : (d.setSeq e x).nextTag = d.nextTag := rfl
@[simp] theorem Device.setSeq_flows (d : Device) (e : Nat) (x : SeqEntry) : (d.setSeq e x).flows = d.flows := rfl
@[simp] theorem Device.setSeq_heldLocal (d : Device) (e : Nat) (x : SeqEntry) : (d.setSeq e x).heldLocal = d.heldLocal := rfl
@[simp] theorem Device.setSeq_kvEdits (d : Device) (e : Nat) (x : SeqEntry) : (d.setSeq e x).kvEdits = d.kvEdits := rfl
@[simp] theorem Device.setSeq_seqs (d : Device) (e : Nat) (x : SeqEntry) : (d.setSeq e x).seqs = tset d.seqs e x := rfl
@[simp] theorem Device.setSeq_clients (d : Device) (e : Nat) (x : SeqEntry) : (d.setSeq e x).clients = d.clients := rfl
@[simp] theorem Device.setSeq_models (d : Device) (e : Nat) (x : SeqEntry) : (d.setSeq e x).models = d.models := rfl
@[simp] theorem Device.setSeq_lanes (d : Device) (e : Nat) (x : SeqEntry) : (d.setSeq e x).lanes = d.lanes := rfl
@[simp] theorem Device.setSeq_crsSnap (d : Device) (e : Nat) (x : SeqEntry) : (d.setSeq e x).crsSnap = d.crsSnap := rfl
@[simp] theorem Device.setSeq_tickets (d : Device) (e : Nat) (x : SeqEntry) : (d.setSeq e x).tickets = d.tickets := rfl
@[simp] theorem Device.setSeq_nextTicket (d : Device) (e : Nat) (x : SeqEntry) : (d.setSeq e x).nextTicket = d.nextTicket := rfl
@[simp] theorem Device.setSeq_links (d : Device) (e : Nat) (x : SeqEntry) : (d.setSeq e x).links = d.links := rfl
@[simp] theorem Device.setSeq_splices (d : Device) (e : Nat) (x : SeqEntry) : (d.setSeq e x).splices = d.splices := rfl
@[simp] theorem Device.setSeq_cols (d : Device) (e : Nat) (x : SeqEntry) : (d.setSeq e x).cols = d.cols := rfl
@[simp] theorem Device.setSeq_logSeq (d : Device) (e : Nat) (x : SeqEntry) : (d.setSeq e x).logSeq = d.logSeq := rfl
@[simp] theorem Device.setSeq_rate (d : Device) (e : Nat) (x : SeqEntry) : (d.setSeq e x).rate = d.rate := rfl
@[simp] theorem Device.setSeq_suspects (d : Device) (e : Nat) (x : SeqEntry) : (d.setSeq e x).suspects = d.suspects := rfl
@[simp] theorem Device.setSeq_colq (d : Device) (e : Nat) (x : SeqEntry) : (d.setSeq e x).colq = d.colq := rfl
@[simp] theorem Device.setSeq_regions (d : Device) (e : Nat) (x : SeqEntry) : (d.setSeq e x).regions = d.regions := rfl
@[simp] theorem Device.setSeq_tableBad (d : Device) (e : Nat) (x : SeqEntry) : (d.setSeq e x).tableBad = d.tableBad := rfl
@[simp] theorem Device.setSeq_regionsDue (d : Device) (e : Nat) (x : SeqEntry) : (d.setSeq e x).regionsDue = d.regionsDue := rfl
@[simp] theorem Device.setSeq_groups (d : Device) (e : Nat) (x : SeqEntry) : (d.setSeq e x).groups = d.groups := rfl
@[simp] theorem Device.setSeq_meter (d : Device) (e : Nat) (x : SeqEntry) : (d.setSeq e x).meter = d.meter := rfl
@[simp] theorem Device.setSeq_qps (d : Device) (e : Nat) (x : SeqEntry) : (d.setSeq e x).qps = d.qps := rfl
@[simp] theorem Device.setSeq_ports (d : Device) (e : Nat) (x : SeqEntry) : (d.setSeq e x).ports = d.ports := rfl
@[simp] theorem Device.setSeq_rkeyControl (d : Device) (e : Nat) (x : SeqEntry) : (d.setSeq e x).rkeyControl = d.rkeyControl := rfl
@[simp] theorem Device.setSeq_rkeyMemory (d : Device) (e : Nat) (x : SeqEntry) : (d.setSeq e x).rkeyMemory = d.rkeyMemory := rfl
@[simp] theorem Device.setSeq_devnum (d : Device) (e : Nat) (x : SeqEntry) : (d.setSeq e x).devnum = d.devnum := rfl
@[simp] theorem Device.setSeq_devnumValid (d : Device) (e : Nat) (x : SeqEntry) : (d.setSeq e x).devnumValid = d.devnumValid := rfl
@[simp] theorem Device.setSeq_out (d : Device) (e : Nat) (x : SeqEntry) : (d.setSeq e x).out = d.out := rfl
@[simp] theorem Device.setSeq_free (d : Device) (e : Nat) (x : SeqEntry) : (d.setSeq e x).free = d.free := rfl

/-! ### Device.setLane -/

@[simp] theorem Device.setLane_clk (d : Device) (l : Nat) (x : LaneSt) : (d.setLane l x).clk = d.clk := rfl
@[simp] theorem Device.setLane_fls (d : Device) (l : Nat) (x : LaneSt) : (d.setLane l x).fls = d.fls := rfl
@[simp] theorem Device.setLane_regs (d : Device) (l : Nat) (x : LaneSt) : (d.setLane l x).regs = d.regs := rfl
@[simp] theorem Device.setLane_bound (d : Device) (l : Nat) (x : LaneSt) : (d.setLane l x).bound = d.bound := rfl
@[simp] theorem Device.setLane_hbm (d : Device) (l : Nat) (x : LaneSt) : (d.setLane l x).hbm = d.hbm := rfl
@[simp] theorem Device.setLane_loft (d : Device) (l : Nat) (x : LaneSt) : (d.setLane l x).loft = d.loft := rfl
@[simp] theorem Device.setLane_loftBad (d : Device) (l : Nat) (x : LaneSt) : (d.setLane l x).loftBad = d.loftBad := rfl
@[simp] theorem Device.setLane_patrol (d : Device) (l : Nat) (x : LaneSt) : (d.setLane l x).patrol = d.patrol := rfl
@[simp] theorem Device.setLane_truss (d : Device) (l : Nat) (x : LaneSt) : (d.setLane l x).truss = d.truss := rfl
@[simp] theorem Device.setLane_soffit (d : Device) (l : Nat) (x : LaneSt) : (d.setLane l x).soffit = d.soffit := rfl
@[simp] theorem Device.setLane_rowReqs (d : Device) (l : Nat) (x : LaneSt) : (d.setLane l x).rowReqs = d.rowReqs := rfl
@[simp] theorem Device.setLane_raf (d : Device) (l : Nat) (x : LaneSt) : (d.setLane l x).raf = d.raf := rfl
@[simp] theorem Device.setLane_lth (d : Device) (l : Nat) (x : LaneSt) : (d.setLane l x).lth = d.lth := rfl
@[simp] theorem Device.setLane_atn (d : Device) (l : Nat) (x : LaneSt) : (d.setLane l x).atn = d.atn := rfl
@[simp] theorem Device.setLane_jobs (d : Device) (l : Nat) (x : LaneSt) : (d.setLane l x).jobs = d.jobs := rfl
@[simp] theorem Device.setLane_nextJob (d : Device) (l : Nat) (x : LaneSt) : (d.setLane l x).nextJob = d.nextJob := rfl
@[simp] theorem Device.setLane_nextReady (d : Device) (l : Nat) (x : LaneSt) : (d.setLane l x).nextReady = d.nextReady := rfl
@[simp] theorem Device.setLane_entries (d : Device) (l : Nat) (x : LaneSt) : (d.setLane l x).entries = d.entries := rfl
@[simp] theorem Device.setLane_nextEntry (d : Device) (l : Nat) (x : LaneSt) : (d.setLane l x).nextEntry = d.nextEntry := rfl
@[simp] theorem Device.setLane_bufs (d : Device) (l : Nat) (x : LaneSt) : (d.setLane l x).bufs = d.bufs := rfl
@[simp] theorem Device.setLane_nextBuf (d : Device) (l : Nat) (x : LaneSt) : (d.setLane l x).nextBuf = d.nextBuf := rfl
@[simp] theorem Device.setLane_graphs (d : Device) (l : Nat) (x : LaneSt) : (d.setLane l x).graphs = d.graphs := rfl
@[simp] theorem Device.setLane_fences (d : Device) (l : Nat) (x : LaneSt) : (d.setLane l x).fences = d.fences := rfl
@[simp] theorem Device.setLane_gut (d : Device) (l : Nat) (x : LaneSt) : (d.setLane l x).gut = d.gut := rfl
@[simp] theorem Device.setLane_eave (d : Device) (l : Nat) (x : LaneSt) : (d.setLane l x).eave = d.eave := rfl
@[simp] theorem Device.setLane_ctxs (d : Device) (l : Nat) (x : LaneSt) : (d.setLane l x).ctxs = d.ctxs := rfl
@[simp] theorem Device.setLane_xlt (d : Device) (l : Nat) (x : LaneSt) : (d.setLane l x).xlt = d.xlt := rfl
@[simp] theorem Device.setLane_tables (d : Device) (l : Nat) (x : LaneSt) : (d.setLane l x).tables = d.tables := rfl
@[simp] theorem Device.setLane_remotes (d : Device) (l : Nat) (x : LaneSt) : (d.setLane l x).remotes = d.remotes := rfl
@[simp] theorem Device.setLane_serving (d : Device) (l : Nat) (x : LaneSt) : (d.setLane l x).serving = d.serving := rfl
@[simp] theorem Device.setLane_nextTag (d : Device) (l : Nat) (x : LaneSt) : (d.setLane l x).nextTag = d.nextTag := rfl
@[simp] theorem Device.setLane_flows (d : Device) (l : Nat) (x : LaneSt) : (d.setLane l x).flows = d.flows := rfl
@[simp] theorem Device.setLane_heldLocal (d : Device) (l : Nat) (x : LaneSt) : (d.setLane l x).heldLocal = d.heldLocal := rfl
@[simp] theorem Device.setLane_kvEdits (d : Device) (l : Nat) (x : LaneSt) : (d.setLane l x).kvEdits = d.kvEdits := rfl
@[simp] theorem Device.setLane_seqs (d : Device) (l : Nat) (x : LaneSt) : (d.setLane l x).seqs = d.seqs := rfl
@[simp] theorem Device.setLane_clients (d : Device) (l : Nat) (x : LaneSt) : (d.setLane l x).clients = d.clients := rfl
@[simp] theorem Device.setLane_models (d : Device) (l : Nat) (x : LaneSt) : (d.setLane l x).models = d.models := rfl
@[simp] theorem Device.setLane_lanes (d : Device) (l : Nat) (x : LaneSt) : (d.setLane l x).lanes = tset d.lanes l x := rfl
@[simp] theorem Device.setLane_crsSnap (d : Device) (l : Nat) (x : LaneSt) : (d.setLane l x).crsSnap = d.crsSnap := rfl
@[simp] theorem Device.setLane_tickets (d : Device) (l : Nat) (x : LaneSt) : (d.setLane l x).tickets = d.tickets := rfl
@[simp] theorem Device.setLane_nextTicket (d : Device) (l : Nat) (x : LaneSt) : (d.setLane l x).nextTicket = d.nextTicket := rfl
@[simp] theorem Device.setLane_links (d : Device) (l : Nat) (x : LaneSt) : (d.setLane l x).links = d.links := rfl
@[simp] theorem Device.setLane_splices (d : Device) (l : Nat) (x : LaneSt) : (d.setLane l x).splices = d.splices := rfl
@[simp] theorem Device.setLane_cols (d : Device) (l : Nat) (x : LaneSt) : (d.setLane l x).cols = d.cols := rfl
@[simp] theorem Device.setLane_logSeq (d : Device) (l : Nat) (x : LaneSt) : (d.setLane l x).logSeq = d.logSeq := rfl
@[simp] theorem Device.setLane_rate (d : Device) (l : Nat) (x : LaneSt) : (d.setLane l x).rate = d.rate := rfl
@[simp] theorem Device.setLane_suspects (d : Device) (l : Nat) (x : LaneSt) : (d.setLane l x).suspects = d.suspects := rfl
@[simp] theorem Device.setLane_colq (d : Device) (l : Nat) (x : LaneSt) : (d.setLane l x).colq = d.colq := rfl
@[simp] theorem Device.setLane_regions (d : Device) (l : Nat) (x : LaneSt) : (d.setLane l x).regions = d.regions := rfl
@[simp] theorem Device.setLane_tableBad (d : Device) (l : Nat) (x : LaneSt) : (d.setLane l x).tableBad = d.tableBad := rfl
@[simp] theorem Device.setLane_regionsDue (d : Device) (l : Nat) (x : LaneSt) : (d.setLane l x).regionsDue = d.regionsDue := rfl
@[simp] theorem Device.setLane_groups (d : Device) (l : Nat) (x : LaneSt) : (d.setLane l x).groups = d.groups := rfl
@[simp] theorem Device.setLane_meter (d : Device) (l : Nat) (x : LaneSt) : (d.setLane l x).meter = d.meter := rfl
@[simp] theorem Device.setLane_qps (d : Device) (l : Nat) (x : LaneSt) : (d.setLane l x).qps = d.qps := rfl
@[simp] theorem Device.setLane_ports (d : Device) (l : Nat) (x : LaneSt) : (d.setLane l x).ports = d.ports := rfl
@[simp] theorem Device.setLane_rkeyControl (d : Device) (l : Nat) (x : LaneSt) : (d.setLane l x).rkeyControl = d.rkeyControl := rfl
@[simp] theorem Device.setLane_rkeyMemory (d : Device) (l : Nat) (x : LaneSt) : (d.setLane l x).rkeyMemory = d.rkeyMemory := rfl
@[simp] theorem Device.setLane_devnum (d : Device) (l : Nat) (x : LaneSt) : (d.setLane l x).devnum = d.devnum := rfl
@[simp] theorem Device.setLane_devnumValid (d : Device) (l : Nat) (x : LaneSt) : (d.setLane l x).devnumValid = d.devnumValid := rfl
@[simp] theorem Device.setLane_out (d : Device) (l : Nat) (x : LaneSt) : (d.setLane l x).out = d.out := rfl
@[simp] theorem Device.setLane_free (d : Device) (l : Nat) (x : LaneSt) : (d.setLane l x).free = d.free := rfl

/-! ### Device.setColEng -/

@[simp] theorem Device.setColEng_clk (d : Device) (e : Nat) (x : ColEngine) : (d.setColEng e x).clk = d.clk := rfl
@[simp] theorem Device.setColEng_fls (d : Device) (e : Nat) (x : ColEngine) : (d.setColEng e x).fls = d.fls := rfl
@[simp] theorem Device.setColEng_regs (d : Device) (e : Nat) (x : ColEngine) : (d.setColEng e x).regs = d.regs := rfl
@[simp] theorem Device.setColEng_bound (d : Device) (e : Nat) (x : ColEngine) : (d.setColEng e x).bound = d.bound := rfl
@[simp] theorem Device.setColEng_hbm (d : Device) (e : Nat) (x : ColEngine) : (d.setColEng e x).hbm = d.hbm := rfl
@[simp] theorem Device.setColEng_loft (d : Device) (e : Nat) (x : ColEngine) : (d.setColEng e x).loft = d.loft := rfl
@[simp] theorem Device.setColEng_loftBad (d : Device) (e : Nat) (x : ColEngine) : (d.setColEng e x).loftBad = d.loftBad := rfl
@[simp] theorem Device.setColEng_patrol (d : Device) (e : Nat) (x : ColEngine) : (d.setColEng e x).patrol = d.patrol := rfl
@[simp] theorem Device.setColEng_truss (d : Device) (e : Nat) (x : ColEngine) : (d.setColEng e x).truss = d.truss := rfl
@[simp] theorem Device.setColEng_soffit (d : Device) (e : Nat) (x : ColEngine) : (d.setColEng e x).soffit = d.soffit := rfl
@[simp] theorem Device.setColEng_rowReqs (d : Device) (e : Nat) (x : ColEngine) : (d.setColEng e x).rowReqs = d.rowReqs := rfl
@[simp] theorem Device.setColEng_raf (d : Device) (e : Nat) (x : ColEngine) : (d.setColEng e x).raf = d.raf := rfl
@[simp] theorem Device.setColEng_lth (d : Device) (e : Nat) (x : ColEngine) : (d.setColEng e x).lth = d.lth := rfl
@[simp] theorem Device.setColEng_atn (d : Device) (e : Nat) (x : ColEngine) : (d.setColEng e x).atn = d.atn := rfl
@[simp] theorem Device.setColEng_jobs (d : Device) (e : Nat) (x : ColEngine) : (d.setColEng e x).jobs = d.jobs := rfl
@[simp] theorem Device.setColEng_nextJob (d : Device) (e : Nat) (x : ColEngine) : (d.setColEng e x).nextJob = d.nextJob := rfl
@[simp] theorem Device.setColEng_nextReady (d : Device) (e : Nat) (x : ColEngine) : (d.setColEng e x).nextReady = d.nextReady := rfl
@[simp] theorem Device.setColEng_entries (d : Device) (e : Nat) (x : ColEngine) : (d.setColEng e x).entries = d.entries := rfl
@[simp] theorem Device.setColEng_nextEntry (d : Device) (e : Nat) (x : ColEngine) : (d.setColEng e x).nextEntry = d.nextEntry := rfl
@[simp] theorem Device.setColEng_bufs (d : Device) (e : Nat) (x : ColEngine) : (d.setColEng e x).bufs = d.bufs := rfl
@[simp] theorem Device.setColEng_nextBuf (d : Device) (e : Nat) (x : ColEngine) : (d.setColEng e x).nextBuf = d.nextBuf := rfl
@[simp] theorem Device.setColEng_graphs (d : Device) (e : Nat) (x : ColEngine) : (d.setColEng e x).graphs = d.graphs := rfl
@[simp] theorem Device.setColEng_fences (d : Device) (e : Nat) (x : ColEngine) : (d.setColEng e x).fences = d.fences := rfl
@[simp] theorem Device.setColEng_gut (d : Device) (e : Nat) (x : ColEngine) : (d.setColEng e x).gut = d.gut := rfl
@[simp] theorem Device.setColEng_eave (d : Device) (e : Nat) (x : ColEngine) : (d.setColEng e x).eave = d.eave := rfl
@[simp] theorem Device.setColEng_ctxs (d : Device) (e : Nat) (x : ColEngine) : (d.setColEng e x).ctxs = d.ctxs := rfl
@[simp] theorem Device.setColEng_xlt (d : Device) (e : Nat) (x : ColEngine) : (d.setColEng e x).xlt = d.xlt := rfl
@[simp] theorem Device.setColEng_tables (d : Device) (e : Nat) (x : ColEngine) : (d.setColEng e x).tables = d.tables := rfl
@[simp] theorem Device.setColEng_remotes (d : Device) (e : Nat) (x : ColEngine) : (d.setColEng e x).remotes = d.remotes := rfl
@[simp] theorem Device.setColEng_serving (d : Device) (e : Nat) (x : ColEngine) : (d.setColEng e x).serving = d.serving := rfl
@[simp] theorem Device.setColEng_nextTag (d : Device) (e : Nat) (x : ColEngine) : (d.setColEng e x).nextTag = d.nextTag := rfl
@[simp] theorem Device.setColEng_flows (d : Device) (e : Nat) (x : ColEngine) : (d.setColEng e x).flows = d.flows := rfl
@[simp] theorem Device.setColEng_heldLocal (d : Device) (e : Nat) (x : ColEngine) : (d.setColEng e x).heldLocal = d.heldLocal := rfl
@[simp] theorem Device.setColEng_kvEdits (d : Device) (e : Nat) (x : ColEngine) : (d.setColEng e x).kvEdits = d.kvEdits := rfl
@[simp] theorem Device.setColEng_seqs (d : Device) (e : Nat) (x : ColEngine) : (d.setColEng e x).seqs = d.seqs := rfl
@[simp] theorem Device.setColEng_clients (d : Device) (e : Nat) (x : ColEngine) : (d.setColEng e x).clients = d.clients := rfl
@[simp] theorem Device.setColEng_models (d : Device) (e : Nat) (x : ColEngine) : (d.setColEng e x).models = d.models := rfl
@[simp] theorem Device.setColEng_lanes (d : Device) (e : Nat) (x : ColEngine) : (d.setColEng e x).lanes = d.lanes := rfl
@[simp] theorem Device.setColEng_crsSnap (d : Device) (e : Nat) (x : ColEngine) : (d.setColEng e x).crsSnap = d.crsSnap := rfl
@[simp] theorem Device.setColEng_tickets (d : Device) (e : Nat) (x : ColEngine) : (d.setColEng e x).tickets = d.tickets := rfl
@[simp] theorem Device.setColEng_nextTicket (d : Device) (e : Nat) (x : ColEngine) : (d.setColEng e x).nextTicket = d.nextTicket := rfl
@[simp] theorem Device.setColEng_links (d : Device) (e : Nat) (x : ColEngine) : (d.setColEng e x).links = d.links := rfl
@[simp] theorem Device.setColEng_splices (d : Device) (e : Nat) (x : ColEngine) : (d.setColEng e x).splices = d.splices := rfl
@[simp] theorem Device.setColEng_cols (d : Device) (e : Nat) (x : ColEngine) : (d.setColEng e x).cols = tset d.cols e x := rfl
@[simp] theorem Device.setColEng_logSeq (d : Device) (e : Nat) (x : ColEngine) : (d.setColEng e x).logSeq = d.logSeq := rfl
@[simp] theorem Device.setColEng_rate (d : Device) (e : Nat) (x : ColEngine) : (d.setColEng e x).rate = d.rate := rfl
@[simp] theorem Device.setColEng_suspects (d : Device) (e : Nat) (x : ColEngine) : (d.setColEng e x).suspects = d.suspects := rfl
@[simp] theorem Device.setColEng_colq (d : Device) (e : Nat) (x : ColEngine) : (d.setColEng e x).colq = d.colq := rfl
@[simp] theorem Device.setColEng_regions (d : Device) (e : Nat) (x : ColEngine) : (d.setColEng e x).regions = d.regions := rfl
@[simp] theorem Device.setColEng_tableBad (d : Device) (e : Nat) (x : ColEngine) : (d.setColEng e x).tableBad = d.tableBad := rfl
@[simp] theorem Device.setColEng_regionsDue (d : Device) (e : Nat) (x : ColEngine) : (d.setColEng e x).regionsDue = d.regionsDue := rfl
@[simp] theorem Device.setColEng_groups (d : Device) (e : Nat) (x : ColEngine) : (d.setColEng e x).groups = d.groups := rfl
@[simp] theorem Device.setColEng_meter (d : Device) (e : Nat) (x : ColEngine) : (d.setColEng e x).meter = d.meter := rfl
@[simp] theorem Device.setColEng_qps (d : Device) (e : Nat) (x : ColEngine) : (d.setColEng e x).qps = d.qps := rfl
@[simp] theorem Device.setColEng_ports (d : Device) (e : Nat) (x : ColEngine) : (d.setColEng e x).ports = d.ports := rfl
@[simp] theorem Device.setColEng_rkeyControl (d : Device) (e : Nat) (x : ColEngine) : (d.setColEng e x).rkeyControl = d.rkeyControl := rfl
@[simp] theorem Device.setColEng_rkeyMemory (d : Device) (e : Nat) (x : ColEngine) : (d.setColEng e x).rkeyMemory = d.rkeyMemory := rfl
@[simp] theorem Device.setColEng_devnum (d : Device) (e : Nat) (x : ColEngine) : (d.setColEng e x).devnum = d.devnum := rfl
@[simp] theorem Device.setColEng_devnumValid (d : Device) (e : Nat) (x : ColEngine) : (d.setColEng e x).devnumValid = d.devnumValid := rfl
@[simp] theorem Device.setColEng_out (d : Device) (e : Nat) (x : ColEngine) : (d.setColEng e x).out = d.out := rfl
@[simp] theorem Device.setColEng_free (d : Device) (e : Nat) (x : ColEngine) : (d.setColEng e x).free = d.free := rfl

/-! ### Device.setGroup -/

@[simp] theorem Device.setGroup_clk (d : Device) (g : Nat) (x : Group) : (d.setGroup g x).clk = d.clk := rfl
@[simp] theorem Device.setGroup_fls (d : Device) (g : Nat) (x : Group) : (d.setGroup g x).fls = d.fls := rfl
@[simp] theorem Device.setGroup_regs (d : Device) (g : Nat) (x : Group) : (d.setGroup g x).regs = d.regs := rfl
@[simp] theorem Device.setGroup_bound (d : Device) (g : Nat) (x : Group) : (d.setGroup g x).bound = d.bound := rfl
@[simp] theorem Device.setGroup_hbm (d : Device) (g : Nat) (x : Group) : (d.setGroup g x).hbm = d.hbm := rfl
@[simp] theorem Device.setGroup_loft (d : Device) (g : Nat) (x : Group) : (d.setGroup g x).loft = d.loft := rfl
@[simp] theorem Device.setGroup_loftBad (d : Device) (g : Nat) (x : Group) : (d.setGroup g x).loftBad = d.loftBad := rfl
@[simp] theorem Device.setGroup_patrol (d : Device) (g : Nat) (x : Group) : (d.setGroup g x).patrol = d.patrol := rfl
@[simp] theorem Device.setGroup_truss (d : Device) (g : Nat) (x : Group) : (d.setGroup g x).truss = d.truss := rfl
@[simp] theorem Device.setGroup_soffit (d : Device) (g : Nat) (x : Group) : (d.setGroup g x).soffit = d.soffit := rfl
@[simp] theorem Device.setGroup_rowReqs (d : Device) (g : Nat) (x : Group) : (d.setGroup g x).rowReqs = d.rowReqs := rfl
@[simp] theorem Device.setGroup_raf (d : Device) (g : Nat) (x : Group) : (d.setGroup g x).raf = d.raf := rfl
@[simp] theorem Device.setGroup_lth (d : Device) (g : Nat) (x : Group) : (d.setGroup g x).lth = d.lth := rfl
@[simp] theorem Device.setGroup_atn (d : Device) (g : Nat) (x : Group) : (d.setGroup g x).atn = d.atn := rfl
@[simp] theorem Device.setGroup_jobs (d : Device) (g : Nat) (x : Group) : (d.setGroup g x).jobs = d.jobs := rfl
@[simp] theorem Device.setGroup_nextJob (d : Device) (g : Nat) (x : Group) : (d.setGroup g x).nextJob = d.nextJob := rfl
@[simp] theorem Device.setGroup_nextReady (d : Device) (g : Nat) (x : Group) : (d.setGroup g x).nextReady = d.nextReady := rfl
@[simp] theorem Device.setGroup_entries (d : Device) (g : Nat) (x : Group) : (d.setGroup g x).entries = d.entries := rfl
@[simp] theorem Device.setGroup_nextEntry (d : Device) (g : Nat) (x : Group) : (d.setGroup g x).nextEntry = d.nextEntry := rfl
@[simp] theorem Device.setGroup_bufs (d : Device) (g : Nat) (x : Group) : (d.setGroup g x).bufs = d.bufs := rfl
@[simp] theorem Device.setGroup_nextBuf (d : Device) (g : Nat) (x : Group) : (d.setGroup g x).nextBuf = d.nextBuf := rfl
@[simp] theorem Device.setGroup_graphs (d : Device) (g : Nat) (x : Group) : (d.setGroup g x).graphs = d.graphs := rfl
@[simp] theorem Device.setGroup_fences (d : Device) (g : Nat) (x : Group) : (d.setGroup g x).fences = d.fences := rfl
@[simp] theorem Device.setGroup_gut (d : Device) (g : Nat) (x : Group) : (d.setGroup g x).gut = d.gut := rfl
@[simp] theorem Device.setGroup_eave (d : Device) (g : Nat) (x : Group) : (d.setGroup g x).eave = d.eave := rfl
@[simp] theorem Device.setGroup_ctxs (d : Device) (g : Nat) (x : Group) : (d.setGroup g x).ctxs = d.ctxs := rfl
@[simp] theorem Device.setGroup_xlt (d : Device) (g : Nat) (x : Group) : (d.setGroup g x).xlt = d.xlt := rfl
@[simp] theorem Device.setGroup_tables (d : Device) (g : Nat) (x : Group) : (d.setGroup g x).tables = d.tables := rfl
@[simp] theorem Device.setGroup_remotes (d : Device) (g : Nat) (x : Group) : (d.setGroup g x).remotes = d.remotes := rfl
@[simp] theorem Device.setGroup_serving (d : Device) (g : Nat) (x : Group) : (d.setGroup g x).serving = d.serving := rfl
@[simp] theorem Device.setGroup_nextTag (d : Device) (g : Nat) (x : Group) : (d.setGroup g x).nextTag = d.nextTag := rfl
@[simp] theorem Device.setGroup_flows (d : Device) (g : Nat) (x : Group) : (d.setGroup g x).flows = d.flows := rfl
@[simp] theorem Device.setGroup_heldLocal (d : Device) (g : Nat) (x : Group) : (d.setGroup g x).heldLocal = d.heldLocal := rfl
@[simp] theorem Device.setGroup_kvEdits (d : Device) (g : Nat) (x : Group) : (d.setGroup g x).kvEdits = d.kvEdits := rfl
@[simp] theorem Device.setGroup_seqs (d : Device) (g : Nat) (x : Group) : (d.setGroup g x).seqs = d.seqs := rfl
@[simp] theorem Device.setGroup_clients (d : Device) (g : Nat) (x : Group) : (d.setGroup g x).clients = d.clients := rfl
@[simp] theorem Device.setGroup_models (d : Device) (g : Nat) (x : Group) : (d.setGroup g x).models = d.models := rfl
@[simp] theorem Device.setGroup_lanes (d : Device) (g : Nat) (x : Group) : (d.setGroup g x).lanes = d.lanes := rfl
@[simp] theorem Device.setGroup_crsSnap (d : Device) (g : Nat) (x : Group) : (d.setGroup g x).crsSnap = d.crsSnap := rfl
@[simp] theorem Device.setGroup_tickets (d : Device) (g : Nat) (x : Group) : (d.setGroup g x).tickets = d.tickets := rfl
@[simp] theorem Device.setGroup_nextTicket (d : Device) (g : Nat) (x : Group) : (d.setGroup g x).nextTicket = d.nextTicket := rfl
@[simp] theorem Device.setGroup_links (d : Device) (g : Nat) (x : Group) : (d.setGroup g x).links = d.links := rfl
@[simp] theorem Device.setGroup_splices (d : Device) (g : Nat) (x : Group) : (d.setGroup g x).splices = d.splices := rfl
@[simp] theorem Device.setGroup_cols (d : Device) (g : Nat) (x : Group) : (d.setGroup g x).cols = d.cols := rfl
@[simp] theorem Device.setGroup_logSeq (d : Device) (g : Nat) (x : Group) : (d.setGroup g x).logSeq = d.logSeq := rfl
@[simp] theorem Device.setGroup_rate (d : Device) (g : Nat) (x : Group) : (d.setGroup g x).rate = d.rate := rfl
@[simp] theorem Device.setGroup_suspects (d : Device) (g : Nat) (x : Group) : (d.setGroup g x).suspects = d.suspects := rfl
@[simp] theorem Device.setGroup_colq (d : Device) (g : Nat) (x : Group) : (d.setGroup g x).colq = d.colq := rfl
@[simp] theorem Device.setGroup_regions (d : Device) (g : Nat) (x : Group) : (d.setGroup g x).regions = d.regions := rfl
@[simp] theorem Device.setGroup_tableBad (d : Device) (g : Nat) (x : Group) : (d.setGroup g x).tableBad = d.tableBad := rfl
@[simp] theorem Device.setGroup_regionsDue (d : Device) (g : Nat) (x : Group) : (d.setGroup g x).regionsDue = d.regionsDue := rfl
@[simp] theorem Device.setGroup_groups (d : Device) (g : Nat) (x : Group) : (d.setGroup g x).groups = tset d.groups g x := rfl
@[simp] theorem Device.setGroup_meter (d : Device) (g : Nat) (x : Group) : (d.setGroup g x).meter = d.meter := rfl
@[simp] theorem Device.setGroup_qps (d : Device) (g : Nat) (x : Group) : (d.setGroup g x).qps = d.qps := rfl
@[simp] theorem Device.setGroup_ports (d : Device) (g : Nat) (x : Group) : (d.setGroup g x).ports = d.ports := rfl
@[simp] theorem Device.setGroup_rkeyControl (d : Device) (g : Nat) (x : Group) : (d.setGroup g x).rkeyControl = d.rkeyControl := rfl
@[simp] theorem Device.setGroup_rkeyMemory (d : Device) (g : Nat) (x : Group) : (d.setGroup g x).rkeyMemory = d.rkeyMemory := rfl
@[simp] theorem Device.setGroup_devnum (d : Device) (g : Nat) (x : Group) : (d.setGroup g x).devnum = d.devnum := rfl
@[simp] theorem Device.setGroup_devnumValid (d : Device) (g : Nat) (x : Group) : (d.setGroup g x).devnumValid = d.devnumValid := rfl
@[simp] theorem Device.setGroup_out (d : Device) (g : Nat) (x : Group) : (d.setGroup g x).out = d.out := rfl
@[simp] theorem Device.setGroup_free (d : Device) (g : Nat) (x : Group) : (d.setGroup g x).free = d.free := rfl

/-! ### Device.setSusp -/

@[simp] theorem Device.setSusp_clk (d : Device) (t : Nat) (x : Suspect) : (d.setSusp t x).clk = d.clk := rfl
@[simp] theorem Device.setSusp_fls (d : Device) (t : Nat) (x : Suspect) : (d.setSusp t x).fls = d.fls := rfl
@[simp] theorem Device.setSusp_regs (d : Device) (t : Nat) (x : Suspect) : (d.setSusp t x).regs = d.regs := rfl
@[simp] theorem Device.setSusp_bound (d : Device) (t : Nat) (x : Suspect) : (d.setSusp t x).bound = d.bound := rfl
@[simp] theorem Device.setSusp_hbm (d : Device) (t : Nat) (x : Suspect) : (d.setSusp t x).hbm = d.hbm := rfl
@[simp] theorem Device.setSusp_loft (d : Device) (t : Nat) (x : Suspect) : (d.setSusp t x).loft = d.loft := rfl
@[simp] theorem Device.setSusp_loftBad (d : Device) (t : Nat) (x : Suspect) : (d.setSusp t x).loftBad = d.loftBad := rfl
@[simp] theorem Device.setSusp_patrol (d : Device) (t : Nat) (x : Suspect) : (d.setSusp t x).patrol = d.patrol := rfl
@[simp] theorem Device.setSusp_truss (d : Device) (t : Nat) (x : Suspect) : (d.setSusp t x).truss = d.truss := rfl
@[simp] theorem Device.setSusp_soffit (d : Device) (t : Nat) (x : Suspect) : (d.setSusp t x).soffit = d.soffit := rfl
@[simp] theorem Device.setSusp_rowReqs (d : Device) (t : Nat) (x : Suspect) : (d.setSusp t x).rowReqs = d.rowReqs := rfl
@[simp] theorem Device.setSusp_raf (d : Device) (t : Nat) (x : Suspect) : (d.setSusp t x).raf = d.raf := rfl
@[simp] theorem Device.setSusp_lth (d : Device) (t : Nat) (x : Suspect) : (d.setSusp t x).lth = d.lth := rfl
@[simp] theorem Device.setSusp_atn (d : Device) (t : Nat) (x : Suspect) : (d.setSusp t x).atn = d.atn := rfl
@[simp] theorem Device.setSusp_jobs (d : Device) (t : Nat) (x : Suspect) : (d.setSusp t x).jobs = d.jobs := rfl
@[simp] theorem Device.setSusp_nextJob (d : Device) (t : Nat) (x : Suspect) : (d.setSusp t x).nextJob = d.nextJob := rfl
@[simp] theorem Device.setSusp_nextReady (d : Device) (t : Nat) (x : Suspect) : (d.setSusp t x).nextReady = d.nextReady := rfl
@[simp] theorem Device.setSusp_entries (d : Device) (t : Nat) (x : Suspect) : (d.setSusp t x).entries = d.entries := rfl
@[simp] theorem Device.setSusp_nextEntry (d : Device) (t : Nat) (x : Suspect) : (d.setSusp t x).nextEntry = d.nextEntry := rfl
@[simp] theorem Device.setSusp_bufs (d : Device) (t : Nat) (x : Suspect) : (d.setSusp t x).bufs = d.bufs := rfl
@[simp] theorem Device.setSusp_nextBuf (d : Device) (t : Nat) (x : Suspect) : (d.setSusp t x).nextBuf = d.nextBuf := rfl
@[simp] theorem Device.setSusp_graphs (d : Device) (t : Nat) (x : Suspect) : (d.setSusp t x).graphs = d.graphs := rfl
@[simp] theorem Device.setSusp_fences (d : Device) (t : Nat) (x : Suspect) : (d.setSusp t x).fences = d.fences := rfl
@[simp] theorem Device.setSusp_gut (d : Device) (t : Nat) (x : Suspect) : (d.setSusp t x).gut = d.gut := rfl
@[simp] theorem Device.setSusp_eave (d : Device) (t : Nat) (x : Suspect) : (d.setSusp t x).eave = d.eave := rfl
@[simp] theorem Device.setSusp_ctxs (d : Device) (t : Nat) (x : Suspect) : (d.setSusp t x).ctxs = d.ctxs := rfl
@[simp] theorem Device.setSusp_xlt (d : Device) (t : Nat) (x : Suspect) : (d.setSusp t x).xlt = d.xlt := rfl
@[simp] theorem Device.setSusp_tables (d : Device) (t : Nat) (x : Suspect) : (d.setSusp t x).tables = d.tables := rfl
@[simp] theorem Device.setSusp_remotes (d : Device) (t : Nat) (x : Suspect) : (d.setSusp t x).remotes = d.remotes := rfl
@[simp] theorem Device.setSusp_serving (d : Device) (t : Nat) (x : Suspect) : (d.setSusp t x).serving = d.serving := rfl
@[simp] theorem Device.setSusp_nextTag (d : Device) (t : Nat) (x : Suspect) : (d.setSusp t x).nextTag = d.nextTag := rfl
@[simp] theorem Device.setSusp_flows (d : Device) (t : Nat) (x : Suspect) : (d.setSusp t x).flows = d.flows := rfl
@[simp] theorem Device.setSusp_heldLocal (d : Device) (t : Nat) (x : Suspect) : (d.setSusp t x).heldLocal = d.heldLocal := rfl
@[simp] theorem Device.setSusp_kvEdits (d : Device) (t : Nat) (x : Suspect) : (d.setSusp t x).kvEdits = d.kvEdits := rfl
@[simp] theorem Device.setSusp_seqs (d : Device) (t : Nat) (x : Suspect) : (d.setSusp t x).seqs = d.seqs := rfl
@[simp] theorem Device.setSusp_clients (d : Device) (t : Nat) (x : Suspect) : (d.setSusp t x).clients = d.clients := rfl
@[simp] theorem Device.setSusp_models (d : Device) (t : Nat) (x : Suspect) : (d.setSusp t x).models = d.models := rfl
@[simp] theorem Device.setSusp_lanes (d : Device) (t : Nat) (x : Suspect) : (d.setSusp t x).lanes = d.lanes := rfl
@[simp] theorem Device.setSusp_crsSnap (d : Device) (t : Nat) (x : Suspect) : (d.setSusp t x).crsSnap = d.crsSnap := rfl
@[simp] theorem Device.setSusp_tickets (d : Device) (t : Nat) (x : Suspect) : (d.setSusp t x).tickets = d.tickets := rfl
@[simp] theorem Device.setSusp_nextTicket (d : Device) (t : Nat) (x : Suspect) : (d.setSusp t x).nextTicket = d.nextTicket := rfl
@[simp] theorem Device.setSusp_links (d : Device) (t : Nat) (x : Suspect) : (d.setSusp t x).links = d.links := rfl
@[simp] theorem Device.setSusp_splices (d : Device) (t : Nat) (x : Suspect) : (d.setSusp t x).splices = d.splices := rfl
@[simp] theorem Device.setSusp_cols (d : Device) (t : Nat) (x : Suspect) : (d.setSusp t x).cols = d.cols := rfl
@[simp] theorem Device.setSusp_logSeq (d : Device) (t : Nat) (x : Suspect) : (d.setSusp t x).logSeq = d.logSeq := rfl
@[simp] theorem Device.setSusp_rate (d : Device) (t : Nat) (x : Suspect) : (d.setSusp t x).rate = d.rate := rfl
@[simp] theorem Device.setSusp_suspects (d : Device) (t : Nat) (x : Suspect) : (d.setSusp t x).suspects = tset d.suspects t x := rfl
@[simp] theorem Device.setSusp_colq (d : Device) (t : Nat) (x : Suspect) : (d.setSusp t x).colq = d.colq := rfl
@[simp] theorem Device.setSusp_regions (d : Device) (t : Nat) (x : Suspect) : (d.setSusp t x).regions = d.regions := rfl
@[simp] theorem Device.setSusp_tableBad (d : Device) (t : Nat) (x : Suspect) : (d.setSusp t x).tableBad = d.tableBad := rfl
@[simp] theorem Device.setSusp_regionsDue (d : Device) (t : Nat) (x : Suspect) : (d.setSusp t x).regionsDue = d.regionsDue := rfl
@[simp] theorem Device.setSusp_groups (d : Device) (t : Nat) (x : Suspect) : (d.setSusp t x).groups = d.groups := rfl
@[simp] theorem Device.setSusp_meter (d : Device) (t : Nat) (x : Suspect) : (d.setSusp t x).meter = d.meter := rfl
@[simp] theorem Device.setSusp_qps (d : Device) (t : Nat) (x : Suspect) : (d.setSusp t x).qps = d.qps := rfl
@[simp] theorem Device.setSusp_ports (d : Device) (t : Nat) (x : Suspect) : (d.setSusp t x).ports = d.ports := rfl
@[simp] theorem Device.setSusp_rkeyControl (d : Device) (t : Nat) (x : Suspect) : (d.setSusp t x).rkeyControl = d.rkeyControl := rfl
@[simp] theorem Device.setSusp_rkeyMemory (d : Device) (t : Nat) (x : Suspect) : (d.setSusp t x).rkeyMemory = d.rkeyMemory := rfl
@[simp] theorem Device.setSusp_devnum (d : Device) (t : Nat) (x : Suspect) : (d.setSusp t x).devnum = d.devnum := rfl
@[simp] theorem Device.setSusp_devnumValid (d : Device) (t : Nat) (x : Suspect) : (d.setSusp t x).devnumValid = d.devnumValid := rfl
@[simp] theorem Device.setSusp_out (d : Device) (t : Nat) (x : Suspect) : (d.setSusp t x).out = d.out := rfl
@[simp] theorem Device.setSusp_free (d : Device) (t : Nat) (x : Suspect) : (d.setSusp t x).free = d.free := rfl

/-! ### Device.mapJob -/

@[simp] theorem Device.mapJob_clk (d : Device) (n : Nat) (f : Job → Job) : (d.mapJob n f).clk = d.clk := rfl
@[simp] theorem Device.mapJob_fls (d : Device) (n : Nat) (f : Job → Job) : (d.mapJob n f).fls = d.fls := rfl
@[simp] theorem Device.mapJob_regs (d : Device) (n : Nat) (f : Job → Job) : (d.mapJob n f).regs = d.regs := rfl
@[simp] theorem Device.mapJob_bound (d : Device) (n : Nat) (f : Job → Job) : (d.mapJob n f).bound = d.bound := rfl
@[simp] theorem Device.mapJob_hbm (d : Device) (n : Nat) (f : Job → Job) : (d.mapJob n f).hbm = d.hbm := rfl
@[simp] theorem Device.mapJob_loft (d : Device) (n : Nat) (f : Job → Job) : (d.mapJob n f).loft = d.loft := rfl
@[simp] theorem Device.mapJob_loftBad (d : Device) (n : Nat) (f : Job → Job) : (d.mapJob n f).loftBad = d.loftBad := rfl
@[simp] theorem Device.mapJob_patrol (d : Device) (n : Nat) (f : Job → Job) : (d.mapJob n f).patrol = d.patrol := rfl
@[simp] theorem Device.mapJob_truss (d : Device) (n : Nat) (f : Job → Job) : (d.mapJob n f).truss = d.truss := rfl
@[simp] theorem Device.mapJob_soffit (d : Device) (n : Nat) (f : Job → Job) : (d.mapJob n f).soffit = d.soffit := rfl
@[simp] theorem Device.mapJob_rowReqs (d : Device) (n : Nat) (f : Job → Job) : (d.mapJob n f).rowReqs = d.rowReqs := rfl
@[simp] theorem Device.mapJob_raf (d : Device) (n : Nat) (f : Job → Job) : (d.mapJob n f).raf = d.raf := rfl
@[simp] theorem Device.mapJob_lth (d : Device) (n : Nat) (f : Job → Job) : (d.mapJob n f).lth = d.lth := rfl
@[simp] theorem Device.mapJob_atn (d : Device) (n : Nat) (f : Job → Job) : (d.mapJob n f).atn = d.atn := rfl
@[simp] theorem Device.mapJob_jobs (d : Device) (n : Nat) (f : Job → Job) : (d.mapJob n f).jobs = d.jobs.map (fun j => if j.id = n then f j else j) := rfl
@[simp] theorem Device.mapJob_nextJob (d : Device) (n : Nat) (f : Job → Job) : (d.mapJob n f).nextJob = d.nextJob := rfl
@[simp] theorem Device.mapJob_nextReady (d : Device) (n : Nat) (f : Job → Job) : (d.mapJob n f).nextReady = d.nextReady := rfl
@[simp] theorem Device.mapJob_entries (d : Device) (n : Nat) (f : Job → Job) : (d.mapJob n f).entries = d.entries := rfl
@[simp] theorem Device.mapJob_nextEntry (d : Device) (n : Nat) (f : Job → Job) : (d.mapJob n f).nextEntry = d.nextEntry := rfl
@[simp] theorem Device.mapJob_bufs (d : Device) (n : Nat) (f : Job → Job) : (d.mapJob n f).bufs = d.bufs := rfl
@[simp] theorem Device.mapJob_nextBuf (d : Device) (n : Nat) (f : Job → Job) : (d.mapJob n f).nextBuf = d.nextBuf := rfl
@[simp] theorem Device.mapJob_graphs (d : Device) (n : Nat) (f : Job → Job) : (d.mapJob n f).graphs = d.graphs := rfl
@[simp] theorem Device.mapJob_fences (d : Device) (n : Nat) (f : Job → Job) : (d.mapJob n f).fences = d.fences := rfl
@[simp] theorem Device.mapJob_gut (d : Device) (n : Nat) (f : Job → Job) : (d.mapJob n f).gut = d.gut := rfl
@[simp] theorem Device.mapJob_eave (d : Device) (n : Nat) (f : Job → Job) : (d.mapJob n f).eave = d.eave := rfl
@[simp] theorem Device.mapJob_ctxs (d : Device) (n : Nat) (f : Job → Job) : (d.mapJob n f).ctxs = d.ctxs := rfl
@[simp] theorem Device.mapJob_xlt (d : Device) (n : Nat) (f : Job → Job) : (d.mapJob n f).xlt = d.xlt := rfl
@[simp] theorem Device.mapJob_tables (d : Device) (n : Nat) (f : Job → Job) : (d.mapJob n f).tables = d.tables := rfl
@[simp] theorem Device.mapJob_remotes (d : Device) (n : Nat) (f : Job → Job) : (d.mapJob n f).remotes = d.remotes := rfl
@[simp] theorem Device.mapJob_serving (d : Device) (n : Nat) (f : Job → Job) : (d.mapJob n f).serving = d.serving := rfl
@[simp] theorem Device.mapJob_nextTag (d : Device) (n : Nat) (f : Job → Job) : (d.mapJob n f).nextTag = d.nextTag := rfl
@[simp] theorem Device.mapJob_flows (d : Device) (n : Nat) (f : Job → Job) : (d.mapJob n f).flows = d.flows := rfl
@[simp] theorem Device.mapJob_heldLocal (d : Device) (n : Nat) (f : Job → Job) : (d.mapJob n f).heldLocal = d.heldLocal := rfl
@[simp] theorem Device.mapJob_kvEdits (d : Device) (n : Nat) (f : Job → Job) : (d.mapJob n f).kvEdits = d.kvEdits := rfl
@[simp] theorem Device.mapJob_seqs (d : Device) (n : Nat) (f : Job → Job) : (d.mapJob n f).seqs = d.seqs := rfl
@[simp] theorem Device.mapJob_clients (d : Device) (n : Nat) (f : Job → Job) : (d.mapJob n f).clients = d.clients := rfl
@[simp] theorem Device.mapJob_models (d : Device) (n : Nat) (f : Job → Job) : (d.mapJob n f).models = d.models := rfl
@[simp] theorem Device.mapJob_lanes (d : Device) (n : Nat) (f : Job → Job) : (d.mapJob n f).lanes = d.lanes := rfl
@[simp] theorem Device.mapJob_crsSnap (d : Device) (n : Nat) (f : Job → Job) : (d.mapJob n f).crsSnap = d.crsSnap := rfl
@[simp] theorem Device.mapJob_tickets (d : Device) (n : Nat) (f : Job → Job) : (d.mapJob n f).tickets = d.tickets := rfl
@[simp] theorem Device.mapJob_nextTicket (d : Device) (n : Nat) (f : Job → Job) : (d.mapJob n f).nextTicket = d.nextTicket := rfl
@[simp] theorem Device.mapJob_links (d : Device) (n : Nat) (f : Job → Job) : (d.mapJob n f).links = d.links := rfl
@[simp] theorem Device.mapJob_splices (d : Device) (n : Nat) (f : Job → Job) : (d.mapJob n f).splices = d.splices := rfl
@[simp] theorem Device.mapJob_cols (d : Device) (n : Nat) (f : Job → Job) : (d.mapJob n f).cols = d.cols := rfl
@[simp] theorem Device.mapJob_logSeq (d : Device) (n : Nat) (f : Job → Job) : (d.mapJob n f).logSeq = d.logSeq := rfl
@[simp] theorem Device.mapJob_rate (d : Device) (n : Nat) (f : Job → Job) : (d.mapJob n f).rate = d.rate := rfl
@[simp] theorem Device.mapJob_suspects (d : Device) (n : Nat) (f : Job → Job) : (d.mapJob n f).suspects = d.suspects := rfl
@[simp] theorem Device.mapJob_colq (d : Device) (n : Nat) (f : Job → Job) : (d.mapJob n f).colq = d.colq := rfl
@[simp] theorem Device.mapJob_regions (d : Device) (n : Nat) (f : Job → Job) : (d.mapJob n f).regions = d.regions := rfl
@[simp] theorem Device.mapJob_tableBad (d : Device) (n : Nat) (f : Job → Job) : (d.mapJob n f).tableBad = d.tableBad := rfl
@[simp] theorem Device.mapJob_regionsDue (d : Device) (n : Nat) (f : Job → Job) : (d.mapJob n f).regionsDue = d.regionsDue := rfl
@[simp] theorem Device.mapJob_groups (d : Device) (n : Nat) (f : Job → Job) : (d.mapJob n f).groups = d.groups := rfl
@[simp] theorem Device.mapJob_meter (d : Device) (n : Nat) (f : Job → Job) : (d.mapJob n f).meter = d.meter := rfl
@[simp] theorem Device.mapJob_qps (d : Device) (n : Nat) (f : Job → Job) : (d.mapJob n f).qps = d.qps := rfl
@[simp] theorem Device.mapJob_ports (d : Device) (n : Nat) (f : Job → Job) : (d.mapJob n f).ports = d.ports := rfl
@[simp] theorem Device.mapJob_rkeyControl (d : Device) (n : Nat) (f : Job → Job) : (d.mapJob n f).rkeyControl = d.rkeyControl := rfl
@[simp] theorem Device.mapJob_rkeyMemory (d : Device) (n : Nat) (f : Job → Job) : (d.mapJob n f).rkeyMemory = d.rkeyMemory := rfl
@[simp] theorem Device.mapJob_devnum (d : Device) (n : Nat) (f : Job → Job) : (d.mapJob n f).devnum = d.devnum := rfl
@[simp] theorem Device.mapJob_devnumValid (d : Device) (n : Nat) (f : Job → Job) : (d.mapJob n f).devnumValid = d.devnumValid := rfl
@[simp] theorem Device.mapJob_out (d : Device) (n : Nat) (f : Job → Job) : (d.mapJob n f).out = d.out := rfl
@[simp] theorem Device.mapJob_free (d : Device) (n : Nat) (f : Job → Job) : (d.mapJob n f).free = d.free := rfl

/-! ### The state around the device -/

@[simp] theorem State.after_pending (s : State) (d : Device) : (s.after d).pending = s.pending := rfl
@[simp] theorem State.after_dev (s : State) (d : Device) : (s.after d).dev = settle d := rfl

end Sys2Proof.Machine
end

