-- ==== Sys2Proof/Machine/Lands.lean ====
section
/-! DEFINITION. The land map of the package (R465, R466): the net that each of the 10,816 lands carries. -/
namespace Sys2Proof.Machine

/-- What a land carries. A leg is one of a differential pair: `n` is true for N. -/
inductive Net where
  | gnd
  | vlink
  | vloft
  | vaux18
  | vcore (q : Nat)
  | vhbm (q : Nat)
  | vhbmq (q : Nat)
  | linkLane (l j : Nat) (receive n : Bool)
  | ethLane (p j : Nat) (receive n : Bool)
  | coreRefclk (n : Bool)
  | netRefclk (n : Bool)
  | linkRefclk (tile : Nat) (n : Bool)
  | resetL
  | pwrgd
  | thermtripL
  | avsClk
  | avsMdata
  | avsSdata
  | vsense (q : Nat) (n : Bool)
  | reserved
  deriving DecidableEq, Repr

/-- Lands by which a land lies from the nearest edge. -/
def landDist (row col : Nat) : Nat := min (min (row - 1) (104 - row)) (min (col - 1) (104 - col))

/-- The exceptions of Table 16-6. -/
def landException (row col : Nat) : Option Net :=
  match row, col with
  | 9, 80 => some (.coreRefclk false)
  | 9, 81 => some (.coreRefclk true)
  | 9, 84 => some (.netRefclk false)
  | 9, 85 => some (.netRefclk true)
  | 96, 20 => some (.linkRefclk 0 false)
  | 96, 21 => some (.linkRefclk 0 true)
  | 96, 84 => some (.linkRefclk 1 false)
  | 96, 85 => some (.linkRefclk 1 true)
  | 9, 88 => some .resetL
  | 9, 89 => some .pwrgd
  | 9, 90 => some .thermtripL
  | 9, 92 => some .avsClk
  | 9, 93 => some .avsMdata
  | 9, 94 => some .avsSdata
  | 30, 9 => some (.vsense 0 false)
  | 30, 10 => some (.vsense 0 true)
  | 30, 95 => some (.vsense 1 false)
  | 30, 96 => some (.vsense 1 true)
  | 75, 9 => some (.vsense 2 false)
  | 75, 10 => some (.vsense 2 true)
  | 75, 95 => some (.vsense 3 false)
  | 75, 96 => some (.vsense 3 true)
  | 94, c => if 50 ≤ c ∧ c ≤ 57 then some .vaux18 else none
  | 97, c => if 50 ≤ c ∧ c ≤ 53 then some .reserved else none
  | _, _ => none

/-- The link lane of a land by the formula of R465: its edge, and its place from that edge. -/
def landLink (row col : Nat) : Option Net :=
  let at_ (e r c : Nat) : Option Net :=
    if (r = 2 ∨ r = 4) ∧ 7 ≤ c ∧ c ≤ 102 then
      let x := c - 7
      some (.linkLane (12 * e + x / 8) (x % 8 / 2) (r == 4) (x % 2 == 1))
    else none
  (at_ 0 row col).orElse fun _ => (at_ 1 (105 - col) row).orElse fun _ =>
    (at_ 2 (105 - row) (105 - col)).orElse fun _ => at_ 3 col (105 - row)

/-- The Ethernet lane of a land. -/
def landEth (row col : Nat) : Option Net :=
  let x := col - 41
  if (row = 8 ∨ row = 10) ∧ 41 ≤ col ∧ x < 32 ∧ x % 16 < 8 then
    some (.ethLane (x / 16) (x % 16 / 2) (row == 10) (x % 2 == 1))
  else none

/-- The pattern of zone C in its quadrant (Table 16-5). -/
def landCore (row col : Nat) : Net :=
  if row = 52 ∨ row = 53 ∨ col = 52 ∨ col = 53 then .gnd
  else
    let q := (if 53 < row then 2 else 0) + (if 53 < col then 1 else 0)
    let u := row % 4
    let v := col % 4
    if (u + v) % 2 = 0 then .gnd
    else if u = 1 ∧ v = 2 then .vhbm q
    else if u = 3 ∧ v = 0 then .vhbmq q
    else if u = 2 ∧ v = 3 then .vloft
    else .vcore q

/-- The net of land `row`.`col`, both 1 to 104 (R465); none outside the package. -/
def landNet (row col : Nat) : Option Net :=
  if row = 0 ∨ 104 < row ∨ col = 0 ∨ 104 < col then none
  else
    match landException row col with
    | some n => some n
    | none =>
      let dist := landDist row col
      if dist ≤ 5 then some ((landLink row col).getD .gnd)
      else if dist ≤ 10 then some ((landEth row col).getD (if (row + col) % 2 = 0 then .gnd else .vlink))
      else some (landCore row col)

end Sys2Proof.Machine
end

