-- ==== Sys2Proof/WellFormed.lean ====
section
/-! DEFINITION. Which commands a sender can spell. Most operands are bounded by their types; the checks here bound the
numbers that are not: fields of packets and flits (Table 12-3), runs of registers, places in a memory, and the numbers of
tables, regions, channels and clients. No meaning relies on them: exec answers every command. -/
namespace Sys2Proof

/-- A packet fits the fields of its header (R348, Table 12-3); LEN is the payload's length but in a request to read. -/
def Packet.wf (p : Packet) : Bool :=
  decide (p.vc < 4) && decide (p.cls < 2) && decide (1 ≤ p.kind) && decide (p.kind ≤ 0x0E) && decide (p.len ≤ 4096) &&
  decide (p.src < 2 ^ 18) && decide (p.dst < 2 ^ 18) && decide (p.ctx < 64) && decide (p.tenant < 2 ^ 16) &&
  decide (p.rtag < 2 ^ 32) && decide (p.fseq < 2 ^ 32) && decide (p.tgid < 2 ^ 32) && decide (p.gen < 2 ^ 32) &&
  decide (p.payload.length ≤ 4096) && (p.kind == 3 || p.len == p.payload.length)

/-- A flit's channel and class exist, and so does its packet (R348). -/
def Flit.wf (f : Flit) : Bool :=
  decide (f.vc < 4) && decide (f.cls < 2) && (match f.packet with | some p => p.wf && p.vc == f.vc && p.cls == f.cls | none => true)

/-- A training that ends up agrees on a version and gives the depths of the four channels in both classes (R353, R357). -/
def TrainResult.wf (r : TrainResult) : Bool :=
  match r with
  | .up _ version depths peer => decide (1 ≤ version) && depths.length == 8 && decide (peer < 2 ^ 18)
  | .noLanes => true
  | .noCommonVersion => true
  | .gap => true

/-- The fields of a management header (Table 16-3). -/
def MgmtHdr.wf (h : MgmtHdr) : Bool :=
  decide (h.magic < 2 ^ 16) && decide (h.ver < 2 ^ 8) && decide (h.seq < 2 ^ 32) && decide (h.len < 2 ^ 32)

def Source.wf (s : Source) : Bool :=
  match s with
  | .rdma qpn _ => decide (qpn < 2 ^ 24)
  | .mgmt h => h.wf

def FlsReq.wf (r : FlsReq) : Bool :=
  match r with
  | .mailbox _ => true
  | .mgmt h _ _ _ _ _ _ => h.wf

/-- The numbers of a delta batch (R180 to R183). -/
def DeltaBatch.wf (b : DeltaBatch) : Bool :=
  decide (b.source < 2 ^ 18) && decide (b.tgid < 2 ^ 32) && decide (b.tenant < 2 ^ 16) && decide (b.gen < 2 ^ 32) &&
  decide (b.rtag < 2 ^ 32)

/-- The lanes of a burst: 36 and the spare (R336). -/
def SectorErr.wf : SectorErr → Bool
  | .lanes bad => bad.all (fun l => decide (l < 37))
  | .misplaced => true

/-- Wrong sums lie in the 129 × 129 cells, and a failing element in an entry (R118, R119). -/
def AbftRun.wf (u : AbftRun) : Bool :=
  u.errs.all (fun e => decide (e.row ≤ 128) && decide (e.col ≤ 128)) &&
    (match u.code with | some q => decide (q.1 < 8) && decide (q.2 < 128) | none => true)

/-- A queue pair's parameters (Table 16-4). -/
def QpParams.wf (q : QpParams) : Bool := decide (q.remoteQpn < 2 ^ 24) && decide (q.psn < 2 ^ 24)

/-- A register run begins at a word and holds at least one (R6, R461). -/
def runWf (off count : Nat) : Bool := decide (off % 8 = 0) && decide (1 ≤ count)

/-- A command that a sender can spell. -/
def Instr.wf (i : Instr) : Bool :=
  match i with
  | .regWrite src off vs => src.wf && runWf off vs.length
  | .misalignedAccess src _ off len => src.wf && !(decide (off % 8 = 0) && decide (len % 8 = 0) && decide (len ≠ 0))
  | .unassignedOffsetAccess src _ off => src.wf && decide (off % 8 = 0)
  | .flsMirrorWrite src off _ => src.wf && decide (off % 8 = 0)
  | .regRead qpn _ off count => decide (qpn < 2 ^ 24) && runWf off count
  | .mgmtRead h off count => h.wf && runWf off count && decide (count ≤ 64)
  | .mgmtWrite h off count values => h.wf && runWf off count && decide (count ≤ 64) && values.length == count
  | .loftPatrol _ word _ => decide (word < 2 ^ 20)
  | .soffitFill _ mshr => decide (mshr < 64)
  | .tileEntryPush _ x => match x.code with | some c => decide (c.1 < 8) && decide (c.2.1 < 128) | none => true
  | .rafEntryReady _ _ u => u.first.wf && u.again.wf
  | .thtRemoteRowRequest p => p.wf && p.kind == 1
  | .hodReadRequest p => p.wf && p.kind == 3
  | .hodRemoteWrite p => p.wf && p.kind == 5
  | .colDataRx _ p _ => p.wf && (p.kind == 9 || p.kind == 0x0A)
  | .colAbortRx _ p => p.wf && p.kind == 0x0D
  | .linkFlitRx _ f => f.wf
  | .linkTrained _ r => r.wf
  | .deltaBatch b => b.wf
  | .roundApply table _ => decide (table < 4096)
  | .digestBuildDone table _ => decide (table < 4096)
  | .slotRelease table _ => decide (table < 4096)
  | .requestArrival client _ => decide (client < 256)
  | .detachComplete client => decide (client < 256)
  | .entryRelease e => decide (e < 32768)
  | .memReadRequest addr _ _ err _ => decide (addr % 32 = 0) && err.wf
  | .memWriteRequest _ data _ _ _ => !data.isEmpty
  | .nmaOp ops _ _ => !ops.isEmpty
  | .scrub addr errs => decide (addr % 128 = 0) && decide (errs.length ≤ 4) && errs.all SectorErr.wf
  | .laneSweepDone p => decide (p.chan < 512) && decide (p.mib ≤ 1152)
  | .stageThatched failing => failing.all (fun t => decide (t < 16))
  | .weightScanDone region => decide (region < 256)
  | .qpCreate h q _ => h.wf && q.wf
  | .qpDestroy h qpn => h.wf && decide (qpn < 2 ^ 24)
  | .netCfg h _ ipv4 ipv6 vlan _ => h.wf && decide (ipv4 < 2 ^ 32) && decide (ipv6 < 2 ^ 128) && decide (vlan < 2 ^ 12)
  | .stageData h _ data => h.wf && decide (data.length ≤ 1400)
  | .spdmRequest h _ => h.wf
  | .status r => r.wf
  | .trussImage r => r.wf
  | .imageStage r => r.wf
  | .imageSelect r => r.wf
  | .fwStage r => r.wf
  | .fwActivate r => r.wf
  | .keyEnroll r => r.wf
  | .keyRevoke r => r.wf
  | .svnCommit r => r.wf
  | .plimit r => r.wf
  | .setDevnum r => r.wf
  | .start r => r.wf
  | .restart r => r.wf
  | .subscribe r => r.wf
  | .ownerOnly r => r.wf
  | .nonce r _ => r.wf
  | _ => true

end Sys2Proof
end

