-- ==== Sys2Proof/Tests/Slice0.lean ====
section
/-! SUPPORT. The model's own tests: values of the manual's examples, ill-formed terms that WellFormed refuses, and for every
obligation with hypotheses a witness that meets them together, clause by clause. -/
namespace Sys2Proof.Tests

set_option Elab.async false

open Sys2Proof Sys2Proof.Machine

/-! ### A small device -/

/-- The counter stands at 5 s, at Stage Thatched, all clocks locked, truss clocks at 2.4 GHz. -/
def wClk : Clocks :=
  { (default : Clocks) with
    stage := .thatched, counting := true, now := 5000000000, coreOk := true, linkOk := true, netOk := true
    pwrgd := true, resetL := true, ridgeLock := true, loftLock := true, locked := 0xFFFF#16
    mhz := (List.range 16).map (fun t => (t, 2400)) }

/-- A queue pair on port 0. -/
def wQp (role : Nat) : Qp := { (default : Qp) with role := role, mtu := 4096, rate := 800000, remote := 9, ip := 1 }

/-- A management request from source 7. -/
def wHdr : MgmtHdr := { src := 7, magic := 0x4D4F, ver := 2, seq := 1, len := 8, port := 0 }

/-- Truss 0 serves context 1 in share slot 0: 16 MiB from the start of its Loft slice. -/
def wTruss : TrussSt :=
  { (default : TrussSt) with
    state := 1, stageGr := 64, soffitGr := 8, shareGr := 64, slots := [(0, ⟨true, 1, 0, 64, true⟩)], rafCaps := 0xFF, hodCaps := 0xFF }

/-- Contexts 0 and 1 are live and map their first 1 GiB to the first frame; truss 0 serves; both ports are up; the owner
holds queue pair 1, a client queue pair 2. -/
def wDev : Device :=
  { Device.reset with
    clk := wClk
    ctxs := [(0, { (default : Context) with state := 1, prio := 7, lenLimit := 1000 }),
      (1, { (default : Context) with state := 1, prio := 3, lenLimit := 1000, tenant := 5 })]
    truss := [(0, wTruss)]
    xlt := { (default : Xlt) with
      l2 := [(l2Set 0 0 2, [⟨0, 0, 2, 0, true⟩]), (l2Set 1 0 2, [⟨1, 0, 2, 0, true⟩])] }
    qps := [(1, wQp 0), (2, wQp 2)]
    ports := [(0, { (default : Port) with up := true }), (1, { (default : Port) with up := true })]
    rkeyControl := 0x11, rkeyMemory := 0x22 }

def wS (d : Device) : State := ⟨d, []⟩

/-- A command in hand of entry 0. -/
def wJob (id ctx : Nat) (e : Option Engine) (c0 c1 : Word) (st : JobState) (run : Run) : Job :=
  { (default : Job) with id := id, ctx := ctx, engine := e, cmd := ⟨c0, c1, 0, 0⟩, state := st, run := run }

def wJobs (js : List Job) : Device := { wDev with jobs := js }

/-- Words placed in Loft of truss 0, or in HBM. -/
def withLoft (d : Device) (a : Nat) (ws : List Word) : Device :=
  { d with loft := tset d.loft 0 (memWrite (tget d.loft 0 []) a (wordsBytes ws)) }
def withHbm (d : Device) (a : Nat) (ws : List Word) : Device :=
  { d with hbm := { d.hbm with mem := memWrite d.hbm.mem a (wordsBytes ws) } }

/-! ### Results of accesses -/

def gotVal {α : Type} : Got α → Option α
  | .ok v => some v
  | .miss _ _ => none
  | .fail _ => none

theorem got_ok {α : Type} (r : Device × Got α) (h : (gotVal r.2).isSome = true) : r = (r.1, .ok ((gotVal r.2).get h)) := by
  obtain ⟨d, g⟩ := r
  cases g with
  | ok v => rfl
  | miss a w => exact absurd h (by simp [gotVal])
  | fail e => exact absurd h (by simp [gotVal])

def fedVal {α : Type} : Fed α → Option α
  | .ok v => some v
  | .fail _ => none
  | .skew _ _ _ _ => none

theorem fed_ok {α : Type} (r : Device × Fed α) (h : (fedVal r.2).isSome = true) : r = (r.1, .ok ((fedVal r.2).get h)) := by
  obtain ⟨d, g⟩ := r
  cases g with
  | ok v => rfl
  | fail e => exact absurd h (by simp [fedVal])
  | skew a b x y => exact absurd h (by simp [fedVal])

theorem opt_some {α : Type} (o : Option α) (h : o.isSome = true) : o = some (o.get h) := by
  cases o with
  | some v => rfl
  | none => exact absurd h (by simp)

theorem pair_some {α β : Type} (r : α × Option β) (h : r.2.isSome = true) : r = (r.1, some (r.2.get h)) := by
  obtain ⟨a, o⟩ := r
  exact Prod.ext rfl (opt_some o h)

theorem pair_some2 {α β γ : Type} (r : α × Option (β × γ)) (h : r.2.isSome = true) :
    r = (r.1, some ((r.2.get h).1, (r.2.get h).2)) := pair_some r h

theorem pair_bool {α : Type} (r : α × Bool) (h : r.2 = true) : r = (r.1, true) := Prod.ext rfl h

theorem got_unit (r : Device × Got Unit) (h : (gotVal r.2).isSome = true) : r = (r.1, .ok ()) := got_ok r h

theorem pair_snd {α β : Type} (r : α × β) (a : β) (h : r.2 = a) : r = (r.1, a) := Prod.ext rfl h

theorem one_pair {α β : Type} [DecidableEq α] {a : α} (o : Option (α × β)) (h : o.isSome = true) (g : (o.get h).1 = a) :
    o = some (a, (o.get h).2) := by
  cases o with
  | some v => exact congrArg some (Prod.ext g rfl)
  | none => exact absurd h (by simp)

theorem exc_eq {α β ε : Type} (r : α × Except ε β) (b : β) (h : r.2.toOption = some b) : r = (r.1, .ok b) := by
  obtain ⟨a, e⟩ := r
  cases e with
  | ok v => exact congrArg (Prod.mk a) (congrArg Except.ok (Option.some.inj h))
  | error e => exact absurd h (by simp [Except.toOption])

theorem pair_eta {α β : Type} (r : α × β) : r = (r.1, r.2) := rfl

/-- An enabled Soffit slice of 4 ways and 8 sets, and a miss register whose read is back. -/
def wSof : Soffit := { (default : Soffit) with ways := 4, sets := 8, enabled := true }
def wMiss : SofMiss := ⟨4, 9, 0, 0xF, [], false, false, false, some (List.replicate 128 3)⟩

/-! ### Engines of truss 0 with a task of context 1 -/

/-- A task running on an engine, its command word 1 pointing at `p`. -/
def wTask (e : Engine) (p : Word) (r : Run) : Job := wJob 0 1 (some e) 0 p .running r
def wRun (e : Engine) (p : Word) (r : Run) : Device := wJobs [wTask e p r]

/-- A copy of `n0` by `n1` bytes from 0x1000 to 0x2000 of the context's space. -/
def wXfer (n0 n1 : Nat) : List Word :=
  [0, 0x1000, 0x2000, 0, pack [(0, 32, n0), (32, 32, n1)], 1, 0x100, 0, 0x100, 0, 0, 0, 0, 0, 0, 0]

/-- A copy of an accumulator tile of 8,448 bytes. -/
def wAcc : List Word :=
  [0xAA, 0x1000, 0x4000, 0, pack [(0, 32, 128), (32, 32, 8)], 1, 0x100, 0, 0x100, 0, 0, 0, 0, 0, 0, 0]

/-- A packet from device 3 for context 1 of tenant 5. -/
def wPkt (kind : Nat) : Packet :=
  { vc := 0, cls := 0, kind := kind, len := 8, src := 3, dst := 0, addr := 0x3000, ctx := 1, tenant := 5, rtag := 6, chk := 0
    racc := 0, fseq := 0, tgid := 77, gen := 1, payload := [1, 2, 3, 4, 5, 6, 7, 8] }

/-- A request of command 0 to device 3. -/
def wRemote (kind : Nat) : Remote :=
  { rtag := 6, job := 0, truss := 0, device := 3, kind := kind, limit := 0, deadline := some 5000000000, graced := false, bag := 0, pos := 0
    sub := 0, addr := 0x3000, len := 8 }

/-- A table of 16 rows of 16 coded bytes, CURRENT at generation 1 in slot A and STANDBY at 2 in slot B. -/
def wTable : Table :=
  { (default : Table) with
    desc := [0x0000004D00401001, 0x0005000000000010, 0, 0, 0, 0, 0x100000, 0x200000, 0, 0, 0, 0, 16, 0, 0, 0]
    valid := true
    a := { (default : VSlot) with state := vCurrent, gen := 1 }
    b := { (default : VSlot) with state := vStandby, gen := 2 } }

/-- A Rafter task at a list of instructions at 0x8000 of the share. -/
def wRaf (ins : List Word) (r : RafArray) : Device :=
  { withLoft (wRun (.raf 0 0) 0x8000 (.raf 0x8000 false ⟨0, [], [], false⟩ [])) 0x8000 ins with raf := [(0, r)] }

/-- A stationary set of 2 rows and 2 columns of Q8S. -/
def wSet : RafSet :=
  { shape := 0, krows := 2, ncols := 2, wfmt := 6, wshare := 0, blk := 16, wnbp := 0, vals := [[1, 2], [3, 4]], exps := []
    ctx := 1, source := [] }

def wTile : TileEntry := { (default : TileEntry) with ctx := 1, rowmask := 0xFF }
def wPend (acm : Nat) : PendEntry := ⟨wTile, acm, 2, 0, 0, 0, [], wSet, [0x0000000200600010, 0xA000, 128, 0]⟩

/-- A Rafter task whose list has instruction 0 under way, its first rows admitted or none yet. -/
def wStream (begun : Bool) (w : List Word) : RafStream := ⟨0, w, begun, 0, 2⟩
def wRafOn (ins : List Word) (w : List Word) (begun : Bool) (r : RafArray) : Device :=
  { withLoft (wRun (.raf 0 0) 0x8000 (.raf 0x8000 false ⟨1, [wStream begun w], [], false⟩ [])) 0x8000 ins with raf := [(0, r)] }

/-- The array with one entry in its cells. -/
def wCells (acm : Nat) : Device := wRaf [] { (default : RafArray) with inflight := [wPend acm] }

/-- A Lath instruction's word (Table 05-2). -/
def wIns (opc vd va vb vc t : Nat) : Word := pack [(0, 8, opc), (8, 5, vd), (13, 5, va), (18, 5, vb), (23, 5, vc), (32, 4, t)]

/-- A Lath task of 4 instructions at 0x4000 of the share, at its first, and its bank. -/
def wLathJob : Job := wTask (.lth 0 0) 0x4000 (.lth 0x4000 4 1 1 none)
def wLath (ins : Word) (b : LthBank) : Device :=
  { withLoft (wJobs [wLathJob]) 0x4000 [ins] with lth := [(0, { (default : LthEngine) with bank := [(0, b)] })] }

/-- Scalars 4 and 5 hold a pointer and a number. -/
def wBank : LthBank := { (default : LthBank) with sr := [(4, 0x5000), (5, 7)] }
def wLt (ins : Word) : LthTask := ⟨0, 0, wLathJob, 4, 1, 1, none, 0, wBank, lthDecode ins⟩

/-- Whether the engine goes on with an instruction of operation `op`. -/
def lathCan (d : Device) (op : Nat) : Bool :=
  match d.lthMeet 0 0 op with
  | (m, some x) => (m.lthUpset x .none).2
  | (_, none) => false

theorem lath_can {d : Device} {op : Nat} (h : lathCan d op = true) : ∃ e x, (wS d).LathRuns 0 0 op .none e x := by
  unfold lathCan at h
  split at h
  · rename_i m x hm
    exact ⟨_, x, m, hm, pair_bool _ h⟩
  · exact absurd h (by simp)

theorem lath_runs (s : State) (t : Truss) (e : LathNo) (op : Nat) (u : LathUpset) (h : (s.dev.lthMeet t e op).2.isSome = true)
    (g : ((s.dev.lthMeet t e op).1.lthUpset ((s.dev.lthMeet t e op).2.get h) u).2 = true) :
    s.LathRuns t e op u ((s.dev.lthMeet t e op).1.lthUpset ((s.dev.lthMeet t e op).2.get h) u).1 ((s.dev.lthMeet t e op).2.get h) :=
  ⟨_, pair_some _ h, pair_bool _ g⟩

/-! ### Tables, attention and sequences -/

/-- A command of context 1 that has been issued and waits to be carried out. -/
def wIssued (c0 c1 c2 : Word) : Job := { wJob 0 1 none c0 c1 .issued .none with cmd := ⟨c0, c1, c2, 0⟩ }
def wOp (c0 c1 c2 : Word) : Device := wJobs [wIssued c0 c1 c2]

/-- A table-control command: operation, slot, words 1 and 2; the table is number 0. -/
def wTop (op slot : Nat) (c1 c2 : Word) (x : Table) : Device :=
  (wOp (pack [(0, 8, 0x28), (19, 4, op), (23, 1, slot)]) c1 c2).setTable 0 x

/-- A look-up of one bag, or a delta task of one record, of table 0. -/
def wLook : List Word := [0, 1 + 2 ^ 32 * 0x9000, 0xA000, 0xB000, 0, 0, 0, 0]
def wThatch (c0 : Word) (ws : List Word) (r : Run) : Device :=
  (withLoft (wJobs [{ wTask (.tht 0) 0x100 r with cmd := ⟨c0, 0x100, 0, 0⟩ }]) 0x100 ws).setTable 0 wTable

def wBatch : DeltaBatch :=
  { source := 3, tgid := 77, tenant := 5, gen := 1, round := 1, nsrc := 2, seq := 0, rtag := 6, dfence := false, wait := false
    rows := [] }

/-- The table with one batch of round 1 in staging. -/
def wRound : Round := { (default : Round) with number := 1, nsrc := 2, batches := [wBatch] }
def wStaged : Table := { wTable with a := { wTable.a with rounds := [{ wRound with markers := [3, 4] }] } }

/-- Sequences 3 and 4 of context 1, parked, with roots 0 and 1 of model 0 at 0x40000; each has one page set. -/
def wRoot (pt : Nat) : List Word := [BitVec.ofNat 64 pt, 0x01010001, 0x60000, 0x80000, 8704, 0, 0, 0]
def wSeq (root : Nat) : SeqEntry := { (default : SeqEntry) with state := 4, ctx := 1, root := some root }
def wSeqs (d : Device) : Device :=
  withHbm (withHbm (withHbm (withHbm (withHbm
    { d with seqs := [(3, wSeq 0), (4, wSeq 1)]
             models := [(0, { (default : Model) with loaded := true, words := [0, 0, 0x40000, 0, 0x70000, 4] })] }
    0x40000 (wRoot 0x50000 ++ wRoot 0x50100)) 0x50000 [pteWord 0x60000]) 0x50100 [pteWord 0x60000])
    0x62000 [BitVec.ofNat 64 (scaleEntry 1 0 + 2 ^ 16 * scaleEntry 1 1)])
    0x62100 [BitVec.ofNat 64 (scaleEntry 1 0 + 2 ^ 16 * scaleEntry 1 1)]

/-- An attention task over one row of sequence 3 with DH = 64; mode 0 attends, 1 appends, 2 combines one partial. -/
def wAtnDesc (mode : Nat) : List Word :=
  [BitVec.ofNat 64 (mode + 2 ^ 16), 1 * 2 ^ 16 + 2 ^ 32 + 2 ^ 48, 0x9000, 0x9800 + 2 ^ 32 * 0xA000, 0xB000, 2 ^ 32 * 0xC000, 0, 0
  , 0x9000 + 2 ^ 32 * 0x9000, 0x9800 + 2 ^ 32 * 0x9800, 0, 0, 0, 0, 0, 0]
def wSeg : AtnSeg := { segno := 0, seq := 3, start := 0, first := 0, nrow := 1 }
def wAtn (mode : Nat) (r : Run) : Device :=
  wSeqs (withLoft (withLoft (withLoft (withLoft (wRun (.atn 0) 0x100 r) 0x100 (wAtnDesc mode)) 0x9800
    [BitVec.ofNat 64 (scaleEntry 1 0 + 2 ^ 16 * scaleEntry 1 1)]) 0xA000 [3 * 2 ^ 16, 2 ^ 16]) 0xC490 [1])
def wAtnRun (mode : Nat) : Run := .atn (wAtnDesc mode) [(3, wRoot 0x50000)] [wSeg] 0 0 0

/-- A sequence command: operation, sequence 3, destination 4. -/
def wKv (op : Nat) : Word := pack [(0, 8, 0x29), (19, 3, op), (22, 15, 3), (37, 15, 4)]
def wEdit (op : Nat) (qs : List Nat) (deadline : Nat) : KvEdit := { job := 0, op := op, seqs := qs, n := 0, addr := 0x60000, deadline := deadline }
def wEditing (e : KvEdit) : Device := { wSeqs (wJobs [{ wIssued (wKv e.op) 0 0 with state := .waiting }]) with kvEdits := [e] }

/-- The digest of slot A of the table over zeroed rows. -/
def wRows : Device × Got Word :=
  (wDev.setTable 0 wTable).digestRows wTable false ((wDev.setTable 0 wTable).localRows wTable) 0
def wSum : Word := (gotVal wRows.2).getD 0

/-- The same with an attention task that walks the pages of sequence 3. -/
def wWalked (d : Device) : Device := { d with jobs := d.jobs ++ [{ wTask (.atn 0) 0x100 (wAtnRun 0) with id := 1 }] }

theorem piece_low : ∀ n, n ≤ 128 → n ≠ 0 → pieces (2 ^ 21) 0 n = [(0, n)] := by decide +kernel

/-- A store of up to 128 bytes at address 0 of a space whose first page is translated to HBM. -/
theorem stored_low {d d1 : Device} {c t u : Nat} {bs : List Byte} (hd : d.translate c t u 0 true = (d1, .ok 0)) (hb : d1.hbm.bad = [])
    (hr : ∀ a, d1.hbm.onRetired a = false) (hn : bs.length ≤ 128) (ha : ∀ n, n ≤ 128 → d1.hbm.allReachable 0 n = true) :
    ∃ e, d.vstore c t u (0 : Nat) bs = (e, .ok ()) := by
  have hv : ∀ n, n ≤ 128 → vaOk ((0 : Nat) : Int) n = true := by decide +kernel
  unfold Device.vstore
  rw [hv _ hn]
  cases bs with
  | nil => exact ⟨_, rfl⟩
  | cons b bs =>
    have hw : (slice (b :: bs) 0 (b :: bs).length).length ≤ 128 := by
      have e : (slice (b :: bs) 0 (b :: bs).length).length = (b :: bs).length := by simp [slice]
      omega
    have hm := Hbm.write_plain 0 (slice (b :: bs) 0 (b :: bs).length) hb hr (ha _ hw)
    have hs : ∃ e, d1.hbmStore 2 c 0 (slice (b :: bs) 0 (b :: bs).length) = (e, none) := by
      unfold Device.hbmStore Device.hbmWrite
      dsimp only
      rw [hm]
      exact ⟨_, rfl⟩
    obtain ⟨e, he⟩ := hs
    show ∃ e, d.vstorePieces c t u 0 (b :: bs) (pieces (2 ^ 21) 0 (b :: bs).length) none = (e, .ok ())
    rw [piece_low _ hn (by simp)]
    unfold Device.vstorePieces
    dsimp only
    rw [hd]
    dsimp only [Nat.sub_zero]
    rw [he]
    exact ⟨_, rfl⟩

theorem translateAll_one {d d1 : Device} {c t u a n p : Nat} {w : Bool} (h : d.translate c t u a w = (d1, .ok p)) :
    d.translateAll c t u w [(a, n)] = (d1, .ok [(p, n)]) := by
  unfold Device.translateAll
  dsimp only
  rw [h]
  rfl

def wTab : Device := wDev.setTable 0 wTable
def wTab1 : Device × Got Nat := wTab.translate 1 0 (unitCode 0 8) 0 true
def wTab2 : Device × Got Nat := wTab1.1.translate 1 0 (unitCode 0 8) 0 true

theorem retired_never {h : Hbm} (hc : h.chans = []) : ∀ a, h.onRetired a = false := by
  intro a; unfold Hbm.onRetired; rw [hc]; split <;> rfl

theorem got_is {α : Type} {v : α} (r : Device × Got α) (h : gotVal r.2 = some v) : r = (r.1, .ok v) := by
  obtain ⟨d, g⟩ := r
  cases g with
  | ok w => exact congrArg (fun x => (d, Got.ok x)) (Option.some.inj h)
  | miss a w => exact absurd h (by simp [gotVal])
  | fail e => exact absurd h (by simp [gotVal])

/-- A batch that finds room in the staging area is taken. -/
theorem staged_taken : (wTab.acceptBatch wBatch).2 = .taken := by
  have hl : (batchBytes wBatch).length ≤ 128 := by
    unfold batchBytes; show ((Config.deltaBytes _ _ _ _).take (128 + 0)).length ≤ 128; rw [List.length_take]; omega
  have h1 : wTab.translate 1 0 (unitCode 0 8) 0 true = (wTab1.1, .ok 0) := got_is _ (by decide +kernel)
  have h2 : wTab1.1.translate 1 0 (unitCode 0 8) 0 true = (wTab2.1, .ok 0) := got_is _ (by decide +kernel)
  have hs : ∀ n, n ≤ 128 → wTable.stageAt n = some 0 := by decide +kernel
  have hv : ∀ n, n ≤ 128 → vaOk ((wTable.f 11 51 0 + 0 : Nat) : Int) n = true := by decide +kernel
  have ha : ∀ n, n ≤ 128 → wTab2.1.hbm.allReachable 0 n = true := by decide +kernel
  obtain ⟨r, hr⟩ : ∃ r, wTab.acceptBatch wBatch = wTab.stageBatch 0 false wTable r wBatch := ⟨_, rfl⟩
  rw [hr]
  unfold Device.stageBatch
  dsimp only
  rw [hs _ hl]
  dsimp only
  rw [hv _ hl]
  generalize batchBytes wBatch = bs at hl
  have hh : wTab.homeOf wTable = 0 := by decide +kernel
  have hc : wTable.ctx = 1 := by decide +kernel
  have hf : wTable.f 11 51 0 = 0 := by decide +kernel
  rw [hh, hc, hf]
  cases bs with
  | nil => rfl
  | cons b bs =>
    rw [piece_low _ hl (by simp)]
    obtain ⟨e, he⟩ := stored_low (u := unitCode 0 8) (bs := b :: bs) h2 (by decide +kernel) (retired_never (by decide +kernel)) hl ha
    rw [translateAll_one h1]
    dsimp only
    rw [show wTab1.1.vstore 1 0 (unitCode 0 8) ((0 + 0 : Nat) : Int) (b :: bs) = (e, .ok ()) from he]
    rfl

/-! ### The Course builder, the Eave and the Ridge -/

theorem att_ok {ε α : Type} (r : Except ε α) (h : r.toOption.isSome = true) : r = .ok (r.toOption.get h) := by
  cases r with
  | ok v => rfl
  | error e => exact absurd h (by simp [Except.toOption])

theorem att_true {ε α : Type} (r : Except ε (α × Bool)) (h : (r.toOption.filter (·.2)).isSome = true) :
    r = .ok (((r.toOption.filter (·.2)).get h).1, true) := by
  cases r with
  | ok v =>
    obtain ⟨a, b⟩ := v
    cases b with
    | true => rfl
    | false => exact absurd h (by simp [Except.toOption, Option.filter])
  | error e => exact absurd h (by simp [Except.toOption])

theorem att_some {ε α β : Type} (r : Except ε (α × Option β)) (h : (r.toOption.filter (·.2.isSome)).isSome = true)
    (g : (((r.toOption.filter (·.2.isSome)).get h).2).isSome = true) :
    r = .ok (((r.toOption.filter (·.2.isSome)).get h).1, some ((((r.toOption.filter (·.2.isSome)).get h).2).get g)) := by
  cases r with
  | ok v =>
    obtain ⟨a, b⟩ := v
    cases b with
    | some x => rfl
    | none => exact absurd h (by simp [Except.toOption, Option.filter])
  | error e => exact absurd h (by simp [Except.toOption])

/-- A ranking request for model 0, and the client that sends it. -/
def wReq : List Word := [1, 7, 0x5000, 64 + 2 ^ 32 * 0x22, 0, 64, 0, 0]
def wClient : Client :=
  { attached := true, detaching := false, ctx := 1, qpn := 2, base := 0x10000, nslot := 2, slotLog2 := 8, used := [], held := [] }
def wSrv : Device :=
  { wDev.setReg Reg.CRS_CTRL 1 with
    clients := [(4, wClient)], models := [(0, { (default : Model) with loaded := true, words := [2 ^ 5, 0, 0x40000] })] }

/-- Lane 0 laid out for context 1, with the request as entry 3. -/
def wLane : Device :=
  { wSrv.setReg (Reg.CRS_LANE_CFG 0) (pack [(0, 1, 1), (2, 6, 1), (24, 13, 16), (37, 13, 16)]) with
    seqs := [(3, reqEntry wReq 4 1 0 0)] }

/-- A course-control command of context 0. -/
def wCrs (op : Nat) (c1 c2 c3 : Word) : Job :=
  { wJob 0 0 none 0 0 .issued .none with cmd := ⟨pack [(0, 8, 0x2A), (19, 4, op)], c1, c2, c3⟩ }

/-- The Eave ring of 64 entries from HBM address 0, on. -/
def wEave (e : Eave) : Device := { wDev.setReg Reg.EAVE_CFG (2 ^ 53 + 6 * 2 ^ 48) with eave := e }
def wEnt (st : EntryState) : Entry := { (default : Entry) with ctx := 1, state := st }

/-! ### Buffers, engines, contexts, translation and HBM -/

def wCmd (c0 c1 c2 : Word) : Cmd := ⟨c0, c1, c2, 0⟩
def wBuf (cs : List Cmd) : Buf := { (default : Buf) with ctx := 1, cmds := cs }
def wBufs (b : Buf) : Device := { wDev with bufs := [b] }

/-- Graph 7 of context 1 at version 1, with one slot; a command of context 1 with all four words. -/
def wGraph : Graph := ⟨1, 1, [⟨1, 1, [], [5]⟩]⟩
def wFull (c0 c1 c2 c3 : Word) : Job := { wJob 0 1 none 0 0 .issued .none with cmd := ⟨c0, c1, c2, c3⟩ }

def wCtxCmd (op : CtxOp) (c : Nat) (c1 : Word) : Job := wIssued (pack [(0, 8, 0x31), (19, 4, op.code), (23, 6, c)]) c1 0
def wCtx : Context := { (default : Context) with state := 1, prio := 3, lenLimit := 1000, tenant := 5 }

/-- A translation request of context 1 that has been sent. -/
def wXReq : XReq := { (default : XReq) with reqid := 5, ctx := 1, va := 2 ^ 21, truss := 16, sent := true }
def wXlt (r : XReq) : Device := { wDev with xlt := { wDev.xlt with reqs := [r] } }

/-- Every pseudo-channel in one state; a request that has waited. -/
def wChans (c : Chan) : Hbm := { wDev.hbm with chans := (List.range 512).map (fun i => (i, c)) }
def wMem : MemReq := ⟨4, 0, .read (.lanes []), 1, 1, none, 0⟩

/-! ### Links, collectives, resilience and metering -/

def wLinks (x : Link) : Device := { wDev with links := [(0, x)] }
def wLinkUp : Link := { (default : Link) with state := 2, version := 2, credit := [(0, 9)], lastRx := 4999999000 }
def wFlit (seq : Nat) : Flit :=
  { seq := seq, crcOk := true, corrected := false, ack := 0, replay := false, credits := [], vc := 0, cls := 0, packet := none }

/-- A ring of four devices along x, of which this is number 0. -/
def wRing (x : Splice) : Device :=
  { wDev with fls := { wDev.fls with torus := [(0, 3)], roles := [(0, 1), (1, 1)] }, devnumValid := true, splices := [(0, x)] }
def wSplice (state step : Nat) : Splice := { (default : Splice) with state := state, step := step }
def wHeld : HeldPkt := ⟨0, false, true, wPkt 1⟩

/-- Four 32-bit integers over devices 0 and 3, for context 1. -/
def wCol : Collective := { (default : Collective) with ctx := 1, words := [0, 0, 0, 4], group := [0, 3], shape := 1 }
def wColJob (st : JobState) : Job := { wIssued 0x25 0x100 0 with state := st }
def wCols (st : JobState) (e : ColEngine) : Device := { wJobs [wColJob st] with cols := [(0, e)] }

def wTx : TxPkt := ⟨wPkt 1, 0, none⟩

def wSusp (x : Suspect) : Device := { wDev with suspects := [(0, x)], truss := [(0, { wTruss with slots := [] })] }

theorem room_empty {m : Meter} {q n : Nat} (ha : m.acct = []) (ht : m.total = []) (hr : m.retired = []) (h : n ≤ counterMax) :
    m.HasRoom q n := by
  refine ⟨fun a => ?_, ?_, ?_⟩
  · rw [ha]; show 0 + n ≤ counterMax; omega
  · rw [ht]; show 0 + n ≤ counterMax; omega
  · rw [hr]; show 0 + n ≤ counterMax; omega

/-! ### Flashing, resets and network -/

/-- The device with a mailbox command handed over. -/
def wMbox (code : Nat) (arg : Word) : Device :=
  { wDev with fls := { wDev.fls with mboxBusy := true, mboxCode := code, mboxArgs := [arg], line := [.mailbox] } }

/-- The device at Tarp with bytes staged, and at the start of Batten with a device image in bank 0. What verifies under a
key that only its owner holds is a premise here: nothing in this model can make a signature (R430). -/
def wTarp : Device := { wDev with clk := { wDev.clk with stage := .tarp } }
def wStaged2 (d : Device) (m : Memory) : Device := { d with fls := { d.fls with staging := m } }
def wRecord (m : Memory) : Device :=
  let d := wStaged2 wTarp m
  { d with fls := { d.fls with nonce := some (BitVec.ofNat 32 (imgField (memRead m 0 keyRecordBytes) 8 4)) } }
def wStart (img : List Byte) : Device :=
  { wDev with clk := { wDev.clk with stage := .tarp, starting := true }, fls := { wDev.fls with bankA := img } }
def wFound (failed : List Nat) : BattenFindings := ⟨true, true, failed, [], 1, 2⟩
def wParams : QpParams :=
  { port := 0, role := 0, ip := 1, remoteQpn := 9, psn := 5, mtu := 4096, retries := 3, rnrRetries := 3, timeout := 14 }

/-! ### Values of the manual's examples -/

/-- A run of binary32 words as a block's values. -/
def wVals (ws : List Nat) : List (Nat × FVal) := ws.zipIdx.map (fun p => (p.2, f32.val p.1))

/-- What a command leaves of the device, if it answers a next state. -/
def wAfter (c : Instr) (d : Device) : Option Device :=
  match exec c (wS d) with
  | .next s => some s.dev
  | .fault _ => none
  | .refused _ => none

/-- The window's example: SOF of truss 5 (R4). -/
theorem test_sof_of_truss_5 : Reg.SOF_CFG 5 = 0x01540000 := by decide +kernel

/-- An alignment group whose third block is only a sticky bit, narrowed with seven zero rows (R51 to R53, Table 02-4). -/
theorem test_narrow_group :
    narrowColumn (⟨3997 * 2 ^ 39, true, -51⟩ :: List.replicate 7 ⟨0, false, 0⟩) = (-50, 1098686994055168 :: List.replicate 7 0) := by
  decide +kernel

/-- An aligned add that renormalises (R55). -/
theorem test_aligned_add : (alignedAdd ⟨0x7000000000000000, -50⟩ ⟨0x4000000000000002, -52⟩).1 = ⟨0x4000000000000000, -49⟩ := by
  decide +kernel

/-- A binary32 block into S8: exponent, codes and one dynamic-range loss (R62, Table 02-8). -/
theorem test_block_s8 :
    (fun r => (r.1, r.2.1, r.2.2.drl, r.2.2.sat)) (quantBlock fmtS8 .computed
      (wVals [0x40400000, 0x3F400000, 0xBFC00000, 0x3DCCCCCD, 0x3C800000, 0x3D400000, 0xBD400000, 0]))
      = (122, [96, 24, -48, 3, 0, 2, -2, 0], 1, 0) := by decide +kernel

/-- The increase of R62: 127.75 is stored as 64 with E = 128. -/
theorem test_block_increase : (fun r => (r.1, r.2.1)) (quantBlock fmtS8 .computed (wVals [0x42FF8000])) = (128, [64]) := by
  decide +kernel

/-- A block that one element dominates: fifteen dynamic-range losses. -/
theorem test_block_dominated :
    (fun r => (r.1, r.2.1.head?, r.2.2.drl)) (quantBlock fmtS4 .computed (wVals (0x447A0000 :: List.replicate 15 0x3F800000)))
      = (135, some 4, 15) := by decide +kernel

/-- An infinity beside 5.0 becomes the largest code, and is reported (R64). -/
theorem test_block_infinity :
    (fun r => (r.1, r.2.1, r.2.2.nonfinite, r.2.2.first)) (quantBlock fmtS8 .computed (wVals [0x40A00000, 0x7F800000]))
      = (123, [80, 127], 1, some 1) := by decide +kernel

/-- A carried exponent that misses low, under both policies (Table 03-7). -/
theorem test_carried_low :
    (fun r => (r.1, r.2.1, r.2.2.missLo)) (quantBlock fmtS8 (.carried 120 4 false) (wVals [0x40400000, 0x3F000000, 0xBFA00000]))
      = (120, [127, 64, -127], 1) ∧
    (fun r => (r.1, r.2.1, r.2.2.missLo)) (quantBlock fmtS8 (.carried 120 4 true) (wVals [0x40400000, 0x3F000000, 0xBFA00000]))
      = (122, [96, 16, -40], 1) := by decide +kernel

/-- A carried exponent that misses high. -/
theorem test_carried_high :
    (fun r => (r.1, r.2.1.head?, r.2.2.missHi)) (quantBlock fmtS8 (.carried 120 4 false) (wVals [0x3C23D70A, 0xBB83126F]))
      = (120, some 1, 1) ∧
    (fun r => (r.1, r.2.1.head?, r.2.2.missHi)) (quantBlock fmtS8 (.carried 120 4 true) (wVals [0x3C23D70A, 0xBB83126F]))
      = (114, some 82, 1) := by decide +kernel

/-- The rescale of six elements (Table 03-3). -/
theorem test_rescale :
    [10, 11, 32, -32, 160, 4000].map (fun a => rescale q8sRange a (-2) 3 4 (-3))
      = [(-3, false, true), (-2, false, false), (-1, false, false), (-5, false, false), (5, false, false), (127, true, false)] := by
  decide +kernel

/-- The same with Xc = 70: every non-zero element saturates by sign, and zero still gives the zero point. -/
theorem test_rescale_saturates : [1, -1, 0].map (fun a => (rescale q8sRange a 70 3 4 (-3)).1) = [127, -128, -3] := by decide +kernel

/-- EXP2 of −1.5 (R148), and the weight of a key 1.5 below its page (R209). -/
theorem test_exp2 : exp2Parts (-98304) = (1518500250, -2) := by decide +kernel
theorem test_key_weight : keyWeight (-98304) 0 = 777472966656 := by decide +kernel

/-- A decode row of position 5,000 split over four trusses (R214). -/
theorem test_ranges :
    [0, 1, 2, 3].map (fun i => segRange [8, pack [(48, 5, 4), (53, 4, i)]]
      { segno := 0, seq := 812, start := 5000, first := 0, nrow := 1 }) = [(0, 19), (19, 39), (39, 59), (59, 79)] := by decide +kernel

/-- The address map before and after an exclusion (R320). -/
theorem test_map :
    Hbm.place { wDev.hbm with slot0 := ⟨0x5A5A, 0, true⟩ } 0x80205340 = some (324, 1025) ∧
    Hbm.place { wDev.hbm with slot1 := ⟨0x5A5A, 2 ^ 100, true⟩, onMap1 := [2] } 0x80205340 = some (416, 1025) ∧
    Hbm.place { wDev.hbm with slot1 := ⟨0x5A5A, 2 ^ 100, true⟩, onMap1 := [2] } 0xBFDFFFFF ≠ none ∧
    Hbm.place { wDev.hbm with slot1 := ⟨0x5A5A, 2 ^ 100, true⟩, onMap1 := [2] } 0xBFE00000 = none := by decide +kernel

/-- The order of an ACC reduction over three near groups (R376). -/
theorem test_acc_order :
    (alignedAdd (alignedAdd (alignedAdd ⟨2 ^ 62, 0⟩ ⟨1, 0⟩).1 (alignedAdd ⟨2 ^ 62, 0⟩ ⟨2 ^ 62, 0⟩).1).1 (alignedAdd tzero ⟨1, 0⟩).1).1
      = ⟨0x6000000000000000, 1⟩ := by decide +kernel

/-- The vote at epoch 12 (R403): the odd member expels itself, the others count it. -/
theorem test_vote :
    vote 3 0x3A9107C255E019F4 [0x3A9107C255E019F4, 0x3A9107C255E019B4, 0x3A9107C255E019B4] = .expel ∧
    vote 3 0x3A9107C255E019B4 [0x3A9107C255E019B4, 0x3A9107C255E019B4, 0x3A9107C255E019F4] = .peerOdd := by decide +kernel

/-- The costs and predictions of the course example (R236, R242, Table 08-6). -/
def wGorse : Model :=
  { (default : Model) with words := [1, pack [(0, 40, 50000000), (40, 16, 256)], 0, 0, 0, 0, pack [(0, 32, 1200000), (32, 32, 6000)]
    , pack [(0, 32, 1360), (32, 32, 7000)]] }
def wPrompt (n maxtok : Nat) : SeqEntry := { (default : SeqEntry) with kind := 1, premain := n, maxtok := maxtok }
theorem test_costs :
    deltaDecode wGorse { wPrompt 0 0 with pos := 2999 } = 9984 ∧ deltaPrefill wGorse (wPrompt 900 200) 256 = 1835690 ∧
    deltaPrefill wGorse (wPrompt 128 40) 128 = 906965 ∧ coursesLeft wGorse (wPrompt 900 200) = 203 ∧
    predictLaid 1024 5032490 wGorse (wPrompt 900 200) = 1024 * 1021595470 ∧ predictLaid 1024 4103765 wGorse (wPrompt 128 40) = 1024 * 164150600 := by
  decide +kernel

/-- A doorbell ahead of its entries (R259, Table 09-1): the target is set, and a number past the ring is ignored. -/
theorem test_doorbell :
    (wAfter (.eaveDoorbell 0x1201) ({ wDev.setReg Reg.EAVE_CFG (2 ^ 53 + 12 * 2 ^ 48) with eave := default }.setReg Reg.EAVE_EXPECT 0x1200)).map
      (fun d => d.eave.target) = some (some 0x1201) ∧
    (wAfter (.eaveDoorbell 0x2200) ({ wDev.setReg Reg.EAVE_CFG (2 ^ 53 + 12 * 2 ^ 48) with eave := default }.setReg Reg.EAVE_EXPECT 0x1200)).map
      (fun d => d.eave.target) = some none := by decide +kernel

/-- The table gives no row bits, so no word spells a command. -/
theorem test_no_word : decodeTableWord 64 0 = none := rfl

/-! ### Ill-formed terms are refused -/

/-- The packet and the flit of the witnesses are well-formed. -/
theorem test_wf_accepts : (wPkt 9).wf = true ∧ (wFlit 0).wf = true ∧ wHdr.wf = true ∧ wBatch.wf = true ∧ wParams.wf = true := by
  decide +kernel

/-- One term for each check on a packet. -/
theorem test_wf_packet :
    [{ wPkt 9 with vc := 4 }, { wPkt 9 with cls := 2 }, wPkt 0, wPkt 15, { wPkt 3 with len := 4097 }, { wPkt 9 with src := 2 ^ 18 }
    , { wPkt 9 with dst := 2 ^ 18 }, { wPkt 9 with ctx := 64 }, { wPkt 9 with tenant := 2 ^ 16 }, { wPkt 9 with rtag := 2 ^ 32 }
    , { wPkt 9 with fseq := 2 ^ 32 }, { wPkt 9 with tgid := 2 ^ 32 }, { wPkt 9 with gen := 2 ^ 32 }
    , { wPkt 3 with payload := List.replicate 4097 0 }, { wPkt 9 with len := 7 }].all (fun p => !p.wf) = true := by
  decide +kernel

/-- Flits: channel, class, and a packet of another channel or class, or ill-formed itself. -/
theorem test_wf_flit :
    [{ wFlit 0 with vc := 4 }, { wFlit 0 with cls := 2 }, { wFlit 0 with packet := some { wPkt 9 with vc := 1 } }
    , { wFlit 0 with packet := some { wPkt 9 with cls := 1 } }, { wFlit 0 with packet := some (wPkt 0) }].all (fun f => !f.wf) = true := by
  decide +kernel

/-- Trainings, delta batches, management headers, queue-pair parameters and lanes. -/
theorem test_wf_parts :
    TrainResult.wf (.up false 0 (List.replicate 8 1) 0) = false ∧ TrainResult.wf (.up false 2 [] 0) = false ∧
    TrainResult.wf (.up false 2 (List.replicate 8 1) (2 ^ 18)) = false ∧
    [{ wBatch with source := 2 ^ 18 }, { wBatch with tgid := 2 ^ 32 }, { wBatch with tenant := 2 ^ 16 }, { wBatch with gen := 2 ^ 32 }
    , { wBatch with rtag := 2 ^ 32 }].all (fun b => !b.wf) = true ∧
    [{ wHdr with magic := 2 ^ 16 }, { wHdr with ver := 2 ^ 8 }, { wHdr with seq := 2 ^ 32 }, { wHdr with len := 2 ^ 32 }].all
      (fun h => !h.wf) = true ∧
    [{ wParams with remoteQpn := 2 ^ 24 }, { wParams with psn := 2 ^ 24 }].all (fun q => !q.wf) = true ∧ SectorErr.wf (.lanes [36, 37]) = false ∧
    AbftRun.wf ⟨[⟨129, 0, 0, 1⟩], none⟩ = false ∧ AbftRun.wf ⟨[⟨0, 129, 0, 1⟩], none⟩ = false ∧
    AbftRun.wf ⟨[], some (8, 0)⟩ = false ∧ AbftRun.wf ⟨[], some (0, 128)⟩ = false ∧
    Source.wf (.rdma (2 ^ 24) 0) = false ∧ Source.wf (.mgmt { wHdr with ver := 256 }) = false ∧
    FlsReq.wf (.mgmt { wHdr with ver := 256 } 0 0 0 0 0 true) = false := by decide +kernel

/-- A header that is ill-formed, and a source that is. -/
def wBadHdr : MgmtHdr := { wHdr with ver := 256 }
def wBadSrc : Source := .rdma (2 ^ 24) 0
def wBadFls : FlsReq := .mgmt wBadHdr 0 0 0 0 0 true

/-- Register accesses: an ill-formed source, an offset that is no word's, a run out of range. -/
theorem test_wf_registers :
    [Instr.regWrite wBadSrc 0 [0], .regWrite (.rdma 1 0) 4 [0], .regWrite (.rdma 1 0) 0 [], .misalignedAccess wBadSrc true 4 8, .misalignedAccess (.rdma 1 0) true 8 8
    , .unassignedOffsetAccess wBadSrc true 0, .unassignedOffsetAccess (.rdma 1 0) true 4, .flsMirrorWrite wBadSrc 0 0
    , .flsMirrorWrite (.rdma 1 0) 4 0, .regRead (2 ^ 24) 0 0 1, .regRead 1 0 4 1, .regRead 1 0 0 0, .mgmtRead wBadHdr 0 1, .mgmtRead wHdr 4 1
    , .mgmtRead wHdr 0 65, .mgmtWrite wBadHdr 0 1 [0], .mgmtWrite wHdr 4 1 [0], .mgmtWrite wHdr 0 65 (List.replicate 65 0)
    , .mgmtWrite wHdr 0 1 []].all (fun i => !i.wf) = true := by decide +kernel

/-- Events of the memories, tables, courses and links whose numbers or packets are out of range. -/
theorem test_wf_events :
    [Instr.loftPatrol 0 (2 ^ 20) .clean, .tileEntryPush 0 ⟨0, some (8, 0, true)⟩, .tileEntryPush 0 ⟨0, some (0, 128, true)⟩
    , .rafEntryReady 0 0 ⟨⟨[], some (8, 0)⟩, ⟨[], none⟩⟩, .rafEntryReady 0 0 ⟨⟨[], none⟩, ⟨[], some (8, 0)⟩⟩, .soffitFill 0 64, .thtRemoteRowRequest { wPkt 1 with vc := 4 }, .thtRemoteRowRequest (wPkt 3)
    , .hodReadRequest { wPkt 3 with vc := 4 }, .hodReadRequest (wPkt 1), .hodRemoteWrite { wPkt 5 with vc := 4 }, .hodRemoteWrite (wPkt 1)
    , .colDataRx 0 { wPkt 9 with vc := 4 } ⟨[], []⟩, .colDataRx 0 (wPkt 1) ⟨[], []⟩, .colAbortRx 0 { wPkt 13 with vc := 4 }, .colAbortRx 0 (wPkt 1)
    , .linkFlitRx 0 { wFlit 0 with vc := 4 }, .linkTrained 0 (.up false 0 [] 0), .deltaBatch { wBatch with rtag := 2 ^ 32 }
    , .roundApply 4096 false, .digestBuildDone 4096 false, .slotRelease 4096 false, .requestArrival 256 [], .detachComplete 256
    , .entryRelease 32768, .memReadRequest 31 ⟨.scrub, none⟩ 0 (.lanes []) .clean
    , .memReadRequest 32 ⟨.scrub, none⟩ 0 (.lanes [37]) .clean, .memWriteRequest 0 [] ⟨.rdmaWrite, none⟩ 0 .clean, .nmaOp [] ⟨.deltaApply, none⟩ 0
    , .scrub 64 [], .scrub 128 [.lanes [37]], .scrub 128 (List.replicate 5 .misplaced), .laneSweepDone ⟨512, 0⟩, .laneSweepDone ⟨0, 1153⟩, .stageThatched [16], .weightScanDone 256].all (fun i => !i.wf) = true := by
  decide +kernel

/-- Management and Flashing requests. -/
theorem test_wf_management :
    [Instr.qpCreate wBadHdr wParams 0, .qpCreate wHdr { wParams with psn := 2 ^ 24 } 0, .qpDestroy wBadHdr 1, .qpDestroy wHdr (2 ^ 24)
    , .netCfg wBadHdr 0 0 0 0 none, .netCfg wHdr 0 (2 ^ 32) 0 0 none, .netCfg wHdr 0 0 (2 ^ 128) 0 none, .netCfg wHdr 0 0 0 4096 none
    , .stageData wBadHdr 0 [], .stageData wHdr 0 (List.replicate 1401 0), .spdmRequest wBadHdr [], .status wBadFls, .trussImage wBadFls
    , .imageStage wBadFls, .imageSelect wBadFls, .fwStage wBadFls, .fwActivate wBadFls, .keyEnroll wBadFls, .keyRevoke wBadFls
    , .svnCommit wBadFls, .plimit wBadFls, .setDevnum wBadFls, .start wBadFls, .restart wBadFls, .subscribe wBadFls, .ownerOnly wBadFls
    , .nonce wBadFls 0].all (fun i => !i.wf) = true := by decide +kernel

/-! ### Witnesses -/

/-- What `Obligations.EveryCommandAnswersANextState` supposes can be met. -/
theorem witness_EveryCommandAnswersANextState :
    (∃ (s : State), (s.pending = [])) ∧
    (∃ (s : State) (t : State), (step s = .next t)) := by
  refine ⟨?_, ?_⟩
  · exact ⟨(State.reset), by decide +kernel⟩
  · refine ⟨(State.reset), (State.reset), ?_⟩
    exact congrArg Host.Outcome.next (by decide +kernel)

/-- What `Obligations.BoundFollowsItsConditions` supposes can be met. -/
theorem witness_BoundFollowsItsConditions :
    (∃ (s : State) (t : State), s.Settled ∧ (step s = .next t)) := by
  refine ⟨(wS wDev), ?_⟩
  apply Exists.intro
  refine ⟨?_, ?_⟩
  · decide +kernel
  · exact rfl

/-- What `Obligations.BoundFallIsRecorded` supposes can be met. -/
theorem witness_BoundFallIsRecorded :
    (∃ (c : Instr) (s : State) (t : State) (i : Nat), (exec c s = .next t) ∧ (i < 7)) ∧
    (∃ (c : Instr) (s : State) (t : State) (i : Nat), (exec c s = .next t) ∧ (7 < i)) ∧
    (∃ (d : Device), (d.bound &&& ~~~ boundCond d = 0)) ∧
    (∃ (d : Device), (d.bound &&& ~~~ boundCond d ≠ 0)) := by
  refine ⟨?_, ?_, ?_, ?_⟩
  · refine ⟨(.meterTick), (wS wDev), ?_⟩
    apply Exists.intro
    refine ⟨(6), ?_, ?_⟩
    · exact rfl
    · decide +kernel
  · refine ⟨(.meterTick), (wS wDev), ?_⟩
    apply Exists.intro
    refine ⟨(8), ?_, ?_⟩
    · exact rfl
    · decide +kernel
  · exact ⟨(wDev), by decide +kernel⟩
  · exact ⟨(wDev.setReg Reg.REP_CTRL 0), by decide +kernel⟩

/-- What `Obligations.ResetState` supposes can be met. -/
theorem witness_ResetState :
    (∃ (off : Nat) (r : RegRow), (regRowAt off = some r)) := by
  refine ⟨(Reg.FLT_CTRL), ?_⟩
  apply Exists.intro
  exact opt_some _ (by decide +kernel)

/-- What `Obligations.WriteFollowsAccessCodes` supposes can be met. -/
theorem witness_WriteFollowsAccessCodes :
    (∃ (i : Nat), (i < 64)) ∧
    (∃ (off : Nat) (r : RegRow) (i : Nat), (regRowAt off = some r) ∧ (∀ f, f ∈ r.fields → f.acc ≠ .wo → i < f.lo ∨ f.lo + f.w ≤ i)) ∧
    (∃ (r : RegRow) (i : Nat), (∀ f, f ∈ r.fields → i < f.lo ∨ f.lo + f.w ≤ i)) := by
  refine ⟨?_, ?_, ?_⟩
  · exact ⟨(63), by decide +kernel⟩
  · exact ⟨(Reg.FLT_CTRL), ((regRowAt Reg.FLT_CTRL).get (by decide +kernel)), (63), by decide +kernel⟩
  · exact ⟨((regRowAt Reg.FLT_CTRL).get (by decide +kernel)), (63), by decide +kernel⟩

/-- What `Obligations.RingSizesOutOfRangeAreDiscarded` supposes can be met. -/
theorem witness_RingSizesOutOfRangeAreDiscarded :
    (∃ (v : Word), (bits v 52 48 < 6 ∨ 16 < bits v 52 48)) ∧
    (∃ (v : Word) (d : Device) (s : State), (bits v 52 48 < 6 ∨ 16 < bits v 52 48) ∧ (s.dev = d)) ∧
    (∃ (v : Word) (c : Nat), (c < 64) ∧ (bits v 4 0 < 6 ∨ 16 < bits v 4 0)) ∧
    (∃ (v : Word), (bits v 4 0 < 6 ∨ 12 < bits v 4 0)) ∧
    (∃ (v : Word) (d : Device) (s : State), (bits v 4 0 < 6 ∨ 12 < bits v 4 0) ∧ (s.dev = d)) ∧
    (∃ (v : Word), (bits v 3 0 < 6 ∨ 14 < bits v 3 0)) ∧
    (∃ (v : Word), (bits v 3 0 < 7 ∨ 14 < bits v 3 0)) := by
  refine ⟨?_, ?_, ?_, ?_, ?_, ?_, ?_⟩
  · exact ⟨(0x0011000000000000), by decide +kernel⟩
  · exact ⟨(0x0005000000000000), (wDev), (wS wDev), by decide +kernel⟩
  · exact ⟨(5), (63), by decide +kernel⟩
  · exact ⟨(13), by decide +kernel⟩
  · exact ⟨(5), (wDev), (wS wDev), by decide +kernel⟩
  · exact ⟨(15), by decide +kernel⟩
  · exact ⟨(6), by decide +kernel⟩

/-- What `Obligations.ControlWindowAccesses` supposes can be met. -/
theorem witness_ControlWindowAccesses :
    (∃ (qpn : Nat) (rkey : BitVec 32) (off : Nat) (vs : List Word) (s : State), s.dev.ControlOpen qpn rkey ∧ (off % 8 = 0) ∧ (vs ≠ []) ∧ (off + 8 * vs.length ≤ windowSize)) ∧
    (∃ (h : MgmtHdr) (off : Nat) (vs : List Word) (s : State), s.dev.AdmitsAccess h false ∧ (off % 8 = 0) ∧ (vs ≠ []) ∧ (off + 8 * vs.length ≤ windowSize)) ∧
    (∃ (off : Nat) (v : Word) (d : Device) (r : RegRow), (d.windowOpen off = true) ∧ (regRowAt off = some r) ∧ (off ∈ [Reg.EAVE_POLL, Reg.THT_CTRL, Reg.ATN_CTRL, Reg.CRS_CTRL, Reg.XLT_CTRL, Reg.MEM_CTRL, Reg.LNK_CTRL, Reg.COL_CTRL, Reg.FLT_CTRL, Reg.REP_CTRL, Reg.MTR_CTRL]) ∧ (r.written (d.reg off) v ≠ d.reg off)) ∧
    (∃ (qpn : Nat) (rkey : BitVec 32) (off : Nat) (s : State), s.dev.ControlOpen qpn rkey ∧ (off % 8 = 0) ∧ (off + 8 ≤ windowSize) ∧ (regRowAt off = none) ∧ (s.dev.windowOpen off = true)) ∧
    (∃ (h : MgmtHdr) (off : Nat) (s : State), (off % 8 = 0) ∧ (off + 8 ≤ windowSize) ∧ (regRowAt off = none) ∧ (s.dev.windowOpen off = true) ∧ s.dev.AdmitsAccess h true) ∧
    (∃ (h : MgmtHdr) (off : Nat) (s : State), (off % 8 = 0) ∧ (off + 8 ≤ windowSize) ∧ (regRowAt off = none) ∧ (s.dev.windowOpen off = true) ∧ s.dev.AdmitsAccess h false) ∧
    (∃ (off : Nat) (s : State) (qpn : Nat) (rkey : BitVec 32), (off % 8 = 0) ∧ (flsClosed off = true) ∧ (s.dev.windowOpen off = true) ∧ s.dev.ControlOpen qpn rkey) ∧
    (∃ (off : Nat) (s : State) (h : MgmtHdr), (off % 8 = 0) ∧ (flsClosed off = true) ∧ (s.dev.windowOpen off = true) ∧ s.dev.AdmitsAccess h false) := by
  refine ⟨?_, ?_, ?_, ?_, ?_, ?_, ?_, ?_⟩
  · exact ⟨(1), (0x11), (windowSize - 16), ([1, 2]), (wS wDev), by decide +kernel⟩
  · exact ⟨(wHdr), (windowSize - 8), ([1]), (wS wDev), by decide +kernel⟩
  · exact ⟨(Reg.MTR_CTRL), (3), (wDev), ((regRowAt Reg.MTR_CTRL).get (by decide +kernel)), by decide +kernel⟩
  · exact ⟨(1), (0x11), (windowSize - 8), (wS wDev), by decide +kernel⟩
  · exact ⟨(wHdr), (windowSize - 8), (wS wDev), by decide +kernel⟩
  · exact ⟨(wHdr), (windowSize - 8), (wS wDev), by decide +kernel⟩
  · exact ⟨(0xC00000), (wS wDev), (1), (0x11), by decide +kernel⟩
  · exact ⟨(0xC00000), (wS wDev), (wHdr), by decide +kernel⟩

/-- What `Obligations.MisalignedAccessIsRefused` supposes can be met. -/
theorem witness_MisalignedAccessIsRefused :
    (∃ (qpn : Nat) (off : Nat) (len : Nat) (s : State), (s.dev.qpOn qpn = true) ∧ (off % 8 ≠ 0 ∨ len % 8 ≠ 0 ∨ len = 0)) ∧
    (∃ (h : MgmtHdr) (w : Bool) (off : Nat) (len : Nat) (s : State), s.dev.AdmitsAccess h (!w) ∧ (off % 8 ≠ 0 ∨ len % 8 ≠ 0 ∨ len = 0)) := by
  refine ⟨?_, ?_⟩
  · exact ⟨(1), (8), (4), (wS wDev), by decide +kernel⟩
  · exact ⟨(wHdr), (true), (4), (8), (wS wDev), by decide +kernel⟩

/-- What `Obligations.RegisterRuns` supposes can be met. -/
theorem witness_RegisterRuns :
    (∃ (qpn : Nat) (rkey : BitVec 32) (off : Nat) (n : Nat) (s : State), s.dev.ControlOpen qpn rkey ∧ (off % 8 = 0) ∧ (0 < n) ∧ (off + 8 * n ≤ windowSize)) ∧
    (∃ (h : MgmtHdr) (off : Nat) (n : Nat) (s : State), s.dev.AdmitsAccess h true ∧ (off % 8 = 0) ∧ (0 < n) ∧ (n ≤ 64) ∧ (off + 8 * n ≤ windowSize)) ∧
    (∃ (h : MgmtHdr) (off : Nat) (vs : List Word) (s : State), s.dev.AdmitsAccess h false ∧ (off % 8 = 0) ∧ (vs ≠ []) ∧ (vs.length ≤ 64) ∧ (off + 8 * vs.length ≤ windowSize)) ∧
    (∃ (h : MgmtHdr) (n : Nat) (vs : List Word) (s : State) (k : Kept), (s.dev.mgmtOn h.port = true) ∧ (mgmtMalformed h = false) ∧ (s.dev.fls.kept.find? (fun k => k.src == h.src && k.seq == h.seq) = some k) ∧ (0 < n) ∧ (n ≤ 64) ∧ (vs.length = n)) ∧
    (∃ (h : MgmtHdr) (s : State), (s.dev.mgmtOn h.port = true) ∧ (mgmtMalformed h = false) ∧ (s.dev.fls.kept.find? (fun k => k.src == h.src && k.seq == h.seq) = none) ∧ (s.dev.mgmtBarred h false = true)) := by
  refine ⟨?_, ?_, ?_, ?_, ?_⟩
  · exact ⟨(1), (0x11), (windowSize - 16), (2), (wS wDev), by decide +kernel⟩
  · exact ⟨(wHdr), (windowSize - 512), (64), (wS wDev), by decide +kernel⟩
  · exact ⟨(wHdr), (0), ([1]), (wS wDev), by decide +kernel⟩
  · refine ⟨(wHdr), (64), (List.replicate 64 0), (wS { wDev with fls := { wDev.fls with kept := [⟨7, 1, 0, [], []⟩] } }), ?_⟩
    apply Exists.intro
    refine ⟨?_, ?_, ?_, ?_, ?_, ?_⟩
    · decide +kernel
    · decide +kernel
    · exact opt_some _ (by decide +kernel)
    · decide +kernel
    · decide +kernel
    · decide +kernel
  · exact ⟨(wHdr), (wS { wDev with fls := { wDev.fls with managers := [(0, 8)] } }), by decide +kernel⟩

/-- What `Obligations.PowerAndThermalControls` supposes can be met. -/
theorem witness_PowerAndThermalControls :
    (∃ (d : Device) (t : Nat) (dir : ClockDir), (tget (d.moveClock t dir).clk.mhz t 0 ≠ tget d.clk.mhz t 0) ∧ (t < 16)) ∧
    (∃ (t : Nat) (u : Nat), (u ≠ t)) ∧
    (∃ (watts : Nat) (s : State), s.dev.Up ∧ (s.dev.fls.restarting = false) ∧ (s.dev.powerLimit < watts)) ∧
    (∃ (t : Truss) (watts : Nat) (s : State), s.dev.Up ∧ (s.dev.fls.restarting = false) ∧ (watts ≤ s.dev.powerLimit) ∧ (s.dev.clk.powerHeld.toNat.testBit t = true) ∧ (s.dev.clk.thermHeld.toNat.testBit (t / 4) = false)) ∧
    (∃ (celsius : Nat) (s : State), s.dev.Up ∧ (s.dev.fls.restarting = false) ∧ (105 < celsius) ∧ (celsius < 115)) ∧
    (∃ (i : Tile) (celsius : Nat) (s : State), s.dev.Up ∧ (s.dev.fls.restarting = false) ∧ (s.dev.clk.thermHeld.toNat.testBit i = true) ∧ (celsius ≤ 102) ∧ (thas s.dev.clk.coolSince i = true) ∧ (tget s.dev.clk.coolSince i 0 + 10000000 ≤ s.dev.now)) ∧
    (∃ (s : State), s.dev.Up ∧ (s.dev.clk.coreOk = true)) ∧
    (∃ (s : State), s.dev.Up) := by
  refine ⟨?_, ?_, ?_, ?_, ?_, ?_, ?_, ?_⟩
  · exact ⟨(wDev), (15), (.down), by decide +kernel⟩
  · exact ⟨(0), (1), by decide +kernel⟩
  · exact ⟨(1801), (wS wDev), by decide +kernel⟩
  · exact ⟨(0), (1800), (wS { wDev with clk := { wDev.clk with powerHeld := 1, coolSince := [(1, 4990000000)], thermHeld := 2 } }), by decide +kernel⟩
  · exact ⟨(114), (wS wDev), by decide +kernel⟩
  · exact ⟨(1), (102), (wS { wDev with clk := { wDev.clk with powerHeld := 1, coolSince := [(1, 4990000000)], thermHeld := 2 } }), by decide +kernel⟩
  · exact ⟨(wS wDev), by decide +kernel⟩
  · exact ⟨(wS wDev), by decide +kernel⟩

/-- What `Obligations.SoffitAndPatrol` supposes can be met. -/
theorem witness_SoffitAndPatrol :
    (∃ (word : Nat), (32 * word < loftSize)) ∧
    (∃ (t : Truss) (word : Nat) (s : State), (32 * word < loftSize) ∧ (s.dev.inSoffitRegion t (32 * word) = true)) ∧
    (∃ (t : Truss) (word : Nat) (s : State), (32 * word < loftSize) ∧ (s.dev.inSoffitRegion t (32 * word) = false) ∧ (s.dev.loftBad.contains (t.val, word) = false)) ∧
    (∃ (t : Truss) (v : Word) (c : Soffit) (lock : Nat) (s : State), s.dev.Up ∧ (s.dev.sof t = c) ∧ (v.toNat % 2 ^ 16 &&& c.wayMask = lock)) ∧
    (∃ (t : Truss) (v : Word) (c : Soffit) (lock : Nat) (s : State), s.dev.Up ∧ (s.dev.sof t = c) ∧ (v.toNat % 2 ^ 16 &&& c.wayMask = lock) ∧ (bit v 63 = true) ∧ (c.enabled = true) ∧ (c.disabling = false) ∧ (c.preload = none) ∧ (bits v 16 0 ≤ 65536) ∧ (bits v 47 32 &&& c.wayMask ≠ 0)) ∧
    (∃ (t : Truss) (v : Word) (c : Soffit) (lock : Nat) (s : State), s.dev.Up ∧ (s.dev.sof t = c) ∧ (v.toNat % 2 ^ 16 &&& c.wayMask = lock) ∧ (bit v 63 = true) ∧ (c.enabled = false ∨ c.disabling = true ∨ c.preload.isSome = true ∨ bits v 47 32 &&& c.wayMask = 0 ∨ 65536 < bits v 16 0)) ∧
    (∃ (t : Truss) (v : Word) (c : Soffit) (lock : Nat) (s : State), s.dev.Up ∧ (s.dev.sof t = c) ∧ (v.toNat % 2 ^ 16 &&& c.wayMask = lock) ∧ (bit v 0 = false) ∧ (c.preload = none)) ∧
    (∃ (t : Truss) (v : Word) (c : Soffit) (lock : Nat) (s : State), s.dev.Up ∧ (s.dev.sof t = c) ∧ (v.toNat % 2 ^ 16 &&& c.wayMask = lock) ∧ (bit v 0 = true) ∧ (c.ways ≠ 0) ∧ (c.inv ≠ 0)) ∧
    (∃ (t : Truss) (v : Word) (c : Soffit) (lock : Nat) (s : State), s.dev.Up ∧ (s.dev.sof t = c) ∧ (v.toNat % 2 ^ 16 &&& c.wayMask = lock) ∧ (bit v 0 = true) ∧ (c.ways ≠ 0) ∧ (c.inv = 0)) ∧
    (∃ (t : Truss) (v : Word) (c : Soffit) (lock : Nat) (s : State), s.dev.Up ∧ (s.dev.sof t = c) ∧ (v.toNat % 2 ^ 16 &&& c.wayMask = lock) ∧ (c.inv = 0)) ∧
    (∃ (t : Truss) (mshr : Nat) (m : SofMiss) (bs : List Byte) (c : Soffit) (c' : Soffit) (d : Device) (s : State), ((s.dev.sof t).misses.find? (fun n => n.id == mshr) = some m) ∧ (m.data = some bs) ∧ (m.noInstall = false) ∧ ((s.dev.sof t).active = true) ∧ (m.waiters = []) ∧ (c'.missWait = []) ∧ ({ s.dev.sof t with misses := (s.dev.sof t).misses.filter (fun n => n.id != mshr) } = c) ∧ (s.dev.setSof t c = d) ∧ (c.install m.line (d.fillWays t m.ctx) bs = some c')) ∧
    (∃ (t : Truss) (mshr : Nat) (m : SofMiss) (c : Soffit) (s : State), ((s.dev.sof t).misses.find? (fun n => n.id == mshr) = some m) ∧ (m.noInstall = true ∨ m.data = none) ∧ (m.waiters = []) ∧ ((s.dev.sof t).missWait = []) ∧ ({ s.dev.sof t with misses := (s.dev.sof t).misses.filter (fun n => n.id != mshr) } = c)) ∧
    (∃ (t : Truss) (p : SofPreload) (line : Nat) (n : Nat) (rest : List (Nat × Nat)) (bs : List Byte) (d : Device) (s : State), ((s.dev.sof t).preload = some p) ∧ ((s.dev.sof t).inv = 0) ∧ (p.runs = (line, n) :: rest) ∧ (s.dev.hbm.allReachable (line * 128) 128 = true) ∧ ((s.dev.sof t).find? line = none) ∧ (s.dev.readLine (if p.job.isSome then 2 else 0) p.acct line = (d, some bs)) ∧ (nextRuns p.runs ≠ [])) ∧
    (∃ (t : Truss) (s : State), ((s.dev.sof t).inv ≠ 0)) := by
  refine ⟨?_, ?_, ?_, ?_, ?_, ?_, ?_, ?_, ?_, ?_, ?_, ?_, ?_, ?_⟩
  · exact ⟨(1048575), by decide +kernel⟩
  · exact ⟨(0), (64 * 8192), (wS wDev), by decide +kernel⟩
  · exact ⟨(0), (0), (wS wDev), by decide +kernel⟩
  · refine ⟨0, 0, ?_⟩
    apply Exists.intro
    apply Exists.intro
    refine ⟨(wS wDev), ?_, ?_, ?_⟩
    · decide +kernel
    · exact rfl
    · exact rfl
  · refine ⟨(0), (0x8000000100010000), (wSof), ?_⟩
    apply Exists.intro
    refine ⟨(wS (wDev.setSof 0 wSof)), ?_, ?_, ?_, ?_, ?_, ?_, ?_, ?_, ?_⟩
    · decide +kernel
    · decide +kernel
    · exact rfl
    · decide +kernel
    · decide +kernel
    · decide +kernel
    · decide +kernel
    · decide +kernel
    · decide +kernel
  · refine ⟨(0), (0x8000000100010001), (wSof), ?_⟩
    apply Exists.intro
    refine ⟨(wS (wDev.setSof 0 wSof)), ?_, ?_, ?_, ?_, ?_⟩
    · decide +kernel
    · decide +kernel
    · exact rfl
    · decide +kernel
    · decide +kernel
  · refine ⟨(0), (0), (wSof), ?_⟩
    apply Exists.intro
    refine ⟨(wS (wDev.setSof 0 wSof)), ?_, ?_, ?_, ?_, ?_⟩
    · decide +kernel
    · decide +kernel
    · exact rfl
    · decide +kernel
    · decide +kernel
  · refine ⟨(0), (1), ({ wSof with inv := 1 }), ?_⟩
    apply Exists.intro
    refine ⟨(wS (wDev.setSof 0 { wSof with inv := 1 })), ?_, ?_, ?_, ?_, ?_, ?_⟩
    · decide +kernel
    · decide +kernel
    · exact rfl
    · decide +kernel
    · decide +kernel
    · decide +kernel
  · refine ⟨(0), (1), (wSof), ?_⟩
    apply Exists.intro
    refine ⟨(wS (wDev.setSof 0 wSof)), ?_, ?_, ?_, ?_, ?_, ?_⟩
    · decide +kernel
    · decide +kernel
    · exact rfl
    · decide +kernel
    · decide +kernel
    · decide +kernel
  · refine ⟨(0), 0, (wSof), ?_⟩
    apply Exists.intro
    refine ⟨(wS (wDev.setSof 0 wSof)), ?_, ?_, ?_, ?_⟩
    · decide +kernel
    · decide +kernel
    · exact rfl
    · decide +kernel
  · refine ⟨(0), (4), (wMiss), (List.replicate 128 3), ?_⟩
    apply Exists.intro
    refine ⟨((wSof.install 9 15 (List.replicate 128 3)).get (by decide +kernel)), ?_⟩
    apply Exists.intro
    refine ⟨(wS (wDev.setSof 0 { wSof with misses := [wMiss] })), ?_, ?_, ?_, ?_, ?_, ?_, ?_, ?_, ?_⟩
    · decide +kernel
    · decide +kernel
    · decide +kernel
    · decide +kernel
    · decide +kernel
    · decide +kernel
    · exact rfl
    · exact rfl
    · decide +kernel
  · refine ⟨(0), (4), ({ wMiss with noInstall := true }), ?_⟩
    apply Exists.intro
    refine ⟨(wS (wDev.setSof 0 { wSof with misses := [{ wMiss with noInstall := true }] })), ?_, ?_, ?_, ?_, ?_⟩
    · decide +kernel
    · decide +kernel
    · decide +kernel
    · decide +kernel
    · exact rfl
  · refine ⟨(0), (⟨[(5, 2)], 1, none, 0, 0⟩), (5), (2), ([]), ?_⟩
    apply Exists.intro
    apply Exists.intro
    refine ⟨(wS (wDev.setSof 0 { wSof with preload := some ⟨[(5, 2)], 1, none, 0, 0⟩ })), ?_, ?_, ?_, ?_, ?_, ?_, ?_⟩
    · decide +kernel
    · decide +kernel
    · decide +kernel
    · decide +kernel
    · decide +kernel
    · exact pair_some _ (by decide +kernel)
    · decide +kernel
  · exact ⟨(0), (wS (wDev.setSof 0 { wSof with inv := 1, deferredEnable := true })), by decide +kernel⟩

/-- What `Obligations.HodTransfers` supposes can be met. -/
theorem witness_HodTransfers :
    (∃ (t : Truss) (j : Job) (d : Device) (bs : List Byte) (w : List Word) (s : State), (s.dev.active? (.hod t) = some j) ∧ (j.run = .none) ∧ (j.cmd.c1.toNat % 8 = 0) ∧ (s.dev.ptrLoad j.ctx t (unitCode t 1) true j.cmd.c1 128 = (d, .ok bs)) ∧ (bytesWords bs = w) ∧ (hodRefusal w (d.trussSt t).hodCaps.toNat = none) ∧ (hodTotal w = 0 ∨ hodN0 w = 0)) ∧
    (∃ (t : Truss) (j : Job) (d : Device) (bs : List Byte) (w : List Word) (s : State), (s.dev.active? (.hod t) = some j) ∧ (j.run = .none) ∧ (j.cmd.c1.toNat % 8 = 0) ∧ (s.dev.ptrLoad j.ctx t (unitCode t 1) true j.cmd.c1 128 = (d, .ok bs)) ∧ (bytesWords bs = w) ∧ (hodRefusal w (d.trussSt t).hodCaps.toNat = none) ∧ (hodTotal w ≠ 0) ∧ (hodN0 w ≠ 0) ∧ (hodLoft w false = false ∨ d.hodFar w false = none) ∧ (hodLoft w true = false ∨ d.hodFar w true = none)) ∧
    (∃ (t : Truss) (u : Upset) (j : Job) (w : List Word) (row : Nat) (piece : Nat) (a : Nat) (b : Nat) (fs : List (Nat × List Byte)) (again : Bool) (x : HodUnit) (o : HodOut) (d1 : Device) (d2 : Device) (d3 : Device) (d4 : Device) (d5 : Device) (d6 : Device) (d7 : Device) (first : List (List Byte)) (got : List (List Byte)) (fit : List (Nat × Int × List Byte)) (rest : List (Nat × Int × List Byte)) (s : State), (s.dev.active? (.hod t) = some j) ∧ (j.run = .hod w row piece a b fs [] again) ∧ (row < hodTotal w) ∧ (s.dev.unsent j.id = false) ∧ (hodUnit w row piece = x) ∧ (s.dev.hodFetch j t w row x fs = (d1, true)) ∧ ((if hodTwice w then d1.hodReadAll j.ctx t w fs (hodReads w row x) else (d1, .ok [])) = (d2, .ok first)) ∧ (d2.hodReadAll j.ctx t w fs.reverse (hodReads w row x) = (d3, .ok got)) ∧ (hodSkew w x got = none) ∧ (d3.residue j (.hod t) u = (d4, true)) ∧ (hodConvert (d4.fls.silicon == 0xA1) w a b x got = o) ∧ ((if again then d4 else (d4.hodCount t o.tally).report j.id o.tally.report) = d5) ∧ (splitStores 4096 (hodStores w row x o) = (fit, rest)) ∧ ((d5.mapJob j.id (fun j => { j with run := .hod w row piece a b fs [] true })).hodWriteAll j t w fit = (d6, .ok ())) ∧ (d6.charge j.ctx .hodKib (fit.foldl (fun n y => n + y.2.2.length) 0) t = d7) ∧ (rest ≠ [])) ∧
    (∃ (t : Truss) (u : Upset) (j : Job) (w : List Word) (row : Nat) (piece : Nat) (a : Nat) (b : Nat) (fs : List (Nat × List Byte)) (again : Bool) (x : HodUnit) (o : HodOut) (d1 : Device) (d2 : Device) (d3 : Device) (d4 : Device) (d5 : Device) (d6 : Device) (d7 : Device) (first : List (List Byte)) (got : List (List Byte)) (fit : List (Nat × Int × List Byte)) (rest : List (Nat × Int × List Byte)) (s : State) (e : Device), (s.dev.active? (.hod t) = some j) ∧ (j.run = .hod w row piece a b fs [] again) ∧ (row < hodTotal w) ∧ (s.dev.unsent j.id = false) ∧ (hodUnit w row piece = x) ∧ (s.dev.hodFetch j t w row x fs = (d1, true)) ∧ ((if hodTwice w then d1.hodReadAll j.ctx t w fs (hodReads w row x) else (d1, .ok [])) = (d2, .ok first)) ∧ (d2.hodReadAll j.ctx t w fs.reverse (hodReads w row x) = (d3, .ok got)) ∧ (hodSkew w x got = none) ∧ (d3.residue j (.hod t) u = (d4, true)) ∧ (hodConvert (d4.fls.silicon == 0xA1) w a b x got = o) ∧ ((if again then d4 else (d4.hodCount t o.tally).report j.id o.tally.report) = d5) ∧ (splitStores 4096 (hodStores w row x o) = (fit, rest)) ∧ ((d5.mapJob j.id (fun j => { j with run := .hod w row piece a b fs [] true })).hodWriteAll j t w fit = (d6, .ok ())) ∧ (d6.charge j.ctx .hodKib (fit.foldl (fun n y => n + y.2.2.length) 0) t = d7) ∧ (rest = []) ∧ (d7.mapJob j.id (fun j => { j with run := .hod w (hodNext w row piece).1 (hodNext w row piece).2 a b [] [] false }) = e)) ∧
    (∃ (t : Truss) (j : Job) (w : List Word) (row : Nat) (piece : Nat) (a : Nat) (b : Nat) (fs : List (Nat × List Byte)) (again : Bool) (left : List (Nat × Int × List Byte)) (fit : List (Nat × Int × List Byte)) (rest : List (Nat × Int × List Byte)) (d6 : Device) (d7 : Device) (s : State), (s.dev.active? (.hod t) = some j) ∧ (j.run = .hod w row piece a b fs left again) ∧ (row < hodTotal w) ∧ (left ≠ []) ∧ (s.dev.unsent j.id = false) ∧ (splitStores 4096 left = (fit, rest)) ∧ (rest ≠ []) ∧ (s.dev.hodWriteAll j t w fit = (d6, .ok ())) ∧ (d6.charge j.ctx .hodKib (fit.foldl (fun n y => n + y.2.2.length) 0) t = d7)) ∧
    (∃ (t : Truss) (j : Job) (w : List Word) (row : Nat) (piece : Nat) (a : Nat) (b : Nat) (fs : List (Nat × List Byte)) (again : Bool) (left : List (Nat × Int × List Byte)) (s : State), (s.dev.active? (.hod t) = some j) ∧ (j.run = .hod w row piece a b fs left again) ∧ (row < hodTotal w) ∧ (s.dev.unsent j.id = true)) ∧
    (∃ (rtag : Nat) (r : Remote) (s : State), (s.dev.remote? rtag = some r) ∧ (r.kind = 1)) ∧
    (∃ (rtag : Nat) (s : State), (s.dev.remote? rtag = none)) ∧
    (∃ (rtag : Nat) (r : Remote) (s : State), (s.dev.remote? rtag = some r) ∧ (r.kind = 2)) ∧
    (∃ (t : Truss) (r : Remote) (s : State), (s.dev.remotes.find? (fun r => r.truss == t.val && (r.kind == 1 || r.kind == 2) && r.late s.dev.now) = some r)) ∧
    (∃ (p : Packet) (s : State), s.dev.Up ∧ (s.dev.tenantOk p = false)) ∧
    (∃ (p : Packet) (d : Device) (bs : List Byte) (s : State), s.dev.Up ∧ (s.dev.tenantOk p = true) ∧ (s.dev.vload p.ctx 16 0 p.addr.toNat p.len = (d, .ok bs))) ∧
    (∃ (p : Packet) (d : Device) (s : State), s.dev.Up ∧ (s.dev.tenantOk p = true) ∧ (s.dev.vstore p.ctx 16 0 p.addr.toNat p.payload = (d, .ok ()))) ∧
    (∃ (p : Packet) (n : Nat) (tb : Table) (b : Bool) (sub : Nat) (l : Nat) (home : Nat) (a : Nat) (tag : Nat) (q : Nat × Nat) (d : Device) (e : Device) (ps : List (Nat × Nat)) (r : RowReq) (s : State) (ls : List Nat), s.dev.Up ∧ (s.dev.tableOf p.tgid = some (n, tb)) ∧ (s.dev.tableExpelled n = false) ∧ (tb.tenant = p.tenant) ∧ (tb.slotOfGen p.gen [vStandby, vCurrent, vRetiring] = some b) ∧ (tb.rowOfNo (bits p.addr 39 0) = q) ∧ (tb.place q.2 = some (sub, l)) ∧ (l < tb.nlocal) ∧ (s.dev.homeOf tb = home) ∧ (tb.rowAddr b q.1 l = a) ∧ (s.dev.translateAll tb.ctx home (unitCode home 8) false (pieces (2 ^ 21) a (if tb.cache then tb.rowLen else tb.readLen)) = (d, .ok ps)) ∧ (d.newTag = (tag, e)) ∧ (({ tag := tag, job := 0, truss := home, bag := 0, pos := 0, sub := q.1, addr := (ps.headD (0, 0)).1, len := tb.rowLen, lines := [], ctx := tb.ctx, va := a, serve := some { p with kind := 1 } } : RowReq) = r) ∧ (tb.cache = true) ∧ (ps.flatMap (fun p => (pieces 128 p.1 p.2).map (fun y => y.1 / 128)) = ls)) ∧
    (∃ (p : Packet) (n : Nat) (tb : Table) (b : Bool) (sub : Nat) (l : Nat) (home : Nat) (a : Nat) (tag : Nat) (q : Nat × Nat) (d : Device) (e : Device) (ps : List (Nat × Nat)) (r : RowReq) (s : State) (f : Device) (bs : List Byte), s.dev.Up ∧ (s.dev.tableOf p.tgid = some (n, tb)) ∧ (s.dev.tableExpelled n = false) ∧ (tb.tenant = p.tenant) ∧ (tb.slotOfGen p.gen [vStandby, vCurrent, vRetiring] = some b) ∧ (tb.rowOfNo (bits p.addr 39 0) = q) ∧ (tb.place q.2 = some (sub, l)) ∧ (l < tb.nlocal) ∧ (s.dev.homeOf tb = home) ∧ (tb.rowAddr b q.1 l = a) ∧ (s.dev.translateAll tb.ctx home (unitCode home 8) false (pieces (2 ^ 21) a (if tb.cache then tb.rowLen else tb.readLen)) = (d, .ok ps)) ∧ (d.newTag = (tag, e)) ∧ (({ tag := tag, job := 0, truss := home, bag := 0, pos := 0, sub := q.1, addr := (ps.headD (0, 0)).1, len := tb.rowLen, lines := [], ctx := tb.ctx, va := a, serve := some { p with kind := 1 } } : RowReq) = r) ∧ (tb.cache = false) ∧ (e.readRow tb.ctx ps = (f, some bs))) ∧
    (∃ (d : Device) (r : RowReq) (p : Packet) (bs : List Byte), (d.rowReqs.filter (fun r => r.serve.isSome && r.settled) = [r]) ∧ (r.serve = some p) ∧ (r.bytes = some bs)) := by
  refine ⟨?_, ?_, ?_, ?_, ?_, ?_, ?_, ?_, ?_, ?_, ?_, ?_, ?_, ?_, ?_, ?_⟩
  · refine ⟨(0), (wTask (.hod 0) 0x100 .none), ?_⟩
    apply Exists.intro
    apply Exists.intro
    apply Exists.intro
    refine ⟨(wS (withLoft (wRun (.hod 0) 0x100 .none) 0x100 (wXfer 0 1))), ?_, ?_, ?_, ?_, ?_, ?_, ?_⟩
    · decide +kernel
    · decide +kernel
    · decide +kernel
    · exact got_ok _ (by decide +kernel)
    · exact rfl
    · decide +kernel
    · decide +kernel
  · refine ⟨(0), (wTask (.hod 0) 0x100 .none), ?_⟩
    apply Exists.intro
    apply Exists.intro
    apply Exists.intro
    refine ⟨(wS (withLoft (wRun (.hod 0) 0x100 .none) 0x100 (wXfer 64 2))), ?_, ?_, ?_, ?_, ?_, ?_, ?_, ?_, ?_, ?_⟩
    · decide +kernel
    · decide +kernel
    · decide +kernel
    · exact got_ok _ (by decide +kernel)
    · exact rfl
    · decide +kernel
    · decide +kernel
    · decide +kernel
    · decide +kernel
    · decide +kernel
  · refine ⟨(0), (.none), (wTask (.hod 0) 0 (.hod wAcc 0 0 1 1 [] [] false)), (wAcc), (0), (0), (1), (1), ([]), (false), ?_⟩
    apply Exists.intro
    apply Exists.intro
    apply Exists.intro
    apply Exists.intro
    apply Exists.intro
    apply Exists.intro
    apply Exists.intro
    apply Exists.intro
    apply Exists.intro
    apply Exists.intro
    apply Exists.intro
    apply Exists.intro
    apply Exists.intro
    refine ⟨(wS (wRun (.hod 0) 0 (.hod wAcc 0 0 1 1 [] [] false))), ?_, ?_, ?_, ?_, ?_, ?_, ?_, ?_, ?_, ?_, ?_, ?_, ?_, ?_, ?_, ?_⟩
    · decide +kernel
    · decide +kernel
    · decide +kernel
    · decide +kernel
    · exact rfl
    · exact pair_bool _ (by decide +kernel)
    · exact got_ok _ (by decide +kernel)
    · exact got_ok _ (by decide +kernel)
    · decide +kernel
    · exact pair_bool _ (by decide +kernel)
    · exact rfl
    · exact rfl
    · exact pair_eta _
    · exact got_unit _ (by decide +kernel)
    · exact rfl
    · decide +kernel
  · refine ⟨(0), (.none), (wTask (.hod 0) 0 (.hod (wXfer 64 2) 1 0 1 1 [] [] false)), (wXfer 64 2), (1), (0), (1), (1), ([]), (false), ?_⟩
    apply Exists.intro
    apply Exists.intro
    apply Exists.intro
    apply Exists.intro
    apply Exists.intro
    apply Exists.intro
    apply Exists.intro
    apply Exists.intro
    apply Exists.intro
    apply Exists.intro
    apply Exists.intro
    apply Exists.intro
    apply Exists.intro
    refine ⟨(wS (wRun (.hod 0) 0 (.hod (wXfer 64 2) 1 0 1 1 [] [] false))), ?_⟩
    apply Exists.intro
    refine ⟨?_, ?_, ?_, ?_, ?_, ?_, ?_, ?_, ?_, ?_, ?_, ?_, ?_, ?_, ?_, ?_, ?_⟩
    · decide +kernel
    · decide +kernel
    · decide +kernel
    · decide +kernel
    · exact rfl
    · exact pair_bool _ (by decide +kernel)
    · exact got_ok _ (by decide +kernel)
    · exact got_ok _ (by decide +kernel)
    · decide +kernel
    · exact pair_bool _ (by decide +kernel)
    · exact rfl
    · exact rfl
    · exact pair_eta _
    · exact got_unit _ (by decide +kernel)
    · exact rfl
    · decide +kernel
    · exact rfl
  · refine ⟨(0), (wTask (.hod 0) 0 (.hod (wXfer 64 2) 1 0 1 1 [] [(2, 0, List.replicate 5000 1)] false)), (wXfer 64 2), (1), (0), (1), (1), ([]), (false), ([(2, 0, List.replicate 5000 1)]), ?_⟩
    apply Exists.intro
    apply Exists.intro
    apply Exists.intro
    apply Exists.intro
    refine ⟨(wS (wRun (.hod 0) 0 (.hod (wXfer 64 2) 1 0 1 1 [] [(2, 0, List.replicate 5000 1)] false))), ?_, ?_, ?_, ?_, ?_, ?_, ?_, ?_, ?_⟩
    · exact rfl
    · exact rfl
    · decide +kernel
    · decide +kernel
    · decide +kernel
    · exact pair_eta _
    · decide +kernel
    · exact got_unit _ (by decide +kernel)
    · exact rfl
  · exact ⟨(0), (wTask (.hod 0) 0 (.hod (wXfer 64 2) 1 0 1 1 [] [] false)), (wXfer 64 2), (1), (0), (1), (1), ([]), (false), ([]), (wS { wRun (.hod 0) 0 (.hod (wXfer 64 2) 1 0 1 1 [] [] false) with remotes := [{ wRemote 2 with deadline := none }] }), by decide +kernel⟩
  · exact ⟨(6), (wRemote 1), (wS { wRun (.hod 0) 0 .none with remotes := [wRemote 1] }), by decide +kernel⟩
  · exact ⟨(7), (wS { wRun (.hod 0) 0 .none with remotes := [wRemote 1] }), by decide +kernel⟩
  · exact ⟨(6), (wRemote 2), (wS { wRun (.hod 0) 0 .none with remotes := [wRemote 2] }), by decide +kernel⟩
  · exact ⟨(0), (wRemote 2), (wS { wRun (.hod 0) 0 .none with remotes := [wRemote 2] }), by decide +kernel⟩
  · exact ⟨({ wPkt 3 with tenant := 4 }), (wS wDev), by decide +kernel⟩
  · refine ⟨(wPkt 3), ?_⟩
    apply Exists.intro
    apply Exists.intro
    refine ⟨(wS wDev), ?_, ?_, ?_⟩
    · decide +kernel
    · decide +kernel
    · exact got_ok _ (by decide +kernel)
  · refine ⟨(wPkt 5), ?_⟩
    apply Exists.intro
    refine ⟨(wS wDev), ?_, ?_, ?_⟩
    · decide +kernel
    · decide +kernel
    · exact got_unit _ (by decide +kernel)
  · refine ⟨({ wPkt 1 with addr := 15 }), (0), ({ wTable with desc := 0x0000004D00401011 :: wTable.desc.drop 1 }), (false), (0), (15), (0), ?_⟩
    apply Exists.intro
    apply Exists.intro
    refine ⟨((0, 15)), ?_⟩
    apply Exists.intro
    apply Exists.intro
    apply Exists.intro
    apply Exists.intro
    refine ⟨(wS (wDev.setTable 0 ({ wTable with desc := 0x0000004D00401011 :: wTable.desc.drop 1 }))), ?_⟩
    apply Exists.intro
    refine ⟨?_, ?_, ?_, ?_, ?_, ?_, ?_, ?_, ?_, ?_, ?_, ?_, ?_, ?_, ?_⟩
    · decide +kernel
    · decide +kernel
    · decide +kernel
    · decide +kernel
    · decide +kernel
    · decide +kernel
    · decide +kernel
    · decide +kernel
    · decide +kernel
    · exact rfl
    · exact got_ok _ (by decide +kernel)
    · exact pair_eta _
    · exact rfl
    · decide +kernel
    · exact rfl
  · refine ⟨({ wPkt 1 with addr := 15 }), (0), (wTable), (false), (0), (15), (0), ?_⟩
    apply Exists.intro
    apply Exists.intro
    refine ⟨((0, 15)), ?_⟩
    apply Exists.intro
    apply Exists.intro
    apply Exists.intro
    apply Exists.intro
    refine ⟨(wS (wDev.setTable 0 (wTable))), ?_⟩
    apply Exists.intro
    apply Exists.intro
    refine ⟨?_, ?_, ?_, ?_, ?_, ?_, ?_, ?_, ?_, ?_, ?_, ?_, ?_, ?_, ?_⟩
    · decide +kernel
    · decide +kernel
    · decide +kernel
    · decide +kernel
    · decide +kernel
    · decide +kernel
    · decide +kernel
    · decide +kernel
    · decide +kernel
    · exact rfl
    · exact got_ok _ (by decide +kernel)
    · exact pair_eta _
    · exact rfl
    · decide +kernel
    · exact pair_some _ (by decide +kernel)
  · exact ⟨({ wDev with rowReqs := [{ (default : RowReq) with tag := 6, len := 24, lines := [(0, some (some (List.replicate 128 0)))], serve := some (wPkt 1) }] }), ({ (default : RowReq) with tag := 6, len := 24, lines := [(0, some (some (List.replicate 128 0)))], serve := some (wPkt 1) }), (wPkt 1), (List.replicate 24 0), by decide +kernel⟩

/-- What `Obligations.RafterInstructions` supposes can be met. -/
theorem witness_RafterInstructions :
    (∃ (t : Truss) (a : ArrayNo) (j : Job) (s : State), (s.dev.active? (.raf t a) = some j) ∧ (j.run = .none) ∧ (j.cmd.c1.toNat % 32 = 0) ∧ (j.cmd.arg 19 19 = 1 → a.val % 2 = 0)) ∧
    (∃ (t : Truss) (a : ArrayNo) (x : RafTask) (d : Device) (d' : Device) (p : Word) (bs : List Byte), (d.rafTask? t a = some x) ∧ (x.seq.ended = false) ∧ (x.stopping = false) ∧ (ptrMove x.ptr (32 * x.seq.pc : Nat) = some p) ∧ (d.ptrLoad x.job.ctx t (rafUnit t a) false p 32 = (d', .ok bs)) ∧ (rafKnown (rafOpc (bytesWords bs)) = true)) ∧
    (∃ (t : Truss) (a : ArrayNo) (d : Device) (x : RafTask) (w : RafIns) (s : State), (s.dev.rafMeet t a opNop = (d, some (x, w)))) ∧
    (∃ (t : Truss) (a : ArrayNo) (d : Device) (x : RafTask) (w : RafIns) (s : State), (s.dev.rafMeet t a opEnd = (d, some (x, w))) ∧ ((d.rafa t a).idle = true) ∧ (x.seq.streams = []) ∧ (x.seq.loads = [])) ∧
    (∃ (t : Truss) (a : ArrayNo) (d : Device) (x : RafTask) (w : RafIns) (s : State), (s.dev.rafMeet t a opEnd = (d, some (x, w))) ∧ ((d.rafa t a).idle = false ∨ x.seq.streams ≠ [] ∨ x.seq.loads ≠ [])) ∧
    (∃ (t : Truss) (a : ArrayNo) (d : Device) (d' : Device) (x : RafTask) (q : RafSeq) (w : RafIns) (s : State), (s.dev.rafMeet t a opSload = (d, some (x, w))) ∧ (sloadCause w (d.rafCaps t a) x.pair = none) ∧ (x.seq.loads = []) ∧ (({ x.seq with pc := x.seq.pc + 1, loads := [(x.seq.pc, w)] } : RafSeq) = q) ∧ (d.rafAt x.job.id q = d') ∧ (q.mayLoad (d.rafa t a) x.seq.pc w = false)) ∧
    (∃ (t : Truss) (a : ArrayNo) (d : Device) (d' : Device) (e : Device) (x : RafTask) (q : RafSeq) (w : RafIns) (set : RafSet) (s : State), (s.dev.rafMeet t a opSload = (d, some (x, w))) ∧ (sloadCause w (d.rafCaps t a) x.pair = none) ∧ (x.seq.loads = []) ∧ (({ x.seq with pc := x.seq.pc + 1, loads := [(x.seq.pc, w)] } : RafSeq) = q) ∧ (d.rafAt x.job.id q = d') ∧ (q.mayLoad (d.rafa t a) x.seq.pc w = true) ∧ (x.seq.ended = false) ∧ (d'.loadSet x.job.ctx t (rafUnit t a) w = (e, .ok set))) ∧
    (∃ (t : Truss) (a : ArrayNo) (h : Nat) (set : RafSet) (rest : Tbl RafSet) (s : State), (s.dev.engineOn t = true) ∧ ((s.dev.rafa t a).fused = false) ∧ ((s.dev.rafa t a).loading = (h, set) :: rest)) ∧
    (∃ (i : Instr) (op : Nat) (half : Nat) (t : Truss) (a : ArrayNo) (h : Fin 2) (bubbles : Nat) (d : Device) (x : RafTask) (w : RafIns) (set : RafSet) (st : RafStream) (q : RafSeq) (s : State), ((i, op, half) ∈ [(Instr.rafMx128 t a bubbles, opMx128, 0), (.rafMx64p t ⟨a, h⟩ bubbles, opMx64p, h.val), (.rafMx256k t a bubbles, opMx256k, 0), (.rafMt128 t a bubbles, opMt128, 0)]) ∧ (s.dev.rafTask? t a = some x) ∧ (x.stopping = false) ∧ (x.seq.streams = []) ∧ (s.dev.rafMeet t a op = (d, some (x, w))) ∧ (rafOpc w = op) ∧ (rafHalf w = half) ∧ ((d.rafa t a).setFor x.seq.loads w x.job.ctx = some set) ∧ (computeCause w (d.rafCaps t a) x.pair (some set) = none) ∧ ((⟨x.seq.pc, w, false, 0, d.segRows t x.job.ctx w set⟩ : RafStream) = st) ∧ (({ x.seq with pc := x.seq.pc + 1, streams := [st] } : RafSeq) = q)) ∧
    (∃ (i : Instr) (op : Nat) (half : Nat) (t : Truss) (a : ArrayNo) (h : Fin 2) (bubbles : Nat) (d : Device) (x : RafTask) (st : RafStream) (s : State), ((i, op, half) ∈ [(Instr.rafMx128 t a bubbles, opMx128, 0), (.rafMx64p t ⟨a, h⟩ bubbles, opMx64p, h.val), (.rafMx256k t a bubbles, opMx256k, 0), (.rafMt128 t a bubbles, opMt128, 0)]) ∧ (s.dev.rafTask? t a = some x) ∧ (x.stopping = false) ∧ (x.seq.streams.find? (fun r => rafOpc r.w == op && rafHalf r.w == half) = some st) ∧ ((s.dev.rafGo t a x st bubbles).rafMeet t a op = (d, none))) ∧
    (∃ (t : Truss) (a : ArrayNo) (bubbles : Nat) (n : Nat) (m : Nat) (d : Device) (b : Device) (e : Device) (f : Device) (x : RafTask) (st : RafStream) (set : RafSet) (xs : List Side), (st.begun = true ∨ x.seq.mayBegin (d.rafa t a) st = true) ∧ (rafSfmt st.w = fmtI16 → (d.rafa t a).loading = []) ∧ ((d.rafa t a).reload = false) ∧ ((d.rafa t a).setOf st = some set) ∧ (rafM st.w ≠ 0) ∧ (admissible st.w set (d.rafa t a) st.row st.seg = n) ∧ (n ≠ 0) ∧ (d.permit t a x.pair ≠ 0) ∧ ((if st.begun then d else d.mapRafa t a (fun r => { r with ctrl := some (d.reg (Reg.RAF_CTRL t a)) })) = b) ∧ (withBubbles n (b.permit t a x.pair) bubbles = m) ∧ ((if st.begun = false ∧ rafRsl st.w = true then (b.mapSets t a x.pair (fun r => r.reslate (rafHalf st.w) set)).count (Reg.RAF_RESLATES t a) 1 else b) = e) ∧ (e.streamed x.job.ctx t (rafUnit t a) st.w set.krows ((List.range n).map (st.row + ·)) = (f, .ok xs))) := by
  refine ⟨?_, ?_, ?_, ?_, ?_, ?_, ?_, ?_, ?_, ?_, ?_⟩
  · exact ⟨(0), (0), (wTask (.raf 0 0) 0x8000 .none), (wS (wRun (.raf 0 0) 0x8000 .none)), by decide +kernel⟩
  · refine ⟨(0), (0), ?_⟩
    apply Exists.intro
    refine ⟨(wRaf [0, 0, 0, 0] default), ?_⟩
    apply Exists.intro
    apply Exists.intro
    apply Exists.intro
    refine ⟨?_, ?_, ?_, ?_, ?_, ?_⟩
    · exact opt_some _ (by decide +kernel)
    · decide +kernel
    · decide +kernel
    · exact opt_some _ (by decide +kernel)
    · exact got_ok _ (by decide +kernel)
    · decide +kernel
  · refine ⟨(0), (0), ?_⟩
    apply Exists.intro
    apply Exists.intro
    apply Exists.intro
    refine ⟨(wS (wRaf [0, 0, 0, 0] default)), ?_⟩
    exact pair_some2 _ (by decide +kernel)
  · refine ⟨(0), (0), ?_⟩
    apply Exists.intro
    apply Exists.intro
    apply Exists.intro
    refine ⟨(wS (wRaf [0x3F, 0, 0, 0] default)), ?_, ?_, ?_, ?_⟩
    · exact pair_some2 _ (by decide +kernel)
    · decide +kernel
    · decide +kernel
    · decide +kernel
  · refine ⟨(0), (0), ?_⟩
    apply Exists.intro
    apply Exists.intro
    apply Exists.intro
    refine ⟨(wS (wRaf [0x3F, 0, 0, 0] { (default : RafArray) with drain := [wTile] })), ?_, ?_⟩
    · exact pair_some2 _ (by decide +kernel)
    · decide +kernel
  · refine ⟨(0), (0), ?_⟩
    apply Exists.intro
    apply Exists.intro
    apply Exists.intro
    apply Exists.intro
    apply Exists.intro
    refine ⟨(wS (wRaf [0x0000040200600020, 0x9000, 128, 0] { (default : RafArray) with loading := [(0, wSet)] })), ?_, ?_, ?_, ?_, ?_, ?_⟩
    · exact pair_some2 _ (by decide +kernel)
    · decide +kernel
    · decide +kernel
    · exact rfl
    · exact rfl
    · decide +kernel
  · refine ⟨(0), (0), ?_⟩
    apply Exists.intro
    apply Exists.intro
    apply Exists.intro
    apply Exists.intro
    apply Exists.intro
    apply Exists.intro
    apply Exists.intro
    refine ⟨(wS (wRaf [0x0000040200600020, 0x9000, 128, 0] default)), ?_, ?_, ?_, ?_, ?_, ?_, ?_, ?_⟩
    · exact pair_some2 _ (by decide +kernel)
    · decide +kernel
    · decide +kernel
    · exact rfl
    · exact rfl
    · decide +kernel
    · decide +kernel
    · exact fed_ok _ (by decide +kernel)
  · exact ⟨(0), (3), (0), (wSet), ([]), (wS { wDev with raf := [(3, { (default : RafArray) with loading := [(0, wSet)] })] }), by decide +kernel⟩
  · refine ⟨(.rafMx128 0 0 0), (opMx128), (0), (0), (0), (0), (0), ?_⟩
    apply Exists.intro
    apply Exists.intro
    apply Exists.intro
    apply Exists.intro
    apply Exists.intro
    apply Exists.intro
    refine ⟨(wS (wRaf [0x0000000200600010, 0xA000, 128, 0] { (default : RafArray) with active := [(0, wSet)] })), ?_, ?_, ?_, ?_, ?_, ?_, ?_, ?_, ?_, ?_, ?_⟩
    · decide +kernel
    · exact opt_some _ (by decide +kernel)
    · decide +kernel
    · decide +kernel
    · exact pair_some2 _ (by decide +kernel)
    · decide +kernel
    · decide +kernel
    · exact opt_some _ (by decide +kernel)
    · decide +kernel
    · exact rfl
    · exact rfl
  · refine ⟨(.rafMx128 0 0 0), (opMx128), (0), (0), (0), (0), (0), ?_⟩
    apply Exists.intro
    refine ⟨(⟨wTask (.raf 0 0) 0x8000 (.raf 0x8000 false ⟨1, [wStream true [0x0000000200600010, 0xA000, 128, 0]], [], false⟩ []), 0x8000, false, ⟨1, [wStream true [0x0000000200600010, 0xA000, 128, 0]], [], false⟩⟩), (wStream true [0x0000000200600010, 0xA000, 128, 0]), (wS (wRafOn [0x0000000200600010, 0xA000, 128, 0] [0x0000000200600010, 0xA000, 128, 0] true { (default : RafArray) with active := [(0, wSet)], duty := 16 })), ?_, ?_, ?_, ?_, ?_⟩
    · decide +kernel
    · exact rfl
    · decide +kernel
    · decide +kernel
    · exact pair_snd _ _ (by decide +kernel)
  · refine ⟨(0), (0), (0), ?_⟩
    apply Exists.intro
    apply Exists.intro
    refine ⟨(wRafOn [0x0000000200600010, 0xA000, 128, 0] [0x0000000200610010, 0xA000, 128, 0] false { (default : RafArray) with shadow := [(0, wSet)], duty := 16 }), ?_⟩
    apply Exists.intro
    apply Exists.intro
    apply Exists.intro
    refine ⟨(⟨wTask (.raf 0 0) 0x8000 (.raf 0x8000 false ⟨1, [wStream false [0x0000000200610010, 0xA000, 128, 0]], [], false⟩ []), 0x8000, false, ⟨1, [wStream false [0x0000000200610010, 0xA000, 128, 0]], [], false⟩⟩), (wStream false [0x0000000200610010, 0xA000, 128, 0]), (wSet), ?_⟩
    apply Exists.intro
    refine ⟨?_, ?_, ?_, ?_, ?_, ?_, ?_, ?_, ?_, ?_, ?_, ?_⟩
    · decide +kernel
    · decide +kernel
    · decide +kernel
    · decide +kernel
    · decide +kernel
    · exact rfl
    · decide +kernel
    · decide +kernel
    · exact rfl
    · exact rfl
    · exact rfl
    · exact fed_ok _ (by decide +kernel)

/-- What `Obligations.RafterEntriesAndBallast` supposes can be met. -/
theorem witness_RafterEntriesAndBallast :
    (∃ (t : Truss) (a : ArrayNo) (u : AbftRun) (x : RafTask) (p : PendEntry) (l : List PendEntry) (r : List PendEntry) (e : Device) (key : Nat) (new : BankEntry) (s : State), (s.dev.rafTask? t a = some x) ∧ (x.seq.ended = false) ∧ (splitFull (s.dev.rafa t a).inflight = some (l, p, r)) ∧ (p.check (Fld.RAF_CTRL_ABFT_EN.of (s.dev.rafCtrl t a) == 1) u = none) ∧ (s.dev.mapRafa t a (fun y => { y with inflight := l ++ r }) = e) ∧ (narrowEntry (p.cells u.errs) = new) ∧ (bankKey (s.dev.slotNo x.job.ctx t) p.bankEntry = key) ∧ (p.acm = 0)) ∧
    (∃ (t : Truss) (a : ArrayNo) (u : AbftRun) (x : RafTask) (p : PendEntry) (l : List PendEntry) (r : List PendEntry) (e : Device) (key : Nat) (new : BankEntry) (s : State), (s.dev.rafTask? t a = some x) ∧ (x.seq.ended = false) ∧ (splitFull (s.dev.rafa t a).inflight = some (l, p, r)) ∧ (p.check (Fld.RAF_CTRL_ABFT_EN.of (s.dev.rafCtrl t a) == 1) u = none) ∧ (s.dev.mapRafa t a (fun y => { y with inflight := l ++ r }) = e) ∧ (narrowEntry (p.cells u.errs) = new) ∧ (bankKey (s.dev.slotNo x.job.ctx t) p.bankEntry = key) ∧ (p.acm = 1)) ∧
    (∃ (t : Truss) (a : ArrayNo) (u : AbftRun) (x : RafTask) (p : PendEntry) (l : List PendEntry) (r : List PendEntry) (e : Device) (key : Nat) (new : BankEntry) (s : State) (sum : BankEntry × Nat), (s.dev.rafTask? t a = some x) ∧ (x.seq.ended = false) ∧ (splitFull (s.dev.rafa t a).inflight = some (l, p, r)) ∧ (p.check (Fld.RAF_CTRL_ABFT_EN.of (s.dev.rafCtrl t a) == 1) u = none) ∧ (s.dev.mapRafa t a (fun y => { y with inflight := l ++ r }) = e) ∧ (narrowEntry (p.cells u.errs) = new) ∧ (bankKey (s.dev.slotNo x.job.ctx t) p.bankEntry = key) ∧ (bankAdd (tget (e.rafa t a).bank key zeroBank) new = sum) ∧ (p.acm = 2)) ∧
    (∃ (t : Truss) (a : ArrayNo) (u : AbftRun) (x : RafTask) (p : PendEntry) (l : List PendEntry) (r : List PendEntry) (e : Device) (key : Nat) (new : BankEntry) (s : State) (sum : BankEntry × Nat), (s.dev.rafTask? t a = some x) ∧ (x.seq.ended = false) ∧ (splitFull (s.dev.rafa t a).inflight = some (l, p, r)) ∧ (p.check (Fld.RAF_CTRL_ABFT_EN.of (s.dev.rafCtrl t a) == 1) u = none) ∧ (s.dev.mapRafa t a (fun y => { y with inflight := l ++ r }) = e) ∧ (narrowEntry (p.cells u.errs) = new) ∧ (bankKey (s.dev.slotNo x.job.ctx t) p.bankEntry = key) ∧ (bankAdd (tget (e.rafa t a).bank key zeroBank) new = sum) ∧ (p.acm = 3)) ∧
    (∃ (t : Truss) (a : ArrayNo) (u : AbftRun) (x : RafTask) (p : PendEntry) (l : List PendEntry) (r : List PendEntry) (m : Mismatch) (s : State), (s.dev.rafTask? t a = some x) ∧ (splitFull (s.dev.rafa t a).inflight = some (l, p, r)) ∧ (p.check (Fld.RAF_CTRL_ABFT_EN.of (s.dev.rafCtrl t a) == 1) u = some m) ∧ (Fld.RAF_CTRL_ABFT_EN.of (s.dev.rafCtrl t a) = 0 ∨ Fld.RAF_CTRL_ABFT_RETRY.of (s.dev.rafCtrl t a) = 0)) ∧
    (∃ (t : Truss) (a : ArrayNo) (y : TileEntry) (rest : List TileEntry) (q : LthEngine) (s : State), ((s.dev.rafa t a).drain = y :: rest) ∧ (tget s.dev.lth (s.dev.lathOf t a) default = q) ∧ (s.dev.engineOn t = true) ∧ (q.queue.length < 8) ∧ (q.queue = [] ∨ q.qowner = some y.ctx) ∧ (s.dev.rafTask? t a = none)) ∧
    (∃ (t : Truss) (a : ArrayNo) (col : Option Nat) (d : Device) (s : State), (Fld.RAF_CTRL_BALLAST_EN.of (s.dev.rafCtrl t a) = 1) ∧ (Fld.RAF_CTRL_ABFT_EN.of (s.dev.rafCtrl t a) = 1) ∧ (s.dev.engineOn t = true) ∧ ((s.dev.rafa t a).duty ≠ 0) ∧ ((s.dev.count (Reg.RAF_BALLAST_ERR t a) 1).abftInfo t a 0 col 0 0 0 5 false = d)) ∧
    (∃ (t : Truss) (a : ArrayNo) (w : Nat) (s : State), ((s.dev.rafa t a).duty ≠ 0) ∧ ((s.dev.rafa t a).rampDown = false) ∧ ((if Fld.RAF_CTRL_BALLAST_EN.of (s.dev.rafCtrl t a) = 1 then s.dev.fld (Reg.RAF_BALLAST t a) Fld.RAF_BALLAST_WINDOW else 0) = w) ∧ ((s.dev.rafa t a).lastRow + w ≤ s.dev.now)) ∧
    (∃ (t : Truss) (a : ArrayNo) (s : State), ((s.dev.rafa t a).rampDown = true) ∧ ((s.dev.rafa t a).lastStep + (s.dev.rafa t a).downStep ≤ s.dev.now)) ∧
    (∃ (t : Truss) (a : ArrayNo) (s : State), ((s.dev.rafa t a).rampUp = true) ∧ ((s.dev.rafa t a).lastStep + (s.dev.rafa t a).upStep ≤ s.dev.now)) := by
  refine ⟨?_, ?_, ?_, ?_, ?_, ?_, ?_, ?_, ?_, ?_⟩
  · refine ⟨(0), (0), (⟨[], none⟩), ?_⟩
    apply Exists.intro
    refine ⟨(wPend 0), ([]), ([]), ?_⟩
    apply Exists.intro
    apply Exists.intro
    apply Exists.intro
    refine ⟨(wS (wCells 0)), ?_, ?_, ?_, ?_, ?_, ?_, ?_, ?_⟩
    · exact opt_some _ (by decide +kernel)
    · decide +kernel
    · decide +kernel
    · decide +kernel
    · exact rfl
    · exact rfl
    · exact rfl
    · decide +kernel
  · refine ⟨(0), (0), (⟨[], none⟩), ?_⟩
    apply Exists.intro
    refine ⟨(wPend 1), ([]), ([]), ?_⟩
    apply Exists.intro
    apply Exists.intro
    apply Exists.intro
    refine ⟨(wS (wCells 1)), ?_, ?_, ?_, ?_, ?_, ?_, ?_, ?_⟩
    · exact opt_some _ (by decide +kernel)
    · decide +kernel
    · decide +kernel
    · decide +kernel
    · exact rfl
    · exact rfl
    · exact rfl
    · decide +kernel
  · refine ⟨(0), (0), (⟨[], none⟩), ?_⟩
    apply Exists.intro
    refine ⟨(wPend 2), ([]), ([]), ?_⟩
    apply Exists.intro
    apply Exists.intro
    apply Exists.intro
    refine ⟨(wS (wCells 2)), ?_⟩
    apply Exists.intro
    refine ⟨?_, ?_, ?_, ?_, ?_, ?_, ?_, ?_, ?_⟩
    · exact opt_some _ (by decide +kernel)
    · decide +kernel
    · decide +kernel
    · decide +kernel
    · exact rfl
    · exact rfl
    · exact rfl
    · exact rfl
    · decide +kernel
  · refine ⟨(0), (0), (⟨[], none⟩), ?_⟩
    apply Exists.intro
    refine ⟨(wPend 3), ([]), ([]), ?_⟩
    apply Exists.intro
    apply Exists.intro
    apply Exists.intro
    refine ⟨(wS (wCells 3)), ?_⟩
    apply Exists.intro
    refine ⟨?_, ?_, ?_, ?_, ?_, ?_, ?_, ?_, ?_⟩
    · exact opt_some _ (by decide +kernel)
    · decide +kernel
    · decide +kernel
    · decide +kernel
    · exact rfl
    · exact rfl
    · exact rfl
    · exact rfl
    · decide +kernel
  · refine ⟨(0), (0), (⟨[], some (0, 0)⟩), ?_⟩
    apply Exists.intro
    refine ⟨(wPend 0), ([]), ([]), ?_⟩
    apply Exists.intro
    refine ⟨(wS ((wCells 0).setReg (Reg.RAF_CTRL 0 0) 0)), ?_, ?_, ?_, ?_⟩
    · exact opt_some _ (by decide +kernel)
    · decide +kernel
    · exact opt_some _ (by decide +kernel)
    · decide +kernel
  · exact ⟨(0), (3), (wTile), ([]), ({ (default : LthEngine) with queue := List.replicate 7 wTile, qowner := some 1 }), (wS { wDev with raf := [(3, { (default : RafArray) with drain := [wTile] })], lth := [(1, { (default : LthEngine) with queue := List.replicate 7 wTile, qowner := some 1 })] }), by decide +kernel⟩
  · refine ⟨(0), (3), default, ?_⟩
    apply Exists.intro
    refine ⟨(wS { (wDev.setReg (Reg.RAF_CTRL 0 3) 0x7) with raf := [(3, { (default : RafArray) with duty := 16 })] }), ?_, ?_, ?_, ?_, ?_⟩
    · decide +kernel
    · decide +kernel
    · decide +kernel
    · decide +kernel
    · exact rfl
  · refine ⟨(0), (3), ?_⟩
    apply Exists.intro
    refine ⟨(wS { wDev with raf := [(3, { (default : RafArray) with duty := 1 })] }), ?_, ?_, ?_, ?_⟩
    · decide +kernel
    · decide +kernel
    · exact rfl
    · decide +kernel
  · exact ⟨(0), (3), (wS { wDev with raf := [(3, { (default : RafArray) with rampDown := true, downStep := 5000000000 })] }), by decide +kernel⟩
  · exact ⟨(0), (3), (wS { wDev with raf := [(3, { (default : RafArray) with rampUp := true })] }), by decide +kernel⟩

/-- What `Obligations.LathTasksAndInstructions` supposes can be met. -/
theorem witness_LathTasksAndInstructions :
    (∃ (t : Truss) (e : LathNo) (j : Job) (d : Device) (f : Device) (bs : List Byte) (s : State), (s.dev.active? (.lth t e) = some j) ∧ (j.run = .none) ∧ (j.cmd.c1.toNat % 8 = 0) ∧ ((if j.cmd.c3 = 0 then (s.dev, Got.ok (List.replicate 56 0)) else s.dev.ptrLoad j.ctx t (lthUnit t e) false j.cmd.c3 56) = (d, .ok bs)) ∧ (d.setLthBank t e (d.lthSlot t j.ctx) ((List.range 7).foldl (fun b i => b.setS (i + 1) (wordAt (bytesWords bs) i)) { d.lthBank t e (d.lthSlot t j.ctx) with pc := 0 }) = f)) ∧
    (∃ (t : Truss) (e : LathNo) (j : Job) (ptr : Word) (p : Word) (len : Nat) (a : Nat) (b : Nat) (wf : Option Nat) (bank : LthBank) (d : Device) (d' : Device) (bs : List Byte) (x : LthTask), (d.active? (.lth t e) = some j) ∧ (j.run = .lth ptr len a b wf) ∧ (d.lthBank t e (d.lthSlot t j.ctx) = bank) ∧ (ptrMove ptr (8 * bank.pc.toNat : Nat) = some p) ∧ (d.ptrLoad j.ctx t (lthUnit t e) false p 8 = (d', .ok bs)) ∧ ((⟨t, e, j, len, a, b, wf, d.lthSlot t j.ctx, bank, lthDecode (bytesWord bs)⟩ : LthTask) = x) ∧ (lthCause x.ins bank bank.pc.toNat len = none)) ∧
    (∃ (t : Truss) (e : LathNo) (j : Job) (ptr : Word) (p : Word) (len : Nat) (a : Nat) (b : Nat) (wf : Option Nat) (bank : LthBank) (d : Device) (d' : Device) (bs : List Byte) (x : LthTask) (c : Nat), (d.active? (.lth t e) = some j) ∧ (j.run = .lth ptr len a b wf) ∧ (d.lthBank t e (d.lthSlot t j.ctx) = bank) ∧ (ptrMove ptr (8 * bank.pc.toNat : Nat) = some p) ∧ (d.ptrLoad j.ctx t (lthUnit t e) false p 8 = (d', .ok bs)) ∧ ((⟨t, e, j, len, a, b, wf, d.lthSlot t j.ctx, bank, lthDecode (bytesWord bs)⟩ : LthTask) = x) ∧ (lthCause x.ins bank bank.pc.toNat len = some c)) := by
  refine ⟨?_, ?_, ?_⟩
  · refine ⟨(0), (0), (wTask (.lth 0 0) 0x4000 .none), ?_⟩
    apply Exists.intro
    apply Exists.intro
    apply Exists.intro
    refine ⟨(wS (wJobs [wTask (.lth 0 0) 0x4000 .none])), ?_, ?_, ?_, ?_, ?_⟩
    · decide +kernel
    · decide +kernel
    · decide +kernel
    · exact got_ok _ (by decide +kernel)
    · exact rfl
  · refine ⟨(0), (0), (wLathJob), (0x4000), ?_⟩
    apply Exists.intro
    refine ⟨(4), (1), (1), (none), (wBank), (wLath (wIns 0x10 4 4 4 0 0) wBank), ?_⟩
    apply Exists.intro
    apply Exists.intro
    apply Exists.intro
    refine ⟨?_, ?_, ?_, ?_, ?_, ?_, ?_⟩
    · decide +kernel
    · decide +kernel
    · decide +kernel
    · exact opt_some _ (by decide +kernel)
    · exact got_ok _ (by decide +kernel)
    · exact rfl
    · decide +kernel
  · refine ⟨(0), (0), (wLathJob), (0x4000), ?_⟩
    apply Exists.intro
    refine ⟨(4), (1), (1), (none), (wBank), (wLath (wIns 0x0F 0 0 0 0 0) wBank), ?_⟩
    apply Exists.intro
    apply Exists.intro
    apply Exists.intro
    apply Exists.intro
    refine ⟨?_, ?_, ?_, ?_, ?_, ?_, ?_⟩
    · decide +kernel
    · decide +kernel
    · decide +kernel
    · exact opt_some _ (by decide +kernel)
    · exact got_ok _ (by decide +kernel)
    · exact rfl
    · exact opt_some _ (by decide +kernel)

/-- What `Obligations.LathRetirement` supposes can be met. -/
theorem witness_LathRetirement :
    (∃ (x : LthTask) (k : Nat), (k ≠ x.slot)) ∧
    (∃ (x : LthTask) (t : Truss) (e : LathNo), ((t, e) ≠ (x.t, x.e))) ∧
    (∃ (x : LthTask) (pc : Nat), (pc < x.len)) := by
  refine ⟨?_, ?_, ?_⟩
  · exact ⟨(wLt 0), (1), by decide +kernel⟩
  · exact ⟨(wLt 0), (0), (1), by decide +kernel⟩
  · exact ⟨(wLt 0), (3), by decide +kernel⟩

/-- What `Obligations.LathControlAndMemory` supposes can be met. -/
theorem witness_LathControlAndMemory :
    (∃ (t : Truss) (e : LathNo) (u : LathUpset) (d : Device) (x : LthTask) (s : State), s.LathRuns t e 0x00 u d x) ∧
    (∃ (t : Truss) (e : LathNo) (u : LathUpset) (d : Device) (x : LthTask) (s : State), s.LathRuns t e 0x01 u d x) ∧
    (∃ (t : Truss) (e : LathNo) (u : LathUpset) (d : Device) (x : LthTask) (s : State), s.LathRuns t e 0x02 u d x ∧ (x.ins.t < 4)) ∧
    (∃ (t : Truss) (e : LathNo) (u : LathUpset) (d : Device) (x : LthTask) (s : State), s.LathRuns t e 0x03 u d x ∧ (4095 < (x.bank.s x.ins.va).toNat)) ∧
    (∃ (t : Truss) (e : LathNo) (u : LathUpset) (d : Device) (x : LthTask) (s : State), s.LathRuns t e 0x03 u d x ∧ ((x.bank.s x.ins.va).toNat ≤ 4095) ∧ (x.ins.t = 1) ∧ (d.trigger x.job.ctx (x.bank.s x.ins.vc) = none)) ∧
    (∃ (t : Truss) (e : LathNo) (u : LathUpset) (d : Device) (x : LthTask) (s : State) (f : Device) (r : Device × Bool), s.LathRuns t e 0x03 u d x ∧ ((x.bank.s x.ins.va).toNat ≤ 4095) ∧ ((if x.ins.t = 1 then d.trigger x.job.ctx (x.bank.s x.ins.vc) else some d) = some f) ∧ (f.signal x.job.ctx (x.bank.s x.ins.va).toNat (x.bank.s x.ins.vb) = r)) ∧
    (∃ (t : Truss) (e : LathNo) (u : LathUpset) (d : Device) (f : Device) (x : LthTask) (bs : List Byte) (s : State), s.LathRuns t e 0x40 u d x ∧ (d.ptrLoad x.job.ctx t x.unit false (lthPtr x.ins x.bank x.ins.va) (ldBytes x.ins.t) = (f, .ok bs))) ∧
    (∃ (t : Truss) (e : LathNo) (u : LathUpset) (d : Device) (f : Device) (x : LthTask) (tr : Nat) (a : Nat) (s : State), s.LathRuns t e 0x41 u d x ∧ (d.resolve x.job.ctx t false (lthPtr x.ins x.bank x.ins.va) (ldBytes x.ins.t) = some (tr, a)) ∧ (d.ptrStores x.job.ctx t x.unit (lthPtr x.ins x.bank x.ins.va) (joinParts (stParts x (if x.ins.t = 4 then memRead (tget d.loft tr []) a 64 else []))) = (f, .ok ()))) ∧
    (∃ (t : Truss) (e : LathNo) (u : LathUpset) (d : Device) (f : Device) (x : LthTask) (bs : List Byte) (s : State), s.LathRuns t e 0x42 u d x ∧ (d.ptrLoad x.job.ctx t x.unit false (lthPtr x.ins x.bank x.ins.va) (2 * (128 / blkSize x.ins.t)) = (f, .ok bs)) ∧ (∀ j, j < 128 / blkSize x.ins.t → x.blockOn (blkSize x.ins.t) j = true → entryOrd (leNat (slice bs (2 * j) 2)) = ((x.bank.s x.ins.vb).toNat + j) % 64)) ∧
    (∃ (t : Truss) (e : LathNo) (u : LathUpset) (d : Device) (f : Device) (x : LthTask) (tr : Nat) (a : Nat) (s : State), s.LathRuns t e 0x43 u d x ∧ (d.resolve x.job.ctx t false (lthPtr x.ins x.bank x.ins.vd) (2 * (128 / blkSize x.ins.t)) = some (tr, a)) ∧ (d.ptrStores x.job.ctx t x.unit (lthPtr x.ins x.bank x.ins.vd) (joinParts x.stscParts) = (f, .ok ()))) ∧
    (∃ (t : Truss) (e : LathNo) (u : LathUpset) (m : Device) (d : Device) (f : Device) (g : Device) (x : LthTask) (h : TileEntry) (rest : List TileEntry) (left : List TileEntry) (s : State), (s.dev.lthMeet t e 0x44 = (m, some x)) ∧ ((m.lthe t e).queue = h :: rest) ∧ (m.tqReady x = true) ∧ (m.lthUpset x u = (d, true)) ∧ (d.tqGo x = f) ∧ ((if h.popped = 7 then rest else { h with popped := h.popped + 1 } :: rest) = left) ∧ (f.setLthe t e { f.lthe t e with queue := left, qowner := if left.isEmpty then none else (f.lthe t e).qowner } = g)) ∧
    (∃ (t : Truss) (e : LathNo) (u : LathUpset) (m : Device) (d : Device) (x : LthTask) (h : TileEntry) (rest : List TileEntry) (s : State), (s.dev.lthMeet t e 0x45 = (m, some x)) ∧ ((m.lthe t e).queue = h :: rest) ∧ (m.tqReady x = true) ∧ (m.lthUpset x u = (d, true))) ∧
    (∃ (t : Truss) (e : LathNo) (j : Job) (rest : List Job) (p : Word) (n : Nat) (a : Nat) (b : Nat) (f : Nat) (s : State), (s.dev.jobs = j :: rest) ∧ (j.engine = some (.lth t e)) ∧ (j.run = .lth p n a b (some f)) ∧ (f + max 1 (s.dev.fld (Reg.LTH_CTRL t e) Fld.LTH_CTRL_TQ_TIMEOUT) * 1000 < s.dev.now)) := by
  refine ⟨?_, ?_, ?_, ?_, ?_, ?_, ?_, ?_, ?_, ?_, ?_, ?_, ?_⟩
  · refine ⟨(0), (0), (.none), ?_⟩
    apply Exists.intro
    apply Exists.intro
    refine ⟨(wS (wLath (wIns 0x00 0 0 0 0 0) wBank)), ?_⟩
    exact lath_runs _ _ _ _ _ (by decide +kernel) (by decide +kernel)
  · refine ⟨(0), (0), (.none), ?_⟩
    apply Exists.intro
    apply Exists.intro
    refine ⟨(wS (wLath (wIns 0x01 0 0 0 0 0) wBank)), ?_⟩
    exact lath_runs _ _ _ _ _ (by decide +kernel) (by decide +kernel)
  · refine ⟨(0), (0), (.none), ?_⟩
    apply Exists.intro
    apply Exists.intro
    refine ⟨(wS (wLath (wIns 0x02 0 0 0 0 0) wBank)), ?_, ?_⟩
    · exact lath_runs _ _ _ _ _ (by decide +kernel) (by decide +kernel)
    · decide +kernel
  · refine ⟨(0), (0), (.none), ?_⟩
    apply Exists.intro
    apply Exists.intro
    refine ⟨(wS (wLath (wIns 0x03 0 4 5 0 0) ({ wBank with sr := [(4, 4096), (5, 7)] }))), ?_, ?_⟩
    · exact lath_runs _ _ _ _ _ (by decide +kernel) (by decide +kernel)
    · decide +kernel
  · refine ⟨(0), (0), (.none), ?_⟩
    apply Exists.intro
    apply Exists.intro
    refine ⟨(wS (wLath (wIns 0x03 0 4 5 4 1) ({ wBank with sr := [(4, 4095), (5, 7)] }))), ?_, ?_, ?_, ?_⟩
    · exact lath_runs _ _ _ _ _ (by decide +kernel) (by decide +kernel)
    · decide +kernel
    · decide +kernel
    · decide +kernel
  · refine ⟨(0), (0), (.none), ?_⟩
    apply Exists.intro
    apply Exists.intro
    refine ⟨(wS (wLath (wIns 0x03 0 4 5 0 0) ({ wBank with sr := [(4, 4095), (5, 7)] }))), ?_⟩
    apply Exists.intro
    apply Exists.intro
    refine ⟨?_, ?_, ?_, ?_⟩
    · exact lath_runs _ _ _ _ _ (by decide +kernel) (by decide +kernel)
    · decide +kernel
    · exact opt_some _ (by decide +kernel)
    · exact rfl
  · refine ⟨(0), (0), (.none), ?_⟩
    apply Exists.intro
    apply Exists.intro
    apply Exists.intro
    apply Exists.intro
    refine ⟨(wS (wLath (wIns 0x40 4 4 0 0 0) wBank)), ?_, ?_⟩
    · exact lath_runs _ _ _ _ _ (by decide +kernel) (by decide +kernel)
    · exact got_ok _ (by decide +kernel)
  · refine ⟨(0), (0), (.none), ?_⟩
    apply Exists.intro
    apply Exists.intro
    apply Exists.intro
    apply Exists.intro
    apply Exists.intro
    refine ⟨(wS (wLath (wIns 0x41 4 4 0 0 0) wBank)), ?_, ?_, ?_⟩
    · exact lath_runs _ _ _ _ _ (by decide +kernel) (by decide +kernel)
    · exact opt_some _ (by decide +kernel)
    · exact got_unit _ (by decide +kernel)
  · refine ⟨(0), (0), (.none), ?_⟩
    apply Exists.intro
    apply Exists.intro
    apply Exists.intro
    apply Exists.intro
    refine ⟨(wS (withLoft (wLath (wIns 0x42 4 4 5 0 3) wBank) 0x5000 [BitVec.ofNat 64 (scaleEntry 1 7)])), ?_, ?_, ?_⟩
    · exact lath_runs _ _ _ _ _ (by decide +kernel) (by decide +kernel)
    · exact got_ok _ (by decide +kernel)
    · decide +kernel
  · refine ⟨(0), (0), (.none), ?_⟩
    apply Exists.intro
    apply Exists.intro
    apply Exists.intro
    apply Exists.intro
    apply Exists.intro
    refine ⟨(wS (wLath (wIns 0x43 4 4 5 0 3) wBank)), ?_, ?_, ?_⟩
    · exact lath_runs _ _ _ _ _ (by decide +kernel) (by decide +kernel)
    · exact opt_some _ (by decide +kernel)
    · exact got_unit _ (by decide +kernel)
  · refine ⟨(0), (0), (.none), ?_⟩
    apply Exists.intro
    apply Exists.intro
    apply Exists.intro
    apply Exists.intro
    apply Exists.intro
    refine ⟨({ wTile with popped := 7 }), ([]), ?_⟩
    apply Exists.intro
    refine ⟨(wS { wLath (wIns 0x44 4 0 0 0 0) wBank with lth := [(0, { (default : LthEngine) with bank := [(0, wBank)], queue := [{ wTile with popped := 7 }], qowner := some 1 })] }), ?_, ?_, ?_, ?_, ?_, ?_, ?_⟩
    · exact pair_some _ (by decide +kernel)
    · decide +kernel
    · decide +kernel
    · exact pair_bool _ (by decide +kernel)
    · exact rfl
    · exact rfl
    · exact rfl
  · refine ⟨(0), (0), (.none), ?_⟩
    apply Exists.intro
    apply Exists.intro
    apply Exists.intro
    refine ⟨(wTile), ([]), (wS { wLath (wIns 0x45 4 0 0 0 0) wBank with lth := [(0, { (default : LthEngine) with bank := [(0, wBank)], queue := [wTile], qowner := some 1 })] }), ?_, ?_, ?_, ?_⟩
    · exact pair_some _ (by decide +kernel)
    · decide +kernel
    · decide +kernel
    · exact pair_bool _ (by decide +kernel)
  · exact ⟨(0), (0), (wTask (.lth 0 0) 0 (.lth 0x4000 4 1 1 (some 1))), ([]), (0x4000), (4), (1), (1), (1), (wS (wRun (.lth 0 0) 0 (.lth 0x4000 4 1 1 (some 1)))), by decide +kernel⟩

/-- What `Obligations.LathScalarsAndMasks` supposes can be met. -/
theorem witness_LathScalarsAndMasks :
    (∀ p ∈ ([(0x08, wIns 0x08 4 4 4 0 0), (0x09, wIns 0x09 4 4 4 0 0), (0x0A, wIns 0x0A 4 4 4 0 0), (0x0D, wIns 0x0D 4 4 0 0 0), (0x0E, wIns 0x0E 4 4 0 0 0), (0x26, wIns 0x26 4 4 4 0 0), (0x27, wIns 0x27 4 4 4 0 0), (0x28, wIns 0x28 4 4 0 0 0)] : List (Nat × Word)), ∃ d x, (wS (wLath p.2 wBank)).LathRuns 0 0 p.1 .none d x) ∧
    (∃ (t : Truss) (e : LathNo) (u : LathUpset) (d : Device) (f : Device) (x : LthTask) (bs : List Byte) (s : State), s.LathRuns t e 0x0B u d x ∧ (d.ptrLoad x.job.ctx t x.unit false (lthPtr x.ins x.bank x.ins.va) 8 = (f, .ok bs))) ∧
    (∃ (t : Truss) (e : LathNo) (u : LathUpset) (d : Device) (f : Device) (x : LthTask) (s : State), s.LathRuns t e 0x0C u d x ∧ (d.ptrStore x.job.ctx t x.unit false (lthPtr x.ins x.bank x.ins.va) (wordBytes (x.bank.s x.ins.vb)) = (f, .ok ()))) := by
  refine ⟨?_, ?_, ?_⟩
  · have h : (([(0x08, wIns 0x08 4 4 4 0 0), (0x09, wIns 0x09 4 4 4 0 0), (0x0A, wIns 0x0A 4 4 4 0 0), (0x0D, wIns 0x0D 4 4 0 0 0), (0x0E, wIns 0x0E 4 4 0 0 0), (0x26, wIns 0x26 4 4 4 0 0), (0x27, wIns 0x27 4 4 4 0 0), (0x28, wIns 0x28 4 4 0 0 0)] : List (Nat × Word)).all fun p => lathCan (wLath p.2 wBank) p.1) = true := by decide +kernel
    exact fun p hp => lath_can (List.all_eq_true.mp h p hp)
  · refine ⟨(0), (0), (.none), ?_⟩
    apply Exists.intro
    apply Exists.intro
    apply Exists.intro
    apply Exists.intro
    refine ⟨(wS (wLath (wIns 0x0B 4 4 0 0 0) wBank)), ?_, ?_⟩
    · exact lath_runs _ _ _ _ _ (by decide +kernel) (by decide +kernel)
    · exact got_ok _ (by decide +kernel)
  · refine ⟨(0), (0), (.none), ?_⟩
    apply Exists.intro
    apply Exists.intro
    apply Exists.intro
    refine ⟨(wS (wLath (wIns 0x0C 0 4 5 0 0) wBank)), ?_, ?_⟩
    · exact lath_runs _ _ _ _ _ (by decide +kernel) (by decide +kernel)
    · exact got_unit _ (by decide +kernel)

/-- What `Obligations.LathRegisterWrites` supposes can be met. -/
theorem witness_LathRegisterWrites :
    (∃ (k : Nat), (0 < k) ∧ (k < 16)) ∧
    (∃ (k : Nat) (n : Nat), (n < 16) ∧ (n ≠ k) ∧ (k < 16)) ∧
    (∃ (k : Nat), (0 < k) ∧ (k < 8)) ∧
    (∃ (r : Nat), (r < 32)) ∧
    (∃ (r : Nat) (i : Nat), (r < 32) ∧ (i < 128)) ∧
    (∃ (r : Nat) (k : Nat), (r < 32) ∧ (k ≠ r)) := by
  refine ⟨?_, ?_, ?_, ?_, ?_, ?_⟩
  · exact ⟨(15), by decide +kernel⟩
  · exact ⟨(1), (15), by decide +kernel⟩
  · exact ⟨(7), by decide +kernel⟩
  · exact ⟨(31), by decide +kernel⟩
  · exact ⟨(31), (127), by decide +kernel⟩
  · exact ⟨(31), (0), by decide +kernel⟩

/-- What `Obligations.LathRows` supposes can be met. -/
theorem witness_LathRows :
    (∀ p ∈ ([(0x10, wIns 0x10 4 4 4 0 0), (0x11, wIns 0x11 4 4 4 0 0), (0x12, wIns 0x12 4 4 4 0 0), (0x13, wIns 0x13 4 4 4 0 0), (0x14, wIns 0x14 4 4 4 0 0), (0x15, wIns 0x15 4 4 4 0 0), (0x18, wIns 0x18 4 4 4 0 0), (0x19, wIns 0x19 4 4 4 0 0), (0x1A, wIns 0x1A 4 4 4 0 0), (0x1B, wIns 0x1B 4 4 4 0 0), (0x1C, wIns 0x1C 4 4 4 0 0), (0x1D, wIns 0x1D 4 4 4 0 0), (0x1E, wIns 0x1E 4 4 4 0 0), (0x1F, wIns 0x1F 4 4 4 0 0), (0x20, wIns 0x20 4 4 4 0 0), (0x21, wIns 0x21 4 4 4 0 0), (0x16, wIns 0x16 4 4 4 4 0), (0x17, wIns 0x17 4 4 0 0 0), (0x22, wIns 0x22 4 4 4 4 0), (0x23, wIns 0x23 4 4 0 0 0), (0x24, wIns 0x24 4 0 0 0 0), (0x25, wIns 0x25 4 0 0 0 0), (0x29, wIns 0x29 4 4 0 0 0)] : List (Nat × Word)), ∃ d x, (wS (wLath p.2 wBank)).LathRuns 0 0 p.1 .none d x) ∧
    (∀ p ∈ ([(0x30, wIns 0x30 4 4 4 0 0), (0x31, wIns 0x31 4 4 0 0 0), (0x32, wIns 0x32 4 4 0 0 0), (0x33, wIns 0x33 4 4 4 4 5), (0x34, wIns 0x34 4 4 0 0 0), (0x38, wIns 0x38 4 4 0 0 0), (0x39, wIns 0x39 4 4 0 0 0), (0x3A, wIns 0x3A 4 4 0 0 0), (0x3B, wIns 0x3B 4 4 0 0 0), (0x3C, wIns 0x3C 4 4 0 0 0), (0x3D, wIns 0x3D 4 4 0 0 0), (0x3E, wIns 0x3E 4 4 0 0 0)] : List (Nat × Word)), ∃ d x, (wS (wLath p.2 wBank)).LathRuns 0 0 p.1 .none d x) ∧
    (∃ (t : Truss) (e : LathNo) (u : LathUpset) (d : Device) (f : Device) (x : LthTask) (bs : List Byte) (s : State), s.LathRuns t e 0x35 u d x ∧ (d.ptrLoad x.job.ctx t x.unit false (lthPtr x.ins x.bank x.ins.va) (if x.ins.t = 0 then 1024 else 8) = (f, .ok bs))) ∧
    (∃ (t : Truss) (e : LathNo) (u : LathUpset) (d : Device) (f : Device) (x : LthTask) (bs : List Byte) (s : State), s.LathRuns t e 0x46 u d x ∧ (d.ptrLoad x.job.ctx t x.unit false (lthPtr x.ins x.bank x.ins.va) 2056 = (f, .ok bs))) ∧
    (∀ p ∈ ([(0x50, wIns 0x50 4 4 4 0 0), (0x51, wIns 0x51 4 4 4 0 0), (0x52, wIns 0x52 4 4 4 0 0), (0x54, wIns 0x54 4 4 4 0 0), (0x56, wIns 0x56 4 4 4 0 0), (0x57, wIns 0x57 4 4 4 0 0), (0x58, wIns 0x58 4 4 4 0 0), (0x53, wIns 0x53 4 4 4 4 0), (0x55, wIns 0x55 4 4 0 0 0)] : List (Nat × Word)), ∃ d x, (wS (wLath p.2 wBank)).LathRuns 0 0 p.1 .none d x) := by
  refine ⟨?_, ?_, ?_, ?_, ?_⟩
  · have h : (([(0x10, wIns 0x10 4 4 4 0 0), (0x11, wIns 0x11 4 4 4 0 0), (0x12, wIns 0x12 4 4 4 0 0), (0x13, wIns 0x13 4 4 4 0 0), (0x14, wIns 0x14 4 4 4 0 0), (0x15, wIns 0x15 4 4 4 0 0), (0x18, wIns 0x18 4 4 4 0 0), (0x19, wIns 0x19 4 4 4 0 0), (0x1A, wIns 0x1A 4 4 4 0 0), (0x1B, wIns 0x1B 4 4 4 0 0), (0x1C, wIns 0x1C 4 4 4 0 0), (0x1D, wIns 0x1D 4 4 4 0 0), (0x1E, wIns 0x1E 4 4 4 0 0), (0x1F, wIns 0x1F 4 4 4 0 0), (0x20, wIns 0x20 4 4 4 0 0), (0x21, wIns 0x21 4 4 4 0 0), (0x16, wIns 0x16 4 4 4 4 0), (0x17, wIns 0x17 4 4 0 0 0), (0x22, wIns 0x22 4 4 4 4 0), (0x23, wIns 0x23 4 4 0 0 0), (0x24, wIns 0x24 4 0 0 0 0), (0x25, wIns 0x25 4 0 0 0 0), (0x29, wIns 0x29 4 4 0 0 0)] : List (Nat × Word)).all fun p => lathCan (wLath p.2 wBank) p.1) = true := by decide +kernel
    exact fun p hp => lath_can (List.all_eq_true.mp h p hp)
  · have h : (([(0x30, wIns 0x30 4 4 4 0 0), (0x31, wIns 0x31 4 4 0 0 0), (0x32, wIns 0x32 4 4 0 0 0), (0x33, wIns 0x33 4 4 4 4 5), (0x34, wIns 0x34 4 4 0 0 0), (0x38, wIns 0x38 4 4 0 0 0), (0x39, wIns 0x39 4 4 0 0 0), (0x3A, wIns 0x3A 4 4 0 0 0), (0x3B, wIns 0x3B 4 4 0 0 0), (0x3C, wIns 0x3C 4 4 0 0 0), (0x3D, wIns 0x3D 4 4 0 0 0), (0x3E, wIns 0x3E 4 4 0 0 0)] : List (Nat × Word)).all fun p => lathCan (wLath p.2 wBank) p.1) = true := by decide +kernel
    exact fun p hp => lath_can (List.all_eq_true.mp h p hp)
  · refine ⟨(0), (0), (.none), ?_⟩
    apply Exists.intro
    apply Exists.intro
    apply Exists.intro
    apply Exists.intro
    refine ⟨(wS (wLath (wIns 0x35 4 4 0 0 0) wBank)), ?_, ?_⟩
    · exact lath_runs _ _ _ _ _ (by decide +kernel) (by decide +kernel)
    · exact got_ok _ (by decide +kernel)
  · refine ⟨(0), (0), (.none), ?_⟩
    apply Exists.intro
    apply Exists.intro
    apply Exists.intro
    apply Exists.intro
    refine ⟨(wS (wLath (wIns 0x46 0 4 0 0 0) wBank)), ?_, ?_⟩
    · exact lath_runs _ _ _ _ _ (by decide +kernel) (by decide +kernel)
    · exact got_ok _ (by decide +kernel)
  · have h : (([(0x50, wIns 0x50 4 4 4 0 0), (0x51, wIns 0x51 4 4 4 0 0), (0x52, wIns 0x52 4 4 4 0 0), (0x54, wIns 0x54 4 4 4 0 0), (0x56, wIns 0x56 4 4 4 0 0), (0x57, wIns 0x57 4 4 4 0 0), (0x58, wIns 0x58 4 4 4 0 0), (0x53, wIns 0x53 4 4 4 4 0), (0x55, wIns 0x55 4 4 0 0 0)] : List (Nat × Word)).all fun p => lathCan (wLath p.2 wBank) p.1) = true := by decide +kernel
    exact fun p hp => lath_can (List.all_eq_true.mp h p hp)

/-- What `Obligations.LathIntegerLanes` supposes can be met. -/
theorem witness_LathIntegerLanes :
    (∃ (x : LthTask) (i : Nat), (x.isPair = false) ∧ (x.ins.vd < 32) ∧ (i < 128) ∧ (∀ r, (x.bank.vec r).length = 128) ∧ (x.mask.getLsbD i = true)) ∧
    (∃ (x : LthTask) (i : Nat), (x.isPair = false) ∧ (x.ins.vd < 32) ∧ (i < 128) ∧ (∀ r, (x.bank.vec r).length = 128) ∧ (x.mask.getLsbD i = false) ∧ (x.ins.mz = false)) := by
  refine ⟨?_, ?_⟩
  · refine ⟨(wLt (wIns 0x10 31 4 4 0 0)), (127), ?_, ?_, ?_, ?_, ?_⟩
    · decide +kernel
    · decide +kernel
    · decide +kernel
    · exact fun r => rfl
    · decide +kernel
  · refine ⟨({ wLt (wIns 0x10 31 4 4 0 0) with ins := { lthDecode (wIns 0x10 31 4 4 0 0) with lm := 1 } }), (0), ?_, ?_, ?_, ?_, ?_, ?_⟩
    · decide +kernel
    · decide +kernel
    · decide +kernel
    · exact fun r => rfl
    · decide +kernel
    · decide +kernel

/-- What `Obligations.LookUpsAndDeltas` supposes can be met. -/
theorem witness_LookUpsAndDeltas :
    (∃ (t : Truss) (j : Job) (d : Device) (bs : List Byte) (w : List Word) (b : Bool) (s : State), (s.dev.active? (.tht t) = some j) ∧ (bit j.cmd.c0 19 = false) ∧ (j.run = .none) ∧ (j.cmd.c1.toNat % 8 = 0) ∧ (s.dev.ptrLoad j.ctx t (unitCode t 8) false j.cmd.c1 64 = (d, .ok bs)) ∧ (bytesWords bs = w) ∧ ((d.table (thtTable w)).valid = true) ∧ (j.ctx = (d.table (thtTable w)).ctx) ∧ (thtStartCause w (d.table (thtTable w)) = none) ∧ ((d.table (thtTable w)).bindSlot w = some b) ∧ (d.tableExpelled (thtTable w) = false)) ∧
    (∃ (t : Truss) (j : Job) (k : Job) (d : Device) (w : List Word) (n : Nat) (gen : Nat) (next : Nat) (b : Bool) (bags : List ThtBag) (s : State), (s.dev.active? (.tht t) = some j) ∧ (bit j.cmd.c0 19 = false) ∧ (j.run = .tht w n b gen next bags) ∧ (s.dev.bagsDone j.id t = d) ∧ (d.job? j.id = some k) ∧ (k.state = .running) ∧ (∃ bags', k.run = .tht w n b gen next bags' ∧ unasked bags' = []) ∧ (next < thtBags w)) ∧
    (∃ (t : Truss) (rtag : Nat) (u : Upset) (r : RowReq) (j : Job) (bs : List Byte) (e : Device) (d : Device) (s : State), (s.dev.rowReqs.find? (fun r => r.tag == rtag && r.truss == t.val && r.serve.isNone) = some r) ∧ (r.settled = true) ∧ ({ s.dev with rowReqs := s.dev.rowReqs.filter (fun q => q.tag != rtag) } = e) ∧ (e.job? r.job = some j) ∧ (j.state ≠ .done) ∧ (r.bytes = some bs) ∧ (e.residue j (.tht t) u = (d, true))) ∧
    (∃ (rtag : Nat) (r : Remote) (j : Job) (s : State), (s.dev.remote? rtag = some r) ∧ (r.kind = 0) ∧ (s.dev.job? r.job = some j)) ∧
    (∃ (rtag : Nat) (s : State), (s.dev.remote? rtag = none)) ∧
    (∃ (t : Truss) (r : Remote) (s : State), (s.dev.remotes.find? (fun r => r.truss == t.val && r.kind == 0 && r.late s.dev.now) = some r)) ∧
    (∃ (t : Truss) (j : Job) (k : Job) (d : Device) (d2 : Device) (d3 : Device) (d4 : Device) (d5 : Device) (bs : List Byte) (w : List Word) (x : Table) (fs : List Folded) (os : List (Nat × DeltaBatch)) (s : State), (s.dev.active? (.tht t) = some j) ∧ (bit j.cmd.c0 19 = true) ∧ (j.run = .none) ∧ (j.cmd.c1.toNat % 8 = 0) ∧ (s.dev.ptrLoad j.ctx t (unitCode t 8) false j.cmd.c1 32 = (d, .ok bs)) ∧ (bytesWords bs = w) ∧ (d.table (thtTable w) = x) ∧ (x.valid = true) ∧ (j.ctx = x.ctx) ∧ (deltaStartCause w x = none) ∧ (d.deltaRecords j t (thtF w 3 31 0) x (thtF w 2 48 32) 0 0 [] = (d2, some fs)) ∧ ((d2.setTht j (.delta w)).deltaOpens j t (d2.deltaBase j w x) fs ((fs.map (·.1)).eraseDups) = (d3, os)) ∧ (d3.deltaSends j t os = d4) ∧ (d4.taskFailed j.id = false) ∧ ((if thtF w 0 12 12 = 1 then d4.markers j t (d2.deltaBase j w x) (d4.ownersOf x) else d4) = d5) ∧ (d5.job? j.id = some k) ∧ (k.state ≠ .done)) ∧
    (∃ (b : DeltaBatch) (d : Device) (s : State), (s.dev.serves = true) ∧ (s.dev.acceptBatch b = (d, .duplicate))) ∧
    (∃ (b : DeltaBatch) (d : Device) (s : State), (s.dev.serves = true) ∧ (s.dev.acceptBatch b = (d, .taken))) ∧
    (∃ (b : DeltaBatch) (d : Device) (s : State) (st : Nat) (c : Nat), (s.dev.serves = true) ∧ (s.dev.acceptBatch b = (d, .refused st c))) ∧
    (∃ (source : Nat) (tgid : Nat) (gen : Nat) (round : Nat) (n : Nat) (b : Bool) (tb : Table) (r : Round) (s : State), (s.dev.serves = true) ∧ (s.dev.tableOf tgid = some (n, tb)) ∧ (tb.slotOfGen gen acceptingStates = some b) ∧ ((tb.slot b).round? round = some r) ∧ ((tb.slot b).applied < round) ∧ (r.closed = false) ∧ (round ≤ (tb.slot b).applied + 4) ∧ (r.markers.contains source = false)) ∧
    (∃ (rtag : Nat) (status : Nat) (r : Remote) (s : State), (s.dev.remote? rtag = some r) ∧ (r.kind = 3) ∧ (status % 256 ≠ stOk) ∧ (status % 256 ≠ stInternal)) ∧
    (∃ (rtag : Nat) (status : Nat) (cause : Nat) (r : Remote) (s : State) (d : Device) (j : Job), (s.dev.remote? rtag = some r) ∧ (r.kind = 3) ∧ (status % 256 = stInternal) ∧ (s.dev.failRemote rtag stInternal (cause % 256) = d) ∧ (d.job? r.job = some j)) ∧
    (∃ (rtag : Nat) (status : Nat) (r : Remote) (s : State), (s.dev.remote? rtag = some r) ∧ (r.kind = 3) ∧ (status % 256 = stOk) ∧ (1 < r.pos)) ∧
    (∃ (rtag : Nat) (status : Nat) (r : Remote) (s : State) (d : Device), (s.dev.remote? rtag = some r) ∧ (r.kind = 3) ∧ (status % 256 = stOk) ∧ (r.pos ≤ 1) ∧ ({ s.dev with remotes := s.dev.remotes.filter (fun q => q.rtag != rtag) } = d)) := by
  refine ⟨?_, ?_, ?_, ?_, ?_, ?_, ?_, ?_, ?_, ?_, ?_, ?_, ?_, ?_, ?_⟩
  · refine ⟨(0), ({ wTask (.tht 0) 0x100 .none with cmd := ⟨0, 0x100, 0, 0⟩ }), ?_⟩
    apply Exists.intro
    apply Exists.intro
    apply Exists.intro
    refine ⟨(false), (wS (wThatch 0 wLook .none)), ?_, ?_, ?_, ?_, ?_, ?_, ?_, ?_, ?_, ?_, ?_⟩
    · decide +kernel
    · decide +kernel
    · decide +kernel
    · decide +kernel
    · exact got_ok _ (by decide +kernel)
    · exact rfl
    · decide +kernel
    · decide +kernel
    · decide +kernel
    · decide +kernel
    · decide +kernel
  · refine ⟨(0), ({ wTask (.tht 0) 0x100 (.tht wLook 0 false 1 0 []) with cmd := ⟨0, 0x100, 0, 0⟩ }), ?_⟩
    apply Exists.intro
    apply Exists.intro
    refine ⟨(wLook), (0), (1), (0), (false), ([]), (wS (wThatch 0 wLook (.tht wLook 0 false 1 0 []))), ?_, ?_, ?_, ?_, ?_, ?_, ?_, ?_⟩
    · decide +kernel
    · decide +kernel
    · decide +kernel
    · exact rfl
    · exact opt_some _ (by decide +kernel)
    · decide +kernel
    · exact ⟨[], by decide +kernel, by decide +kernel⟩
    · decide +kernel
  · refine ⟨(0), (6), (.none), ({ (default : RowReq) with tag := 6, len := 24, lines := [(0, some (some (List.replicate 128 0)))] }), ?_⟩
    apply Exists.intro
    apply Exists.intro
    apply Exists.intro
    apply Exists.intro
    refine ⟨(wS { wRun (.tht 0) 0 (.tht wLook 0 false 1 0 []) with rowReqs := [{ (default : RowReq) with tag := 6, len := 24, lines := [(0, some (some (List.replicate 128 0)))] }] }), ?_, ?_, ?_, ?_, ?_, ?_, ?_⟩
    · decide +kernel
    · decide +kernel
    · exact rfl
    · exact opt_some _ (by decide +kernel)
    · decide +kernel
    · exact opt_some _ (by decide +kernel)
    · exact pair_bool _ (by decide +kernel)
  · refine ⟨(6), (wRemote 0), ?_⟩
    apply Exists.intro
    refine ⟨(wS { wRun (.tht 0) 0 .none with remotes := [wRemote 0] }), ?_, ?_, ?_⟩
    · decide +kernel
    · decide +kernel
    · exact opt_some _ (by decide +kernel)
  · exact ⟨(7), (wS { wRun (.tht 0) 0 .none with remotes := [wRemote 0] }), by decide +kernel⟩
  · exact ⟨(0), (wRemote 0), (wS { wRun (.tht 0) 0 .none with remotes := [wRemote 0] }), by decide +kernel⟩
  · refine ⟨(0), ({ wTask (.tht 0) 0x100 .none with cmd := ⟨0x80000, 0x100, 0, 0⟩ }), ?_⟩
    apply Exists.intro
    apply Exists.intro
    apply Exists.intro
    apply Exists.intro
    apply Exists.intro
    apply Exists.intro
    apply Exists.intro
    apply Exists.intro
    apply Exists.intro
    apply Exists.intro
    apply Exists.intro
    refine ⟨(wS (wThatch 0x80000 [2 ^ 32, 5 + 2 ^ 32, 2 ^ 32, 0xA000] .none)), ?_, ?_, ?_, ?_, ?_, ?_, ?_, ?_, ?_, ?_, ?_, ?_, ?_, ?_, ?_, ?_, ?_⟩
    · decide +kernel
    · decide +kernel
    · decide +kernel
    · decide +kernel
    · exact got_ok _ (by decide +kernel)
    · exact rfl
    · exact rfl
    · decide +kernel
    · decide +kernel
    · decide +kernel
    · exact pair_some _ (by decide +kernel)
    · exact pair_eta _
    · exact rfl
    · decide +kernel
    · exact rfl
    · exact opt_some _ (by decide +kernel)
    · decide +kernel
  · refine ⟨(wBatch), ?_⟩
    apply Exists.intro
    refine ⟨(wS (wDev.setTable 0 wStaged)), ?_, ?_⟩
    · decide +kernel
    · exact pair_snd _ _ (by decide +kernel)
  · refine ⟨(wBatch), ?_⟩
    apply Exists.intro
    refine ⟨(wS wTab), ?_, ?_⟩
    · decide +kernel
    · exact pair_snd _ _ staged_taken
  · refine ⟨({ wBatch with gen := 9 }), ?_⟩
    apply Exists.intro
    refine ⟨(wS (wDev.setTable 0 wTable)), (stRetired), (0), ?_, ?_⟩
    · decide +kernel
    · exact pair_snd _ _ (by decide +kernel)
  · exact ⟨(3), (77), (1), (1), (0), (false), ({ wTable with a := { wTable.a with rounds := [wRound] } }), (wRound), (wS (wDev.setTable 0 { wTable with a := { wTable.a with rounds := [wRound] } })), by decide +kernel⟩
  · exact ⟨(6), (0x21), (wRemote 3), (wS { wRun (.tht 0) 0 .none with remotes := [wRemote 3] }), by decide +kernel⟩
  · refine ⟨(6), (stInternal), 0, (wRemote 3), (wS { wRun (.tht 0) 0 .none with remotes := [wRemote 3] }), ?_⟩
    apply Exists.intro
    apply Exists.intro
    refine ⟨?_, ?_, ?_, ?_, ?_⟩
    · decide +kernel
    · decide +kernel
    · decide +kernel
    · exact rfl
    · exact opt_some _ (by decide +kernel)
  · exact ⟨(6), (0), ({ wRemote 3 with pos := 2 }), (wS { wRun (.tht 0) 0 .none with remotes := [{ wRemote 3 with pos := 2 }] }), by decide +kernel⟩
  · refine ⟨(6), (0), ({ wRemote 3 with pos := 1 }), (wS { wRun (.tht 0) 0 .none with remotes := [{ wRemote 3 with pos := 1 }] }), ?_⟩
    apply Exists.intro
    refine ⟨?_, ?_, ?_, ?_, ?_⟩
    · decide +kernel
    · decide +kernel
    · decide +kernel
    · decide +kernel
    · exact rfl

/-- What `Obligations.TablesMoveOn` supposes can be met. -/
theorem witness_TablesMoveOn :
    (∃ (n : Nat) (b : Bool) (r : Round) (d : Device) (s : State), (s.dev.serves = true) ∧ ((s.dev.table n).valid = true) ∧ (((s.dev.table n).slot b).build = none) ∧ (((s.dev.table n).slot b).state ≠ vEmpty) ∧ (((s.dev.table n).slot b).lowest = some r) ∧ (r.complete = true) ∧ (s.dev.writeRows n b (s.dev.table n) (r.updates.drop r.made) = (d, true))) ∧
    (∃ (n : Nat) (j : Nat) (b : Bool) (d : Device) (sum : Word) (s : State), (((s.dev.table n).slot b).build = some (1, j)) ∧ (s.dev.digestRows (s.dev.table n) b (s.dev.localRows (s.dev.table n)) 0 = (d, .ok sum))) ∧
    (∃ (n : Nat) (j : Nat) (b : Bool) (d : Device) (sum : Word) (s : State), (((s.dev.table n).slot b).build = some (2, j)) ∧ (s.dev.digestRows (s.dev.table n) b (s.dev.localRows (s.dev.table n)) 0 = (d, .ok sum)) ∧ (((s.dev.table n).slot b).digest = sum)) ∧
    (∃ (n : Nat) (b : Bool) (s : State), (((s.dev.table n).slot b).state = vRetiring) ∧ (s.dev.boundTasks n b = 0) ∧ (s.dev.serving.any (fun p => p.2.kind == 1 && p.2.tgid == (s.dev.table n).tgid && p.2.gen == ((s.dev.table n).slot b).gen) = false) ∧ (((s.dev.table n).slot b).rounds = []) ∧ (((s.dev.table n).slot b).build = none)) ∧
    (∃ (j : Nat) (k : Job) (d : Device) (e : Device) (bs : List Byte) (os : List Byte) (u : Table) (s : State), (s.dev.tableOp? j 0 = some k) ∧ ((s.dev.table k.cmd.tableNo).a.state = vEmpty) ∧ ((s.dev.table k.cmd.tableNo).b.state = vEmpty) ∧ (s.dev.vload 0 16 k.cmd.opUnit ((s.dev.fld Reg.THT_TDT_BASE Fld.THT_TDT_BASE_ADDR * 128 + 128 * k.cmd.tableNo : Nat) : Int) 128 = (d, .ok bs)) ∧ ({ s.dev.table k.cmd.tableNo with desc := bytesWords bs } = u) ∧ (k.ctx = 0 ∨ k.ctx = u.ctx) ∧ (descBad u.desc = false) ∧ ((if u.own = 0 then (d, .ok []) else d.vload u.ctx 16 k.cmd.opUnit (u.f 5 51 0) (4 * u.nshard)) = (e, .ok os))) ∧
    (∃ (j : Nat) (op : Nat) (n : Nat) (k : Job) (t : Table) (b : Bool) (v : VSlot) (w : VSlot) (s : State), (s.dev.tableOp? j op = some k) ∧ (k.cmd.tableNo = n) ∧ (s.dev.table n = t) ∧ (t.valid = true) ∧ (k.ctx = 0 ∨ k.ctx = t.ctx) ∧ (k.cmd.slotB = b) ∧ (t.slot b = v) ∧ (t.slot (!b) = w) ∧ (op = 1) ∧ (v.state = vEmpty) ∧ (w.gen ≠ bits k.cmd.c1 31 0)) ∧
    (∃ (j : Nat) (op : Nat) (n : Nat) (k : Job) (t : Table) (b : Bool) (v : VSlot) (w : VSlot) (s : State), (s.dev.tableOp? j op = some k) ∧ (k.cmd.tableNo = n) ∧ (s.dev.table n = t) ∧ (t.valid = true) ∧ (k.ctx = 0 ∨ k.ctx = t.ctx) ∧ (k.cmd.slotB = b) ∧ (t.slot b = v) ∧ (t.slot (!b) = w) ∧ (op = 2) ∧ (v.state = vLoading) ∧ (v.build = none)) ∧
    (∃ (j : Nat) (op : Nat) (n : Nat) (k : Job) (t : Table) (b : Bool) (v : VSlot) (w : VSlot) (s : State), (s.dev.tableOp? j op = some k) ∧ (k.cmd.tableNo = n) ∧ (s.dev.table n = t) ∧ (t.valid = true) ∧ (k.ctx = 0 ∨ k.ctx = t.ctx) ∧ (k.cmd.slotB = b) ∧ (t.slot b = v) ∧ (t.slot (!b) = w) ∧ (op = 3) ∧ (v.state = vStandby) ∧ (w.state = vCurrent)) ∧
    (∃ (j : Nat) (op : Nat) (n : Nat) (k : Job) (t : Table) (b : Bool) (v : VSlot) (w : VSlot) (s : State), (s.dev.tableOp? j op = some k) ∧ (k.cmd.tableNo = n) ∧ (s.dev.table n = t) ∧ (t.valid = true) ∧ (k.ctx = 0 ∨ k.ctx = t.ctx) ∧ (k.cmd.slotB = b) ∧ (t.slot b = v) ∧ (t.slot (!b) = w) ∧ (op = 3) ∧ (v.state = vStandby) ∧ (w.state ≠ vCurrent)) ∧
    (∃ (j : Nat) (op : Nat) (n : Nat) (k : Job) (t : Table) (b : Bool) (v : VSlot) (w : VSlot) (s : State), (s.dev.tableOp? j op = some k) ∧ (k.cmd.tableNo = n) ∧ (s.dev.table n = t) ∧ (t.valid = true) ∧ (k.ctx = 0 ∨ k.ctx = t.ctx) ∧ (k.cmd.slotB = b) ∧ (t.slot b = v) ∧ (t.slot (!b) = w) ∧ (op = 4) ∧ (v.state = vLoading ∨ v.state = vStandby) ∧ (v.rounds = [])) ∧
    (∃ (j : Nat) (op : Nat) (n : Nat) (k : Job) (t : Table) (b : Bool) (v : VSlot) (w : VSlot) (s : State), (s.dev.tableOp? j op = some k) ∧ (k.cmd.tableNo = n) ∧ (s.dev.table n = t) ∧ (t.valid = true) ∧ (k.ctx = 0 ∨ k.ctx = t.ctx) ∧ (k.cmd.slotB = b) ∧ (t.slot b = v) ∧ (t.slot (!b) = w) ∧ (op = 5) ∧ (v.state = vStandby ∨ v.state = vCurrent ∨ v.state = vRetiring) ∧ (v.build = none)) ∧
    (∃ (j : Nat) (op : Nat) (n : Nat) (k : Job) (t : Table) (b : Bool) (v : VSlot) (w : VSlot) (s : State) (r : Round), (s.dev.tableOp? j op = some k) ∧ (k.cmd.tableNo = n) ∧ (s.dev.table n = t) ∧ (t.valid = true) ∧ (k.ctx = 0 ∨ k.ctx = t.ctx) ∧ (k.cmd.slotB = b) ∧ (t.slot b = v) ∧ (t.slot (!b) = w) ∧ (op = 6) ∧ (v.round? (bits k.cmd.c2 31 0) = some r) ∧ (r.closed = false)) := by
  refine ⟨?_, ?_, ?_, ?_, ?_, ?_, ?_, ?_, ?_, ?_, ?_, ?_⟩
  · refine ⟨(0), (false), ({ wRound with markers := [3, 4] }), ?_⟩
    apply Exists.intro
    refine ⟨(wS (wDev.setTable 0 wStaged)), ?_, ?_, ?_, ?_, ?_, ?_, ?_⟩
    · decide +kernel
    · decide +kernel
    · decide +kernel
    · decide +kernel
    · decide +kernel
    · decide +kernel
    · exact pair_bool _ (by decide +kernel)
  · refine ⟨(0), (0), (false), ?_⟩
    apply Exists.intro
    apply Exists.intro
    refine ⟨(wS (wDev.setTable 0 { wTable with a := { wTable.a with state := vLoading, build := some (1, 0) } })), ?_, ?_⟩
    · decide +kernel
    · exact got_ok _ (by decide +kernel)
  · refine ⟨(0), (0), (false), ?_⟩
    apply Exists.intro
    apply Exists.intro
    refine ⟨(wS (wDev.setTable 0 { wTable with a := { wTable.a with state := vCurrent, build := some (2, 0), digest := wSum } })), ?_, ?_, ?_⟩
    · decide +kernel
    · exact got_ok _ (by decide +kernel)
    · exact rfl
  · exact ⟨(0), (false), (wS (wDev.setTable 0 { wTable with a := { wTable.a with state := vRetiring } })), by decide +kernel⟩
  · refine ⟨(0), (wIssued (pack [(0, 8, 0x28)]) 0 0), ?_⟩
    apply Exists.intro
    apply Exists.intro
    apply Exists.intro
    apply Exists.intro
    apply Exists.intro
    refine ⟨(wS (withHbm (wTop 0 0 0 0 ({ wTable with a := default, b := default })) 0 [0x0000004D00401001, 0x0005000000000010, 0, 1, 1, 0, 0x100000, 0x200000, 0, 0, 0, 0, 16, 0, 0, 0])), ?_, ?_, ?_, ?_, ?_, ?_, ?_, ?_⟩
    · decide +kernel
    · decide +kernel
    · decide +kernel
    · exact got_ok _ (by decide +kernel)
    · exact rfl
    · decide +kernel
    · decide +kernel
    · exact got_ok _ (by decide +kernel)
  · exact ⟨(0), (1), (0), (wIssued (pack [(0, 8, 0x28), (19, 4, 1), (23, 1, 0)]) 3 0), (({ wTable with a := default })), (false), ((({ wTable with a := default })).a), ((({ wTable with a := default })).b), (wS (wTop 1 0 3 0 ({ wTable with a := default }))), by decide +kernel⟩
  · exact ⟨(0), (2), (0), (wIssued (pack [(0, 8, 0x28), (19, 4, 2), (23, 1, 0)]) 0 0), (({ wTable with a := { wTable.a with state := vLoading } })), (false), ((({ wTable with a := { wTable.a with state := vLoading } })).a), ((({ wTable with a := { wTable.a with state := vLoading } })).b), (wS (wTop 2 0 0 0 ({ wTable with a := { wTable.a with state := vLoading } }))), by decide +kernel⟩
  · exact ⟨(0), (3), (0), (wIssued (pack [(0, 8, 0x28), (19, 4, 3), (23, 1, 1)]) 0 0), (wTable), (true), ((wTable).b), ((wTable).a), (wS (wTop 3 1 0 0 wTable)), by decide +kernel⟩
  · exact ⟨(0), (3), (0), (wIssued (pack [(0, 8, 0x28), (19, 4, 3), (23, 1, 1)]) 0 0), (({ wTable with a := { wTable.a with state := vRetiring } })), (true), ((({ wTable with a := { wTable.a with state := vRetiring } })).b), ((({ wTable with a := { wTable.a with state := vRetiring } })).a), (wS (wTop 3 1 0 0 ({ wTable with a := { wTable.a with state := vRetiring } }))), by decide +kernel⟩
  · exact ⟨(0), (4), (0), (wIssued (pack [(0, 8, 0x28), (19, 4, 4), (23, 1, 1)]) 0 0), (wTable), (true), ((wTable).b), ((wTable).a), (wS (wTop 4 1 0 0 wTable)), by decide +kernel⟩
  · exact ⟨(0), (5), (0), (wIssued (pack [(0, 8, 0x28), (19, 4, 5), (23, 1, 0)]) 0 0), (wTable), (false), ((wTable).a), ((wTable).b), (wS (wTop 5 0 0 0 wTable)), by decide +kernel⟩
  · exact ⟨(0), (6), (0), (wIssued (pack [(0, 8, 0x28), (19, 4, 6), (23, 1, 0)]) 0 1), (({ wTable with a := { wTable.a with rounds := [wRound] } })), (false), ((({ wTable with a := { wTable.a with rounds := [wRound] } })).a), ((({ wTable with a := { wTable.a with rounds := [wRound] } })).b), (wS (wTop 6 0 0 1 ({ wTable with a := { wTable.a with rounds := [wRound] } }))), (wRound), by decide +kernel⟩

/-- What `Obligations.AttentionTasks` supposes can be met. -/
theorem witness_AttentionTasks :
    (∃ (t : Truss) (j : Job) (d : Device) (e : Device) (bs : List Byte) (ss : List Byte) (w : List Word) (recs : List (List Word)) (seqs : List Nat) (s : State), (s.dev.active? (.atn t) = some j) ∧ (j.run = .none) ∧ (j.cmd.c1.toNat % 8 = 0) ∧ (s.dev.ptrLoad j.ctx t (unitCode t 9) false j.cmd.c1 128 = (d, .ok bs)) ∧ (bytesWords bs = w) ∧ (atnStartCause w = none) ∧ (d.atnLoad j t (atnF w 3 63 32) 0 (16 * atnNseg w) = (e, .ok ss)) ∧ ((chunks 16 ss.length ss).map bytesWords = recs) ∧ (segRefusal (atnRows w) 0 [] recs = none) ∧ ((if atnWalks w then ((recs.map segOf).map AtnSeg.seq).eraseDups else []) = seqs) ∧ (seqs.filter (fun q => e.editPending q || decide (65535 ≤ e.walks q)) = [])) ∧
    (∃ (t : Truss) (j : Job) (d : Device) (e : Device) (bs : List Byte) (ss : List Byte) (w : List Word) (recs : List (List Word)) (seqs : List Nat) (s : State) (q : Nat) (qs : List Nat), (s.dev.active? (.atn t) = some j) ∧ (j.run = .none) ∧ (j.cmd.c1.toNat % 8 = 0) ∧ (s.dev.ptrLoad j.ctx t (unitCode t 9) false j.cmd.c1 128 = (d, .ok bs)) ∧ (bytesWords bs = w) ∧ (atnStartCause w = none) ∧ (d.atnLoad j t (atnF w 3 63 32) 0 (16 * atnNseg w) = (e, .ok ss)) ∧ ((chunks 16 ss.length ss).map bytesWords = recs) ∧ (segRefusal (atnRows w) 0 [] recs = none) ∧ ((if atnWalks w then ((recs.map segOf).map AtnSeg.seq).eraseDups else []) = seqs) ∧ (seqs.filter (fun q => e.editPending q || decide (65535 ≤ e.walks q)) = q :: qs)) ∧
    (∃ (t : Truss) (j : Job) (w : List Word) (rs : List (Nat × List Word)) (segs : List AtnSeg) (a : Nat) (b : Nat) (c : Nat) (s : State), (s.dev.active? (.atn t) = some j) ∧ (j.run = .atn w rs segs a b c)) ∧
    (∃ (d : Device) (e : Device) (j : Job) (t : Nat) (a : Nat) (q : Nat) (w : List Word) (r : List Word) (bs : List Byte), (d.rootAddr q = some a) ∧ (d.vload j.ctx t (unitCode t 9) a 64 = (e, .ok bs)) ∧ (bytesWords bs = r) ∧ (rootBad w r = false)) ∧
    (∃ (t : Truss) (u : Upset) (j : Job) (slot : Nat) (seg : Nat) (grp : Nat) (page : Nat) (w : List Word) (rs : List (Nat × List Word)) (segs : List AtnSeg) (sg : AtnSeg) (rows : List (Nat × Nat)) (phi : List Word) (qs : List AtnVec) (kvs : List (Nat × AtnVec × AtnVec)) (rot : List (AtnVec × Tally)) (outs : List PageOut) (d1 : Device) (d2 : Device) (d3 : Device) (d4 : Device) (s : State), (s.dev.atnRun? t 0 = some (j, slot)) ∧ (j.run = .atn w rs segs seg grp page) ∧ (segs.getD seg default = sg) ∧ (atnPacked w = false) ∧ ((segRange w sg).1 < (segRange w sg).2) ∧ (atnGroupRows w sg grp = rows) ∧ (∀ k, s.dev.phis j t w k = k d1 phi) ∧ (∀ k, d1.atnVecs j t w (rows.map (fun r => (atnF w 2 31 0, r.1 * atnF w 2 55 32 + r.2 * atnDh w, atnF w 3 31 0, (r.1 * atnQpg w + r.2) * atnNb w, 0))) [] k = k d2 qs) ∧ (∀ k, d2.pagedKeys j t w rs sg.seq ((segRange w sg).1 + page) (rows.foldl (fun m r => max m (sg.start + (r.1 - sg.first))) 0) k = k d3 kvs) ∧ ((rows.zip qs).map (fun p => p.2.roped w phi (sg.start + (p.1.1 - sg.first))) = rot) ∧ (groupStep w sg ((if page = 0 then rows.map (fun r => RowState.fresh w r.1 r.2) else tget (s.dev.atnSt t).store (4 * j.id + slot) []).zip (rot.map (·.1))) kvs = outs) ∧ (d3.atnResidue j t sg.seq ((segRange w sg).1 + page) page (outs.foldl (fun n o => n + o.keys) 0) u = (d4, true))) ∧
    (∃ (t : Truss) (u : Upset) (j : Job) (slot : Nat) (seg : Nat) (grp : Nat) (page : Nat) (base : Nat) (w : List Word) (rs : List (Nat × List Word)) (segs : List AtnSeg) (g : AtnSeg) (phi : List Word) (k : AtnVec) (v : AtnVec) (d1 : Device) (d2 : Device) (d3 : Device) (d4 : Device) (d5 : Device) (d6 : Device) (d7 : Device) (s : State), (s.dev.atnRun? t 1 = some (j, slot)) ∧ (j.run = .atn w rs segs seg grp page) ∧ (segs.getD seg default = g) ∧ (∀ f, s.dev.walk j t w rs g.seq ((g.start + grp) / 64) f = f d1 base) ∧ (∀ f, d1.phis j t w f = f d2 phi) ∧ (∀ f, d2.atnVec j t w (atnF w 8 31 0) ((g.first + grp) * atnDh w) (atnF w 9 31 0) ((g.first + grp) * atnNb w) 3 f = f d3 k) ∧ (∀ f, d3.atnVec j t w (atnF w 8 63 32) ((g.first + grp) * atnDh w) (atnF w 9 63 32) ((g.first + grp) * atnNb w) 4 f = f d4 v) ∧ (d4.atnResidue j t g.seq ((g.start + grp) / 64) grp 0 u = (d5, true)) ∧ (∀ f, d5.putSlot j t w base ((g.start + grp) % 64) ((k.roped w phi (g.start + grp)).1, v) f = f d6) ∧ ((d6.atnTally j t (k.roped w phi (g.start + grp)).2).count (Reg.ATN_APPENDED t) 1 = d7)) ∧
    (∃ (t : Truss) (u : Upset) (j : Job) (slot : Nat) (seg : Nat) (grp : Nat) (page : Nat) (w : List Word) (rs : List (Nat × List Word)) (segs : List AtnSeg) (g : AtnSeg) (p : Tracked × List Tracked) (d1 : Device) (d2 : Device) (d3 : Device) (s : State), (s.dev.atnRun? t 2 = some (j, slot)) ∧ (j.run = .atn w rs segs seg grp page) ∧ (segs.getD seg default = g) ∧ (s.dev.atnResidue j t g.seq 0 grp 0 u = (d1, true)) ∧ (∀ f, d1.combine j t w (g.first + grp / max 1 (atnQpg w)) (grp % max 1 (atnQpg w)) (atnNr w) 0 (tzero, List.replicate (atnDh w) tzero) f = f d2 p) ∧ (∀ f, d2.atnOutput j t w (g.first + grp / max 1 (atnQpg w)) (grp % max 1 (atnQpg w)) p.1 p.2 f = f d3)) := by
  refine ⟨?_, ?_, ?_, ?_, ?_, ?_, ?_⟩
  · refine ⟨(0), (wTask (.atn 0) 0x100 .none), ?_⟩
    apply Exists.intro
    apply Exists.intro
    apply Exists.intro
    apply Exists.intro
    apply Exists.intro
    apply Exists.intro
    refine ⟨([3]), (wS (wAtn 0 .none)), ?_, ?_, ?_, ?_, ?_, ?_, ?_, ?_, ?_, ?_, ?_⟩
    · decide +kernel
    · decide +kernel
    · decide +kernel
    · exact got_ok _ (by decide +kernel)
    · exact rfl
    · decide +kernel
    · exact got_ok _ (by decide +kernel)
    · exact rfl
    · decide +kernel
    · decide +kernel
    · decide +kernel
  · refine ⟨(0), (wTask (.atn 0) 0x100 .none), ?_⟩
    apply Exists.intro
    apply Exists.intro
    apply Exists.intro
    apply Exists.intro
    apply Exists.intro
    apply Exists.intro
    refine ⟨([3]), (wS { wAtn 0 .none with kvEdits := [wEdit 1 [3] 0] }), (3), ([]), ?_, ?_, ?_, ?_, ?_, ?_, ?_, ?_, ?_, ?_, ?_⟩
    · decide +kernel
    · decide +kernel
    · decide +kernel
    · exact got_ok _ (by decide +kernel)
    · exact rfl
    · decide +kernel
    · exact got_ok _ (by decide +kernel)
    · exact rfl
    · decide +kernel
    · decide +kernel
    · decide +kernel
  · exact ⟨(0), (wTask (.atn 0) 0x100 (.atn (wAtnDesc 0) [(3, wRoot 0x50000)] [wSeg] 0 0 0)), (wAtnDesc 0), ([(3, wRoot 0x50000)]), ([wSeg]), (0), (0), (0), (wS { wAtn 0 (wAtnRun 0) with atn := [(0, { (default : AtnEngine) with lab := [⟨3, 0, pteWord 0x60000⟩] })] }), by decide +kernel⟩
  · refine ⟨(wAtn 0 .none), ?_⟩
    apply Exists.intro
    refine ⟨(wTask (.atn 0) 0x100 .none), (0), ?_⟩
    apply Exists.intro
    refine ⟨(3), (wAtnDesc 0), ?_⟩
    apply Exists.intro
    apply Exists.intro
    refine ⟨?_, ?_, ?_, ?_⟩
    · exact opt_some _ (by decide +kernel)
    · exact got_ok _ (by decide +kernel)
    · exact rfl
    · decide +kernel
  · refine ⟨(0), (.none), (wTask (.atn 0) 0x100 (wAtnRun 0)), (0), (0), (0), (0), (wAtnDesc 0), ([(3, wRoot 0x50000)]), ([wSeg]), (wSeg), (atnGroupRows (wAtnDesc 0) wSeg 0), ?_⟩
    apply Exists.intro
    apply Exists.intro
    apply Exists.intro
    apply Exists.intro
    apply Exists.intro
    apply Exists.intro
    apply Exists.intro
    apply Exists.intro
    apply Exists.intro
    refine ⟨(wS { wAtn 0 (wAtnRun 0) with atn := [(0, { (default : AtnEngine) with lab := [⟨3, 0, pteWord 0x60000⟩] })] }), ?_, ?_, ?_, ?_, ?_, ?_, ?_, ?_, ?_, ?_, ?_, ?_⟩
    · decide +kernel
    · decide +kernel
    · decide +kernel
    · decide +kernel
    · decide +kernel
    · decide +kernel
    · exact Device.phis_plain (by decide +kernel)
    · exact Device.atnVecs_one (Device.atnVec_ok (got_ok _ (by decide +kernel)) (got_ok _ (by decide +kernel)) (opt_some _ (by decide +kernel)))
    · exact Device.pagedKeys_ok (n := 1) (by decide +kernel) (by decide +kernel) (Device.walk_hit (x := ⟨3, 0, pteWord 0x60000⟩) rfl (by decide +kernel) (by decide +kernel) rfl (by decide +kernel) (by decide +kernel)) (got_ok _ (by decide +kernel)) (got_ok _ (by decide +kernel)) (got_ok _ (by decide +kernel)) (got_ok _ (by decide +kernel)) (opt_some _ (by decide +kernel))
    · exact rfl
    · exact rfl
    · exact pair_bool _ (by decide +kernel)
  · refine ⟨(0), (.none), (wTask (.atn 0) 0x100 (wAtnRun 1)), (0), (0), (0), (0), ?_⟩
    apply Exists.intro
    refine ⟨(wAtnDesc 1), ([(3, wRoot 0x50000)]), ([wSeg]), (wSeg), ?_⟩
    apply Exists.intro
    apply Exists.intro
    apply Exists.intro
    apply Exists.intro
    apply Exists.intro
    apply Exists.intro
    apply Exists.intro
    apply Exists.intro
    apply Exists.intro
    apply Exists.intro
    refine ⟨(wS { wAtn 1 (wAtnRun 1) with atn := [(0, { (default : AtnEngine) with lab := [⟨3, 0, pteWord 0x60000⟩] })] }), ?_, ?_, ?_, ?_, ?_, ?_, ?_, ?_, ?_, ?_⟩
    · decide +kernel
    · decide +kernel
    · decide +kernel
    · exact Device.walk_hit (x := ⟨3, 0, pteWord 0x60000⟩) rfl (by decide +kernel) (by decide +kernel) rfl (by decide +kernel) (by decide +kernel)
    · exact Device.phis_plain (by decide +kernel)
    · exact Device.atnVec_ok (got_ok _ (by decide +kernel)) (got_ok _ (by decide +kernel)) (opt_some _ (by decide +kernel))
    · exact Device.atnVec_ok (got_ok _ (by decide +kernel)) (got_ok _ (by decide +kernel)) (opt_some _ (by decide +kernel))
    · exact pair_bool _ (by decide +kernel)
    · exact Device.putSlot_ok rfl (got_unit _ (by decide +kernel)) (got_unit _ (by decide +kernel)) (got_unit _ (by decide +kernel)) (got_unit _ (by decide +kernel))
    · exact rfl
  · refine ⟨(0), (.none), (wTask (.atn 0) 0x100 (wAtnRun 2)), (0), (0), (0), (0), (wAtnDesc 2), ([(3, wRoot 0x50000)]), ([wSeg]), (wSeg), ?_⟩
    apply Exists.intro
    apply Exists.intro
    apply Exists.intro
    apply Exists.intro
    refine ⟨(wS { wAtn 2 (wAtnRun 2) with atn := [(0, { (default : AtnEngine) with lab := [⟨3, 0, pteWord 0x60000⟩] })] }), ?_, ?_, ?_, ?_, ?_, ?_⟩
    · decide +kernel
    · decide +kernel
    · decide +kernel
    · exact pair_bool _ (by decide +kernel)
    · exact Device.combine_one (by decide +kernel) rfl (got_ok _ (by decide +kernel)) (by decide +kernel) (got_unit _ (by decide +kernel))
    · exact Device.atnOutput_ok (got_unit _ (by decide +kernel)) rfl

/-- What `Obligations.AttentionIsCausal` supposes can be met. -/
theorem witness_AttentionIsCausal :
    (∃ (sg : AtnSeg) (qs : List (RowState × AtnVec)) (kvs : List (Nat × AtnVec × AtnVec)) (kvs' : List (Nat × AtnVec × AtnVec)), (∀ p ∈ qs, ∀ n, n = sg.start + (p.1.row - sg.first) → kvs.filter (fun x => decide (x.1 ≤ n)) = kvs'.filter (fun x => decide (x.1 ≤ n)))) := by
  refine ⟨(wSeg), ([(RowState.fresh (wAtnDesc 0) 0 0, default)]), ([]), ([(1, default, default)]), ?_⟩
  intro p hp n hn; obtain rfl := List.mem_singleton.mp hp; subst hn; decide +kernel

/-- What `Obligations.SequenceEdits` supposes can be met. -/
theorem witness_SequenceEdits :
    (∃ (j : Nat) (q : Nat) (a : Nat) (k : Job) (r : List Word) (d : Device) (f : Device) (s : State), (s.dev.kvOp? j 0 = some k) ∧ (kvSeq k = q) ∧ (s.dev.mayEdit k q = true) ∧ (∀ g, s.dev.kvRoot k q g = g d a r) ∧ (rootPages r < 16384) ∧ (badSet r (kvAddr k) = false) ∧ (∀ g, d.appendSet k q a r (kvAddr k) g = g f)) ∧
    (∃ (j : Nat) (q : Nat) (a : Nat) (k : Job) (r : List Word) (d : Device) (s : State), (s.dev.kvOp? j 1 = some k) ∧ (kvSeq k = q) ∧ (s.dev.mayEdit k q = true) ∧ ((s.dev.seq q).parked = true) ∧ (∀ g, s.dev.kvRoot k q g = g d a r) ∧ (kvN k ≤ rootPages r)) ∧
    (∃ (j : Nat) (q : Nat) (a : Nat) (k : Job) (r : List Word) (d : Device) (s : State), (s.dev.kvOp? j 2 = some k) ∧ (kvSeq k = q) ∧ (s.dev.mayEdit k q = true) ∧ ((s.dev.seq q).parked = true) ∧ (∀ g, s.dev.kvRoot k q g = g d a r) ∧ (kvN k < rootPages r) ∧ (badSet r (kvAddr k) = false)) ∧
    (∃ (j : Nat) (p : Nat) (q : Nat) (a : Nat) (b : Nat) (k : Job) (rd : List Word) (rs : List Word) (ptes : List Word) (d : Device) (e : Device) (f : Device) (s : State), (s.dev.kvOp? j 3 = some k) ∧ (kvSeq k = p) ∧ (kvDst k = q) ∧ (s.dev.mayEdit k p = true) ∧ (s.dev.mayEdit k q = true) ∧ ((s.dev.seq p).parked = true) ∧ ((s.dev.seq q).parked = true ∨ (s.dev.seq q).state = 1) ∧ (∀ g, s.dev.kvRootAt k q (s.dev.forkAddr q) g = g d a rd) ∧ (∀ g, d.kvRoot k p g = g e b rs) ∧ (∀ g, e.readTable k p rs (min (kvN k) (rootPages rs)) g = g f ptes) ∧ (forkCause rs rd (kvN k) ptes = none)) ∧
    (∃ (j : Nat) (a : Nat) (k : Job) (e : KvEdit) (r : List Word) (d : Device) (f : Device) (s : State), (s.dev.edit? j = some (k, e)) ∧ (k.state ≠ .done) ∧ (e.seqs.any (fun q => s.dev.walks q != 0) = false) ∧ (k.waitFrom = none) ∧ (∀ g, s.dev.kvRoot k (e.seqs.headD 0) g = g d a r) ∧ (e.op = 1) ∧ (e.n ≤ rootPages r) ∧ (∀ g, d.setPages k (e.seqs.headD 0) a r e.n g = g f)) ∧
    (∃ (j : Nat) (a : Nat) (k : Job) (e : KvEdit) (r : List Word) (d : Device) (f : Device) (s : State), (s.dev.edit? j = some (k, e)) ∧ (k.state ≠ .done) ∧ (e.seqs.any (fun q => s.dev.walks q != 0) = false) ∧ (k.waitFrom = none) ∧ (∀ g, s.dev.kvRoot k (e.seqs.headD 0) g = g d a r) ∧ (e.op = 2) ∧ (e.n < rootPages r) ∧ (badSet r e.addr = false) ∧ (∀ g, d.kvStore k (e.seqs.headD 0) (rootPt r + 8 * e.n) (wordBytes (pteWord e.addr)) g = g f)) ∧
    (∃ (j : Nat) (a : Nat) (k : Job) (e : KvEdit) (r : List Word) (d : Device) (s : State) (p : Nat) (q : Nat) (b : Nat) (rd : List Word) (ptes : List Word) (d2 : Device) (d3 : Device) (d3' : Device) (d4 : Device) (d5 : Device), (s.dev.edit? j = some (k, e)) ∧ (k.state ≠ .done) ∧ (e.seqs.any (fun q => s.dev.walks q != 0) = false) ∧ (k.waitFrom = none) ∧ (∀ g, s.dev.kvRoot k (e.seqs.headD 0) g = g d a r) ∧ (e.op = 3) ∧ (e.seqs = [p, q]) ∧ (∀ g, d.kvRootAt k q (d.forkAddr q) g = g d2 b rd) ∧ (∀ g, d2.readTable k p r (min e.n (rootPages r)) g = g d3 ptes) ∧ (forkCause r rd e.n ptes = none) ∧ ((match d3.forkRoot q with | some i => d3.takeRoot q i | none => d3) = d3') ∧ (∀ g, d3'.kvStore k q (rootPt rd) (wordsBytes ptes) g = g d4) ∧ (∀ g, d4.setPages k q b rd e.n g = g d5)) ∧
    (∃ (j : Nat) (k : Job) (e : KvEdit) (s : State), (s.dev.edit? j = some (k, e)) ∧ (k.state ≠ .done) ∧ (e.deadline ≤ s.dev.now) ∧ (e.seqs.any (fun q => s.dev.walks q != 0) = true)) := by
  refine ⟨?_, ?_, ?_, ?_, ?_, ?_, ?_, ?_⟩
  · refine ⟨(0), (3), ?_⟩
    apply Exists.intro
    refine ⟨(wIssued (wKv 0) 0x64000 0), ?_⟩
    apply Exists.intro
    apply Exists.intro
    apply Exists.intro
    refine ⟨(wS (wSeqs (wOp (wKv 0) 0x64000 0))), ?_, ?_, ?_, ?_, ?_, ?_, ?_⟩
    · decide +kernel
    · decide +kernel
    · decide +kernel
    · exact Device.kvRoot_ok (opt_some _ (by decide +kernel)) (got_ok _ (by decide +kernel))
    · decide +kernel
    · decide +kernel
    · exact Device.appendSet_ok (got_unit _ (by decide +kernel)) (got_unit _ (by decide +kernel))
  · refine ⟨(0), (3), ?_⟩
    apply Exists.intro
    refine ⟨(wIssued (wKv 1) 0 0), ?_⟩
    apply Exists.intro
    apply Exists.intro
    refine ⟨(wS (wSeqs (wOp (wKv 1) 0 0))), ?_, ?_, ?_, ?_, ?_, ?_⟩
    · decide +kernel
    · decide +kernel
    · decide +kernel
    · decide +kernel
    · exact Device.kvRoot_ok (opt_some _ (by decide +kernel)) (got_ok _ (by decide +kernel))
    · decide +kernel
  · refine ⟨(0), (3), ?_⟩
    apply Exists.intro
    refine ⟨(wIssued (wKv 2) 0x64000 0), ?_⟩
    apply Exists.intro
    apply Exists.intro
    refine ⟨(wS (wSeqs (wOp (wKv 2) 0x64000 0))), ?_, ?_, ?_, ?_, ?_, ?_, ?_⟩
    · decide +kernel
    · decide +kernel
    · decide +kernel
    · decide +kernel
    · exact Device.kvRoot_ok (opt_some _ (by decide +kernel)) (got_ok _ (by decide +kernel))
    · decide +kernel
    · decide +kernel
  · refine ⟨(0), (3), (4), ?_⟩
    apply Exists.intro
    apply Exists.intro
    refine ⟨(wIssued (wKv 3) 0 1), ?_⟩
    apply Exists.intro
    apply Exists.intro
    apply Exists.intro
    apply Exists.intro
    apply Exists.intro
    apply Exists.intro
    refine ⟨(wS (wSeqs (wOp (wKv 3) 0 1))), ?_, ?_, ?_, ?_, ?_, ?_, ?_, ?_, ?_, ?_, ?_⟩
    · decide +kernel
    · decide +kernel
    · decide +kernel
    · decide +kernel
    · decide +kernel
    · decide +kernel
    · decide +kernel
    · exact Device.kvRootAt_ok (opt_some _ (by decide +kernel)) (got_ok _ (by decide +kernel))
    · exact Device.kvRoot_ok (opt_some _ (by decide +kernel)) (got_ok _ (by decide +kernel))
    · exact Device.readTable_ok (by decide +kernel) (got_ok _ (by decide +kernel))
    · decide +kernel
  · refine ⟨(0), ?_⟩
    apply Exists.intro
    refine ⟨({ wIssued (wKv (wEdit 1 [3] 0).op) 0 0 with state := .waiting }), (wEdit 1 [3] 0), ?_⟩
    apply Exists.intro
    apply Exists.intro
    apply Exists.intro
    refine ⟨(wS (wEditing (wEdit 1 [3] 0))), ?_, ?_, ?_, ?_, ?_, ?_, ?_, ?_⟩
    · decide +kernel
    · decide +kernel
    · decide +kernel
    · decide +kernel
    · exact Device.kvRoot_ok (opt_some _ (by decide +kernel)) (got_ok _ (by decide +kernel))
    · decide +kernel
    · decide +kernel
    · exact Device.setPages_ok (got_unit _ (by decide +kernel))
  · refine ⟨(0), ?_⟩
    apply Exists.intro
    refine ⟨({ wIssued (wKv (wEdit 2 [3] 0).op) 0 0 with state := .waiting }), (wEdit 2 [3] 0), ?_⟩
    apply Exists.intro
    apply Exists.intro
    apply Exists.intro
    refine ⟨(wS (wEditing (wEdit 2 [3] 0))), ?_, ?_, ?_, ?_, ?_, ?_, ?_, ?_, ?_⟩
    · decide +kernel
    · decide +kernel
    · decide +kernel
    · decide +kernel
    · exact Device.kvRoot_ok (opt_some _ (by decide +kernel)) (got_ok _ (by decide +kernel))
    · decide +kernel
    · decide +kernel
    · decide +kernel
    · exact Device.kvStore_ok (got_unit _ (by decide +kernel))
  · refine ⟨(0), ?_⟩
    apply Exists.intro
    refine ⟨({ wIssued (wKv ({ wEdit 3 [3, 4] 0 with n := 1 }).op) 0 0 with state := .waiting }), ({ wEdit 3 [3, 4] 0 with n := 1 }), ?_⟩
    apply Exists.intro
    apply Exists.intro
    refine ⟨(wS (wEditing ({ wEdit 3 [3, 4] 0 with n := 1 }))), (3), (4), ?_⟩
    apply Exists.intro
    apply Exists.intro
    apply Exists.intro
    apply Exists.intro
    apply Exists.intro
    apply Exists.intro
    apply Exists.intro
    apply Exists.intro
    refine ⟨?_, ?_, ?_, ?_, ?_, ?_, ?_, ?_, ?_, ?_, ?_, ?_, ?_⟩
    · decide +kernel
    · decide +kernel
    · decide +kernel
    · decide +kernel
    · exact Device.kvRoot_ok (opt_some _ (by decide +kernel)) (got_ok _ (by decide +kernel))
    · decide +kernel
    · decide +kernel
    · exact Device.kvRootAt_ok (opt_some _ (by decide +kernel)) (got_ok _ (by decide +kernel))
    · exact Device.readTable_ok (by decide +kernel) (got_ok _ (by decide +kernel))
    · decide +kernel
    · exact rfl
    · exact Device.kvStore_ok (got_unit _ (by decide +kernel))
    · exact Device.setPages_ok (got_unit _ (by decide +kernel))
  · exact ⟨(0), ({ wIssued (wKv (wEdit 1 [3] 0).op) 0 0 with state := .waiting }), (wEdit 1 [3] 0), (wS (wWalked (wEditing (wEdit 1 [3] 0)))), by decide +kernel⟩

/-- What `Obligations.RequestsArriveAndEntriesAreReleased` supposes can be met. -/
theorem witness_RequestsArriveAndEntriesAreReleased :
    (∃ (c : Nat) (k : Client) (d : Device) (s : State), (s.dev.arrivals = d) ∧ (d.client c = k) ∧ (k.attached = true) ∧ (k.detaching = true ∨ d.crsReceives = false ∨ k.freeSlot = none ∨ d.freeEntry = none)) ∧
    (∃ (c : Nat) (rec : List Byte) (k : Client) (d : Device) (s : State) (i : Nat) (e : Nat), (s.dev.arrivals = d) ∧ (d.client c = k) ∧ (k.attached = true) ∧ (k.detaching = false) ∧ (d.crsReceives = true) ∧ (k.freeSlot = some i) ∧ (d.freeEntry = some e) ∧ (2 ^ k.slotLog2 < rec.length)) ∧
    (∃ (c : Nat) (rec : List Byte) (k : Client) (d : Device) (s : State) (i : Nat) (e : Nat), (s.dev.arrivals = d) ∧ (d.client c = k) ∧ (k.attached = true) ∧ (k.detaching = false) ∧ (d.crsReceives = true) ∧ (k.freeSlot = some i) ∧ (d.freeEntry = some e) ∧ (rec.length ≤ 2 ^ k.slotLog2)) ∧
    (∃ (c : Nat) (i : Nat) (e : Nat) (rec : List Byte) (k : Client) (d : Device) (d1 : Device) (d2 : Device) (d3 : Device) (d4 : Device) (bs : List Byte) (x : SeqEntry), (d.freeEntry = some e) ∧ (d.client c = k) ∧ ((d.rdmaIn k.ctx k.qpn rec.length).tryStore k.ctx k.ctx (k.slotAt i) rec = .ok (d1, true)) ∧ (d1.tryLoad k.ctx k.ctx (k.slotAt i) 64 = .ok (d2, some bs)) ∧ (d2.rdmaAnswer k.qpn 0 [] = d3) ∧ (d3.client c = k) ∧ (bits (wordAt (bytesWords bs) 0) 9 8 ≠ 2) ∧ (reqEntry (bytesWords bs) c k.ctx i d3.now = x) ∧ (d3.requestRefusal (bytesWords bs) k = none) ∧ ((d3.setSeq e x).count Reg.CRS_ACCEPTED 1 = d4) ∧ (d4.laneExpelled (d4.model x.model).lane = false)) ∧
    (∃ (n : Nat) (e : Nat) (k : Ticket) (d : Device) (s : State), (s.dev.tickets.find? (fun t => t.id == n) = some k) ∧ (k.final = true) ∧ (k.entry = some e) ∧ ({ s.dev with tickets := s.dev.tickets.filter (fun u => u.id != n) } = d)) ∧
    (∃ (n : Nat) (k : Ticket) (s : State), (s.dev.tickets.find? (fun t => t.id == n) = some k) ∧ (k.final = false)) ∧
    (∃ (e : Nat) (a : Nat) (n : Nat) (x : SeqEntry) (m : Model) (d : Device) (f : Device) (g : Device) (h : Device) (bs : List Byte) (ps : List Byte) (s : State), (s.dev.results = d) ∧ (d.releasable e = true) ∧ (d.seq e = x) ∧ (d.model x.model = m) ∧ (x.shared = false) ∧ (d.rootAddr e = some a) ∧ (d.tryLoad x.ctx x.ctx a 64 = .ok (f, some bs)) ∧ (bs.length = 64) ∧ (f.tryLoad x.ctx x.ctx (rootPt (bytesWords bs)) (8 * rootPages (bytesWords bs)) = .ok (g, some ps)) ∧ (g.model x.model = m) ∧ (x.root = some n) ∧ (m.count + (bytesWords ps).length ≤ m.nring) ∧ ((g.setModel x.model { m with rootsUsed := m.rootsUsed.filter (· != n) }).pushRing x.model ((bytesWords ps).map pteAddr) = .ok h)) ∧
    (∃ (c : Nat) (d : Device) (s : State), (s.dev.results = d) ∧ ((d.client c).detaching = true) ∧ (d.seqs.any (fun p => p.2.client == c && p.2.inc) = false) ∧ (d.tickets.any (fun t => t.client == c) = false)) := by
  refine ⟨?_, ?_, ?_, ?_, ?_, ?_, ?_, ?_⟩
  · refine ⟨(4), ?_⟩
    apply Exists.intro
    apply Exists.intro
    refine ⟨(wS { wSrv with clients := [(4, { wClient with detaching := true })] }), ?_, ?_, ?_, ?_⟩
    · exact rfl
    · exact rfl
    · decide +kernel
    · decide +kernel
  · refine ⟨(4), (List.replicate 300 0), ?_⟩
    apply Exists.intro
    apply Exists.intro
    refine ⟨(wS wSrv), (0), (0), ?_, ?_, ?_, ?_, ?_, ?_, ?_, ?_⟩
    · exact rfl
    · exact rfl
    · decide +kernel
    · decide +kernel
    · decide +kernel
    · decide +kernel
    · decide +kernel
    · decide +kernel
  · refine ⟨(4), (wordsBytes wReq), ?_⟩
    apply Exists.intro
    apply Exists.intro
    refine ⟨(wS wSrv), (0), (0), ?_, ?_, ?_, ?_, ?_, ?_, ?_, ?_⟩
    · exact rfl
    · exact rfl
    · decide +kernel
    · decide +kernel
    · decide +kernel
    · decide +kernel
    · decide +kernel
    · decide +kernel
  · refine ⟨(4), (0), (0), (wordsBytes wReq), (wClient), (wSrv), ?_⟩
    apply Exists.intro
    apply Exists.intro
    apply Exists.intro
    apply Exists.intro
    apply Exists.intro
    apply Exists.intro
    refine ⟨?_, ?_, ?_, ?_, ?_, ?_, ?_, ?_, ?_, ?_, ?_⟩
    · decide +kernel
    · decide +kernel
    · exact att_true _ (by decide +kernel)
    · exact att_some _ (by decide +kernel) (by decide +kernel)
    · exact rfl
    · decide +kernel
    · decide +kernel
    · exact rfl
    · decide +kernel
    · exact rfl
    · decide +kernel
  · refine ⟨(1), (3), (⟨1, 4, some 3, 0, true⟩), ?_⟩
    apply Exists.intro
    refine ⟨(wS { wDev with tickets := [⟨1, 4, some 3, 0, true⟩] }), ?_, ?_, ?_, ?_⟩
    · decide +kernel
    · decide +kernel
    · decide +kernel
    · exact rfl
  · exact ⟨(1), (⟨1, 4, some 3, 0, false⟩), (wS { wDev with tickets := [⟨1, 4, some 3, 0, false⟩] }), by decide +kernel⟩
  · refine ⟨(3), ?_⟩
    apply Exists.intro
    apply Exists.intro
    apply Exists.intro
    apply Exists.intro
    apply Exists.intro
    apply Exists.intro
    apply Exists.intro
    apply Exists.intro
    apply Exists.intro
    apply Exists.intro
    refine ⟨(wS { wSeqs wDev with seqs := [(3, { wSeq 0 with state := 5, resultOut := true, resultDone := true })] }), ?_, ?_, ?_, ?_, ?_, ?_, ?_, ?_, ?_, ?_, ?_, ?_, ?_⟩
    · exact rfl
    · decide +kernel
    · exact rfl
    · exact rfl
    · decide +kernel
    · exact opt_some _ (by decide +kernel)
    · exact att_some _ (by decide +kernel) (by decide +kernel)
    · decide +kernel
    · exact att_some _ (by decide +kernel) (by decide +kernel)
    · decide +kernel
    · exact opt_some _ (by decide +kernel)
    · decide +kernel
    · exact att_ok _ (by decide +kernel)
  · refine ⟨(4), ?_⟩
    apply Exists.intro
    refine ⟨(wS { wSrv with clients := [(4, { wClient with detaching := true })] }), ?_, ?_, ?_, ?_⟩
    · exact rfl
    · decide +kernel
    · decide +kernel
    · decide +kernel

/-- What `Obligations.CoursesAreLaidAndApplied` supposes can be met. -/
theorem witness_CoursesAreLaidAndApplied :
    (∃ (l : LaneNo) (e : Device) (s : State), (s.dev.crsOn = true) ∧ (s.dev.fld (Reg.CRS_LANE_CFG l) Fld.CRS_LANE_CFG_EN ≠ 0) ∧ ((s.dev.lane l).running = false) ∧ (s.dev.candidates l ≠ []) ∧ (s.dev.layCourse l (s.dev.reg (Reg.CRS_LANE_CFG l)) (s.dev.candidates l) ((s.dev.seqs.filter (fun p => (s.dev.model p.2.model).lane == l.val)).map (·.1)) = .ok e)) ∧
    (∃ (l : LaneNo) (r : Ending × Report) (e : Device) (s : State), ((s.dev.lane l).running = true) ∧ ((s.dev.lane l).result = some r) ∧ (s.dev.applyCourse l r = .ok e)) := by
  refine ⟨?_, ?_⟩
  · refine ⟨(0), ?_⟩
    apply Exists.intro
    refine ⟨(wS wLane), ?_, ?_, ?_, ?_, ?_⟩
    · decide +kernel
    · decide +kernel
    · decide +kernel
    · decide +kernel
    · exact att_ok _ (by decide +kernel)
  · refine ⟨(0), ((endOk, default)), ?_⟩
    apply Exists.intro
    refine ⟨(wS { wLane with lanes := [(0, { freshLane with running := true, cfg := 5, laid := [⟨3, 2, 0, 0⟩], predicted := 9, result := some (endOk, default) })] }), ?_, ?_, ?_⟩
    · decide +kernel
    · decide +kernel
    · exact att_ok _ (by decide +kernel)

/-- What `Obligations.CoursesStayWithinTheirBounds` supposes can be met. -/
theorem witness_CoursesStayWithinTheirBounds :
    (∃ (decmax : Nat) (es : List Nat) (y : Lay) (z : Lay), (y.laid.length ≤ decmax) ∧ (es.foldlM (layDecode decmax) y = .ok z)) ∧
    (∃ (budget : Nat) (l : Nat) (es : List Nat) (y : Lay) (z : Lay), (y.tok ≤ budget) ∧ (es.foldlM (layPrefill budget l) y = .ok z)) ∧
    (∃ (d : Device) (e : Nat) (p : Nat) (x : SeqEntry) (m : Model), (d.seq e = x) ∧ (d.model x.model = m) ∧ (d.fld Reg.DLM_CTRL Fld.DLM_CTRL_EN = 0 ∨ lateAt d.now p m x = false)) ∧
    (∃ (d : Device) (e : Nat) (p : Nat) (x : SeqEntry) (m : Model), (d.seq e = x) ∧ (d.model x.model = m) ∧ (d.fld Reg.DLM_CTRL Fld.DLM_CTRL_EN ≠ 0) ∧ (lateAt d.now p m x = true) ∧ (x.kind = 1) ∧ (x.state ≠ sqWaiting) ∧ (m.latepol = 1) ∧ (x.late = false)) ∧
    (∃ (d : Device) (e : Nat) (p : Nat) (x : SeqEntry) (m : Model), (d.seq e = x) ∧ (d.model x.model = m) ∧ (d.fld Reg.DLM_CTRL Fld.DLM_CTRL_EN ≠ 0) ∧ (lateAt d.now p m x = true) ∧ (x.kind = 1) ∧ (x.state ≠ sqWaiting) ∧ (m.latepol ≠ 1)) ∧
    (∃ (d : Device) (e : Nat) (p : Nat) (x : SeqEntry) (m : Model), (d.seq e = x) ∧ (d.model x.model = m) ∧ (d.fld Reg.DLM_CTRL Fld.DLM_CTRL_EN ≠ 0) ∧ (lateAt d.now p m x = true) ∧ (x.kind ≠ 1 ∨ x.state = sqWaiting)) := by
  refine ⟨?_, ?_, ?_, ?_, ?_, ?_⟩
  · refine ⟨(4), ([3]), (⟨wLane, 0, [], 0, []⟩), ?_⟩
    apply Exists.intro
    refine ⟨?_, ?_⟩
    · decide +kernel
    · exact att_ok _ (by decide +kernel)
  · refine ⟨(64), 0, ([3]), (⟨wLane, 0, [], 0, []⟩), ?_⟩
    apply Exists.intro
    refine ⟨?_, ?_⟩
    · decide +kernel
    · exact att_ok _ (by decide +kernel)
  · refine ⟨(wDev.setReg Reg.DLM_CTRL 0), (3), 0, ?_⟩
    apply Exists.intro
    apply Exists.intro
    refine ⟨?_, ?_, ?_⟩
    · exact rfl
    · exact rfl
    · decide +kernel
  · refine ⟨({ wDev with seqs := [(3, ({ wSeq 0 with budget := 1, kind := 1, state := 3 } : SeqEntry))], models := [(0, { (default : Model) with loaded := true, words := [1 + 2 * 1] })] }), (3), (0), ?_⟩
    apply Exists.intro
    apply Exists.intro
    refine ⟨?_, ?_, ?_, ?_, ?_, ?_, ?_, ?_⟩
    · exact rfl
    · exact rfl
    · decide +kernel
    · decide +kernel
    · decide +kernel
    · decide +kernel
    · decide +kernel
    · decide +kernel
  · refine ⟨({ wDev with seqs := [(3, ({ wSeq 0 with budget := 1, kind := 1, state := 3 } : SeqEntry))], models := [(0, { (default : Model) with loaded := true, words := [1 + 2 * 0] })] }), (3), (0), ?_⟩
    apply Exists.intro
    apply Exists.intro
    refine ⟨?_, ?_, ?_, ?_, ?_, ?_, ?_⟩
    · exact rfl
    · exact rfl
    · decide +kernel
    · decide +kernel
    · decide +kernel
    · decide +kernel
    · decide +kernel
  · refine ⟨({ wDev with seqs := [(3, ({ wSeq 0 with budget := 1, kind := 1, state := 1 } : SeqEntry))], models := [(0, { (default : Model) with loaded := true, words := [1 + 2 * 0] })] }), (3), (0), ?_⟩
    apply Exists.intro
    apply Exists.intro
    refine ⟨?_, ?_, ?_, ?_, ?_⟩
    · exact rfl
    · exact rfl
    · decide +kernel
    · decide +kernel
    · decide +kernel

/-- What `Obligations.CourseControlOperations` supposes can be met. -/
theorem witness_CourseControlOperations :
    (∃ (j : Nat) (k : Job) (x : Client) (s : State), (s.dev.crsOp? j 0 = some k) ∧ (k.ctx = 0) ∧ (x = { attached := true, detaching := false, ctx := bits k.cmd.c3 29 24, qpn := bits k.cmd.c3 23 0, base := k.cmd.c2.toNat, nslot := bits k.cmd.c3 42 30, slotLog2 := bits k.cmd.c3 47 43, used := [], held := [] }) ∧ ((s.dev.client k.crsNum).attached = false) ∧ (thas s.dev.qps x.qpn = true) ∧ ((tget s.dev.qps x.qpn default).error = false) ∧ ((tget s.dev.qps x.qpn default).role = 2) ∧ ((s.dev.ctx x.ctx).state = 1) ∧ (0 < x.nslot) ∧ (x.nslot ≤ 4096) ∧ (8 ≤ x.slotLog2) ∧ (x.slotLog2 ≤ 20) ∧ (s.dev.clients.any (fun p => p.2.attached && p.2.qpn == x.qpn) = false)) ∧
    (∃ (j : Nat) (k : Job) (s : State), (s.dev.crsOp? j 1 = some k) ∧ (k.ctx = 0) ∧ ((s.dev.client k.crsNum).attached = true) ∧ ((s.dev.client k.crsNum).detaching = false)) ∧
    (∃ (j : Nat) (m : Nat) (k : Job) (d : Device) (bs : List Byte) (new : Model) (s : State), (s.dev.crsOp? j 2 = some k) ∧ (k.ctx = 0) ∧ (k.crsNum = m) ∧ (s.dev.vload 0 16 k.cmd.opUnit ((s.dev.fld Reg.CRS_MTAB_BASE Fld.CRS_MTAB_BASE_ADDR * 128 + 128 * m : Nat) : Int) 128 = (d, .ok bs)) ∧ ({ d.model m with loaded := true, words := bytesWords bs, next := none } = new) ∧ (d.modelBad m new = false) ∧ (d.seqs.any (fun p => p.2.model == m) = true)) ∧
    (∃ (j : Nat) (m : Nat) (k : Job) (d : Device) (bs : List Byte) (new : Model) (s : State), (s.dev.crsOp? j 2 = some k) ∧ (k.ctx = 0) ∧ (k.crsNum = m) ∧ (s.dev.vload 0 16 k.cmd.opUnit ((s.dev.fld Reg.CRS_MTAB_BASE Fld.CRS_MTAB_BASE_ADDR * 128 + 128 * m : Nat) : Int) 128 = (d, .ok bs)) ∧ ({ d.model m with loaded := true, words := bytesWords bs, next := none } = new) ∧ (d.modelBad m new = false) ∧ (d.seqs.any (fun p => p.2.model == m) = false)) ∧
    (∃ (j : Nat) (op : Nat) (e : Nat) (k : Job) (x : SeqEntry) (s : State), (s.dev.crsOp? j op = some k) ∧ (k.crsEntry = e) ∧ (s.dev.seq e = x) ∧ (x.state ≠ sqFree) ∧ (k.ctx = 0 ∨ k.ctx = x.ctx) ∧ (op = 3) ∧ (x.state ≤ sqDecode) ∧ (x.inc = false)) ∧
    (∃ (j : Nat) (op : Nat) (e : Nat) (k : Job) (x : SeqEntry) (s : State), (s.dev.crsOp? j op = some k) ∧ (k.crsEntry = e) ∧ (s.dev.seq e = x) ∧ (x.state ≠ sqFree) ∧ (k.ctx = 0 ∨ k.ctx = x.ctx) ∧ (op = 3) ∧ (x.state ≤ sqDecode) ∧ (x.inc = true)) ∧
    (∃ (j : Nat) (op : Nat) (e : Nat) (k : Job) (x : SeqEntry) (s : State), (s.dev.crsOp? j op = some k) ∧ (k.crsEntry = e) ∧ (s.dev.seq e = x) ∧ (x.state ≠ sqFree) ∧ (k.ctx = 0 ∨ k.ctx = x.ctx) ∧ (op = 4) ∧ (x.state = sqParked)) ∧
    (∃ (j : Nat) (op : Nat) (e : Nat) (k : Job) (x : SeqEntry) (s : State), (s.dev.crsOp? j op = some k) ∧ (k.crsEntry = e) ∧ (s.dev.seq e = x) ∧ (x.state ≠ sqFree) ∧ (k.ctx = 0 ∨ k.ctx = x.ctx) ∧ (op = 5) ∧ (x.final = true) ∧ (x.resultDone = true) ∧ (x.releaseReq = none) ∧ ((s.dev.model x.model).keep = true)) ∧
    (∃ (j : Nat) (op : Nat) (e : Nat) (k : Job) (x : SeqEntry) (s : State), (s.dev.crsOp? j op = some k) ∧ (k.crsEntry = e) ∧ (s.dev.seq e = x) ∧ (x.state ≠ sqFree) ∧ (k.ctx = 0 ∨ k.ctx = x.ctx) ∧ (op = 6) ∧ (x.final = false) ∧ (x.inc = true)) ∧
    (∃ (j : Nat) (op : Nat) (e : Nat) (k : Job) (x : SeqEntry) (s : State), (s.dev.crsOp? j op = some k) ∧ (k.crsEntry = e) ∧ (s.dev.seq e = x) ∧ (x.state ≠ sqFree) ∧ (k.ctx = 0 ∨ k.ctx = x.ctx) ∧ (op = 6) ∧ (x.final = false) ∧ (x.inc = false)) ∧
    (∃ (j : Nat) (n : Nat) (k : Job) (m : Model) (d : Device) (e : Device) (bs : List Byte) (s : State), (s.dev.crsOp? j 7 = some k) ∧ (s.dev.model k.crsNum = m) ∧ (m.loaded = true) ∧ (k.ctx = 0 ∨ k.ctx = m.ctx) ∧ (bits k.cmd.c3 31 0 = n) ∧ (m.count + n ≤ m.nring) ∧ (s.dev.vload m.ctx 16 k.cmd.opUnit (k.cmd.c2.toNat : Int) (8 * n) = (d, .ok bs)) ∧ (bs.length = 8 * n) ∧ (m.ringPlace m.count + n ≤ m.nring) ∧ (d.vstore m.ctx 16 (unitCode 0 11) (m.ringAt m.count : Nat) bs = (e, .ok ()))) := by
  refine ⟨?_, ?_, ?_, ?_, ?_, ?_, ?_, ?_, ?_, ?_, ?_⟩
  · refine ⟨(0), (wCrs 0 4 0x10000 (pack [(0, 24, 2), (24, 6, 1), (30, 13, 2), (43, 5, 8)])), ?_⟩
    apply Exists.intro
    refine ⟨(wS { wDev with jobs := [wCrs 0 4 0x10000 (pack [(0, 24, 2), (24, 6, 1), (30, 13, 2), (43, 5, 8)])] }), ?_, ?_, ?_, ?_, ?_, ?_, ?_, ?_, ?_, ?_, ?_, ?_, ?_⟩
    · decide +kernel
    · decide +kernel
    · exact rfl
    · decide +kernel
    · decide +kernel
    · decide +kernel
    · decide +kernel
    · decide +kernel
    · decide +kernel
    · decide +kernel
    · decide +kernel
    · decide +kernel
    · decide +kernel
  · exact ⟨(0), (wCrs 1 4 0 0), (wS { wSrv with jobs := [wCrs 1 4 0 0] }), by decide +kernel⟩
  · refine ⟨(0), (0), (wCrs 2 0 0 0), ?_⟩
    apply Exists.intro
    apply Exists.intro
    apply Exists.intro
    refine ⟨(wS { withHbm wDev 0 [0xFF * 2 ^ 11] with jobs := [wCrs 2 0 0 0], seqs := [(3, wSeq 0)] }), ?_, ?_, ?_, ?_, ?_, ?_, ?_⟩
    · decide +kernel
    · decide +kernel
    · decide +kernel
    · exact got_ok _ (by decide +kernel)
    · exact rfl
    · decide +kernel
    · decide +kernel
  · refine ⟨(0), (0), (wCrs 2 0 0 0), ?_⟩
    apply Exists.intro
    apply Exists.intro
    apply Exists.intro
    refine ⟨(wS { withHbm wDev 0 [0xFF * 2 ^ 11] with jobs := [wCrs 2 0 0 0] }), ?_, ?_, ?_, ?_, ?_, ?_, ?_⟩
    · decide +kernel
    · decide +kernel
    · decide +kernel
    · exact got_ok _ (by decide +kernel)
    · exact rfl
    · decide +kernel
    · decide +kernel
  · refine ⟨(0), (3), (3), (wCrs 3 3 0 0), ?_⟩
    apply Exists.intro
    refine ⟨(wS { wDev with jobs := [wCrs 3 3 0 0], seqs := [(3, { wSeq 0 with state := 3 })] }), ?_, ?_, ?_, ?_, ?_, ?_, ?_, ?_⟩
    · decide +kernel
    · decide +kernel
    · exact rfl
    · decide +kernel
    · decide +kernel
    · decide +kernel
    · decide +kernel
    · decide +kernel
  · refine ⟨(0), (3), (3), (wCrs 3 3 0 0), ?_⟩
    apply Exists.intro
    refine ⟨(wS { wDev with jobs := [wCrs 3 3 0 0], seqs := [(3, { wSeq 0 with state := 3, inc := true })] }), ?_, ?_, ?_, ?_, ?_, ?_, ?_, ?_⟩
    · decide +kernel
    · decide +kernel
    · exact rfl
    · decide +kernel
    · decide +kernel
    · decide +kernel
    · decide +kernel
    · decide +kernel
  · refine ⟨(0), (4), (3), (wCrs 4 3 0 0), ?_⟩
    apply Exists.intro
    refine ⟨(wS { wDev with jobs := [wCrs 4 3 0 0], seqs := [(3, { wSeq 0 with state := 4 })] }), ?_, ?_, ?_, ?_, ?_, ?_, ?_⟩
    · decide +kernel
    · decide +kernel
    · exact rfl
    · decide +kernel
    · decide +kernel
    · decide +kernel
    · decide +kernel
  · refine ⟨(0), (5), (3), (wCrs 5 3 0 0), ?_⟩
    apply Exists.intro
    refine ⟨(wS { wSrv with models := [(0, { (default : Model) with words := [4] })], jobs := [wCrs 5 3 0 0], seqs := [(3, { wSeq 0 with state := 5, resultDone := true })] }), ?_, ?_, ?_, ?_, ?_, ?_, ?_, ?_, ?_, ?_⟩
    · decide +kernel
    · decide +kernel
    · exact rfl
    · decide +kernel
    · decide +kernel
    · decide +kernel
    · decide +kernel
    · decide +kernel
    · decide +kernel
    · decide +kernel
  · refine ⟨(0), (6), (3), (wCrs 6 3 0 0), ?_⟩
    apply Exists.intro
    refine ⟨(wS { wDev with jobs := [wCrs 6 3 0 0], seqs := [(3, { wSeq 0 with state := 3, inc := true })] }), ?_, ?_, ?_, ?_, ?_, ?_, ?_, ?_⟩
    · decide +kernel
    · decide +kernel
    · exact rfl
    · decide +kernel
    · decide +kernel
    · decide +kernel
    · decide +kernel
    · decide +kernel
  · refine ⟨(0), (6), (3), (wCrs 6 3 0 0), ?_⟩
    apply Exists.intro
    refine ⟨(wS { wDev with jobs := [wCrs 6 3 0 0], seqs := [(3, { wSeq 0 with state := 3 })] }), ?_, ?_, ?_, ?_, ?_, ?_, ?_, ?_⟩
    · decide +kernel
    · decide +kernel
    · exact rfl
    · decide +kernel
    · decide +kernel
    · decide +kernel
    · decide +kernel
    · decide +kernel
  · refine ⟨(0), (2), (wCrs 7 0 0x1000 2), ?_⟩
    apply Exists.intro
    apply Exists.intro
    apply Exists.intro
    apply Exists.intro
    refine ⟨(wS { wDev with jobs := [wCrs 7 0 0x1000 2], models := [(0, { (default : Model) with loaded := true, words := [0, 0, 0, 0, 0, 4] })] }), ?_, ?_, ?_, ?_, ?_, ?_, ?_, ?_, ?_, ?_⟩
    · decide +kernel
    · exact rfl
    · decide +kernel
    · decide +kernel
    · decide +kernel
    · decide +kernel
    · exact got_ok _ (by decide +kernel)
    · decide +kernel
    · decide +kernel
    · exact got_unit _ (by decide +kernel)

/-- What `Obligations.EaveAndGutter` supposes can be met. -/
theorem witness_EaveAndGutter :
    (∃ (s : State) (e : Eave), (s.dev.clk.stage = .thatched) ∧ (e = { s.dev.eave with due := s.dev.ridgeOn })) ∧
    (∃ (s : State) (d : Device), (s.dev.clk.stage = .thatched) ∧ ({ s.dev with eave := { s.dev.eave with lastPoll := s.dev.now } } = d) ∧ (s.dev.eave.target ≠ none) ∧ (s.dev.eave.stale = false) ∧ (s.dev.eave.lastPoll + 250 ≤ s.dev.now) ∧ (s.dev.eaveEn = true)) ∧
    (∃ (s : State) (x : RingEntry), (s.dev.clk.stage = .thatched) ∧ (s.dev.eave.target ≠ none) ∧ (s.dev.eave.stale = false) ∧ (s.dev.eave.stall = false) ∧ (s.dev.eave.since + max 1 (s.dev.fld Reg.EAVE_POLL Fld.EAVE_POLL_TIMEOUT) * 1000 ≤ s.dev.now) ∧ (s.dev.eaveSlot = some x)) ∧
    (∃ (v : Word) (s : State), (s.dev.clk.stage = .thatched) ∧ (6 ≤ bits v 52 48) ∧ (bits v 52 48 ≤ 16) ∧ (bit (s.dev.reg Reg.EAVE_CFG) 53 = false)) ∧
    (∃ (s : State), (s.dev.clk.stage = .thatched) ∧ (s.dev.eaveEn = false)) ∧
    (∃ (s : State), (s.dev.clk.stage = .thatched) ∧ (s.dev.eaveEn = true)) ∧
    (∃ (e : RingEntry) (s : State), (s.dev.ridgeOn = true) ∧ (s.dev.eaveSlot = some e) ∧ (s.dev.eave.due = false) ∧ (s.dev.eave.stall = false)) ∧
    (∃ (e : RingEntry) (s : State) (u : Device), (s.dev.ridgeOn = true) ∧ (s.dev.eaveSlot = some e) ∧ (s.dev.eave.due = true ∨ s.dev.eave.stall = true) ∧ (e.stamp ≠ s.dev.expect) ∧ (s.dev.unstall = u)) ∧
    (∃ (e : RingEntry) (s : State), (s.dev.ridgeOn = true) ∧ (s.dev.eaveSlot = some e) ∧ (s.dev.eave.due = true) ∧ (e.stamp = s.dev.expect) ∧ (s.dev.storeFull e.ctx = true) ∧ (s.dev.eave.stall = false)) ∧
    (∃ (e : RingEntry) (s : State) (x : Nat) (u : Device) (d : Device), (s.dev.ridgeOn = true) ∧ (s.dev.eaveSlot = some e) ∧ (s.dev.eave.due = true ∨ s.dev.eave.stall = true) ∧ (e.stamp = s.dev.expect) ∧ (s.dev.storeFull e.ctx = false) ∧ (s.dev.unstall = u) ∧ ((u.expect + 1) % 2 ^ 32 = x) ∧ (({ u.setFld Reg.EAVE_EXPECT Fld.EAVE_EXPECT_X x with eave := { u.eave.passed x with due := true } }).count Reg.EAVE_ACCEPTED 1 = d) ∧ (d.acceptEnding e = none)) ∧
    (∃ (c : Ctx) (s : State) (n : Nat) (g : Gutter), s.dev.Up ∧ (s.dev.gutter c = g) ∧ (thas g.sent n = true)) ∧
    (∃ (c : Ctx) (v : Word) (s : State), s.dev.Up ∧ (((s.dev.gutter c).written + 2 ^ 32 - s.dev.fld (Reg.GUT_CONS c) Fld.GUT_CONS_CONS) % 2 ^ 32 < (bits v 31 0 + 2 ^ 32 - s.dev.fld (Reg.GUT_CONS c) Fld.GUT_CONS_CONS) % 2 ^ 32)) ∧
    (∃ (c : Ctx) (v : Word) (s : State) (left : Nat), s.dev.Up ∧ ((bits v 31 0 + 2 ^ 32 - s.dev.fld (Reg.GUT_CONS c) Fld.GUT_CONS_CONS) % 2 ^ 32 ≤ ((s.dev.gutter c).written + 2 ^ 32 - s.dev.fld (Reg.GUT_CONS c) Fld.GUT_CONS_CONS) % 2 ^ 32) ∧ (((s.dev.gutter c).written + 2 ^ 32 - bits v 31 0) % 2 ^ 32 = left)) ∧
    (∃ (c : Ctx) (v : Word) (s : State) (q : Nat) (d : Device), s.dev.Up ∧ ((if bits v 28 16 = 0 ∨ 4096 < bits v 28 16 + s.dev.otherQuotas c then s.dev.quota c else bits v 28 16) = q) ∧ (s.dev.setReg (Reg.GUT_CTL c) (pack [(1, 1, bits v 1 1), (16, 13, q)]) = d) ∧ (bit v 0 = false)) ∧
    (∃ (c : Ctx) (v : Word) (s : State) (q : Nat) (d : Device), s.dev.Up ∧ ((if bits v 28 16 = 0 ∨ 4096 < bits v 28 16 + s.dev.otherQuotas c then s.dev.quota c else bits v 28 16) = q) ∧ (s.dev.setReg (Reg.GUT_CTL c) (pack [(1, 1, bits v 1 1), (16, 13, q)]) = d) ∧ (bit v 0 = true) ∧ (bit v 1 = false)) ∧
    (∃ (s : State), s.dev.Up) := by
  refine ⟨?_, ?_, ?_, ?_, ?_, ?_, ?_, ?_, ?_, ?_, ?_, ?_, ?_, ?_, ?_, ?_⟩
  · refine ⟨(wS wDev), ?_⟩
    apply Exists.intro
    refine ⟨?_, ?_⟩
    · decide +kernel
    · exact rfl
  · refine ⟨(wS (wEave { (default : Eave) with target := some 1 })), ?_⟩
    apply Exists.intro
    refine ⟨?_, ?_, ?_, ?_, ?_, ?_⟩
    · decide +kernel
    · exact rfl
    · decide +kernel
    · decide +kernel
    · decide +kernel
    · decide +kernel
  · refine ⟨(wS (wEave { (default : Eave) with target := some 1 })), ?_⟩
    apply Exists.intro
    refine ⟨?_, ?_, ?_, ?_, ?_, ?_⟩
    · decide +kernel
    · decide +kernel
    · decide +kernel
    · decide +kernel
    · decide +kernel
    · exact opt_some _ (by decide +kernel)
  · exact ⟨(6 * 2 ^ 48), (wS wDev), by decide +kernel⟩
  · exact ⟨(wS wDev), by decide +kernel⟩
  · exact ⟨(wS (wEave { (default : Eave) with target := some 1 })), by decide +kernel⟩
  · apply Exists.intro
    refine ⟨(wS (wEave { (default : Eave) with target := some 1 })), ?_, ?_, ?_, ?_⟩
    · decide +kernel
    · exact opt_some _ (by decide +kernel)
    · decide +kernel
    · decide +kernel
  · apply Exists.intro
    refine ⟨(wS ((wEave { (default : Eave) with target := some 1, due := true }).setReg Reg.EAVE_EXPECT 1)), ?_⟩
    apply Exists.intro
    refine ⟨?_, ?_, ?_, ?_, ?_⟩
    · decide +kernel
    · exact opt_some _ (by decide +kernel)
    · decide +kernel
    · decide +kernel
    · exact rfl
  · apply Exists.intro
    refine ⟨(wS { (wEave { (default : Eave) with target := some 1, due := true }).setReg Reg.RIDGE_CTRL 0 with entries := [{ wEnt .accepted with ctx := 0 }] }), ?_, ?_, ?_, ?_, ?_, ?_⟩
    · decide +kernel
    · exact opt_some _ (by decide +kernel)
    · decide +kernel
    · decide +kernel
    · decide +kernel
    · decide +kernel
  · apply Exists.intro
    refine ⟨(wS (withHbm (wEave { (default : Eave) with target := some 1, due := true }) 0 [2 ^ 32 + 2 ^ 36])), (1), ?_⟩
    apply Exists.intro
    apply Exists.intro
    refine ⟨?_, ?_, ?_, ?_, ?_, ?_, ?_, ?_, ?_⟩
    · decide +kernel
    · exact opt_some _ (by decide +kernel)
    · decide +kernel
    · decide +kernel
    · decide +kernel
    · exact rfl
    · decide +kernel
    · exact rfl
    · decide +kernel
  · refine ⟨(1), (wS (wDev.setGutter 1 { (default : Gutter) with written := 6, sent := [(5, default)] })), (5), ?_⟩
    apply Exists.intro
    refine ⟨?_, ?_, ?_⟩
    · decide +kernel
    · exact rfl
    · decide +kernel
  · exact ⟨(1), (7), (wS (wDev.setGutter 1 { (default : Gutter) with written := 6, sent := [(5, default)] })), by decide +kernel⟩
  · refine ⟨(1), (5), (wS (wDev.setGutter 1 { (default : Gutter) with written := 6, sent := [(5, default)] })), ?_⟩
    apply Exists.intro
    refine ⟨?_, ?_, ?_⟩
    · decide +kernel
    · decide +kernel
    · exact rfl
  · refine ⟨(1), (0), (wS wDev), ?_⟩
    apply Exists.intro
    apply Exists.intro
    refine ⟨?_, ?_, ?_, ?_⟩
    · decide +kernel
    · exact rfl
    · exact rfl
    · decide +kernel
  · refine ⟨(1), (1), (wS wDev), ?_⟩
    apply Exists.intro
    apply Exists.intro
    refine ⟨?_, ?_, ?_, ?_, ?_⟩
    · decide +kernel
    · exact rfl
    · exact rfl
    · decide +kernel
    · decide +kernel
  · exact ⟨(wS wDev), by decide +kernel⟩

/-- What `Obligations.EntriesAndRidgeCommands` supposes can be met. -/
theorem witness_EntriesAndRidgeCommands :
    (∃ (e : Nat) (x : Entry) (d : Device) (s : State), (s.dev.clk.stage = .thatched) ∧ (s.dev.entry? e = some x) ∧ (s.dev.mayStart x = true) ∧ ((s.dev.mapEntry e (fun y => { y with state := .started })).unstall = d) ∧ (x.ending = none)) ∧
    (∃ (e : Nat) (x : Entry) (d : Device) (s : State) (g : Ending), (s.dev.clk.stage = .thatched) ∧ (s.dev.entry? e = some x) ∧ (s.dev.mayStart x = true) ∧ ((s.dev.mapEntry e (fun y => { y with state := .started })).unstall = d) ∧ (x.ending = some g)) ∧
    (∃ (e : Nat) (x : Entry) (s : State), (s.dev.entry? e = some x) ∧ (x.state = .started) ∧ ((s.dev.jobsOf e).all s.dev.settled = true)) ∧
    (∃ (j : Nat) (k : Job) (s : State), (s.dev.issued? j 0x00 = some k)) ∧
    (∃ (j : Nat) (k : Job) (s : State), (s.dev.issued? j 0x0A = some k)) ∧
    (∃ (j : Nat) (n : Nat) (k : Job) (d : Device) (bs : List Byte) (s : State), (s.dev.issued? j 0x01 = some k) ∧ (bits k.cmd.c2 31 0 = n) ∧ (s.dev.bufs.any (fun b => b.job == j) = false) ∧ (k.cmd.c1.toNat % 32 = 0) ∧ (0 < n) ∧ (n ≤ 65536) ∧ (s.dev.bufDepth 5 k.buf < 4) ∧ (k.buf.isSome = true ∨ s.dev.noPlace k.entry = false) ∧ (s.dev.vload k.ctx 16 0 (k.cmd.c1.toNat : Int) (32 * n) = (d, .ok bs)) ∧ (scanOk (cmdsOf bs) = true)) ∧
    (∃ (j : Nat) (t : Nat) (lines : Nat) (va : Nat) (ways : Nat) (k : Job) (d : Device) (ps : List (Nat × Nat)) (s : State), (s.dev.issued? j 0x2B = some k) ∧ (k.cmd.truss = t) ∧ (s.dev.trussEnding k.ctx t 0 k.index = none) ∧ (bits k.cmd.c2 16 0 = lines) ∧ (lines ≤ 65536) ∧ ((s.dev.sof t).enabled = true) ∧ ((s.dev.sof t).disabling = false) ∧ ((s.dev.sof t).preload = none) ∧ (bits k.cmd.c2 47 32 &&& (s.dev.sof t).wayMask = ways) ∧ (ways ≠ 0) ∧ (k.ctx = 0 ∨ ways &&& s.dev.fillWays t k.ctx = ways) ∧ (k.cmd.c1.toNat / 128 * 128 = va) ∧ (vaOk (va : Int) (128 * preloadLines lines) = true) ∧ (s.dev.translateAll k.ctx t 0 false (pieces (2 ^ 21) va (128 * preloadLines lines)) = (d, .ok ps))) := by
  refine ⟨?_, ?_, ?_, ?_, ?_, ?_, ?_⟩
  · refine ⟨(0), (wEnt .accepted), ?_⟩
    apply Exists.intro
    refine ⟨(wS { wDev with entries := [wEnt .accepted] }), ?_, ?_, ?_, ?_, ?_⟩
    · decide +kernel
    · decide +kernel
    · decide +kernel
    · exact rfl
    · decide +kernel
  · refine ⟨(0), ({ wEnt .accepted with ending := some endOk }), ?_⟩
    apply Exists.intro
    refine ⟨(wS { wDev with entries := [{ wEnt .accepted with ending := some endOk }] }), (endOk), ?_, ?_, ?_, ?_, ?_⟩
    · decide +kernel
    · decide +kernel
    · decide +kernel
    · exact rfl
    · decide +kernel
  · exact ⟨(0), (wEnt .started), (wS { wDev with entries := [wEnt .started] }), by decide +kernel⟩
  · exact ⟨(0), (wIssued 0 0 0), (wS (wOp 0 0 0)), by decide +kernel⟩
  · exact ⟨(0), (wIssued 0x0A 0 0), (wS (wOp 0x0A 0 0)), by decide +kernel⟩
  · refine ⟨(0), (1), (wIssued 1 0x40 1), ?_⟩
    apply Exists.intro
    apply Exists.intro
    refine ⟨(wS (wOp 1 0x40 1)), ?_, ?_, ?_, ?_, ?_, ?_, ?_, ?_, ?_, ?_⟩
    · decide +kernel
    · decide +kernel
    · decide +kernel
    · decide +kernel
    · decide +kernel
    · decide +kernel
    · decide +kernel
    · decide +kernel
    · exact got_ok _ (by decide +kernel)
    · decide +kernel
  · refine ⟨(0), (0), (1), (0x80), (2), ({ wIssued 0x2B 0x80 (1 + 2 ^ 33) with ctx := 0 }), ?_⟩
    apply Exists.intro
    apply Exists.intro
    refine ⟨(wS { wDev.setSof 0 wSof with jobs := [{ wIssued 0x2B 0x80 (1 + 2 ^ 33) with ctx := 0 }], truss := [(0, { wTruss with slots := wTruss.slots ++ [(1, ⟨true, 0, 64, 8, true⟩)] })] }), ?_, ?_, ?_, ?_, ?_, ?_, ?_, ?_, ?_, ?_, ?_, ?_, ?_, ?_⟩
    · decide +kernel
    · decide +kernel
    · decide +kernel
    · decide +kernel
    · decide +kernel
    · decide +kernel
    · decide +kernel
    · decide +kernel
    · decide +kernel
    · decide +kernel
    · decide +kernel
    · decide +kernel
    · decide +kernel
    · exact got_ok _ (by decide +kernel)

/-- What `Obligations.FencesGoForward` supposes can be met. -/
theorem witness_FencesGoForward :
    (∃ (c : Nat) (i : Nat) (b : Nat) (k : Nat), (fenceKey b k ≠ fenceKey c i)) := by
  exact ⟨0, 0, (63), (4095), by decide +kernel⟩

/-- What `Obligations.BuffersAndStoredGraphs` supposes can be met. -/
theorem witness_BuffersAndStoredGraphs :
    (∃ (b opc : Nat) (x : Buf) (c : Cmd) (f : CmdForm) (p : Nat × Instr) (s : State), p ∈ [(0x08, Instr.cmdWait b), (0x09, .cmdSignal b), (0x0B, .barrier b), (0x0C, .loop b), (0x0D, .endloop b), (0x0E, .ifCmd b), (0x0F, .elseCmd b), (0x10, .endif b)] ∧ s.dev.atControl? b opc = some (x, c) ∧ cmdForm c.opc = some f ∧ c.reserved f x.slots.isSome = true ∧ p.1 = opc) ∧
    (∃ (b : Nat) (opc : Nat) (x : Buf) (c : Cmd) (f : CmdForm) (s : State), (s.dev.atControl? b opc = some (x, c)) ∧ (cmdForm c.opc = some f) ∧ (c.reserved f x.slots.isSome = false) ∧ (opc = 0x08) ∧ (x.stands = true ∨ s.dev.mayWait x.ctx (c.arg 36 31) = true)) ∧
    (∃ (b : Nat) (opc : Nat) (x : Buf) (c : Cmd) (f : CmdForm) (s : State), (s.dev.atControl? b opc = some (x, c)) ∧ (cmdForm c.opc = some f) ∧ (c.reserved f x.slots.isSome = false) ∧ (opc = 0x08) ∧ (x.stands = false) ∧ (s.dev.mayWait x.ctx (c.arg 36 31) = false)) ∧
    (∃ (b : Nat) (opc : Nat) (x : Buf) (c : Cmd) (f : CmdForm) (s : State), (s.dev.atControl? b opc = some (x, c)) ∧ (cmdForm c.opc = some f) ∧ (c.reserved f x.slots.isSome = false) ∧ (opc = 0x09) ∧ (s.dev.barrierOk b = true) ∧ (atOrAfter c.c1 (s.dev.fence x.ctx (c.arg 30 19)) = true)) ∧
    (∃ (b : Nat) (opc : Nat) (x : Buf) (c : Cmd) (f : CmdForm) (s : State) (d : Device), (s.dev.atControl? b opc = some (x, c)) ∧ (cmdForm c.opc = some f) ∧ (c.reserved f x.slots.isSome = false) ∧ (opc = 0x09) ∧ (s.dev.barrierOk b = true) ∧ (atOrAfter c.c1 (s.dev.fence x.ctx (c.arg 30 19)) = false) ∧ ((s.dev.count Reg.RIDGE_FENCE_STALE 1).issueEnded x.entry x.ctx (some b) x.pc c endOk ((default : Report).note noteFenceStale) = d)) ∧
    (∃ (b : Nat) (opc : Nat) (x : Buf) (c : Cmd) (f : CmdForm) (s : State), (s.dev.atControl? b opc = some (x, c)) ∧ (cmdForm c.opc = some f) ∧ (c.reserved f x.slots.isSome = false) ∧ (opc = 0x0B)) ∧
    (∃ (b : Nat) (opc : Nat) (x : Buf) (c : Cmd) (f : CmdForm) (s : State), (s.dev.atControl? b opc = some (x, c)) ∧ (cmdForm c.opc = some f) ∧ (c.reserved f x.slots.isSome = false) ∧ (opc = 0x0C) ∧ (c.arg 19 19 = 0) ∧ (c.c1 ≠ 0)) ∧
    (∃ (b : Nat) (opc : Nat) (x : Buf) (c : Cmd) (f : CmdForm) (s : State), (s.dev.atControl? b opc = some (x, c)) ∧ (cmdForm c.opc = some f) ∧ (c.reserved f x.slots.isSome = false) ∧ (opc = 0x0C) ∧ (c.arg 19 19 = 0) ∧ (c.c1 = 0)) ∧
    (∃ (b : Nat) (opc : Nat) (x : Buf) (c : Cmd) (f : CmdForm) (s : State) (d : Device) (bs : List Byte), (s.dev.atControl? b opc = some (x, c)) ∧ (cmdForm c.opc = some f) ∧ (c.reserved f x.slots.isSome = false) ∧ (s.dev.barrierOk x.id = true) ∧ (c.arg 23 20 ≤ 5) ∧ (c.c1.toNat % 8 = 0) ∧ (s.dev.vload x.ctx 16 0 (c.c1.toNat : Int) 8 = (d, .ok bs)) ∧ (opc = 0x0C) ∧ (c.arg 19 19 ≠ 0)) ∧
    (∃ (b : Nat) (opc : Nat) (x : Buf) (c : Cmd) (f : CmdForm) (s : State) (d : Device) (bs : List Byte), (s.dev.atControl? b opc = some (x, c)) ∧ (cmdForm c.opc = some f) ∧ (c.reserved f x.slots.isSome = false) ∧ (s.dev.barrierOk x.id = true) ∧ (c.arg 23 20 ≤ 5) ∧ (c.c1.toNat % 8 = 0) ∧ (s.dev.vload x.ctx 16 0 (c.c1.toNat : Int) 8 = (d, .ok bs)) ∧ (opc = 0x0E) ∧ (condHolds (c.arg 23 20) (bytesWord bs) c.c2 = true)) ∧
    (∃ (b : Nat) (opc : Nat) (x : Buf) (c : Cmd) (f : CmdForm) (s : State) (d : Device) (bs : List Byte) (e : Cmd), (s.dev.atControl? b opc = some (x, c)) ∧ (cmdForm c.opc = some f) ∧ (c.reserved f x.slots.isSome = false) ∧ (s.dev.barrierOk x.id = true) ∧ (c.arg 23 20 ≤ 5) ∧ (c.c1.toNat % 8 = 0) ∧ (s.dev.vload x.ctx 16 0 (c.c1.toNat : Int) 8 = (d, .ok bs)) ∧ (opc = 0x0E) ∧ (condHolds (c.arg 23 20) (bytesWord bs) c.c2 = false) ∧ (x.cmds[x.closingAt true]? = some e)) ∧
    (∃ (b : Nat) (opc : Nat) (x : Buf) (c : Cmd) (f : CmdForm) (s : State) (fr : Frame) (rest : List Frame), (s.dev.atControl? b opc = some (x, c)) ∧ (cmdForm c.opc = some f) ∧ (c.reserved f x.slots.isSome = false) ∧ (opc = 0x0D) ∧ (x.frames = fr :: rest) ∧ (fr.start = opening x.cmds x.pc 0)) ∧
    (∃ (b : Nat) (opc : Nat) (x : Buf) (c : Cmd) (f : CmdForm) (s : State), (s.dev.atControl? b opc = some (x, c)) ∧ (cmdForm c.opc = some f) ∧ (c.reserved f x.slots.isSome = false) ∧ (opc = 0x0D) ∧ (x.frames = [])) ∧
    (∃ (b : Nat) (opc : Nat) (x : Buf) (c : Cmd) (f : CmdForm) (s : State), (s.dev.atControl? b opc = some (x, c)) ∧ (cmdForm c.opc = some f) ∧ (c.reserved f x.slots.isSome = false) ∧ (opc = 0x0F)) ∧
    (∃ (b : Nat) (opc : Nat) (x : Buf) (c : Cmd) (f : CmdForm) (s : State), (s.dev.atControl? b opc = some (x, c)) ∧ (cmdForm c.opc = some f) ∧ (c.reserved f x.slots.isSome = false) ∧ (opc = 0x10)) ∧
    (∃ (j : Nat) (g : Nat) (n : Nat) (m : Nat) (k : Job) (d : Device) (e : Device) (bs : List Byte) (ds : List Byte) (v : GraphVer) (old : Option Graph) (s : State), (s.dev.issued? j 0x03 = some k) ∧ (k.cmd.arg 34 19 = g) ∧ (bits k.cmd.c2 31 0 = n) ∧ (k.cmd.arg 39 35 = m) ∧ (s.dev.foreignGraph g k.ctx = false) ∧ (m ≤ 16) ∧ (k.cmd.c1.toNat % 32 = 0) ∧ (k.cmd.c3.toNat % 8 = 0) ∧ (0 < n) ∧ (n ≤ 65536) ∧ (s.dev.vload k.ctx 16 0 (k.cmd.c1.toNat : Int) (32 * n) = (d, .ok bs)) ∧ (k.cmd.c3 ≠ 0) ∧ (d.vload k.ctx 16 0 (k.cmd.c3.toNat : Int) (8 * m) = (e, .ok ds)) ∧ (e.graph? g = old) ∧ (v = ⟨Graph.newKey old, Graph.nextVersion old, cmdsOf bs, bytesWords ds⟩) ∧ (scanOk (cmdsOf bs) = true) ∧ (substOk m (cmdsOf bs) = true) ∧ (e.graphFits v = true)) ∧
    (∃ (j : Nat) (g : Nat) (first : Nat) (n : Nat) (k : Job) (x : Graph) (v : GraphVer) (d : Device) (bs : List Byte) (s : State), (s.dev.issued? j 0x04 = some k) ∧ (k.cmd.arg 34 19 = g) ∧ (bits k.cmd.c2 31 0 = first) ∧ (bits k.cmd.c3 31 0 = n) ∧ (k.cmd.arg 35 35 = 0) ∧ (s.dev.foreignGraph g k.ctx = false) ∧ (s.dev.graph? g = some x) ∧ (x.cur? = some v) ∧ (k.cmd.c1.toNat % 8 = 0) ∧ (first + n ≤ v.defaults.length) ∧ (s.dev.vload k.ctx 16 0 (k.cmd.c1.toNat : Int) (8 * n) = (d, .ok bs))) ∧
    (∃ (j : Nat) (g : Nat) (first : Nat) (n : Nat) (k : Job) (x : Graph) (v : GraphVer) (w : GraphVer) (d : Device) (bs : List Byte) (s : State), (s.dev.issued? j 0x04 = some k) ∧ (k.cmd.arg 34 19 = g) ∧ (bits k.cmd.c2 31 0 = first) ∧ (bits k.cmd.c3 31 0 = n) ∧ (k.cmd.arg 35 35 = 1) ∧ (s.dev.foreignGraph g k.ctx = false) ∧ (s.dev.graph? g = some x) ∧ (x.cur? = some v) ∧ (k.cmd.c1.toNat % 32 = 0) ∧ (first + n ≤ v.cmds.length) ∧ (s.dev.vload k.ctx 16 0 (k.cmd.c1.toNat : Int) (32 * n) = (d, .ok bs)) ∧ (w = ⟨Graph.newKey (some x), v.version + 1, v.cmds.take first ++ cmdsOf bs ++ v.cmds.drop (first + n), v.defaults⟩) ∧ (scanOk w.cmds = true) ∧ (substOk v.defaults.length w.cmds = true) ∧ (d.bufs.any (fun b => b.graph == some (g, v.key)) = false ∨ d.graphFits w = true)) ∧
    (∃ (j : Nat) (k : Job) (x : Graph) (v : GraphVer) (s : State), (s.dev.issued? j 0x05 = some k) ∧ (s.dev.foreignGraph (k.cmd.arg 34 19) k.ctx = false) ∧ (s.dev.graph? (k.cmd.arg 34 19) = some x) ∧ (x.cur? = some v)) ∧
    (∃ (j : Nat) (g : Nat) (k : Job) (x : Graph) (v : GraphVer) (d : Device) (bs : List Byte) (s : State), (s.dev.issued? j 0x02 = some k) ∧ (k.cmd.arg 34 19 = g) ∧ (s.dev.bufs.any (fun b => b.job == j) = false) ∧ (s.dev.graph? g = some x) ∧ (x.cur? = some v) ∧ (x.owner = k.ctx ∨ k.ctx = 0) ∧ (k.cmd.c1.toNat % 8 = 0) ∧ (s.dev.noPlace k.entry = false) ∧ (k.cmd.c1 ≠ 0) ∧ (s.dev.vload k.ctx 16 0 (k.cmd.c1.toNat : Int) (8 * v.defaults.length) = (d, .ok bs))) := by
  refine ⟨?_, ?_, ?_, ?_, ?_, ?_, ?_, ?_, ?_, ?_, ?_, ?_, ?_, ?_, ?_, ?_, ?_, ?_, ?_, ?_⟩
  · refine ⟨0, 8, wBuf [wCmd (8 + 2 ^ 14) 0 0], wCmd (8 + 2 ^ 14) 0 0, ?_⟩
    apply Exists.intro
    refine ⟨(0x08, .cmdWait 0), wS (wBufs (wBuf [wCmd (8 + 2 ^ 14) 0 0])), ?_, ?_, ?_, ?_, ?_⟩
    · exact List.mem_cons_self
    · decide +kernel
    · exact opt_some _ (by decide +kernel)
    · decide +kernel
    · rfl
  · refine ⟨(0), (8), (wBuf [wCmd 8 0 0]), (wCmd 8 0 0), ?_⟩
    apply Exists.intro
    refine ⟨(wS (wBufs (wBuf [wCmd 8 0 0]))), ?_, ?_, ?_, ?_, ?_⟩
    · decide +kernel
    · exact opt_some _ (by decide +kernel)
    · decide +kernel
    · decide +kernel
    · decide +kernel
  · refine ⟨(0), (8), (wBuf [wCmd (8 + 5 * 2 ^ 31) 0 0]), (wCmd (8 + 5 * 2 ^ 31) 0 0), ?_⟩
    apply Exists.intro
    refine ⟨(wS (wBufs (wBuf [wCmd (8 + 5 * 2 ^ 31) 0 0]))), ?_, ?_, ?_, ?_, ?_, ?_⟩
    · decide +kernel
    · exact opt_some _ (by decide +kernel)
    · decide +kernel
    · decide +kernel
    · decide +kernel
    · decide +kernel
  · refine ⟨(0), (9), (wBuf [wCmd 9 0 0]), (wCmd 9 0 0), ?_⟩
    apply Exists.intro
    refine ⟨(wS (wBufs (wBuf [wCmd 9 0 0]))), ?_, ?_, ?_, ?_, ?_, ?_⟩
    · decide +kernel
    · exact opt_some _ (by decide +kernel)
    · decide +kernel
    · decide +kernel
    · decide +kernel
    · decide +kernel
  · refine ⟨(0), (9), (wBuf [wCmd 9 (-1) 0]), (wCmd 9 (-1) 0), ?_⟩
    apply Exists.intro
    refine ⟨(wS (wBufs (wBuf [wCmd 9 (-1) 0]))), ?_⟩
    apply Exists.intro
    refine ⟨?_, ?_, ?_, ?_, ?_, ?_, ?_⟩
    · decide +kernel
    · exact opt_some _ (by decide +kernel)
    · decide +kernel
    · decide +kernel
    · decide +kernel
    · decide +kernel
    · exact rfl
  · refine ⟨(0), (0x0B), (wBuf [wCmd 0x0B 0 0]), (wCmd 0x0B 0 0), ?_⟩
    apply Exists.intro
    refine ⟨(wS (wBufs (wBuf [wCmd 0x0B 0 0]))), ?_, ?_, ?_, ?_⟩
    · decide +kernel
    · exact opt_some _ (by decide +kernel)
    · decide +kernel
    · decide +kernel
  · refine ⟨(0), (0x0C), (wBuf [wCmd 0x0C 2 0]), (wCmd 0x0C 2 0), ?_⟩
    apply Exists.intro
    refine ⟨(wS (wBufs (wBuf [wCmd 0x0C 2 0]))), ?_, ?_, ?_, ?_, ?_, ?_⟩
    · decide +kernel
    · exact opt_some _ (by decide +kernel)
    · decide +kernel
    · decide +kernel
    · decide +kernel
    · decide +kernel
  · refine ⟨(0), (0x0C), (wBuf [wCmd 0x0C 0 0]), (wCmd 0x0C 0 0), ?_⟩
    apply Exists.intro
    refine ⟨(wS (wBufs (wBuf [wCmd 0x0C 0 0]))), ?_, ?_, ?_, ?_, ?_, ?_⟩
    · decide +kernel
    · exact opt_some _ (by decide +kernel)
    · decide +kernel
    · decide +kernel
    · decide +kernel
    · decide +kernel
  · refine ⟨(0), (0x0C), (wBuf [wCmd (0x0C + 2 ^ 19) 0x40 0]), (wCmd (0x0C + 2 ^ 19) 0x40 0), ?_⟩
    apply Exists.intro
    refine ⟨(wS (wBufs (wBuf [wCmd (0x0C + 2 ^ 19) 0x40 0]))), ?_⟩
    apply Exists.intro
    apply Exists.intro
    refine ⟨?_, ?_, ?_, ?_, ?_, ?_, ?_, ?_, ?_⟩
    · decide +kernel
    · exact opt_some _ (by decide +kernel)
    · decide +kernel
    · decide +kernel
    · decide +kernel
    · decide +kernel
    · exact got_ok _ (by decide +kernel)
    · decide +kernel
    · decide +kernel
  · refine ⟨(0), (0x0E), (wBuf [wCmd (0x0E + 2 ^ 20) 0x40 0]), (wCmd (0x0E + 2 ^ 20) 0x40 0), ?_⟩
    apply Exists.intro
    refine ⟨(wS (wBufs (wBuf [wCmd (0x0E + 2 ^ 20) 0x40 0]))), ?_⟩
    apply Exists.intro
    apply Exists.intro
    refine ⟨?_, ?_, ?_, ?_, ?_, ?_, ?_, ?_, ?_⟩
    · decide +kernel
    · exact opt_some _ (by decide +kernel)
    · decide +kernel
    · decide +kernel
    · decide +kernel
    · decide +kernel
    · exact got_ok _ (by decide +kernel)
    · decide +kernel
    · decide +kernel
  · refine ⟨(0), (0x0E), (wBuf [wCmd 0x0E 0x40 0, wCmd 0x10 0 0]), (wCmd 0x0E 0x40 0), ?_⟩
    apply Exists.intro
    refine ⟨(wS (wBufs (wBuf [wCmd 0x0E 0x40 0, wCmd 0x10 0 0]))), ?_⟩
    apply Exists.intro
    apply Exists.intro
    apply Exists.intro
    refine ⟨?_, ?_, ?_, ?_, ?_, ?_, ?_, ?_, ?_, ?_⟩
    · decide +kernel
    · exact opt_some _ (by decide +kernel)
    · decide +kernel
    · decide +kernel
    · decide +kernel
    · decide +kernel
    · exact got_ok _ (by decide +kernel)
    · decide +kernel
    · decide +kernel
    · exact opt_some _ (by decide +kernel)
  · refine ⟨(0), (0x0D), ({ wBuf [wCmd 0x0C 2 0, wCmd 0x0D 0 0] with pc := 1, frames := [⟨0, 1⟩] }), ( wCmd 0x0D 0 0), ?_⟩
    apply Exists.intro
    refine ⟨(wS (wBufs ({ wBuf [wCmd 0x0C 2 0, wCmd 0x0D 0 0] with pc := 1, frames := [⟨0, 1⟩] }))), (⟨0, 1⟩), ([]), ?_, ?_, ?_, ?_, ?_, ?_⟩
    · decide +kernel
    · exact opt_some _ (by decide +kernel)
    · decide +kernel
    · decide +kernel
    · decide +kernel
    · decide +kernel
  · refine ⟨(0), (0x0D), ({ wBuf [wCmd 0x0C 2 0, wCmd 0x0D 0 0] with pc := 1, frames := [] }), ( wCmd 0x0D 0 0), ?_⟩
    apply Exists.intro
    refine ⟨(wS (wBufs ({ wBuf [wCmd 0x0C 2 0, wCmd 0x0D 0 0] with pc := 1, frames := [] }))), ?_, ?_, ?_, ?_, ?_⟩
    · decide +kernel
    · exact opt_some _ (by decide +kernel)
    · decide +kernel
    · decide +kernel
    · decide +kernel
  · refine ⟨(0), (0x0F), (wBuf [wCmd 0x0F 0 0]), (wCmd 0x0F 0 0), ?_⟩
    apply Exists.intro
    refine ⟨(wS (wBufs (wBuf [wCmd 0x0F 0 0]))), ?_, ?_, ?_, ?_⟩
    · decide +kernel
    · exact opt_some _ (by decide +kernel)
    · decide +kernel
    · decide +kernel
  · refine ⟨(0), (0x10), (wBuf [wCmd 0x10 0 0]), (wCmd 0x10 0 0), ?_⟩
    apply Exists.intro
    refine ⟨(wS (wBufs (wBuf [wCmd 0x10 0 0]))), ?_, ?_, ?_, ?_⟩
    · decide +kernel
    · exact opt_some _ (by decide +kernel)
    · decide +kernel
    · decide +kernel
  · refine ⟨(0), (7), (1), (1), (wFull (pack [(0, 8, 3), (19, 16, 7), (35, 5, 1)]) 0x40 1 0x80), ?_⟩
    apply Exists.intro
    apply Exists.intro
    apply Exists.intro
    apply Exists.intro
    apply Exists.intro
    apply Exists.intro
    refine ⟨(wS { wDev.setReg Reg.RIDGE_GSTORE (-1) with jobs := [wFull (pack [(0, 8, 3), (19, 16, 7), (35, 5, 1)]) 0x40 1 0x80] }), ?_, ?_, ?_, ?_, ?_, ?_, ?_, ?_, ?_, ?_, ?_, ?_, ?_, ?_, ?_, ?_, ?_, ?_⟩
    · decide +kernel
    · decide +kernel
    · decide +kernel
    · decide +kernel
    · decide +kernel
    · decide +kernel
    · decide +kernel
    · decide +kernel
    · decide +kernel
    · decide +kernel
    · exact got_ok _ (by decide +kernel)
    · decide +kernel
    · exact got_ok _ (by decide +kernel)
    · exact rfl
    · exact rfl
    · decide +kernel
    · decide +kernel
    · decide +kernel
  · refine ⟨(0), (7), (0), (1), (wFull (pack [(0, 8, 4), (19, 16, 7)]) 0x40 0 1), (wGraph), ?_⟩
    apply Exists.intro
    apply Exists.intro
    apply Exists.intro
    refine ⟨(wS { wDev with jobs := [wFull (pack [(0, 8, 4), (19, 16, 7)]) 0x40 0 1], graphs := [(7, wGraph)] }), ?_, ?_, ?_, ?_, ?_, ?_, ?_, ?_, ?_, ?_, ?_⟩
    · decide +kernel
    · decide +kernel
    · decide +kernel
    · decide +kernel
    · decide +kernel
    · decide +kernel
    · decide +kernel
    · exact opt_some _ (by decide +kernel)
    · decide +kernel
    · decide +kernel
    · exact got_ok _ (by decide +kernel)
  · refine ⟨(0), (7), (0), (0), (wFull (pack [(0, 8, 4), (19, 16, 7), (35, 1, 1)]) 0x40 0 0), (wGraph), ?_⟩
    apply Exists.intro
    apply Exists.intro
    apply Exists.intro
    apply Exists.intro
    refine ⟨(wS { wDev with jobs := [wFull (pack [(0, 8, 4), (19, 16, 7), (35, 1, 1)]) 0x40 0 0], graphs := [(7, wGraph)] }), ?_, ?_, ?_, ?_, ?_, ?_, ?_, ?_, ?_, ?_, ?_, ?_, ?_, ?_, ?_⟩
    · decide +kernel
    · decide +kernel
    · decide +kernel
    · decide +kernel
    · decide +kernel
    · decide +kernel
    · decide +kernel
    · exact opt_some _ (by decide +kernel)
    · decide +kernel
    · decide +kernel
    · exact got_ok _ (by decide +kernel)
    · exact rfl
    · decide +kernel
    · decide +kernel
    · decide +kernel
  · refine ⟨(0), (wFull (pack [(0, 8, 5), (19, 16, 7)]) 0 0 0), (wGraph), ?_⟩
    apply Exists.intro
    refine ⟨(wS { wDev with jobs := [wFull (pack [(0, 8, 5), (19, 16, 7)]) 0 0 0], graphs := [(7, wGraph)] }), ?_, ?_, ?_, ?_⟩
    · decide +kernel
    · decide +kernel
    · decide +kernel
    · exact opt_some _ (by decide +kernel)
  · refine ⟨(0), (7), (wFull (pack [(0, 8, 2), (19, 16, 7)]) 0x40 0 0), (wGraph), ?_⟩
    apply Exists.intro
    apply Exists.intro
    apply Exists.intro
    refine ⟨(wS { wDev with jobs := [wFull (pack [(0, 8, 2), (19, 16, 7)]) 0x40 0 0], graphs := [(7, wGraph)] }), ?_, ?_, ?_, ?_, ?_, ?_, ?_, ?_, ?_, ?_⟩
    · decide +kernel
    · decide +kernel
    · decide +kernel
    · decide +kernel
    · exact opt_some _ (by decide +kernel)
    · decide +kernel
    · decide +kernel
    · decide +kernel
    · decide +kernel
    · exact got_ok _ (by decide +kernel)

/-- What `Obligations.EnginesTakeAndGiveUpTasks` supposes can be met. -/
theorem witness_EnginesTakeAndGiveUpTasks :
    (∃ (g : Engine) (j : Job) (s : State), (s.dev.clk.stage = .thatched) ∧ (engTruss g ≠ 16) ∧ (s.dev.engineFree g = true) ∧ (s.dev.nextTask g = some j) ∧ (j.run ≠ .none ∨ s.dev.trussEnding j.ctx (engTruss g) (engUnit g) j.index = none) ∧ (s.dev.engineOn (engTruss g) = true) ∧ (s.dev.enginesFree j = true)) ∧
    (∃ (g : Engine) (j : Job) (s : State), (s.dev.clk.stage = .thatched) ∧ (s.dev.fld Reg.RIDGE_CTRL Fld.RIDGE_CTRL_AHEAD ≠ 0) ∧ (s.dev.running? g ≠ none) ∧ (s.dev.nextTask g = some j) ∧ (j.preloaded = false) ∧ (j.state = .ready) ∧ (j.run = .none)) ∧
    (∃ (g : Engine) (j : Job) (s : State), (engTruss g ≠ 16) ∧ (s.dev.running? g = some j) ∧ (s.dev.atPoint g j = true) ∧ (j.forced = false) ∧ (j.preemptReq = true) ∧ (s.dev.engineOn (engTruss g) = true)) ∧
    (∃ (g : Engine) (j : Job) (s : State), (engTruss g ≠ 16) ∧ (s.dev.running? g = some j) ∧ (s.dev.atPoint g j = true) ∧ (j.forced = true)) := by
  refine ⟨?_, ?_, ?_, ?_⟩
  · exact ⟨(.hod 0), ({ wTask (.hod 0) 0 .none with state := .ready }), (wS { wDev with jobs := [{ wTask (.hod 0) 0 .none with state := .ready }] }), by decide +kernel⟩
  · exact ⟨(.hod 0), ({ wTask (.hod 0) 0 .none with state := .ready, id := 1 }), (wS { wDev.setReg Reg.RIDGE_CTRL (-1) with jobs := [wTask (.hod 0) 0 .none, { wTask (.hod 0) 0 .none with state := .ready, id := 1 }] }), by decide +kernel⟩
  · exact ⟨(.hod 0), ({ wTask (.hod 0) 0 .none with preemptReq := true }), (wS { wDev with jobs := [{ wTask (.hod 0) 0 .none with preemptReq := true }] }), by decide +kernel⟩
  · exact ⟨(.hod 0), ({ wTask (.hod 0) 0 .none with forced := true }), (wS { wDev with jobs := [{ wTask (.hod 0) 0 .none with forced := true }] }), by decide +kernel⟩

/-- What `Obligations.ContextsLiveAndEnd` supposes can be met. -/
theorem witness_ContextsLiveAndEnd :
    (∃ (j : Nat) (len : Nat) (k : Job) (s : State), (s.dev.ctxOp? j .create = some k) ∧ (k.target ≠ 0) ∧ ((s.dev.ctx k.target).state = 0) ∧ (k.ctxReserved .create = false) ∧ (k.lenLimit = some len)) ∧
    (∃ (j : Nat) (len : Nat) (k : Job) (s : State), (s.dev.ctxOp? j .set = some k) ∧ (k.target ≠ 0) ∧ ((s.dev.ctx k.target).state = 1) ∧ (k.ctxReserved .set = false) ∧ (k.lenLimit = some len)) ∧
    (∃ (j : Nat) (t : Nat) (n : Nat) (i : Nat) (b : Nat) (k : Job) (x : TrussSt) (s : State), (s.dev.ctxOp? j .grant = some k) ∧ ((s.dev.ctx k.target).state = 1) ∧ (k.ctxReserved .grant = false) ∧ (bits k.cmd.c1 3 0 = t) ∧ (bits k.cmd.c1 15 8 = n) ∧ (0 < n) ∧ (n ≤ 120) ∧ (s.dev.grantable t = true) ∧ (s.dev.slotOf? k.target t = none) ∧ (s.dev.trussSt t = x) ∧ (x.freeSlot = some i) ∧ (x.freeRun n = some b)) ∧
    (∃ (j : Nat) (t : Nat) (i : Nat) (k : Job) (x : ShareSlot) (d : Device) (s : State), (s.dev.job? j = some k) ∧ (k.cmd.opc = 0x31) ∧ (k.cmd.arg 22 19 = 3) ∧ (k.state = .waiting) ∧ (bits k.cmd.c1 3 0 = t) ∧ (s.dev.slotOf? k.target t = some (i, x)) ∧ (x.ready = false) ∧ ((s.dev.loftZero t (x.base * granule) (x.size * granule)).clearSlot t i = d)) ∧
    (∃ (j : Nat) (t : Nat) (k : Job) (s : State), (s.dev.ctxOp? j .release = some k) ∧ ((s.dev.ctx k.target).state = 1) ∧ (k.ctxReserved .release = false) ∧ (bits k.cmd.c1 3 0 = t) ∧ (s.dev.slotOf? k.target t ≠ none)) ∧
    (∃ (c : Ctx) (t : Truss) (i : Nat) (j : Nat) (sl : ShareSlot) (s : State), (s.dev.slotOf? c t = some (i, sl)) ∧ (sl.ready = true) ∧ ((s.dev.trussSt t).releasing.filter (fun r => r.1 == c.val) = [(c.val, false, some j)]) ∧ (s.dev.jobs.any (fun j => j.startedTask && j.ctx == c.val && j.onTruss t) = false) ∧ ([0, 1].any (fun e => (tget s.dev.lth (2 * t.val + e) default).owns c.val) = false)) ∧
    (∃ (j : Nat) (c : Nat) (k : Job) (x : Context) (d : Device) (s : State), (s.dev.ctxOp? j .destroy = some k) ∧ (k.target = c) ∧ (s.dev.ctx c = x) ∧ (c ≠ 0) ∧ (x.state ≠ 0) ∧ (k.ctxReserved .destroy = false) ∧ (x.destroy = none) ∧ (s.dev.contextNamed c = false) ∧ ((((s.dev.setCtx c { x with state := 2, destroy := some (j, bit k.cmd.c1 0, 3) }).endUnstarted c).mapJob j (fun k => { k with state := .waiting })) = d)) ∧
    (∃ (c : Ctx) (j : Nat) (s : State), ((s.dev.ctx c).destroy = some (j, false, 3)) ∧ (s.dev.contextBusy c = true)) ∧
    (∃ (c : Ctx) (j : Nat) (d : Device) (s : State), ((s.dev.ctx c).destroy = some (j, false, 8)) ∧ ((s.dev.gutter c).held = []) ∧ (s.dev.meterFinal c = some d)) := by
  refine ⟨?_, ?_, ?_, ?_, ?_, ?_, ?_, ?_, ?_⟩
  · refine ⟨(0), ?_⟩
    apply Exists.intro
    refine ⟨(wCtxCmd .create 2 0), (wS { wDev with jobs := [wCtxCmd .create 2 0] }), ?_, ?_, ?_, ?_, ?_⟩
    · decide +kernel
    · decide +kernel
    · decide +kernel
    · decide +kernel
    · exact opt_some _ (by decide +kernel)
  · refine ⟨(0), ?_⟩
    apply Exists.intro
    refine ⟨(wCtxCmd .set 1 0), (wS { wDev with jobs := [wCtxCmd .set 1 0] }), ?_, ?_, ?_, ?_, ?_⟩
    · decide +kernel
    · decide +kernel
    · decide +kernel
    · decide +kernel
    · exact opt_some _ (by decide +kernel)
  · refine ⟨(0), ?_⟩
    apply Exists.intro
    apply Exists.intro
    apply Exists.intro
    apply Exists.intro
    refine ⟨(wCtxCmd .grant 0 0x800), ?_⟩
    apply Exists.intro
    refine ⟨(wS { wDev with jobs := [wCtxCmd .grant 0 0x800] }), ?_, ?_, ?_, ?_, ?_, ?_, ?_, ?_, ?_, ?_, ?_, ?_⟩
    · decide +kernel
    · decide +kernel
    · decide +kernel
    · exact rfl
    · exact rfl
    · decide +kernel
    · decide +kernel
    · decide +kernel
    · decide +kernel
    · exact rfl
    · exact opt_some _ (by decide +kernel)
    · exact opt_some _ (by decide +kernel)
  · refine ⟨(0), (0), (0), ({ wCtxCmd .grant 1 0x800 with state := .waiting }), (⟨true, 1, 0, 8, false⟩), ?_⟩
    apply Exists.intro
    refine ⟨(wS { wDev with jobs := [{ wCtxCmd .grant 1 0x800 with state := .waiting }], truss := [(0, { wTruss with slots := [(0, ⟨true, 1, 0, 8, false⟩)] })] }), ?_, ?_, ?_, ?_, ?_, ?_, ?_, ?_⟩
    · decide +kernel
    · decide +kernel
    · decide +kernel
    · decide +kernel
    · decide +kernel
    · decide +kernel
    · decide +kernel
    · exact rfl
  · exact ⟨(0), (0), (wCtxCmd .release 1 0), (wS { wDev with jobs := [wCtxCmd .release 1 0] }), by decide +kernel⟩
  · exact ⟨(1), (0), (0), (7), (⟨true, 1, 0, 64, true⟩), (wS { wDev with truss := [(0, { wTruss with releasing := [(1, false, some 7)] })] }), by decide +kernel⟩
  · refine ⟨(0), (1), (wCtxCmd .destroy 1 0), ?_⟩
    apply Exists.intro
    apply Exists.intro
    refine ⟨(wS { wDev with jobs := [wCtxCmd .destroy 1 0] }), ?_, ?_, ?_, ?_, ?_, ?_, ?_, ?_, ?_⟩
    · decide +kernel
    · decide +kernel
    · exact rfl
    · decide +kernel
    · decide +kernel
    · decide +kernel
    · decide +kernel
    · decide +kernel
    · exact rfl
  · exact ⟨(1), (4), (wS { wDev with ctxs := [(1, { wCtx with destroy := some (4, false, 3) })], entries := [wEnt .accepted] }), by decide +kernel⟩
  · refine ⟨(1), (4), ?_⟩
    apply Exists.intro
    refine ⟨(wS { wDev.setReg Reg.MTR_RING_CFG 0x18 with ctxs := [(1, { wCtx with destroy := some (4, false, 8) })] }), ?_, ?_, ?_⟩
    · decide +kernel
    · decide +kernel
    · exact opt_some _ (by decide +kernel)

/-- What `Obligations.TranslationRequestsAndAnswers` supposes can be met. -/
theorem witness_TranslationRequestsAndAnswers :
    (∃ (v : Word) (s : State), s.dev.Up ∧ (s.dev.xlt.reqs.find? (fun r => r.reqid == bits v 11 0) = none)) ∧
    (∃ (v : Word) (r : XReq) (s : State) (x : Xlation) (d : Device), s.dev.Up ∧ (s.dev.xlt.reqs.find? (fun r => r.reqid == bits v 11 0) = some r) ∧ (r.destroyed = false) ∧ (r.withdrawn = false) ∧ (bits v 17 16 = 0) ∧ (s.dev.answerPage r.ctx r.va v = some x) ∧ (r.waiters.foldl (fun d w => if w.2.1 < 16 then { d with xlt := d.xlt.fillL1 w.2.1 x } else d) (s.dev.install x) = d)) ∧
    (∃ (v : Word) (r : XReq) (s : State), s.dev.Up ∧ (s.dev.xlt.reqs.find? (fun r => r.reqid == bits v 11 0) = some r) ∧ (r.destroyed = false) ∧ (r.withdrawn = false) ∧ (bits v 17 16 = 0) ∧ (s.dev.answerPage r.ctx r.va v = none)) ∧
    (∃ (v : Word) (r : XReq) (s : State), s.dev.Up ∧ (s.dev.xlt.reqs.find? (fun r => r.reqid == bits v 11 0) = some r) ∧ (r.destroyed = false) ∧ (r.withdrawn = false) ∧ (bits v 17 16 = 1)) ∧
    (∃ (v : Word) (r : XReq) (s : State), s.dev.Up ∧ (s.dev.xlt.reqs.find? (fun r => r.reqid == bits v 11 0) = some r) ∧ (r.destroyed = false) ∧ (r.withdrawn = false) ∧ (bits v 17 16 = 2)) ∧
    (∃ (v : Word) (r : XReq) (s : State), s.dev.Up ∧ (s.dev.xlt.reqs.find? (fun r => r.reqid == bits v 11 0) = some r) ∧ (r.destroyed = false) ∧ (r.withdrawn = false) ∧ (bits v 17 16 = 3)) ∧
    (∃ (n : Nat) (r : XReq) (s : State), s.dev.Up ∧ (s.dev.xlt.reqs.find? (fun r => r.reqid == n) = some r) ∧ (r.sent = true) ∧ (r.withdrawn = false) ∧ (r.destroyed = false) ∧ (r.since + s.dev.resendNs ≤ s.dev.now) ∧ (r.resends < s.dev.fld Reg.XLT_CTRL Fld.XLT_CTRL_RETRIES)) ∧
    (∃ (n : Nat) (r : XReq) (s : State), s.dev.Up ∧ (s.dev.xlt.reqs.find? (fun r => r.reqid == n) = some r) ∧ (r.sent = true) ∧ (r.withdrawn = false) ∧ (r.destroyed = false) ∧ (r.since + s.dev.resendNs ≤ s.dev.now) ∧ (s.dev.fld Reg.XLT_CTRL Fld.XLT_CTRL_RETRIES ≤ r.resends)) ∧
    (∃ (n : Nat) (r : XReq) (s : State), s.dev.Up ∧ (s.dev.xlt.reqs.find? (fun r => r.reqid == n) = some r) ∧ (r.destroyed = true) ∧ (r.since + s.dev.resendNs * (s.dev.fld Reg.XLT_CTRL Fld.XLT_CTRL_RETRIES + 1) ≤ s.dev.now)) ∧
    (∃ (s : State), s.dev.Up) ∧
    (∃ (v : Word) (s : State), s.dev.Up ∧ ((s.dev.xlt.prod + 2 ^ 32 - s.dev.fld Reg.XLT_REQ_CONS Fld.XLT_REQ_CONS_CONS) % 2 ^ 32 < (bits v 31 0 + 2 ^ 32 - s.dev.fld Reg.XLT_REQ_CONS Fld.XLT_REQ_CONS_CONS) % 2 ^ 32)) ∧
    (∃ (v : Word) (s : State), s.dev.Up ∧ ((bits v 31 0 + 2 ^ 32 - s.dev.fld Reg.XLT_REQ_CONS Fld.XLT_REQ_CONS_CONS) % 2 ^ 32 ≤ (s.dev.xlt.prod + 2 ^ 32 - s.dev.fld Reg.XLT_REQ_CONS Fld.XLT_REQ_CONS_CONS) % 2 ^ 32)) ∧
    (∃ (v : Word) (s : State) (d : Device), s.dev.Up ∧ (6 ≤ bits v 4 0) ∧ (bits v 4 0 ≤ 12) ∧ (s.dev.setReg Reg.XLT_REQ_CFG (v &&& 0xFFFFFFFFFFFFFF1F#64) = d)) ∧
    (∃ (j : Nat) (k : Job) (x : Xlation) (s : State), (s.dev.xltOp? j 0 = some k) ∧ (k.cmd.c2.toNat &&& answerReserved = 0) ∧ (k.cmd.c1.toNat < 2 ^ 52) ∧ (s.dev.answerPage k.ctx k.cmd.c1.toNat k.cmd.c2 = some x)) ∧
    (∃ (j : Nat) (k : Job) (s : State), (s.dev.xltOp? j 1 = some k) ∧ (k.cmd.c2 = 0 ∨ k.cmd.c1.toNat + k.cmd.c2.toNat ≤ 2 ^ 52)) ∧
    (∃ (j : Nat) (k : Job) (s : State), (s.dev.xltOp? j 2 = some k)) ∧
    (∃ (j : Nat) (k : Job) (s : State), (s.dev.job? j = some k) ∧ (k.cmd.opc = 0x32) ∧ (k.state = .waiting) ∧ (k.waitFrom = none) ∧ ((s.dev.xlt.pins.filter (fun p => p.1 == j)).any (fun p => s.dev.pinHolds k.ctx k.covers p.2) = false)) := by
  refine ⟨?_, ?_, ?_, ?_, ?_, ?_, ?_, ?_, ?_, ?_, ?_, ?_, ?_, ?_, ?_, ?_, ?_⟩
  · exact ⟨(4), (wS (wXlt wXReq)), by decide +kernel⟩
  · refine ⟨(5), (wXReq), (wS (wXlt wXReq)), ?_⟩
    apply Exists.intro
    apply Exists.intro
    refine ⟨?_, ?_, ?_, ?_, ?_, ?_, ?_⟩
    · decide +kernel
    · decide +kernel
    · decide +kernel
    · decide +kernel
    · decide +kernel
    · exact opt_some _ (by decide +kernel)
    · exact rfl
  · exact ⟨((5 + 3 * 2 ^ 12)), (wXReq), (wS (wXlt wXReq)), by decide +kernel⟩
  · exact ⟨((5 + 1 * 2 ^ 16)), (wXReq), (wS (wXlt wXReq)), by decide +kernel⟩
  · exact ⟨((5 + 2 * 2 ^ 16)), (wXReq), (wS (wXlt wXReq)), by decide +kernel⟩
  · exact ⟨((5 + 3 * 2 ^ 16)), (wXReq), (wS (wXlt wXReq)), by decide +kernel⟩
  · exact ⟨(5), (wXReq), (wS (wXlt wXReq)), by decide +kernel⟩
  · exact ⟨(5), ({ wXReq with resends := 100 }), (wS (wXlt ({ wXReq with resends := 100 }))), by decide +kernel⟩
  · exact ⟨(5), ({ wXReq with destroyed := true }), (wS (wXlt ({ wXReq with destroyed := true }))), by decide +kernel⟩
  · exact ⟨(wS wDev), by decide +kernel⟩
  · exact ⟨(1), (wS wDev), by decide +kernel⟩
  · exact ⟨(0), (wS wDev), by decide +kernel⟩
  · refine ⟨(6), (wS wDev), ?_⟩
    apply Exists.intro
    refine ⟨?_, ?_, ?_, ?_⟩
    · decide +kernel
    · decide +kernel
    · decide +kernel
    · exact rfl
  · refine ⟨(0), (wIssued (pack [(0, 8, 0x32), (19, 4, 0)]) 0x200000 0x4000), ?_⟩
    apply Exists.intro
    refine ⟨(wS { wDev with jobs := [wIssued (pack [(0, 8, 0x32), (19, 4, 0)]) 0x200000 0x4000] }), ?_, ?_, ?_, ?_⟩
    · decide +kernel
    · decide +kernel
    · decide +kernel
    · exact opt_some _ (by decide +kernel)
  · exact ⟨(0), (wIssued (pack [(0, 8, 0x32), (19, 4, 1)]) 0xFFFFFFFFFF000 0x1000), (wS { wDev with jobs := [wIssued (pack [(0, 8, 0x32), (19, 4, 1)]) 0xFFFFFFFFFF000 0x1000] }), by decide +kernel⟩
  · exact ⟨(0), (wIssued (pack [(0, 8, 0x32), (19, 4, 2)]) 0 0), (wS { wDev with jobs := [wIssued (pack [(0, 8, 0x32), (19, 4, 2)]) 0 0] }), by decide +kernel⟩
  · exact ⟨(0), ({ wIssued (pack [(0, 8, 0x32), (19, 4, 1)]) 0 0 with state := .waiting }), (wS { wDev with jobs := [{ wIssued (pack [(0, 8, 0x32), (19, 4, 1)]) 0 0 with state := .waiting }] }), by decide +kernel⟩

/-- What `Obligations.UnmapRemovesTranslations` supposes can be met. -/
theorem witness_UnmapRemovesTranslations :
    (∃ (x : Xlt) (c : Nat) (a : Nat) (n : Nat) (e : Xlation) (k : Nat) (l : List Xlation), (e.ctx = c) ∧ (overlap e.va (pageSize e.size) a n = true) ∧ ((k, l) ∈ (x.remove c a n).l1)) ∧
    (∃ (x : Xlt) (c : Nat) (a : Nat) (n : Nat) (e : Xlation) (k : Nat) (l : List Xlation), (e.ctx = c) ∧ (overlap e.va (pageSize e.size) a n = true) ∧ ((k, l) ∈ (x.remove c a n).l2)) := by
  refine ⟨?_, ?_⟩
  · exact ⟨({ wDev.xlt with l1 := [(0, [{ (default : Xlation) with ctx := 1, va := 2 ^ 30 }])], l2 := [(0, [{ (default : Xlation) with ctx := 1, va := 2 ^ 30 }])] }), (1), (0), (2 ^ 21), ({ (default : Xlation) with ctx := 1 }), (0), ([{ (default : Xlation) with ctx := 1, va := 2 ^ 30 }]), by decide +kernel⟩
  · exact ⟨({ wDev.xlt with l1 := [(0, [{ (default : Xlation) with ctx := 1, va := 2 ^ 30 }])], l2 := [(0, [{ (default : Xlation) with ctx := 1, va := 2 ^ 30 }])] }), (1), (0), (2 ^ 21), ({ (default : Xlation) with ctx := 1 }), (0), ([{ (default : Xlation) with ctx := 1, va := 2 ^ 30 }]), by decide +kernel⟩

/-- What `Obligations.HbmWritesOnlyItsBytes` supposes can be met. -/
theorem witness_HbmWritesOnlyItsBytes :
    (∃ (a : Nat) (bs : List Byte) (job : Option Nat) (s : State), s.Settled ∧ (a % 4096 + bs.length ≤ 4096) ∧ (s.dev.hbm.allReachable a bs.length = true) ∧ (s.dev.heldAt a = false) ∧ (∀ i k, job = some i → s.dev.job? i = some k → k.ctx < 64)) := by
  refine ⟨(64), ([1, 2]), default, (wS wDev), ?_, ?_, ?_, ?_, ?_⟩
  · decide +kernel
  · decide +kernel
  · decide +kernel
  · decide +kernel
  · exact fun _ _ h _ => absurd h (by simp)

/-- What `Obligations.MemoriesStayCanonical` supposes can be met. -/
theorem witness_MemoriesStayCanonical :
    (∃ (s : State) (t : State) (a : Nat) (line : Nat) (bs : List Byte) (k : MemUse) (c : Ctx) (job : Option Nat) (p : OnChip) (ops : List (Nat × NmaOp)) (e : SectorErr) (errs : List SectorErr) (v : Word) (u : Truss) (o : EccErr), s.dev.MemoryWf ∧ (exec (.memWriteRequest a bs ⟨k, job⟩ c p) s = .next t ∨ exec (.memReadRequest a ⟨k, job⟩ c e p) s = .next t ∨ exec (.nmaOp ops ⟨k, job⟩ c) s = .next t ∨ exec .maintHoldEnd s = .next t ∨ exec (.frameConvert v) s = .next t ∨ exec (.scrub a errs) s = .next t ∨ exec (.loftPatrol u line o) s = .next t)) := by
  refine ⟨(wS wDev), ?_⟩
  apply Exists.intro
  refine ⟨0, 0, [], (.scrub), 0, default, (.clean), [], (.lanes []), [], 0, 0, (.clean), ?_, ?_⟩
  · exact ⟨by decide +kernel, fun _ => rfl, by decide +kernel⟩
  · exact Or.inr (Or.inr (Or.inr (Or.inl rfl)))

/-- What `Obligations.HbmRequestsAndMaintenance` supposes can be met. -/
theorem witness_HbmRequestsAndMaintenance :
    (∃ (a : Nat) (job : Option Nat) (p : OnChip) (d : Device) (s : State), (s.dev.crossPath a job p = (d, false))) ∧
    (∃ (a : Nat) (job : Option Nat) (p : OnChip) (d : Device) (s : State), (s.dev.crossPath a job p = (d, true)) ∧ (d.heldAt a = true)) ∧
    (∃ (a : Nat) (job : Option Nat) (p : OnChip) (d : Device) (s : State), (s.dev.crossPath a job p = (d, true)) ∧ (d.heldAt a = false) ∧ (d.hbm.reachable a = false)) ∧
    (∃ (a : Nat) (c : Ctx) (job : Option Nat) (e : SectorErr) (p : OnChip) (d : Device) (s : State) (x : Device) (ok : Bool), (s.dev.crossPath a job p = (d, true)) ∧ (d.heldAt a = false) ∧ (d.hbm.reachable a = true) ∧ ((d.chargeHbm c .hbmRd a 32).decodeSector (if job.isSome then 2 else 0) a e = (x, ok))) ∧
    (∃ (ops : List (Nat × NmaOp)) (a : Nat) (op : NmaOp) (s : State), (nmaGroupOk ((a, op) :: ops) = true) ∧ (s.dev.heldAt a = false)) ∧
    (∃ (a : Nat) (op : NmaOp) (n : Nat) (o : NmaOut) (d : Device), (a / 32 * 32 = n) ∧ (d.hbm.reachable n = true) ∧ (d.hbm.sectorBad n = false) ∧ (nmaOn op (memRead d.hbm.mem n 32) (a - n) = o)) ∧
    (∃ (q : MemReq) (s : State), (s.dev.hbm.waiting.find? (fun p => p.id == q.id && p.cls != 0 && decide (p.since + max 1 (s.dev.fld Reg.MEM_PRIO Fld.MEM_PRIO_AGE) < s.dev.now)) = some q)) ∧
    (∃ (a : Nat) (b : Nat) (s : State), (s.dev.fld Reg.MEM_CTRL Fld.MEM_CTRL_SCRUB_EN ≠ 0) ∧ (a / 128 * 128 = b) ∧ (s.dev.hbm.reachable b = true) ∧ (s.dev.hbm.onRetired b = false) ∧ (s.dev.heldAt b = false)) ∧
    (∃ (s : State), s.dev.Up) ∧
    (∃ (d : Device), (d.fld Reg.MEM_MAINT Fld.MEM_MAINT_EN = 1) ∧ (d.hbm.nextSpacings = []) ∧ (0 < d.hbm.spacing)) ∧
    (∃ (t : Nat) (own : Nat) (rest : List Nat) (h : Hbm) (w : List (Nat × Nat × Nat) × List (Nat × Nat × Nat)) (s : State), (s.dev.hbm.announced = t :: rest) ∧ (t ≤ s.dev.now) ∧ (s.dev.fld Reg.MEM_MAINT Fld.MEM_MAINT_EN ≠ 0) ∧ (s.dev.hbm.spacingAt t = h) ∧ (t / max 1 h.spacing % 32 = own) ∧ (pickWork own (h.queued.filter (fun w => w.2.1 != 1 || w.1 % 32 != own)) [] = w)) ∧
    (∃ (s : State), (s.dev.hbm.chans.any (fun p => p.2.held) = true)) ∧
    (∃ (ws : List MemReq) (a : List MemReq) (b : List MemReq) (p : MemReq) (q : MemReq), ((ws.map (fun r => r.id)).Nodup) ∧ (ws = a ++ p :: b) ∧ (q ∈ b) ∧ (p.meets q = true)) ∧
    (∃ (c : Nat) (mib : Nat) (h : Chan) (s : State), (s.dev.chan c = h) ∧ (h.sweeping = true) ∧ (mib < 1152)) ∧
    (∃ (c : Nat) (mib : Nat) (h : Chan) (s : State) (d : Device), (s.dev.chan c = h) ∧ (h.sweeping = true) ∧ (1152 ≤ mib) ∧ (s.dev.setChan c { h with sweeping := false, sweep := max h.sweep 1152 } = d)) ∧
    (∃ (v : Word) (s : State), s.dev.Up ∧ (bits v 1 0 = 1)) ∧
    (∃ (v : Word) (s : State), s.dev.Up ∧ (bits v 1 0 = 2)) ∧
    (∃ (v : Word) (s : State), s.dev.Up ∧ (bits v 1 0 = 3)) := by
  refine ⟨?_, ?_, ?_, ?_, ?_, ?_, ?_, ?_, ?_, ?_, ?_, ?_, ?_, ?_, ?_, ?_, ?_, ?_⟩
  · refine ⟨(64), default, (.failed 0), ?_⟩
    apply Exists.intro
    refine ⟨(wS wDev), ?_⟩
    exact pair_snd _ _ (by decide +kernel)
  · refine ⟨(64), default, (.clean), ?_⟩
    apply Exists.intro
    refine ⟨(wS { wDev with hbm := wChans { (default : Chan) with held := true } }), ?_, ?_⟩
    · exact pair_bool _ (by decide +kernel)
    · decide +kernel
  · refine ⟨(2 ^ 60), default, (.clean), ?_⟩
    apply Exists.intro
    refine ⟨(wS wDev), ?_, ?_, ?_⟩
    · exact pair_bool _ (by decide +kernel)
    · decide +kernel
    · decide +kernel
  · refine ⟨(64), 0, default, (.lanes []), (.clean), ?_⟩
    apply Exists.intro
    refine ⟨(wS wDev), ?_⟩
    apply Exists.intro
    apply Exists.intro
    refine ⟨?_, ?_, ?_, ?_⟩
    · exact pair_bool _ (by decide +kernel)
    · decide +kernel
    · decide +kernel
    · exact pair_eta _
  · exact ⟨([]), (64), (.add64 1), (wS wDev), by decide +kernel⟩
  · refine ⟨(64), (.add64 1), (64), ?_⟩
    apply Exists.intro
    refine ⟨(wDev), ?_, ?_, ?_, ?_⟩
    · decide +kernel
    · decide +kernel
    · decide +kernel
    · exact rfl
  · exact ⟨(wMem), (wS { wDev with hbm := { wDev.hbm with waiting := [wMem] } }), by decide +kernel⟩
  · exact ⟨(64), (0), (wS (wDev.setReg Reg.MEM_CTRL (-1))), by decide +kernel⟩
  · exact ⟨(wS wDev), by decide +kernel⟩
  · exact ⟨({ wDev.setReg Reg.MEM_MAINT 1 with hbm := { wDev.hbm with spacing := 1000 } }), by decide +kernel⟩
  · refine ⟨(1000), (1), ([]), ?_⟩
    apply Exists.intro
    apply Exists.intro
    refine ⟨(wS { wDev.setReg Reg.MEM_MAINT 1 with hbm := { wDev.hbm with spacing := 1000, announced := [1000], queued := [(32, 0, 0)] } }), ?_, ?_, ?_, ?_, ?_, ?_⟩
    · decide +kernel
    · decide +kernel
    · decide +kernel
    · exact rfl
    · decide +kernel
    · exact rfl
  · exact ⟨(wS { wDev with hbm := wChans { (default : Chan) with held := true } }), by decide +kernel⟩
  · exact ⟨([wMem, { wMem with id := 5, cls := 0 }]), ([]), ([{ wMem with id := 5, cls := 0 }]), (wMem), ({ wMem with id := 5, cls := 0 }), by decide +kernel⟩
  · refine ⟨(511), (7), ?_⟩
    apply Exists.intro
    refine ⟨(wS { wDev with hbm := wChans { (default : Chan) with sweeping := true } }), ?_, ?_, ?_⟩
    · exact rfl
    · decide +kernel
    · decide +kernel
  · refine ⟨(511), (1152), ?_⟩
    apply Exists.intro
    refine ⟨(wS { wDev with hbm := wChans { (default : Chan) with sweeping := true } }), ?_⟩
    apply Exists.intro
    refine ⟨?_, ?_, ?_, ?_⟩
    · exact rfl
    · decide +kernel
    · decide +kernel
    · exact rfl
  · exact ⟨(1), (wS wDev), by decide +kernel⟩
  · exact ⟨(2), (wS wDev), by decide +kernel⟩
  · exact ⟨(3), (wS wDev), by decide +kernel⟩

/-- What `Obligations.MapSlotsAndFrames` supposes can be met. -/
theorem witness_MapSlotsAndFrames :
    (∃ (v : Word) (s : State) (d : Device), s.dev.Up ∧ (bit v 0 = false) ∧ (s.dev.setReg Reg.MEM_MAINT (pack [(0, 1, bits v 0 0), (16, 16, max 100 (bits v 31 16)), (32, 16, bits v 47 32)]) = d)) ∧
    (∃ (v : Word) (s : State) (d : Device), s.dev.Up ∧ (bit v 0 = true) ∧ (s.dev.fld Reg.MEM_MAINT Fld.MEM_MAINT_EN = 0) ∧ (s.dev.setReg Reg.MEM_MAINT (pack [(0, 1, bits v 0 0), (16, 16, max 100 (bits v 31 16)), (32, 16, bits v 47 32)]) = d)) ∧
    (∃ (s : State) (m : Fin 2), s.dev.Up ∧ (s.dev.hbm.followed m = true)) ∧
    (∃ (v : Word) (s : State) (m : Fin 2) (h : Hbm), s.dev.Up ∧ (s.dev.hbm.followed m = false) ∧ ((s.dev.hbm.slot m).k ≤ 32) ∧ (s.dev.hbm.retiredInUse (s.dev.hbm.slot m).excl = false) ∧ (s.dev.hbm.setSlot m { s.dev.hbm.slot m with seed := bits v 31 0, valid := bit v 63 } = h)) ∧
    (∃ (v : Word) (s : State) (f : Nat) (m : Nat) (d : Device) (c : Nat), s.dev.Up ∧ (s.dev.setReg Reg.MEM_FRAME_CMD (v &&& 0x7FF#64) = d) ∧ (bit v 63 = true) ∧ (bits v 9 0 = f) ∧ (bits v 10 10 = m) ∧ (d.convertCause f m = c) ∧ (c ≠ 0)) ∧
    (∃ (v : Word) (s : State) (f : Nat) (m : Nat) (d : Device), s.dev.Up ∧ (s.dev.setReg Reg.MEM_FRAME_CMD (v &&& 0x7FF#64) = d) ∧ (bit v 63 = true) ∧ (bits v 9 0 = f) ∧ (bits v 10 10 = m) ∧ (d.convertCause f m = 0) ∧ (memWf s.dev.hbm.mem = true)) ∧
    (∃ (s : State) (f : Nat), s.dev.Up ∧ (s.dev.hbm.converting = some f)) := by
  refine ⟨?_, ?_, ?_, ?_, ?_, ?_, ?_⟩
  · refine ⟨(0x640000), (wS wDev), ?_⟩
    apply Exists.intro
    refine ⟨?_, ?_, ?_⟩
    · decide +kernel
    · decide +kernel
    · exact rfl
  · refine ⟨(0x640001), (wS (wDev.setReg Reg.MEM_MAINT 0)), ?_⟩
    apply Exists.intro
    refine ⟨?_, ?_, ?_, ?_⟩
    · decide +kernel
    · decide +kernel
    · decide +kernel
    · exact rfl
  · exact ⟨(wS wDev), (0), by decide +kernel⟩
  · refine ⟨(7), (wS wDev), (1), ?_⟩
    apply Exists.intro
    refine ⟨?_, ?_, ?_, ?_, ?_⟩
    · decide +kernel
    · decide +kernel
    · decide +kernel
    · decide +kernel
    · exact rfl
  · refine ⟨(2 ^ 63), (wS wDev), ?_⟩
    apply Exists.intro
    apply Exists.intro
    apply Exists.intro
    apply Exists.intro
    refine ⟨?_, ?_, ?_, ?_, ?_, ?_, ?_⟩
    · decide +kernel
    · exact rfl
    · decide +kernel
    · exact rfl
    · exact rfl
    · exact rfl
    · decide +kernel
  · refine ⟨(2 ^ 63 + 2 ^ 10 + 3), (wS { wDev with hbm := { wDev.hbm with slot1 := { wDev.hbm.slot1 with valid := true } } }), ?_⟩
    apply Exists.intro
    apply Exists.intro
    apply Exists.intro
    refine ⟨?_, ?_, ?_, ?_, ?_, ?_, ?_⟩
    · decide +kernel
    · exact rfl
    · decide +kernel
    · exact rfl
    · exact rfl
    · decide +kernel
    · decide +kernel
  · exact ⟨(wS { wDev with hbm := { wDev.hbm with converting := some 4 } }), (4), by decide +kernel⟩

/-- What `Obligations.LinksAndNotices` supposes can be met. -/
theorem witness_LinksAndNotices :
    (∃ (l : LinkNo) (f : Flit) (x : Link) (s : State) (d : Device) (e : Device), (s.dev.link l = x) ∧ (x.isUp = true) ∧ ((if f.corrected then (s.dev.setLink l { x with lastRx := s.dev.now }).count (Reg.LNK_FEC_CORR l) 1 else s.dev.setLink l { x with lastRx := s.dev.now }) = d) ∧ (f.crcOk = false) ∧ ((d.setLink l { x with lastRx := s.dev.now, replays := x.replays + 1 }).emit (.replayRequest l x.rxSeq) = e)) ∧
    (∃ (l : LinkNo) (f : Flit) (x : Link) (s : State) (d : Device), (s.dev.link l = x) ∧ (x.isUp = true) ∧ ((if f.corrected then (s.dev.setLink l { x with lastRx := s.dev.now }).count (Reg.LNK_FEC_CORR l) 1 else s.dev.setLink l { x with lastRx := s.dev.now }) = d) ∧ (f.crcOk = true) ∧ (f.seq ≠ x.rxSeq)) ∧
    (∃ (l : LinkNo) (f : Flit) (x : Link) (s : State) (d : Device) (e : Device), (s.dev.link l = x) ∧ (x.isUp = true) ∧ ((if f.corrected then (s.dev.setLink l { x with lastRx := s.dev.now }).count (Reg.LNK_FEC_CORR l) 1 else s.dev.setLink l { x with lastRx := s.dev.now }) = d) ∧ (f.crcOk = true) ∧ (f.seq = x.rxSeq) ∧ ((((d.setLink l { x with lastRx := s.dev.now, rxSeq := x.rxSeq + 1, replays := 0, rxPart := x.rxPart + 1 }).count (Reg.LNK_FLITS_RX l) 1).emit (.ack l (x.rxSeq + 1))).trailer l f = e)) ∧
    (∃ (l : LinkNo) (x : Link) (s : State), (s.dev.link l = x) ∧ (x.isUp = true)) ∧
    (∃ (l : LinkNo) (x : Link) (s : State), (s.dev.link l = x) ∧ (x.lastRx + max 1 (s.dev.fld Reg.LNK_CTRL Fld.LNK_CTRL_HB_TIMEOUT) * 1000 ≤ s.dev.now)) ∧
    (∃ (l : LinkNo) (x : Link) (s : State), (s.dev.link l = x) ∧ (s.dev.now < x.lastRx + max 1 (s.dev.fld Reg.LNK_CTRL Fld.LNK_CTRL_HB_TIMEOUT) * 1000)) ∧
    (∃ (l : LinkNo) (x : Link) (s : State), (s.dev.link l = x)) ∧
    (∃ (l : LinkNo) (x : Link) (s : State) (half : Bool) (version : Nat) (peer : Nat) (depths : List Nat) (t : Tbl Nat) (y : Link) (d : Device), (s.dev.link l = x) ∧ (x.isUp = false) ∧ (s.dev.linksOn = true) ∧ (s.dev.spanRing (l / 8) = true) ∧ ((s.dev.splice (l / 16)).bypassOpen = true) ∧ (half = false ∨ version ≠ 1) ∧ ((List.range 8).map (fun k => (k, depths.getD k 0)) = t) ∧ (y = { (default : Link) with state := 2, half := half, version := if version = 1 then 1 else 2, fec := version != 1 && s.dev.fld (Reg.SPN_CFG (l / 8)) Fld.SPN_CFG_FEC == 1, cause := x.cause, peer := peer % 2 ^ 18, depth := t, credit := t, lastRx := s.dev.now, lastTx := s.dev.now }) ∧ (s.dev.setLink l y = d)) ∧
    (∃ (l : LinkNo) (x : Link) (depths : List Nat) (peer : Nat) (r : TrainResult) (s : State), r ∈ [TrainResult.up true 1 depths peer, .noLanes, .gap] ∧ s.dev.link l = x ∧ (x.isUp = false) ∧ s.dev.linksOn = true ∧ s.dev.spanRing (l / 8) = true ∧ (s.dev.splice (l / 16)).bypassOpen = true) ∧
    (∃ (l : LinkNo) (x : Link) (s : State), (s.dev.link l = x) ∧ (x.isUp = false) ∧ (s.dev.linksOn = true) ∧ (s.dev.spanRing (l / 8) = true) ∧ ((s.dev.splice (l / 16)).bypassOpen = true)) ∧
    (∃ (l : LinkNo) (s : State), ((s.dev.link l).version ≠ 1)) ∧
    (∃ (l : LinkNo) (s : State), ((s.dev.link l).version = 1)) ∧
    (∃ (rtag : Nat) (s : State), (s.dev.colTag rtag = none)) ∧
    (∃ (rtag : Nat) (s : State) (e : Nat) (c : Collective) (dev : Nat), (s.dev.colTag rtag = some (e, c, dev))) ∧
    (∃ (source : Nat) (rtag : Nat) (dim : Nat) (h : HeldPkt) (d : Device) (p : Packet) (s : State), ([0, 1, 2].findSome? (fun i => ((s.dev.splice i).holding.find? (fun h => h.packet.src == source && h.packet.rtag == rtag && isRequest h.packet && !h.noticed && decide (h.since + 10000 < s.dev.now))).map (fun h => (i, h))) = some (dim, h)) ∧ (s.dev.setSplice dim { s.dev.splice dim with holding := (s.dev.splice dim).holding.map (fun (k : HeldPkt) => if k.packet.src == source && k.packet.rtag == rtag && isRequest k.packet && !k.noticed && decide (k.since + 10000 < s.dev.now) then { k with noticed := true } else k) } = d) ∧ (s.dev.note 0x0B source h.packet.ctx rtag [] = p) ∧ (source = s.dev.devnum)) ∧
    (∃ (source : Nat) (rtag : Nat) (dim : Nat) (h : HeldPkt) (d : Device) (p : Packet) (s : State) (l : Nat), ([0, 1, 2].findSome? (fun i => ((s.dev.splice i).holding.find? (fun h => h.packet.src == source && h.packet.rtag == rtag && isRequest h.packet && !h.noticed && decide (h.since + 10000 < s.dev.now))).map (fun h => (i, h))) = some (dim, h)) ∧ (s.dev.setSplice dim { s.dev.splice dim with holding := (s.dev.splice dim).holding.map (fun (k : HeldPkt) => if k.packet.src == source && k.packet.rtag == rtag && isRequest k.packet && !k.noticed && decide (k.since + 10000 < s.dev.now) then { k with noticed := true } else k) } = d) ∧ (s.dev.note 0x0B source h.packet.ctx rtag [] = p) ∧ (source ≠ s.dev.devnum) ∧ (s.dev.firstLink p = some l) ∧ ((s.dev.link l).version ≠ 1)) ∧
    (∃ (source : Nat) (rtag : Nat) (dim : Nat) (h : HeldPkt) (d : Device) (p : Packet) (s : State) (l : Nat), ([0, 1, 2].findSome? (fun i => ((s.dev.splice i).holding.find? (fun h => h.packet.src == source && h.packet.rtag == rtag && isRequest h.packet && !h.noticed && decide (h.since + 10000 < s.dev.now))).map (fun h => (i, h))) = some (dim, h)) ∧ (s.dev.setSplice dim { s.dev.splice dim with holding := (s.dev.splice dim).holding.map (fun (k : HeldPkt) => if k.packet.src == source && k.packet.rtag == rtag && isRequest k.packet && !k.noticed && decide (k.since + 10000 < s.dev.now) then { k with noticed := true } else k) } = d) ∧ (s.dev.note 0x0B source h.packet.ctx rtag [] = p) ∧ (source ≠ s.dev.devnum) ∧ (s.dev.firstLink p = some l) ∧ ((s.dev.link l).version = 1)) ∧
    (∃ (d : Device) (rtag : Nat) (r : Remote), (d.remotes = [r]) ∧ (r.rtag = rtag) ∧ (r.graced = false)) := by
  refine ⟨?_, ?_, ?_, ?_, ?_, ?_, ?_, ?_, ?_, ?_, ?_, ?_, ?_, ?_, ?_, ?_, ?_, ?_⟩
  · refine ⟨(0), ({ wFlit 1 with crcOk := false }), (wLinkUp), (wS (wLinks (wLinkUp))), ?_⟩
    apply Exists.intro
    apply Exists.intro
    refine ⟨?_, ?_, ?_, ?_, ?_⟩
    · decide +kernel
    · decide +kernel
    · exact rfl
    · decide +kernel
    · exact rfl
  · refine ⟨(0), (wFlit 1), (wLinkUp), (wS (wLinks (wLinkUp))), ?_⟩
    apply Exists.intro
    refine ⟨?_, ?_, ?_, ?_, ?_⟩
    · decide +kernel
    · decide +kernel
    · exact rfl
    · decide +kernel
    · decide +kernel
  · refine ⟨(0), (wFlit 0), (wLinkUp), (wS (wLinks (wLinkUp))), ?_⟩
    apply Exists.intro
    apply Exists.intro
    refine ⟨?_, ?_, ?_, ?_, ?_, ?_⟩
    · decide +kernel
    · decide +kernel
    · exact rfl
    · decide +kernel
    · decide +kernel
    · exact rfl
  · exact ⟨(0), (wLinkUp), (wS (wLinks (wLinkUp))), by decide +kernel⟩
  · exact ⟨(0), ({ wLinkUp with lastRx := 0 }), (wS (wLinks ({ wLinkUp with lastRx := 0 }))), by decide +kernel⟩
  · exact ⟨(0), (wLinkUp), (wS (wLinks (wLinkUp))), by decide +kernel⟩
  · exact ⟨(0), (wLinkUp), (wS (wLinks (wLinkUp))), by decide +kernel⟩
  · refine ⟨(0), (default), (wS (wRing { wSplice 2 0 with bypassOpen := true })), (false), (2), 0, ([4]), ?_⟩
    apply Exists.intro
    apply Exists.intro
    apply Exists.intro
    refine ⟨?_, ?_, ?_, ?_, ?_, ?_, ?_, ?_, ?_⟩
    · decide +kernel
    · decide +kernel
    · decide +kernel
    · decide +kernel
    · decide +kernel
    · decide +kernel
    · exact rfl
    · exact rfl
    · exact rfl
  · exact ⟨0, default, [], 0, .gap, wS (wRing { wSplice 2 0 with bypassOpen := true }), by decide +kernel⟩
  · exact ⟨(0), (default), (wS (wRing { wSplice 2 0 with bypassOpen := true })), by decide +kernel⟩
  · exact ⟨(0), (wS (wLinks wLinkUp)), by decide +kernel⟩
  · exact ⟨(0), (wS (wLinks { wLinkUp with version := 1 })), by decide +kernel⟩
  · exact ⟨(7), (wS wDev), by decide +kernel⟩
  · exact ⟨(7), (wS (wCols .running { (default : ColEngine) with running := [{ wCol with tags := [(7, 3)] }] })), (0), ({ wCol with tags := [(7, 3)] }), (3), by decide +kernel⟩
  · refine ⟨(3), (6), (0), (wHeld), ?_⟩
    apply Exists.intro
    apply Exists.intro
    refine ⟨(wS { wRing { wSplice 2 0 with members := 0xF,  holding := [wHeld] } with devnum := 3 }), ?_, ?_, ?_, ?_⟩
    · decide +kernel
    · exact rfl
    · exact rfl
    · decide +kernel
  · refine ⟨(0x3000), (6), (0), (⟨0, false, true, { wPkt 1 with src := 0x3000 }⟩), ?_⟩
    apply Exists.intro
    apply Exists.intro
    refine ⟨(wS { wRing { wSplice 2 0 with members := 0xF,  holding := [⟨0, false, true, { wPkt 1 with src := 0x3000 }⟩] } with links := (List.range 48).map (fun l => (l, { wLinkUp with version := 2, txq := [⟨{ wPkt 0x0B with src := 0, dst := 0x3000, vc := 1 }, 0, none⟩] })) }), ?_⟩
    apply Exists.intro
    refine ⟨?_, ?_, ?_, ?_, ?_, ?_⟩
    · decide +kernel
    · exact rfl
    · exact rfl
    · decide +kernel
    · exact opt_some _ (by decide +kernel)
    · decide +kernel
  · refine ⟨(0x3000), (6), (0), (⟨0, false, true, { wPkt 1 with src := 0x3000 }⟩), ?_⟩
    apply Exists.intro
    apply Exists.intro
    refine ⟨(wS { wRing { wSplice 2 0 with members := 0xF,  holding := [⟨0, false, true, { wPkt 1 with src := 0x3000 }⟩] } with links := (List.range 48).map (fun l => (l, { wLinkUp with version := 1, txq := [⟨{ wPkt 0x0B with src := 0, dst := 0x3000, vc := 1 }, 0, none⟩] })) }), ?_⟩
    apply Exists.intro
    refine ⟨?_, ?_, ?_, ?_, ?_, ?_⟩
    · decide +kernel
    · exact rfl
    · exact rfl
    · decide +kernel
    · exact opt_some _ (by decide +kernel)
    · decide +kernel
  · exact ⟨({ wDev with remotes := [wRemote 1] }), (6), (wRemote 1), by decide +kernel⟩

/-- What `Obligations.CreditsCoverWhatIsSent` supposes can be met. -/
theorem witness_CreditsCoverWhatIsSent :
    (∃ (x : Link) (t : TxPkt) (n : Nat), (n ≤ x.room (chanKey t.packet))) ∧
    (∃ (x : Link) (t : TxPkt) (n : Nat) (k : Nat), (n ≤ x.room (chanKey t.packet)) ∧ (k ≠ chanKey t.packet)) ∧
    (∃ (x : Link) (t : TxPkt) (n : Nat), (n ≤ x.room (chanKey t.packet)) ∧ (0 < n)) ∧
    (∃ (x : Link) (t : TxPkt) (n : Nat), (n ≤ x.room (chanKey t.packet))) ∧
    (∃ (x : Link) (t : TxPkt) (n : Nat), (n ≤ x.room (chanKey t.packet)) ∧ (flitsOf t.packet - t.sent ≤ n)) := by
  refine ⟨?_, ?_, ?_, ?_, ?_⟩
  · exact ⟨(wLinkUp), (wTx), (9), by decide +kernel⟩
  · exact ⟨(wLinkUp), (wTx), (9), (3), by decide +kernel⟩
  · exact ⟨(wLinkUp), (wTx), (1), by decide +kernel⟩
  · exact ⟨(wLinkUp), (wTx), (0), by decide +kernel⟩
  · exact ⟨(wLinkUp), (wTx), (9), by decide +kernel⟩

/-- What `Obligations.SplicesOfRings` supposes can be met. -/
theorem witness_SplicesOfRings :
    (∃ (dim : Dim) (x : Splice) (s : State), (s.dev.splice dim = x) ∧ s.dev.Up ∧ (s.dev.splicing = false) ∧ (x.state = 0) ∧ (s.dev.ringUsed dim = true) ∧ (s.dev.devnumValid = true) ∧ (s.dev.linksOn = true)) ∧
    (∃ (dim : Dim) (x : Splice) (s : State), (s.dev.splice dim = x) ∧ s.dev.Up ∧ (s.dev.splicing = false) ∧ (x.state = 2)) ∧
    (∃ (dim : Dim) (x : Splice) (s : State) (plus : Bool), (s.dev.splice dim = x) ∧ (s.dev.linksOn = true) ∧ (x.state ≠ 2 ∨ x.holds plus = true ∨ s.dev.fls.restarting = true)) ∧
    (∃ (dim : Dim) (x : Splice) (s : State) (plus : Bool) (y : Splice), (s.dev.splice dim = x) ∧ (s.dev.linksOn = true) ∧ (x.state = 2) ∧ (x.holds plus = false) ∧ (s.dev.fls.restarting = false) ∧ (y = (if plus then { x with holdPlus := true, owesPlus := true } else { x with holdMinus := true, owesMinus := true }))) ∧
    (∃ (dim : Dim) (x : Splice) (s : State), (s.dev.splice dim = x) ∧ (x.state = 1) ∧ (x.step = 1) ∧ (x.heldMinus = true)) ∧
    (∃ (dim : Dim) (x : Splice) (s : State), (s.dev.splice dim = x) ∧ (x.state = 3) ∧ (x.step = 1) ∧ (x.heldPlus = true)) ∧
    (∃ (dim : Dim) (x : Splice) (s : State), (s.dev.splice dim = x) ∧ (x.state = 1) ∧ (x.step = 3)) ∧
    (∃ (dim : Dim) (x : Splice) (s : State) (old : Bool) (d : Device), (s.dev.splice dim = x) ∧ (x.state = 1) ∧ (x.step = 4) ∧ (s.dev.ringUp dim = false) ∧ (x.since + s.dev.trainLimit dim old ≤ s.dev.now) ∧ ((List.range 16).foldl (fun d k => d.setLink (16 * dim + k) { d.link (16 * dim + k) with state := 0 }) ((s.dev.setSplice dim { x with bypassOpen := false }).ringDown dim 6) = d)) ∧
    (∃ (dim : Dim) (x : Splice) (s : State) (busyAt : Nat), (s.dev.splice dim = x) ∧ (x.state = 1) ∧ (x.step = 1) ∧ (x.since ≤ busyAt) ∧ (busyAt + 10000000 ≤ s.dev.now)) ∧
    (∃ (dim : Dim) (x : Splice) (s : State), (s.dev.splice dim = x) ∧ (x.state = 1) ∧ (x.step = 1) ∧ (x.since + 1000000000 ≤ s.dev.now) ∧ (x.silences = 0)) ∧
    (∃ (dim : Dim) (x : Splice) (s : State), (s.dev.splice dim = x) ∧ (x.state = 1) ∧ (x.step = 1) ∧ (x.since + 1000000000 ≤ s.dev.now) ∧ (x.silences ≠ 0)) ∧
    (∃ (dim : Dim) (x : Splice) (s : State) (m : Word) (d : Device) (e : Device) (g : Device), (s.dev.splice dim = x) ∧ (x.state ≠ 0) ∧ (s.dev.ringUsed dim = true) ∧ (x.state = 1 → x.step = 4 ∧ s.dev.ringUp dim = true ∧ m.toNat.testBit (coordOf s.dev.devnum dim) = true) ∧ (s.dev.setSplice dim { x with members := BitVec.ofNat 64 (m.toNat % 2 ^ s.dev.ringSize dim), holdPlus := false, holdMinus := false, owesPlus := false, owesMinus := false, holding := [] } = d) ∧ ((d.upLinks (spanNo dim true) ++ d.upLinks (spanNo dim false)).foldl (fun d l => d.setLink l { d.link l with state := 2 }) d = e) ∧ ((if x.state = 1 then e.endSplice dim 2 1 else if x.state = 3 && x.step = 3 then e.endSplice dim 0 1 else e) = g)) := by
  refine ⟨?_, ?_, ?_, ?_, ?_, ?_, ?_, ?_, ?_, ?_, ?_, ?_⟩
  · exact ⟨(0), (wSplice 0 0), (wS (wRing (wSplice 0 0))), by decide +kernel⟩
  · exact ⟨(0), (wSplice 2 0), (wS (wRing (wSplice 2 0))), by decide +kernel⟩
  · exact ⟨(0), (wSplice 0 0), (wS (wRing (wSplice 0 0))), (true), by decide +kernel⟩
  · refine ⟨(0), (wSplice 2 0), (wS (wRing (wSplice 2 0))), (false), ?_⟩
    apply Exists.intro
    refine ⟨?_, ?_, ?_, ?_, ?_, ?_⟩
    · decide +kernel
    · decide +kernel
    · decide +kernel
    · decide +kernel
    · decide +kernel
    · exact rfl
  · exact ⟨(0), ({ wSplice 1 1 with heldMinus := true }), (wS (wRing ({ wSplice 1 1 with heldMinus := true }))), by decide +kernel⟩
  · exact ⟨(0), ({ wSplice 3 1 with heldPlus := true }), (wS (wRing ({ wSplice 3 1 with heldPlus := true }))), by decide +kernel⟩
  · exact ⟨(0), (wSplice 1 3), (wS (wRing (wSplice 1 3))), by decide +kernel⟩
  · refine ⟨(0), (wSplice 1 4), (wS (wRing (wSplice 1 4))), false, ?_⟩
    apply Exists.intro
    refine ⟨?_, ?_, ?_, ?_, ?_, ?_⟩
    · decide +kernel
    · decide +kernel
    · decide +kernel
    · decide +kernel
    · decide +kernel
    · exact rfl
  · exact ⟨(0), (wSplice 1 1), (wS (wRing (wSplice 1 1))), 0, by decide +kernel⟩
  · exact ⟨(0), (wSplice 1 1), (wS (wRing (wSplice 1 1))), by decide +kernel⟩
  · exact ⟨(0), ({ wSplice 1 1 with silences := 1 }), (wS (wRing ({ wSplice 1 1 with silences := 1 }))), by decide +kernel⟩
  · refine ⟨(0), (wSplice 2 0), (wS (wRing (wSplice 2 0))), (5), ?_⟩
    apply Exists.intro
    apply Exists.intro
    apply Exists.intro
    refine ⟨?_, ?_, ?_, ?_, ?_, ?_, ?_⟩
    · decide +kernel
    · decide +kernel
    · decide +kernel
    · decide +kernel
    · exact rfl
    · exact rfl
    · exact rfl

/-- What `Obligations.CollectivesRun` supposes can be met. -/
theorem witness_CollectivesRun :
    (∃ (j : Nat) (k : Job) (s : State) (n : Nat) (c : Collective), (s.dev.job? j = some k) ∧ (k.cmd.opc = 0x25) ∧ (k.state ≠ .done) ∧ (k.waitFrom = none) ∧ (s.dev.clk.stage = .thatched) ∧ (s.dev.colOf? (fun c => c.job == j) = some (n, c))) ∧
    (∃ (j : Nat) (k : Job) (s : State), (s.dev.job? j = some k) ∧ (k.cmd.opc = 0x25) ∧ (k.state ≠ .done) ∧ (k.waitFrom = none) ∧ (s.dev.clk.stage = .thatched) ∧ (s.dev.colOf? (fun c => c.job == j) = none) ∧ (s.dev.colPick k = none) ∧ (k.state = .issued)) ∧
    (∃ (e : ColNo) (j : Nat) (k : Job) (s : State), (s.dev.job? j = some k) ∧ (k.cmd.opc = 0x25) ∧ (k.state ≠ .done) ∧ (k.waitFrom = none) ∧ (s.dev.clk.stage = .thatched) ∧ (s.dev.colOf? (fun c => c.job == j) = none) ∧ (s.dev.colPick k = some e.val) ∧ (k.state = .issued) ∧ ([0, 1].findSome? (fun m => (s.dev.colEng m).armed.find? (fun a => a.col.job == j)) = none)) ∧
    (∃ (e : ColNo) (j : Nat) (k : Job) (s : State) (a : Armed), (s.dev.job? j = some k) ∧ (k.cmd.opc = 0x25) ∧ (k.state ≠ .done) ∧ (k.waitFrom = none) ∧ (s.dev.clk.stage = .thatched) ∧ (s.dev.colOf? (fun c => c.job == j) = none) ∧ (s.dev.colPick k = some e.val) ∧ ([0, 1].findSome? (fun m => (s.dev.colEng m).armed.find? (fun a => a.col.job == j)) = some a) ∧ (a.started = false) ∧ (a.trig ≤ a.count) ∧ ((s.dev.colEng e).running.length < 16)) ∧
    (∃ (p : Packet) (s : State), (s.dev.serves = true) ∧ (p.kind = 0x0A) ∧ (p.payload = [1])) ∧
    (∃ (p : Packet) (q : Packet) (s : State), (s.dev.serves = true) ∧ (p.kind ≠ 0x0A) ∧ ({ p with kind := 0x09, via := none } = q) ∧ (s.dev.colSeen q = true)) ∧
    (∃ (p : Packet) (q : Packet) (s : State), (s.dev.serves = true) ∧ (p.kind ≠ 0x0A) ∧ ({ p with kind := 0x09, via := none } = q) ∧ (s.dev.colSeen q = false) ∧ (s.dev.colFor q = none)) ∧
    (∃ (p : Packet) (q : Packet) (s : State) (n : Nat) (c : Collective), (s.dev.serves = true) ∧ (p.kind ≠ 0x0A) ∧ ({ p with kind := 0x09, via := none } = q) ∧ (s.dev.colSeen q = false) ∧ (s.dev.colFor q = some (n, c))) ∧
    (∃ (e : ColNo) (id : Nat) (i : Nat) (c : Collective) (s : State), ((s.dev.colEng e).running.find? (fun c => c.colid == id && decide (c.lastProgress + max 1 (s.dev.fld Reg.COL_CTRL Fld.COL_CTRL_TIMEOUT) * 1000000 ≤ s.dev.now)) = some c) ∧ ((List.range c.nmem).find? (fun i => c.missing (s.dev.placeIn c) i) = some i)) ∧
    (∃ (p : Packet) (q : Packet) (s : State), (s.dev.serves = true) ∧ ({ p with kind := 0x0D } = q) ∧ (s.dev.colFor q = none)) ∧
    (∃ (p : Packet) (q : Packet) (s : State) (n : Nat) (c : Collective), (s.dev.serves = true) ∧ ({ p with kind := 0x0D } = q) ∧ (s.dev.colFor q = some (n, c))) ∧
    (∃ (elem : Nat) (w : Nat) (n : Nat) (i : Nat) (a : List Byte) (b : List Byte), (elem < 2) ∧ ((if elem = 0 then 4 else 8) = w) ∧ (a.length = n * w) ∧ (b.length = n * w) ∧ (i < n)) := by
  refine ⟨?_, ?_, ?_, ?_, ?_, ?_, ?_, ?_, ?_, ?_, ?_, ?_⟩
  · exact ⟨(0), (wColJob .running), (wS (wCols .running { (default : ColEngine) with running := [wCol] })), (0), (wCol), by decide +kernel⟩
  · exact ⟨(0), (wColJob .issued), (wS { wCols .issued default with colq := 3 }), by decide +kernel⟩
  · exact ⟨(0), (0), (wColJob .issued), (wS (wCols .issued default)), by decide +kernel⟩
  · exact ⟨(0), (0), (wColJob .issued), (wS (wCols .issued { (default : ColEngine) with armed := [⟨0, 1, 2, 2, false, wCol⟩] })), (⟨0, 1, 2, 2, false, wCol⟩), by decide +kernel⟩
  · exact ⟨({ wPkt 0x0A with payload := [1] }), (wS wDev), by decide +kernel⟩
  · refine ⟨(wPkt 9), ?_⟩
    apply Exists.intro
    refine ⟨(wS (wCols .running { (default : ColEngine) with seen := [colKey (wPkt 9)] })), ?_, ?_, ?_, ?_⟩
    · decide +kernel
    · decide +kernel
    · exact rfl
    · decide +kernel
  · refine ⟨(wPkt 9), ?_⟩
    apply Exists.intro
    refine ⟨(wS wDev), ?_, ?_, ?_, ?_, ?_⟩
    · decide +kernel
    · decide +kernel
    · exact rfl
    · decide +kernel
    · decide +kernel
  · refine ⟨(wPkt 9), ?_⟩
    apply Exists.intro
    refine ⟨(wS (wCols .running { (default : ColEngine) with running := [wCol] })), (0), (wCol), ?_, ?_, ?_, ?_, ?_⟩
    · decide +kernel
    · decide +kernel
    · exact rfl
    · decide +kernel
    · decide +kernel
  · exact ⟨(0), (0), (0), (wCol), (wS (wCols .running { (default : ColEngine) with running := [wCol] })), by decide +kernel⟩
  · refine ⟨(wPkt 0x0D), ?_⟩
    apply Exists.intro
    refine ⟨(wS wDev), ?_, ?_, ?_⟩
    · decide +kernel
    · exact rfl
    · decide +kernel
  · refine ⟨(wPkt 0x0D), ?_⟩
    apply Exists.intro
    refine ⟨(wS (wCols .running { (default : ColEngine) with running := [wCol] })), (0), (wCol), ?_, ?_, ?_⟩
    · decide +kernel
    · exact rfl
    · decide +kernel
  · exact ⟨(0), (4), (2), (1), (List.replicate 8 1), (List.replicate 8 2), by decide +kernel⟩

/-- What `Obligations.TrussesAreTestedAndQuarantined` supposes can be met. -/
theorem witness_TrussesAreTestedAndQuarantined :
    (∃ (t : Truss) (v : Word) (u : Nat) (d : Device) (s : State), s.dev.Up ∧ (bits v 4 0 = u) ∧ (s.dev.setReg Reg.FLT_TRUSS_CMD (v &&& 0xFF#64) = d) ∧ ((s.dev.susp t).qpend = true) ∧ (s.dev.holders t = 0) ∧ ((s.dev.trussSt t).state = 1)) ∧
    (∃ (t : Truss) (v : Word) (u : Nat) (d : Device) (s : State), s.dev.Up ∧ (bits v 4 0 = u) ∧ (s.dev.setReg Reg.FLT_TRUSS_CMD (v &&& 0xFF#64) = d) ∧ ((s.dev.susp t).qpend = true) ∧ (s.dev.fld Reg.FLT_CTRL Fld.FLT_CTRL_QWAIT ≠ 0) ∧ ((s.dev.susp t).qpendAt + s.dev.fld Reg.FLT_CTRL Fld.FLT_CTRL_QWAIT * 10 ^ 9 ≤ s.dev.now)) ∧
    (∃ (v : Word) (u : Nat) (d : Device) (s : State), s.dev.Up ∧ (bits v 4 0 = u) ∧ (s.dev.setReg Reg.FLT_TRUSS_CMD (v &&& 0xFF#64) = d) ∧ (bits v 7 5 = 1) ∧ (bit v 63 = true) ∧ (u < 16) ∧ ((d.trussSt u).state = 1) ∧ ((d.susp u).testWait = false)) ∧
    (∃ (v : Word) (u : Nat) (d : Device) (s : State), s.dev.Up ∧ (bits v 4 0 = u) ∧ (s.dev.setReg Reg.FLT_TRUSS_CMD (v &&& 0xFF#64) = d) ∧ (bits v 7 5 = 2) ∧ (bit v 63 = true) ∧ (u < 16) ∧ ((d.trussSt u).state = 1) ∧ (d.holders u ≠ 0)) ∧
    (∃ (v : Word) (u : Nat) (d : Device) (s : State), s.dev.Up ∧ (bits v 4 0 = u) ∧ (s.dev.setReg Reg.FLT_TRUSS_CMD (v &&& 0xFF#64) = d) ∧ (bits v 7 5 = 2) ∧ (bit v 63 = true) ∧ (u < 16) ∧ ((d.trussSt u).state = 1) ∧ (d.holders u = 0) ∧ ((d.susp u).testWait = false)) ∧
    (∃ (v : Word) (u : Nat) (d : Device) (s : State), s.dev.Up ∧ (bits v 4 0 = u) ∧ (s.dev.setReg Reg.FLT_TRUSS_CMD (v &&& 0xFF#64) = d) ∧ (bits v 7 5 = 3) ∧ (bit v 63 = true) ∧ (u < 16) ∧ ((d.trussSt u).state = 1) ∧ ((d.susp u).qpend = false) ∧ (d.fls.restarting = false)) ∧
    (∃ (v : Word) (u : Nat) (d : Device) (s : State), s.dev.Up ∧ (bits v 4 0 = u) ∧ (s.dev.setReg Reg.FLT_TRUSS_CMD (v &&& 0xFF#64) = d) ∧ (bits v 7 5 = 4) ∧ (bit v 63 = true) ∧ (u < 16) ∧ ((d.trussSt u).state = 4) ∧ ((d.susp u).testWait = false)) ∧
    (∃ (v : Word) (u : Nat) (d : Device) (s : State), s.dev.Up ∧ (bits v 4 0 = u) ∧ (s.dev.setReg Reg.FLT_TRUSS_CMD (v &&& 0xFF#64) = d) ∧ (bits v 7 5 = 4) ∧ (bit v 63 = true) ∧ (16 ≤ u) ∧ (u < 18)) ∧
    (∃ (t : Truss) (v : Word) (u : Nat) (d : Device) (s : State) (pass : Bool) (unit : Nat) (us : Nat) (e : Device), s.dev.Up ∧ (bits v 4 0 = u) ∧ (s.dev.setReg Reg.FLT_TRUSS_CMD (v &&& 0xFF#64) = d) ∧ ((s.dev.susp t).testing = true) ∧ (s.dev.endTest t pass unit us = e) ∧ (e.fls.imageJob = none)) ∧
    (∃ (t : Truss) (v : Word) (u : Nat) (d : Device) (s : State) (pass : Bool) (unit : Nat) (us : Nat) (e : Device) (r : FlsReq), s.dev.Up ∧ (bits v 4 0 = u) ∧ (s.dev.setReg Reg.FLT_TRUSS_CMD (v &&& 0xFF#64) = d) ∧ ((s.dev.susp t).testing = true) ∧ (s.dev.endTest t pass unit us = e) ∧ (e.fls.imageJob = some (t.val, r))) ∧
    (∃ (t : Nat), (t < 16)) ∧
    (∃ (t : Nat) (u : Nat), (t < 16) ∧ (u ≠ t)) := by
  refine ⟨?_, ?_, ?_, ?_, ?_, ?_, ?_, ?_, ?_, ?_, ?_, ?_⟩
  · refine ⟨(0), (0), ?_⟩
    apply Exists.intro
    apply Exists.intro
    refine ⟨(wS (wSusp { (default : Suspect) with qpend := true })), ?_, ?_, ?_, ?_, ?_, ?_⟩
    · decide +kernel
    · exact rfl
    · exact rfl
    · decide +kernel
    · decide +kernel
    · decide +kernel
  · refine ⟨(0), (0), ?_⟩
    apply Exists.intro
    apply Exists.intro
    refine ⟨(wS ((wSusp { (default : Suspect) with qpend := true }).setReg Reg.FLT_CTRL (5 * 2 ^ 32))), ?_, ?_, ?_, ?_, ?_, ?_⟩
    · decide +kernel
    · exact rfl
    · exact rfl
    · decide +kernel
    · decide +kernel
    · decide +kernel
  · refine ⟨((2 ^ 63 + 32 * 1 + 0)), ?_⟩
    apply Exists.intro
    apply Exists.intro
    refine ⟨(wS (wSusp default)), ?_, ?_, ?_, ?_, ?_, ?_, ?_, ?_⟩
    · decide +kernel
    · exact rfl
    · exact rfl
    · decide +kernel
    · decide +kernel
    · decide +kernel
    · decide +kernel
    · decide +kernel
  · refine ⟨((2 ^ 63 + 32 * 2 + 0)), ?_⟩
    apply Exists.intro
    apply Exists.intro
    refine ⟨(wS wDev), ?_, ?_, ?_, ?_, ?_, ?_, ?_, ?_⟩
    · decide +kernel
    · exact rfl
    · exact rfl
    · decide +kernel
    · decide +kernel
    · decide +kernel
    · decide +kernel
    · decide +kernel
  · refine ⟨((2 ^ 63 + 32 * 2 + 0)), ?_⟩
    apply Exists.intro
    apply Exists.intro
    refine ⟨(wS (wSusp default)), ?_, ?_, ?_, ?_, ?_, ?_, ?_, ?_, ?_⟩
    · decide +kernel
    · exact rfl
    · exact rfl
    · decide +kernel
    · decide +kernel
    · decide +kernel
    · decide +kernel
    · decide +kernel
    · decide +kernel
  · refine ⟨((2 ^ 63 + 32 * 3 + 0)), ?_⟩
    apply Exists.intro
    apply Exists.intro
    refine ⟨(wS (wSusp default)), ?_, ?_, ?_, ?_, ?_, ?_, ?_, ?_, ?_⟩
    · decide +kernel
    · exact rfl
    · exact rfl
    · decide +kernel
    · decide +kernel
    · decide +kernel
    · decide +kernel
    · decide +kernel
    · decide +kernel
  · refine ⟨((2 ^ 63 + 32 * 4 + 0)), ?_⟩
    apply Exists.intro
    apply Exists.intro
    refine ⟨(wS { wDev with truss := [(0, { wTruss with state := 4 })] }), ?_, ?_, ?_, ?_, ?_, ?_, ?_, ?_⟩
    · decide +kernel
    · exact rfl
    · exact rfl
    · decide +kernel
    · decide +kernel
    · decide +kernel
    · decide +kernel
    · decide +kernel
  · refine ⟨((2 ^ 63 + 32 * 4 + 17)), ?_⟩
    apply Exists.intro
    apply Exists.intro
    refine ⟨(wS (wSusp default)), ?_, ?_, ?_, ?_, ?_, ?_, ?_⟩
    · decide +kernel
    · exact rfl
    · exact rfl
    · decide +kernel
    · decide +kernel
    · decide +kernel
    · decide +kernel
  · refine ⟨(0), (0), ?_⟩
    apply Exists.intro
    apply Exists.intro
    refine ⟨(wS (wSusp { (default : Suspect) with testing := true })), false, 0, 0, ?_⟩
    apply Exists.intro
    refine ⟨?_, ?_, ?_, ?_, ?_, ?_⟩
    · decide +kernel
    · exact rfl
    · exact rfl
    · decide +kernel
    · exact rfl
    · decide +kernel
  · refine ⟨(0), (0), ?_⟩
    apply Exists.intro
    apply Exists.intro
    refine ⟨(wS { wSusp { (default : Suspect) with testing := true } with fls := { wDev.fls with imageJob := some (0, .mailbox true) } }), false, 0, 0, ?_⟩
    apply Exists.intro
    refine ⟨(.mailbox true), ?_, ?_, ?_, ?_, ?_, ?_⟩
    · decide +kernel
    · exact rfl
    · exact rfl
    · decide +kernel
    · exact rfl
    · decide +kernel
  · exact ⟨(15), by decide +kernel⟩
  · exact ⟨(15), (14), by decide +kernel⟩

/-- What `Obligations.WeightsAndReplicas` supposes can be met. -/
theorem witness_WeightsAndReplicas :
    (∃ (v : Word) (e : Device) (s : State), s.dev.Up ∧ (Device.loadRegions { s.dev.setReg Reg.REP_WREG_N (v &&& 0x1FF#64) with regionsDue := true } = .ok e)) ∧
    (∃ (n : Nat) (i : Nat) (r : Region) (e : Device) (bs : List Byte) (s : State), (s.dev.regionsDue = false) ∧ (s.dev.regions.find? (fun p => p.1 == n) = some (i, r)) ∧ (s.dev.fld Reg.REP_CTRL Fld.REP_CTRL_WSCAN_EN ≠ 0) ∧ (s.dev.clk.stage = .thatched) ∧ (s.dev.tableBad = false) ∧ (s.dev.scanWaits r = false) ∧ (s.dev.tryLoad deviceAccount r.ctx r.base r.len = .ok (e, some bs))) ∧
    (∃ (r : Region) (bs : List Byte), (r.refValid = false ∨ weightDigest bs = r.ref)) ∧
    (∃ (g : GroupNo) (v : Word) (d : Device) (s : State), s.dev.Up ∧ (s.dev.setReg (Reg.REP_CFG g) (v &&& 0x7FFFFFF#64) = d) ∧ (bit v 0 = false)) ∧
    (∃ (g : GroupNo) (v : Word) (d : Device) (s : State), s.dev.Up ∧ (s.dev.setReg (Reg.REP_CFG g) (v &&& 0x7FFFFFF#64) = d) ∧ (bit v 0 = true)) ∧
    (∃ (g : GroupNo) (e : Device) (s : State), (s.dev.groupOn g = true) ∧ (s.dev.clk.stage = .thatched) ∧ ((s.dev.group g).loaded = true) ∧ ((s.dev.group g).due = none) ∧ ((s.dev.group g).expelled = false) ∧ (s.dev.resolveEpoch g = .ok e)) ∧
    (∃ (g : GroupNo) (s : State), s.dev.Up ∧ ((s.dev.group g).expelled = true)) := by
  refine ⟨?_, ?_, ?_, ?_, ?_, ?_, ?_⟩
  · refine ⟨(0), ?_⟩
    apply Exists.intro
    refine ⟨(wS wDev), ?_, ?_⟩
    · decide +kernel
    · exact att_ok _ (by decide +kernel)
  · refine ⟨(2), (2), ({ (default : Region) with ctx := 1, len := 64 }), ?_⟩
    apply Exists.intro
    apply Exists.intro
    refine ⟨(wS { wDev with regions := [(2, { (default : Region) with ctx := 1, len := 64 })] }), ?_, ?_, ?_, ?_, ?_, ?_, ?_⟩
    · decide +kernel
    · decide +kernel
    · decide +kernel
    · decide +kernel
    · decide +kernel
    · decide +kernel
    · exact att_some _ (by decide +kernel) (by decide +kernel)
  · exact ⟨({ (default : Region) with ctx := 1, len := 64 }), [], by decide +kernel⟩
  · refine ⟨(7), (0), ?_⟩
    apply Exists.intro
    refine ⟨(wS wDev), ?_, ?_, ?_⟩
    · decide +kernel
    · exact rfl
    · decide +kernel
  · refine ⟨(7), (1), ?_⟩
    apply Exists.intro
    refine ⟨(wS wDev), ?_, ?_, ?_⟩
    · decide +kernel
    · exact rfl
    · decide +kernel
  · refine ⟨(7), ?_⟩
    apply Exists.intro
    refine ⟨(wS { wDev.setReg (Reg.REP_CFG 7) 1 with groups := [(7, { (default : Group) with loaded := true })] }), ?_, ?_, ?_, ?_, ?_, ?_⟩
    · decide +kernel
    · decide +kernel
    · decide +kernel
    · decide +kernel
    · decide +kernel
    · exact att_ok _ (by decide +kernel)
  · exact ⟨(7), (wS { wDev with groups := [(7, { (default : Group) with expelled := true })] }), by decide +kernel⟩

/-- What `Obligations.VotesFollowTheMajority` supposes can be met. -/
theorem witness_VotesFollowTheMajority :
    (∃ (n : Nat) (own : Word) (ds : List Word), (ds.length ≤ n) ∧ (own ∈ ds)) ∧
    (∃ (n : Nat) (own : Word) (ds : List Word), (ds.length ≤ n) ∧ (own ∈ ds) ∧ (∀ v ∈ ds, v = own)) ∧
    (∃ (n : Nat) (own : Word) (ds : List Word), (ds.length ≤ n) ∧ (own ∈ ds) ∧ (n < 2 * ds.count own) ∧ (∃ v, v ∈ ds ∧ v ≠ own)) := by
  refine ⟨?_, ?_, ?_⟩
  · exact ⟨(3), (1), ([1]), by decide +kernel⟩
  · refine ⟨(3), (1), ([1, 1]), ?_, ?_, ?_⟩
    · decide +kernel
    · decide +kernel
    · intro v hv; simpa using hv
  · refine ⟨(3), (1), ([1, 1, 2]), ?_, ?_, ?_, ?_⟩
    · decide +kernel
    · decide +kernel
    · decide +kernel
    · exact ⟨2, by decide, by decide⟩

/-- What `Obligations.MeterCommands` supposes can be met. -/
theorem witness_MeterCommands :
    (∃ (d : Device) (s : State), (s.dev.meter.lastTick + 1000 ≤ s.dev.now) ∧ (Device.trussIds.foldl (fun d t => d.tickTruss t) s.dev.fillAll = d)) ∧
    (∃ (ns : Nat) (rs : List MeterRec) (s : State), (s.dev.fld Reg.MTR_CTRL Fld.MTR_CTRL_PERIOD * 1000000 = ns) ∧ (ns ≠ 0) ∧ (s.dev.meter.lastPeriod / ns < s.dev.now / ns) ∧ (((List.range 64).filter (fun c => (s.dev.ctx c).state != 0) ++ [deviceAccount]).map (fun a => s.dev.acctRec 0 a 0) = rs)) ∧
    (∃ (s : State), s.dev.Up ∧ (s.dev.meterEn = true) ∧ (67 ≤ s.dev.meterFree)) ∧
    (∃ (s : State), s.dev.Up ∧ (s.dev.meterEn = false ∨ s.dev.meterFree < 67)) ∧
    (∃ (s : State) (v : Word), s.dev.Up ∧ ((s.dev.reg Reg.MTR_RING_CONS).toNat ≤ v.toNat) ∧ (v.toNat ≤ (s.dev.reg Reg.MTR_RING_PROD).toNat)) ∧
    (∃ (d : Device) (s : State), (s.dev.fld Reg.MTR_CTRL Fld.MTR_CTRL_AUDIT_EN ≠ 0) ∧ (s.dev.meter.lastAudit + 1000000 ≤ s.dev.now) ∧ ({ s.dev with meter := { s.dev.meter with lastAudit := s.dev.now } } = d) ∧ (Device.trussIds.foldl (fun n t => n + (s.dev.trussSt t).defect) 0 = 0) ∧ (s.dev.gut.foldl (fun n p => n + p.2.defect) 0 = 0) ∧ ((List.range quantities).foldl (fun n q => n + s.dev.meter.defect q) 0 = 0)) := by
  refine ⟨?_, ?_, ?_, ?_, ?_, ?_⟩
  · apply Exists.intro
    refine ⟨(wS wDev), ?_, ?_⟩
    · decide +kernel
    · exact rfl
  · refine ⟨(1000000000), ?_⟩
    apply Exists.intro
    refine ⟨(wS wDev), ?_, ?_, ?_, ?_⟩
    · decide +kernel
    · decide +kernel
    · decide +kernel
    · exact rfl
  · exact ⟨(wS (wDev.setReg Reg.MTR_RING_CFG 0x18)), by decide +kernel⟩
  · exact ⟨(wS wDev), by decide +kernel⟩
  · exact ⟨(wS wDev), (0), by decide +kernel⟩
  · apply Exists.intro
    refine ⟨(wS { wDev with truss := [] }), ?_, ?_, ?_, ?_, ?_, ?_⟩
    · decide +kernel
    · decide +kernel
    · exact rfl
    · decide +kernel
    · decide +kernel
    · decide +kernel

/-- What `Obligations.RetirementEmptiesTheAccount` supposes can be met. -/
theorem witness_RetirementEmptiesTheAccount :
    (∃ (d : Device) (e : Device) (c : Nat), (d.meterFinal c = some e)) ∧
    (∃ (a : Nat) (q : Nat), (a < 64) ∧ (q < 32)) ∧
    (∃ (a : Nat) (q : Nat) (p : Nat), (a < 64) ∧ (q < 32) ∧ (p ≠ q)) ∧
    (∃ (a : Nat) (q : Nat) (b : Nat) (p : Nat), (a < 64) ∧ (q < 32) ∧ (p < 32) ∧ ((b, p) ≠ (a, q)) ∧ ((b, p) ≠ (64, q))) ∧
    (∃ (m : Meter) (a : Nat) (q : Nat), (a < 64) ∧ (q < 32) ∧ ((tget m.acct (32 * 64 + q) default).whole + ((tget m.acct (32 * 64 + q) default).frac + (tget m.acct (32 * a + q) default).frac) / quantityUnit q ≤ counterMax)) := by
  refine ⟨?_, ?_, ?_, ?_, ?_⟩
  · refine ⟨(wDev.setReg Reg.MTR_RING_CFG 0x18), ?_⟩
    apply Exists.intro
    refine ⟨(1), ?_⟩
    exact opt_some _ (by decide +kernel)
  · exact ⟨(63), (31), by decide +kernel⟩
  · exact ⟨(63), (31), (0), by decide +kernel⟩
  · exact ⟨(63), (31), (64), (30), by decide +kernel⟩
  · exact ⟨(wDev.meter), (63), (31), by decide +kernel⟩

/-- What `Obligations.MeteringConserves` supposes can be met. -/
theorem witness_MeteringConserves :
    (∃ (m : Meter) (a : Nat) (q : Nat) (amt : Nat) (p : Nat), (a < 65) ∧ (q < 32) ∧ (p < 32) ∧ ((tget m.acct (32 * a + q) default).frac < quantityUnit q) ∧ m.HasRoom q (amt / quantityUnit q + 1) ∧ m.Conserves p) ∧
    (∃ (m : Meter) (a : Nat) (q : Nat) (p : Nat), (a < 64) ∧ (q < 32) ∧ (p < 32) ∧ (∀ b, (tget m.acct (32 * b + q) default).frac < quantityUnit q) ∧ m.HasRoom q ((tget m.acct (32 * a + q) default).whole + 1) ∧ m.Conserves p) := by
  refine ⟨?_, ?_⟩
  · refine ⟨(wDev.meter), (64), (31), (5), (31), ?_, ?_, ?_, ?_, ?_, ?_⟩
    · decide +kernel
    · decide +kernel
    · decide +kernel
    · decide +kernel
    · exact room_empty rfl rfl rfl (by decide +kernel)
    · decide +kernel
  · refine ⟨(wDev.meter), (63), (31), (31), ?_, ?_, ?_, ?_, ?_, ?_⟩
    · decide +kernel
    · decide +kernel
    · decide +kernel
    · exact fun _ => show 0 < quantityUnit 31 by decide +kernel
    · exact room_empty rfl rfl rfl (by decide +kernel)
    · decide +kernel

/-- What `Obligations.FlashingCommands` supposes can be met. -/
theorem witness_FlashingCommands :
    (∃ (a : Nat) (d : Device) (s : State), ((wordAt s.dev.fls.mboxArgs 0).toNat = a) ∧ (s.dev.flsTaken = d) ∧ s.dev.MailboxRuns 0x01) ∧
    (∃ (a : Nat) (d : Device) (s : State), ((wordAt s.dev.fls.mboxArgs 0).toNat = a) ∧ (s.dev.flsTaken = d) ∧ s.dev.MailboxRuns 0x04 ∧ (a ≤ 1)) ∧
    (∃ (a : Nat) (d : Device) (s : State), ((wordAt s.dev.fls.mboxArgs 0).toNat = a) ∧ (s.dev.flsTaken = d) ∧ s.dev.MailboxRuns 0x04 ∧ (1 < a)) ∧
    (∃ (a : Nat) (d : Device) (s : State), ((wordAt s.dev.fls.mboxArgs 0).toNat = a) ∧ (s.dev.flsTaken = d) ∧ s.dev.MailboxRuns 0x0A ∧ (600 ≤ a)) ∧
    (∃ (a : Nat) (d : Device) (s : State), ((wordAt s.dev.fls.mboxArgs 0).toNat = a) ∧ (s.dev.flsTaken = d) ∧ s.dev.MailboxRuns 0x0A ∧ (a < 600)) ∧
    (∃ (a : Nat) (d : Device) (s : State), ((wordAt s.dev.fls.mboxArgs 0).toNat = a) ∧ (s.dev.flsTaken = d) ∧ s.dev.MailboxRuns 0x10) ∧
    (∃ (a : Nat) (d : Device) (s : State), ((wordAt s.dev.fls.mboxArgs 0).toNat = a) ∧ (s.dev.flsTaken = d) ∧ s.dev.MailboxRuns 0x06) ∧
    (∃ (h : MgmtHdr) (a : Word) (d : Device) (s : State), (s.dev.mgmtIn h = d) ∧ s.dev.MgmtRuns h 0x09 ∧ (a = 0)) ∧
    (∃ (h : MgmtHdr) (a : Word) (d : Device) (s : State), (s.dev.mgmtIn h = d) ∧ s.dev.MgmtRuns h 0x09 ∧ (a = 1)) ∧
    (∃ (h : MgmtHdr) (a : Word) (d : Device) (s : State), (s.dev.mgmtIn h = d) ∧ s.dev.MgmtRuns h 0x09 ∧ (a = 2)) ∧
    (∃ (h : MgmtHdr) (a : Word) (d : Device) (s : State), (s.dev.mgmtIn h = d) ∧ s.dev.MgmtRuns h 0x0B ∧ (a.toNat < 2 ^ 18)) ∧
    (∃ (h : MgmtHdr) (a : Word) (d : Device) (s : State), (s.dev.mgmtIn h = d) ∧ s.dev.MgmtRuns h 0x0C ∧ (bit a 0 = false)) ∧
    (∃ (h : MgmtHdr) (a : Word) (w : Bool) (d : Device) (s : State), (s.dev.mgmtIn h = d) ∧ s.dev.MgmtRuns h 0x0C ∧ (bit a 0 = true) ∧ (w = true)) ∧
    (∃ (h : MgmtHdr) (d : Device) (s : State), (s.dev.mgmtIn h = d) ∧ s.dev.MgmtRuns h 0x0D) ∧
    (∃ (h : MgmtHdr) (a : Word) (c : Word) (d : Device) (s : State), (s.dev.mgmtIn h = d) ∧ s.dev.MgmtRuns h 0x0E ∧ (a.toNat ≤ 7) ∧ (bit c 0 = true)) ∧
    (∃ (h : MgmtHdr) (a : Word) (c : Word) (d : Device) (s : State), (s.dev.mgmtIn h = d) ∧ s.dev.MgmtRuns h 0x0E ∧ (a.toNat ≤ 7) ∧ (bit c 0 = false)) ∧
    (∀ (m : Memory),
      ((wS (wStaged2 wTarp m)).dev.mgmtIn wHdr).imageCause 1 none (memRead (wStaged2 wTarp m).fls.staging 0 (readLen (imgLimit 1) 4096)) = none →
      ∃ (h : MgmtHdr) (b : Word) (c : Word) (d : Device) (bs : List Byte) (s : State), (s.dev.mgmtIn h = d) ∧ s.dev.MgmtRuns h 0x03 ∧ (b.toNat + readLen (imgLimit 1) c.toNat ≤ stagingSize) ∧ (memRead d.fls.staging b.toNat (readLen (imgLimit 1) c.toNat) = bs) ∧ (d.imageCause 1 none bs = none) ∧ (d.fls.bank = 0)) ∧
    (∀ (m : Memory),
      ((wS (wStaged2 wTarp m)).dev.mgmtIn wHdr).fwSigned (memRead (wStaged2 wTarp m).fls.staging 0 4096) = true →
      ((wS (wStaged2 wTarp m)).dev.mgmtIn wHdr).fls.svnFw ≤ Config.fwSvn (memRead (wStaged2 wTarp m).fls.staging 0 4096) % 64 →
      ∃ (h : MgmtHdr) (b : Word) (c : Word) (d : Device) (bs : List Byte) (s : State), (s.dev.mgmtIn h = d) ∧ s.dev.MgmtRuns h 0x05 ∧ (c.toNat ≤ fwLimit) ∧ (b.toNat + c.toNat ≤ stagingSize) ∧ (memRead d.fls.staging b.toNat c.toNat = bs) ∧ (d.fwSigned bs = true) ∧ (d.fls.svnFw ≤ Config.fwSvn bs % 64) ∧ (d.fls.fwbank = 0)) ∧
    (∀ (m : Memory),
      ((wS (wRecord m)).dev.mgmtIn wHdr).recordSigned (memRead (wRecord m).fls.staging 0 keyRecordBytes) = true →
      ∃ (h : MgmtHdr) (a : Word) (b : Word) (d : Device) (bs : List Byte) (s : State) (k : Nat), (s.dev.mgmtIn h = d) ∧ (b.toNat + keyRecordBytes ≤ stagingSize) ∧ (memRead d.fls.staging b.toNat keyRecordBytes = bs) ∧ (d.fls.nonce = some (BitVec.ofNat 32 (imgField bs 8 4))) ∧ (d.recordSigned bs = true) ∧ s.dev.MgmtRuns h 0x07 ∧ (a.toNat = k) ∧ (k ≤ 3) ∧ (d.fls.enrolled.toNat.testBit k = false)) ∧
    (∀ (m : Memory),
      ((wS (wRecord m)).dev.mgmtIn wHdr).recordSigned (memRead (wRecord m).fls.staging 0 keyRecordBytes) = true →
      ∃ (h : MgmtHdr) (a : Word) (b : Word) (d : Device) (bs : List Byte) (s : State) (k : Nat), (s.dev.mgmtIn h = d) ∧ (b.toNat + keyRecordBytes ≤ stagingSize) ∧ (memRead d.fls.staging b.toNat keyRecordBytes = bs) ∧ (d.fls.nonce = some (BitVec.ofNat 32 (imgField bs 8 4))) ∧ (d.recordSigned bs = true) ∧ s.dev.MgmtRuns h 0x08 ∧ (a.toNat = k) ∧ (k ≤ 3) ∧ (d.fls.ownerOnly = false)) ∧
    (∀ (m : Memory),
      ((wS (wRecord m)).dev.mgmtIn wHdr).recordSigned (memRead (wRecord m).fls.staging 0 keyRecordBytes) = true →
      (slice (memRead (wRecord m).fls.staging 0 keyRecordBytes) 16 516).all (· == 0) = true →
      ∃ (h : MgmtHdr) (b : Word) (d : Device) (bs : List Byte) (s : State), (s.dev.mgmtIn h = d) ∧ (b.toNat + keyRecordBytes ≤ stagingSize) ∧ (memRead d.fls.staging b.toNat keyRecordBytes = bs) ∧ (d.fls.nonce = some (BitVec.ofNat 32 (imgField bs 8 4))) ∧ (d.recordSigned bs = true) ∧ s.dev.MgmtRuns h 0x0F ∧ ((slice bs 16 516).all (· == 0) = true)) ∧
    (∀ (m : Memory),
      ((wS (wStaged2 wDev m)).dev.mgmtIn wHdr).imageCause 2 (some 0) (memRead (wStaged2 wDev m).fls.staging 0 (readLen (imgLimit 2) 4096)) = none →
      ∃ (h : MgmtHdr) (a : Word) (b : Word) (c : Word) (d : Device) (bs : List Byte) (s : State) (t : Nat) (f : Device), (s.dev.mgmtIn h = d) ∧ s.dev.MgmtRuns h 0x02 ∧ (a.toNat = t) ∧ (t ≤ 15) ∧ (b.toNat + readLen (imgLimit 2) c.toNat ≤ stagingSize) ∧ (memRead d.fls.staging b.toNat (readLen (imgLimit 2) c.toNat) = bs) ∧ (d.imageCause 2 (some t) bs = none) ∧ (((d.setTruss t { d.trussSt t with state := 2 }).resetTruss t).applyImage t (imgObject bs) = f)) ∧
    (∃ (w : Bool) (d : Device) (s : State), (s.dev.flsOn = true) ∧ (s.dev.beginRestart (if w then 2 else 1) = d) ∧ (d.fls.failTimes.length < 3)) ∧
    (∃ (w : Bool) (d : Device) (s : State), (s.dev.flsOn = true) ∧ (s.dev.beginRestart (if w then 2 else 1) = d) ∧ (3 ≤ d.fls.failTimes.length)) ∧
    (∃ (s : State), (s.dev.fls.restarting = true) ∧ (s.dev.restartLate = true)) ∧
    (∃ (s : State), (s.dev.fls.restarting = true) ∧ (s.dev.restartLate = false) ∧ (s.dev.fls.restartCause ≠ 3)) ∧
    (∃ (v : Word) (s : State), s.dev.Up ∧ ((s.dev.reg Reg.FLT_LOG_CONS).toNat ≤ v.toNat) ∧ (v.toNat ≤ (s.dev.reg Reg.FLT_LOG_PROD).toNat)) ∧
    (∃ (v : Word) (s : State), s.dev.Up ∧ (v.toNat < (s.dev.reg Reg.FLT_LOG_CONS).toNat ∨ (s.dev.reg Reg.FLT_LOG_PROD).toNat < v.toNat)) := by
  refine ⟨?_, ?_, ?_, ?_, ?_, ?_, ?_, ?_, ?_, ?_, ?_, ?_, ?_, ?_, ?_, ?_, ?_, ?_, ?_, ?_, ?_, ?_, ?_, ?_, ?_, ?_, ?_, ?_⟩
  · apply Exists.intro
    apply Exists.intro
    refine ⟨(wS (wMbox 1 0)), ?_, ?_, ?_⟩
    · exact rfl
    · exact rfl
    · decide +kernel
  · apply Exists.intro
    apply Exists.intro
    refine ⟨(wS (wMbox 4 1)), ?_, ?_, ?_, ?_⟩
    · exact rfl
    · exact rfl
    · decide +kernel
    · decide +kernel
  · apply Exists.intro
    apply Exists.intro
    refine ⟨(wS (wMbox 4 2)), ?_, ?_, ?_, ?_⟩
    · exact rfl
    · exact rfl
    · decide +kernel
    · decide +kernel
  · apply Exists.intro
    apply Exists.intro
    refine ⟨(wS (wMbox 10 600)), ?_, ?_, ?_, ?_⟩
    · exact rfl
    · exact rfl
    · decide +kernel
    · decide +kernel
  · apply Exists.intro
    apply Exists.intro
    refine ⟨(wS (wMbox 10 599)), ?_, ?_, ?_, ?_⟩
    · exact rfl
    · exact rfl
    · decide +kernel
    · decide +kernel
  · apply Exists.intro
    apply Exists.intro
    refine ⟨(wS (wMbox 16 0)), ?_, ?_, ?_⟩
    · exact rfl
    · exact rfl
    · decide +kernel
  · apply Exists.intro
    apply Exists.intro
    refine ⟨(wS (wMbox 6 0)), ?_, ?_, ?_⟩
    · exact rfl
    · exact rfl
    · decide +kernel
  · refine ⟨(wHdr), (0), ?_⟩
    apply Exists.intro
    refine ⟨(wS (wTarp)), ?_, ?_, ?_⟩
    · exact rfl
    · decide +kernel
    · decide +kernel
  · refine ⟨(wHdr), (1), ?_⟩
    apply Exists.intro
    refine ⟨(wS (wTarp)), ?_, ?_, ?_⟩
    · exact rfl
    · decide +kernel
    · decide +kernel
  · refine ⟨(wHdr), (2), ?_⟩
    apply Exists.intro
    refine ⟨(wS (wTarp)), ?_, ?_, ?_⟩
    · exact rfl
    · decide +kernel
    · decide +kernel
  · refine ⟨(wHdr), (5), ?_⟩
    apply Exists.intro
    refine ⟨(wS (wTarp)), ?_, ?_, ?_⟩
    · exact rfl
    · decide +kernel
    · decide +kernel
  · refine ⟨(wHdr), (0), ?_⟩
    apply Exists.intro
    refine ⟨(wS (wTarp)), ?_, ?_, ?_⟩
    · exact rfl
    · decide +kernel
    · decide +kernel
  · refine ⟨(wHdr), (1), (true), ?_⟩
    apply Exists.intro
    refine ⟨(wS (wTarp)), ?_, ?_, ?_, ?_⟩
    · exact rfl
    · decide +kernel
    · decide +kernel
    · decide +kernel
  · refine ⟨(wHdr), ?_⟩
    apply Exists.intro
    refine ⟨(wS (wTarp)), ?_, ?_⟩
    · exact rfl
    · decide +kernel
  · refine ⟨(wHdr), (7), (1), ?_⟩
    apply Exists.intro
    refine ⟨(wS (wTarp)), ?_, ?_, ?_, ?_⟩
    · exact rfl
    · decide +kernel
    · decide +kernel
    · decide +kernel
  · refine ⟨(wHdr), (7), (0), ?_⟩
    apply Exists.intro
    refine ⟨(wS (wTarp)), ?_, ?_, ?_, ?_⟩
    · exact rfl
    · decide +kernel
    · decide +kernel
    · decide +kernel
  · intro m hv
    refine ⟨(wHdr), (0), (4096), ?_⟩
    apply Exists.intro
    apply Exists.intro
    refine ⟨(wS (wStaged2 wTarp m)), ?_, ?_, ?_, ?_, ?_, ?_⟩
    · exact rfl
    · exact of_decide_eq_true rfl
    · decide +kernel
    · exact rfl
    · exact hv
    · exact rfl
  · intro m hv hn
    refine ⟨(wHdr), (0), (4096), ?_⟩
    apply Exists.intro
    apply Exists.intro
    refine ⟨(wS (wStaged2 wTarp m)), ?_, ?_, ?_, ?_, ?_, ?_, ?_, ?_⟩
    · exact rfl
    · exact of_decide_eq_true rfl
    · decide +kernel
    · decide +kernel
    · exact rfl
    · exact hv
    · exact hn
    · exact rfl
  · intro m hv
    refine ⟨(wHdr), (3), (0), ?_⟩
    apply Exists.intro
    apply Exists.intro
    refine ⟨(wS (wRecord m)), (3), ?_, ?_, ?_, ?_, ?_, ?_, ?_, ?_, ?_⟩
    · exact rfl
    · decide +kernel
    · exact rfl
    · exact rfl
    · exact hv
    · exact of_decide_eq_true rfl
    · decide +kernel
    · decide +kernel
    · show wDev.fls.enrolled.toNat.testBit 3 = false; decide +kernel
  · intro m hv
    refine ⟨(wHdr), (3), (0), ?_⟩
    apply Exists.intro
    apply Exists.intro
    refine ⟨(wS (wRecord m)), (3), ?_, ?_, ?_, ?_, ?_, ?_, ?_, ?_, ?_⟩
    · exact rfl
    · decide +kernel
    · exact rfl
    · exact rfl
    · exact hv
    · exact of_decide_eq_true rfl
    · decide +kernel
    · decide +kernel
    · exact rfl
  · intro m hv hz
    refine ⟨(wHdr), (0), ?_⟩
    apply Exists.intro
    apply Exists.intro
    refine ⟨(wS (wRecord m)), ?_, ?_, ?_, ?_, ?_, ?_, ?_⟩
    · exact rfl
    · decide +kernel
    · exact rfl
    · exact rfl
    · exact hv
    · exact of_decide_eq_true rfl
    · exact hz
  · intro m hv
    refine ⟨(wHdr), (0), (0), (4096), ?_⟩
    apply Exists.intro
    apply Exists.intro
    refine ⟨(wS (wStaged2 wDev m)), (0), ?_⟩
    apply Exists.intro
    refine ⟨?_, ?_, ?_, ?_, ?_, ?_, ?_, ?_⟩
    · exact rfl
    · exact of_decide_eq_true rfl
    · decide +kernel
    · decide +kernel
    · decide +kernel
    · exact rfl
    · exact hv
    · exact rfl
  · refine ⟨(true), ?_⟩
    apply Exists.intro
    refine ⟨(wS wDev), ?_, ?_, ?_⟩
    · decide +kernel
    · exact rfl
    · decide +kernel
  · refine ⟨(false), ?_⟩
    apply Exists.intro
    refine ⟨(wS { wDev with fls := { wDev.fls with failTimes := [4999999998, 4999999999] } }), ?_, ?_, ?_⟩
    · decide +kernel
    · exact rfl
    · decide +kernel
  · exact ⟨(wS { wDev with fls := { wDev.fls with restarting := true } }), by decide +kernel⟩
  · exact ⟨(wS { wDev with fls := { wDev.fls with restarting := true, restartAt := 5000000000, restartCause := 1 } }), by decide +kernel⟩
  · exact ⟨(0), (wS wDev), by decide +kernel⟩
  · exact ⟨(1), (wS wDev), by decide +kernel⟩

/-- What `Obligations.FusesOnlyGoOneWay` supposes can be met. -/
theorem witness_FusesOnlyGoOneWay :
    (∃ (r : FlsReq) (fresh : BitVec 32) (i : Instr) (s : State) (t : State), (i ∈ [.status r, .trussImage r, .imageStage r, .imageSelect r, .fwStage r, .fwActivate r, .keyEnroll r, .keyRevoke r, .svnCommit r, .plimit r, .setDevnum r, .start r, .restart r, .subscribe r, .ownerOnly r, .nonce r fresh]) ∧ (exec i s = .next t)) ∧
    (∃ (r : FlsReq) (fresh : BitVec 32) (i : Instr) (s : State) (t : State), (i ∈ [.status r, .trussImage r, .imageStage r, .imageSelect r, .fwStage r, .fwActivate r, .keyEnroll r, .keyRevoke r, .svnCommit r, .plimit r, .setDevnum r, .start r, .restart r, .subscribe r, .ownerOnly r, .nonce r fresh]) ∧ (exec i s = .next t) ∧ (s.dev.fls.ownerOnly = true)) := by
  refine ⟨?_, ?_⟩
  · refine ⟨(.mailbox true), 0, (.status (.mailbox true)), (wS wDev), ?_⟩
    apply Exists.intro
    refine ⟨?_, ?_⟩
    · exact List.mem_cons_self
    · exact rfl
  · refine ⟨(.mailbox true), 0, (.status (.mailbox true)), (wS { wDev with fls := { wDev.fls with ownerOnly := true } }), ?_⟩
    apply Exists.intro
    refine ⟨?_, ?_, ?_⟩
    · exact List.mem_cons_self
    · exact rfl
    · decide +kernel

/-- What `Obligations.ResetsOfTheDevice` supposes can be met. -/
theorem witness_ResetsOfTheDevice :
    (∃ (late : Bool) (s : State), (s.dev.clk.pwrgd = false) ∧ (s.dev.clk.resetL = false) ∧ (s.dev.clk.stage = .off) ∧ (late = false)) ∧
    (∃ (late : Bool) (s : State), (s.dev.clk.pwrgd = false) ∧ (s.dev.clk.resetL = false) ∧ (s.dev.clk.stage = .off) ∧ (late = true)) ∧
    (∃ (late : Bool) (s : State), (s.dev.clk.pwrgd = true) ∧ (s.dev.clk.resetL = false) ∧ (s.dev.clk.stage = .off) ∧ (late = false)) ∧
    (∃ (p : Bool) (r : Bool) (s : State), (s.dev.clk.pwrgd = true) ∧ (s.dev.clk.resetL = true) ∧ (p = false ∨ r = false)) ∧
    (∃ (p : Bool) (r : Bool) (s : State), (s.dev.clk.pwrgd = true) ∧ (s.dev.clk.resetL = true) ∧ (p = true) ∧ (r = true)) ∧
    (∃ (celsius : Nat) (s : State), (115 ≤ celsius) ∧ (s.dev.clk.pwrgd = true) ∧ (s.dev.clk.stage ≠ .tripped)) ∧
    (∃ (d : Device) (e : Device), ((d.links.filter (fun p => p.2.isUp)).foldl (fun d p => d.count (Reg.LNK_DOWNS p.1) 1) d = e)) := by
  refine ⟨?_, ?_, ?_, ?_, ?_, ?_, ?_⟩
  · exact ⟨false, (wS { wDev with clk := { wDev.clk with pwrgd := false, resetL := false, stage := .off } }), by decide +kernel⟩
  · exact ⟨(true), (wS { wDev with clk := { wDev.clk with pwrgd := false, resetL := false, stage := .off } }), by decide +kernel⟩
  · exact ⟨false, (wS { wDev with clk := { wDev.clk with pwrgd := true, resetL := false, stage := .off } }), by decide +kernel⟩
  · exact ⟨(true), (false), (wS wDev), by decide +kernel⟩
  · exact ⟨(true), (true), (wS wDev), by decide +kernel⟩
  · exact ⟨(115), (wS wDev), by decide +kernel⟩
  · refine ⟨(wDev), ?_⟩
    apply Exists.intro
    exact rfl

/-- What `Obligations.StartStagesAndClocks` supposes can be met. -/
theorem witness_StartStagesAndClocks :
    (∃ (d : Device) (s : State), (s.dev.clk.stage = .beforeTarp) ∧ (s.dev.clk.startKind = 3) ∧ (Device.reportStored { s.dev with clk := { s.dev.clk with stage := .tarp } } = d)) ∧
    (∃ (a : Bool) (b : Bool) (d : Device) (e : Device) (s : State), (s.dev.clk.stage = .beforeTarp) ∧ (s.dev.clk.startKind ≠ 3) ∧ (s.dev.startFirmware a b = e) ∧ (Device.reportStored ([0, 1].foldl (fun d p => d.portTarp p) { e with clk := { e.clk with stage := .tarp, counting := true, coreOk := true, linkOk := true, netOk := true } }) = d)) ∧
    (∃ (s : State), (s.dev.clk.starting = true) ∧ (s.dev.fls.restarting = false) ∧ (s.dev.clk.battenStep = 0) ∧ (s.dev.pickImage = none)) ∧
    (∀ (m : List Byte),
      (wStart m).pickImage = some (0, none) →
      ∃ (f : BattenFindings) (s : State) (bank : Nat) (bad : List Nat), (s.dev.clk.starting = true) ∧ (s.dev.fls.restarting = false) ∧ (s.dev.clk.battenStep = 0) ∧ (s.dev.pickImage = some (bank, none)) ∧ (f.clocksOk = true) ∧ (s.dev.clk.coreOk = true) ∧ (s.dev.clk.linkOk = true) ∧ (s.dev.clk.netOk = true) ∧ (f.railsOk = true) ∧ ((f.failedChannels.filter (· < 512)).eraseDups = bad) ∧ (32 < bad.length)) ∧
    (∀ (m : List Byte),
      (wStart m).pickImage = some (0, none) →
      ∃ (f : BattenFindings) (s : State) (bank : Nat) (bad : List Nat) (d : Device), (s.dev.clk.starting = true) ∧ (s.dev.fls.restarting = false) ∧ (s.dev.clk.battenStep = 0) ∧ (s.dev.pickImage = some (bank, none)) ∧ (f.clocksOk = true) ∧ (s.dev.clk.coreOk = true) ∧ (s.dev.clk.linkOk = true) ∧ (s.dev.clk.netOk = true) ∧ (f.railsOk = true) ∧ ((f.failedChannels.filter (· < 512)).eraseDups = bad) ∧ (bad.length ≤ 32) ∧ (((((s.dev.loadImage bank).retrainPorts.powerTrusses).trainHbm bad).trainSpans f.failedRings) = d)) ∧
    (∃ (failing : List Nat) (d : Device) (s : State), (s.dev.clk.stage = .batten) ∧ (((List.range 16).foldl (fun d t => d.startTest failing t) s.dev).createCtx 0 { (default : Context) with state := 1, prio := 7, lenLimit := 1000 } = d)) ∧
    (∃ (s : State) (d : Device), (s.dev.flsOn = true) ∧ (s.dev.clk.coreOk = true) ∧ (s.dev.clk.stage = .thatched) ∧ ({ s.dev with clk := { s.dev.clk with coreOk := false, counting := false, locked := 0, ridgeLock := false, loftLock := false } } = d)) ∧
    (∃ (s : State) (d : Device), (s.dev.flsOn = true) ∧ (s.dev.clk.linkOk = true) ∧ ((List.range 48).foldl (fun d l => d.goDown l 0) s.dev = d)) ∧
    (∃ (s : State), (s.dev.flsOn = true) ∧ (s.dev.clk.netOk = true)) ∧
    (∃ (s : State), (s.dev.flsOn = true)) := by
  refine ⟨?_, ?_, ?_, ?_, ?_, ?_, ?_, ?_, ?_, ?_⟩
  · apply Exists.intro
    refine ⟨(wS { wDev with clk := { wDev.clk with stage := .beforeTarp, startKind := 3 } }), ?_, ?_, ?_⟩
    · decide +kernel
    · decide +kernel
    · exact rfl
  · refine ⟨false, false, ?_⟩
    apply Exists.intro
    apply Exists.intro
    refine ⟨(wS { wDev with clk := { wDev.clk with stage := .beforeTarp, startKind := 1 } }), ?_, ?_, ?_, ?_⟩
    · decide +kernel
    · decide +kernel
    · exact rfl
    · exact rfl
  · exact ⟨(wS (wStart [])), by decide +kernel⟩
  · intro m hv
    refine ⟨(wFound (List.range 33)), (wS (wStart m)), (0), ?_⟩
    apply Exists.intro
    refine ⟨?_, ?_, ?_, ?_, ?_, ?_, ?_, ?_, ?_, ?_, ?_⟩
    · exact rfl
    · exact rfl
    · exact rfl
    · exact hv
    · exact rfl
    · exact rfl
    · exact rfl
    · exact rfl
    · exact rfl
    · exact rfl
    · decide +kernel
  · intro m hv
    refine ⟨(wFound (List.range 32)), (wS (wStart m)), (0), ?_⟩
    apply Exists.intro
    apply Exists.intro
    refine ⟨?_, ?_, ?_, ?_, ?_, ?_, ?_, ?_, ?_, ?_, ?_, ?_⟩
    · exact rfl
    · exact rfl
    · exact rfl
    · exact hv
    · exact rfl
    · exact rfl
    · exact rfl
    · exact rfl
    · exact rfl
    · exact rfl
    · decide +kernel
    · exact rfl
  · refine ⟨[], ?_⟩
    apply Exists.intro
    refine ⟨(wS { wDev with clk := { wDev.clk with stage := .batten } }), ?_, ?_⟩
    · decide +kernel
    · exact rfl
  · refine ⟨(wS wDev), ?_⟩
    apply Exists.intro
    refine ⟨?_, ?_, ?_, ?_⟩
    · decide +kernel
    · decide +kernel
    · decide +kernel
    · exact rfl
  · refine ⟨(wS wDev), ?_⟩
    apply Exists.intro
    refine ⟨?_, ?_, ?_⟩
    · decide +kernel
    · decide +kernel
    · exact rfl
  · exact ⟨(wS wDev), by decide +kernel⟩
  · exact ⟨(wS wDev), by decide +kernel⟩

/-- What `Obligations.NetworkCommands` supposes can be met. -/
theorem witness_NetworkCommands :
    (∃ (qpn : Nat) (rkey : BitVec 32) (addr : Nat) (bs : List Byte) (s : State) (d : Device), s.dev.MemoryOpen qpn rkey ∧ (bs.length ≤ rdmaMax) ∧ (s.dev.splitsEntry addr bs.length = false) ∧ ((s.dev.rdmaIn 0 qpn bs.length).hbmStore 0 0 addr bs = (d, none))) ∧
    (∃ (qpn : Nat) (rkey : BitVec 32) (addr : Nat) (bs : List Byte) (s : State), s.dev.MemoryOpen qpn rkey ∧ (bs.length ≤ rdmaMax) ∧ (s.dev.splitsEntry addr bs.length = true)) ∧
    (∃ (qpn : Nat) (rkey : BitVec 32) (addr : Nat) (bs : List Byte) (s : State) (d : Device) (n : Nat), s.dev.MemoryOpen qpn rkey ∧ (bs.length ≤ rdmaMax) ∧ (n ≤ rdmaMax) ∧ ((s.dev.rdmaIn 0 qpn 0).hbmLoad 0 0 addr n = (d, .ok bs))) ∧
    (∃ (qpn : Nat) (rkey : BitVec 32) (s : State), (s.dev.qpOn qpn = true) ∧ ((tget s.dev.qps qpn default).role ≠ roleOwner ∨ rkey ≠ s.dev.rkeyMemory)) ∧
    (∃ (qpn : Nat) (s : State) (p : PortNo) (k : RoceKind), ((tget s.dev.ports p.val default).up = true) ∧ (s.dev.qpOn qpn = true) ∧ ((tget s.dev.qps qpn default).port = p.val) ∧ (k = .atomic ∨ k = .immediate ∨ k = .sendInvalidate)) ∧
    (∃ (qpn : Nat) (s : State) (p : PortNo) (k : RoceKind), ((tget s.dev.ports p.val default).up = true) ∧ (s.dev.qpOn qpn = true) ∧ ((tget s.dev.qps qpn default).port = p.val) ∧ (k = .send) ∧ ((tget s.dev.qps qpn default).role ≠ roleClient)) ∧
    (∃ (p : PortNo) (x : Port) (s : State), (s.dev.flsOn = true) ∧ (s.dev.clk.netOk = true) ∧ (tget s.dev.ports p.val default = x) ∧ (x.up = false)) ∧
    (∃ (h : MgmtHdr) (d : Device) (s : State) (q : QpParams) (psn : Nat) (n : Nat) (x : Qp), (s.dev.mgmtIn h = d) ∧ s.dev.Admits h false ∧ (d.roceOn = true) ∧ (q.role = roleOwner) ∧ (q.mtu = 4096) ∧ (d.freeQpn = some n) ∧ (x = { port := q.port, role := q.role, ip := q.ip, remote := q.remoteQpn, psn := q.psn, ownPsn := psn % 2 ^ 24, mtu := q.mtu, retries := q.retries, rnrRetries := q.rnrRetries, timeout := q.timeout, error := false, rate := portRate, lastCnpTx := none, lastCnpRx := none, lastCut := none, lastRaise := d.now })) ∧
    (∃ (h : MgmtHdr) (d : Device) (s : State) (n : Nat) (e : Device), (s.dev.mgmtIn h = d) ∧ s.dev.Admits h false ∧ (d.roceOn = true) ∧ (thas d.qps n = true) ∧ (d.qpUsersFail n = e)) ∧
    (∃ (h : MgmtHdr) (d : Device) (s : State) (p : PortNo) (v4 : Nat) (v6 : Nat) (vlan : Nat) (pfc : Option Nat) (x : Port), (s.dev.mgmtIn h = d) ∧ s.dev.AdmitsAccess h false ∧ (x = { tget d.ports p.val default with addrSet := true, ipv4 := v4 % 2 ^ 32, ipv6 := v6 % 2 ^ 128, vlan := vlan % 2 ^ 12, pfc := pfc.map (· % 8) })) ∧
    (∃ (h : MgmtHdr) (d : Device) (s : State) (off : Nat) (bs : List Byte), (s.dev.mgmtIn h = d) ∧ s.dev.Admits h false ∧ (d.fls.restarting = false) ∧ (bs.length ≤ 1024) ∧ (off + bs.length ≤ stagingSize)) ∧
    (∃ (h : MgmtHdr) (d : Device) (s : State), (s.dev.mgmtIn h = d) ∧ s.dev.Admits h true ∧ (d.fls.restarting = true)) ∧
    (∃ (h : MgmtHdr) (d : Device) (s : State) (req : List Byte) (e : Device) (bs : List Byte), (s.dev.mgmtIn h = d) ∧ s.dev.Admits h true ∧ (d.fls.restarting = false) ∧ (d.spdm req = (e, bs))) := by
  refine ⟨?_, ?_, ?_, ?_, ?_, ?_, ?_, ?_, ?_, ?_, ?_, ?_, ?_⟩
  · refine ⟨(1), (0x22), (64), ([1]), (wS wDev), ?_⟩
    apply Exists.intro
    refine ⟨?_, ?_, ?_, ?_⟩
    · decide +kernel
    · decide +kernel
    · decide +kernel
    · exact pair_snd _ _ (by decide +kernel)
  · exact ⟨(1), (0x22), (64), ([1]), (wS (wEave default)), by decide +kernel⟩
  · refine ⟨(1), (0x22), (64), (List.replicate 8 0), (wS wDev), ?_⟩
    apply Exists.intro
    refine ⟨(8), ?_, ?_, ?_, ?_⟩
    · decide +kernel
    · decide +kernel
    · decide +kernel
    · exact exc_eq _ _ (by decide +kernel)
  · exact ⟨(2), (5), (wS wDev), by decide +kernel⟩
  · exact ⟨(1), (wS wDev), (0), (.atomic), by decide +kernel⟩
  · exact ⟨(1), (wS wDev), (0), (.send), by decide +kernel⟩
  · refine ⟨(1), ?_⟩
    apply Exists.intro
    refine ⟨(wS { wDev with ports := [(1, default)] }), ?_, ?_, ?_, ?_⟩
    · decide +kernel
    · decide +kernel
    · exact rfl
    · decide +kernel
  · refine ⟨(wHdr), ?_⟩
    apply Exists.intro
    refine ⟨(wS wDev), (wParams), (5), ?_⟩
    apply Exists.intro
    apply Exists.intro
    refine ⟨?_, ?_, ?_, ?_, ?_, ?_, ?_⟩
    · exact rfl
    · decide +kernel
    · decide +kernel
    · decide +kernel
    · decide +kernel
    · exact opt_some _ (by decide +kernel)
    · exact rfl
  · refine ⟨(wHdr), ?_⟩
    apply Exists.intro
    refine ⟨(wS wDev), (1), ?_⟩
    apply Exists.intro
    refine ⟨?_, ?_, ?_, ?_, ?_⟩
    · exact rfl
    · decide +kernel
    · decide +kernel
    · decide +kernel
    · exact rfl
  · refine ⟨(wHdr), ?_⟩
    apply Exists.intro
    refine ⟨(wS wDev), (0), (1), (2), (3), (some 1), ?_⟩
    apply Exists.intro
    refine ⟨?_, ?_, ?_⟩
    · exact rfl
    · decide +kernel
    · exact rfl
  · refine ⟨(wHdr), ?_⟩
    apply Exists.intro
    refine ⟨(wS wDev), (0), ([1]), ?_, ?_, ?_, ?_, ?_⟩
    · exact rfl
    · decide +kernel
    · decide +kernel
    · decide +kernel
    · decide +kernel
  · refine ⟨(wHdr), ?_⟩
    apply Exists.intro
    refine ⟨(wS { wDev with fls := { wDev.fls with restarting := true } }), ?_, ?_, ?_⟩
    · exact rfl
    · decide +kernel
    · decide +kernel
  · refine ⟨(wHdr), ?_⟩
    apply Exists.intro
    refine ⟨(wS wDev), ([1]), ?_⟩
    apply Exists.intro
    apply Exists.intro
    refine ⟨?_, ?_, ?_, ?_⟩
    · exact rfl
    · decide +kernel
    · decide +kernel
    · exact pair_eta _

/-- What `Obligations.CongestionControlsTheRate` supposes can be met. -/
theorem witness_CongestionControlsTheRate :
    (∃ (qpn : Nat) (q : Qp) (d : Device) (s : State), (s.dev.qpOn qpn = true) ∧ (tget s.dev.qps qpn default = q) ∧ (s.dev.count (Reg.ETH_ECN_CE q.port) 1 = d) ∧ (rested q.lastCnpTx s.dev.now = true)) ∧
    (∃ (qpn : Nat) (q : Qp) (d : Device) (s : State), (s.dev.qpOn qpn = true) ∧ (tget s.dev.qps qpn default = q) ∧ (s.dev.count (Reg.ETH_ECN_CE q.port) 1 = d) ∧ (rested q.lastCnpTx s.dev.now = false)) ∧
    (∃ (qpn : Nat) (q : Qp) (d : Device) (s : State), (s.dev.qpOn qpn = true) ∧ (tget s.dev.qps qpn default = q) ∧ (s.dev.count (Reg.ETH_CNP_RX q.port) 1 = d) ∧ (rested q.lastCut s.dev.now = true)) ∧
    (∃ (qpn : Nat) (q : Qp) (d : Device) (s : State), (s.dev.qpOn qpn = true) ∧ (tget s.dev.qps qpn default = q) ∧ (s.dev.count (Reg.ETH_CNP_RX q.port) 1 = d) ∧ (rested q.lastCut s.dev.now = false)) ∧
    (∃ (qpn : Nat) (q : Qp) (s : State), (s.dev.qpOn qpn = true) ∧ (tget s.dev.qps qpn default = q) ∧ (q.rate < portRate) ∧ (q.lastRaise + 55000 ≤ s.dev.now)) := by
  refine ⟨?_, ?_, ?_, ?_, ?_⟩
  · refine ⟨(1), ?_⟩
    apply Exists.intro
    apply Exists.intro
    refine ⟨(wS wDev), ?_, ?_, ?_, ?_⟩
    · decide +kernel
    · exact rfl
    · exact rfl
    · decide +kernel
  · refine ⟨(1), ?_⟩
    apply Exists.intro
    apply Exists.intro
    refine ⟨(wS { wDev with qps := [(1, { wQp 0 with lastCnpTx := some 5000000000 })] }), ?_, ?_, ?_, ?_⟩
    · decide +kernel
    · exact rfl
    · exact rfl
    · decide +kernel
  · refine ⟨(1), ?_⟩
    apply Exists.intro
    apply Exists.intro
    refine ⟨(wS wDev), ?_, ?_, ?_, ?_⟩
    · decide +kernel
    · exact rfl
    · exact rfl
    · decide +kernel
  · refine ⟨(1), ?_⟩
    apply Exists.intro
    apply Exists.intro
    refine ⟨(wS { wDev with qps := [(1, { wQp 0 with lastCut := some 5000000000 })] }), ?_, ?_, ?_, ?_⟩
    · decide +kernel
    · exact rfl
    · exact rfl
    · decide +kernel
  · refine ⟨(1), ?_⟩
    apply Exists.intro
    refine ⟨(wS { wDev with qps := [(1, { wQp 0 with rate := 1 })] }), ?_, ?_, ?_, ?_⟩
    · decide +kernel
    · exact rfl
    · decide +kernel
    · decide +kernel

end Sys2Proof.Tests
end

section
/-! SUPPORT. The control window (00): the bits of a register row, how a request is let in on either path, and what one
access to a register comes to; and the statements of the family settled with them. -/
namespace Sys2Proof.Machine

open Sys2Proof

/-! ### The bits of a row (R8, R11) -/

theorem fieldMask_getLsbD (lo w i : Nat) :
    (fieldMask lo w).getLsbD i = decide (i < 64 ∧ lo ≤ i ∧ i < lo + w) := by
  simp only [fieldMask, BitVec.getLsbD_ofNat, Nat.testBit_shiftLeft, Nat.testBit_two_pow_sub_one]
  grind

/-- A bit of a mask is a bit of one of the row's fields of that code. -/
theorem RegRow.mask_getLsbD_iff (r : RegRow) (a : Acc) (i : Nat) :
    (r.mask a).getLsbD i = true ↔ ∃ f ∈ r.fields, f.acc = a ∧ i < 64 ∧ f.lo ≤ i ∧ i < f.lo + f.w := by
  suffices H : ∀ (fs : List RegField) (m : Word),
      (fs.foldl (fun m f => if f.acc = a then m ||| fieldMask f.lo f.w else m) m).getLsbD i = true ↔
        m.getLsbD i = true ∨ ∃ f ∈ fs, f.acc = a ∧ i < 64 ∧ f.lo ≤ i ∧ i < f.lo + f.w by
    simpa [RegRow.mask] using H r.fields 0
  intro fs
  induction fs with
  | nil => simp
  | cons f fs ih =>
    intro m
    rw [List.foldl_cons, ih]
    by_cases ha : f.acc = a
    · simp [ha, fieldMask_getLsbD, or_assoc]
    · simp [ha]

/-- Outside the fields of a code, its mask is zero. -/
theorem RegRow.mask_getLsbD_eq_false {r : RegRow} {a : Acc} {i : Nat}
    (h : ∀ f ∈ r.fields, f.acc = a → i < f.lo ∨ f.lo + f.w ≤ i) : (r.mask a).getLsbD i = false := by
  rw [Bool.eq_false_iff, ne_eq, RegRow.mask_getLsbD_iff]
  rintro ⟨f, hf, ha, -, hlo, hhi⟩
  have := h f hf ha
  omega

theorem RegRow.written_getLsbD (r : RegRow) (old v : Word) {i : Nat} (hi : i < 64) :
    (r.written old v).getLsbD i =
      if (r.mask .rw).getLsbD i then v.getLsbD i
      else if (r.mask .w1c).getLsbD i && v.getLsbD i then false
      else old.getLsbD i := by
  simp only [RegRow.written, BitVec.getLsbD_or, BitVec.getLsbD_and, BitVec.getLsbD_not, hi, decide_true, Bool.true_and]
  cases (r.mask .rw).getLsbD i
  case true => simp
  case false => cases (r.mask .w1c).getLsbD i && v.getLsbD i <;> simp

/-- A write leaves a reserved bit as it stands. -/
theorem RegRow.written_getLsbD_reserved (r : RegRow) (old v : Word) {i : Nat}
    (h : ∀ f ∈ r.fields, i < f.lo ∨ f.lo + f.w ≤ i) : (r.written old v).getLsbD i = old.getLsbD i := by
  by_cases hi : i < 64
  · rw [r.written_getLsbD old v hi, RegRow.mask_getLsbD_eq_false fun f hf _ => h f hf,
      RegRow.mask_getLsbD_eq_false fun f hf _ => h f hf]
    rfl
  · rw [BitVec.getLsbD_of_ge _ _ (by omega), BitVec.getLsbD_of_ge _ _ (by omega)]

/-- A read shows a bit of readable fields only. -/
theorem Device.regWord_getLsbD_unreadable (d : Device) {r : RegRow} (off : Nat) {i : Nat}
    (h : ∀ f ∈ r.fields, f.acc ≠ .wo → i < f.lo ∨ f.lo + f.w ≤ i) : (d.regWord r off).getLsbD i = false := by
  have hmask : ∀ a : Acc, a ≠ .wo → (r.mask a).getLsbD i = false := fun a ha =>
    RegRow.mask_getLsbD_eq_false fun f hf hfa => h f hf (hfa ▸ ha)
  simp [Device.regWord, RegRow.readMask, hmask .ro, hmask .rw, hmask .w1c]

/-! ### One register access (R9 to R11, R443) -/

theorem Device.windowOpen_congr {d e : Device} (h : e.clk = d.clk) (off : Nat) : e.windowOpen off = d.windowOpen off := by
  unfold Device.windowOpen; rw [h]

theorem Device.readReg_closed {d : Device} {off : Nat} (h : d.windowOpen off = false) (path : Nat) :
    d.readReg path off = (0, d) := by
  simp [Device.readReg, h]

theorem Device.readReg_assigned {d : Device} {off : Nat} {r : RegRow} (h : d.windowOpen off = true)
    (hr : regRowAt off = some r) (path : Nat) : d.readReg path off = (d.regWord r off, d.readCaptures r off) := by
  simp [Device.readReg, h, hr]

theorem Device.readReg_unassigned {d : Device} {off : Nat} (h : d.windowOpen off = true) (hr : regRowAt off = none)
    (path : Nat) : d.readReg path off = (0, d.logAccess off path) := by
  simp [Device.readReg, h, hr]

theorem Device.writeReg_closed {d : Device} {off : Nat} (h : d.windowOpen off = false) (path : Nat) (v : Word) :
    d.writeReg path off v = d := by
  simp [Device.writeReg, h]

theorem Device.writeReg_assigned {d : Device} {off : Nat} {r : RegRow} (h : d.windowOpen off = true)
    (hr : regRowAt off = some r) (hc : flsClosed off = false) (path : Nat) (v : Word) :
    d.writeReg path off v = d.writeSpecial r off (r.index off).1 (r.index off).2 v := by
  simp [Device.writeReg, h, hr, hc]

theorem Device.writeReg_unassigned {d : Device} {off : Nat} (h : d.windowOpen off = true) (hr : regRowAt off = none)
    (path : Nat) (v : Word) : d.writeReg path off v = d.logAccess off path := by
  simp [Device.writeReg, h, hr]

theorem Device.writeReg_flsClosed {d : Device} {off : Nat} (h : d.windowOpen off = true) (hc : flsClosed off = true)
    (path : Nat) (v : Word) : d.writeReg path off v = d.logAccess off path := by
  unfold Device.writeReg
  rw [h, hc]
  cases regRowAt off <;> rfl

/-- Settles O6: the masks of a row list exactly its fields' bits, and what is written and what is read is cut by them. -/
theorem writeFollowsAccessCodes : Obligations.WriteFollowsAccessCodes := by
  refine ⟨fun r old v i hi => r.written_getLsbD old v hi, ?_, fun r old v i h => r.written_getLsbD_reserved old v h⟩
  intro d path off r i hr h
  cases hw : d.windowOpen off with
  | false => simp [Device.readReg_closed hw]
  | true => simpa [Device.readReg_assigned hw hr] using d.regWord_getLsbD_unreadable off h

/-! ### The rows of the window -/

section
variable (s : State)

theorem exec_eaveCfgWrite (v : Word) :
    exec (.eaveCfgWrite v) s = onRegister s Reg.EAVE_CFG fun d => d.writeEaveCfg v := rfl

theorem exec_xltReqCfgWrite (v : Word) :
    exec (.xltReqCfgWrite v) s = onRegister s Reg.XLT_REQ_CFG fun d => d.xltCfgWrite v := rfl

theorem exec_regWrite (src : Source) (off : Nat) (vs : List Word) :
    exec (.regWrite src off vs) s =
      .next (s.after (s.dev.access src true off (8 * vs.length) fun d p => (d.writeRegs p off vs, []))) := rfl

theorem exec_regRead (qpn : Nat) (rkey : BitVec 32) (off n : Nat) :
    exec (.regRead qpn rkey off n) s =
      .next (s.after (s.dev.access (.rdma qpn rkey) false off (8 * n) fun d p =>
        ((d.readRegs p off n).2, (d.readRegs p off n).1))) := rfl

theorem exec_misalignedAccess {off len : Nat} (hm : off % 8 ≠ 0 ∨ len % 8 ≠ 0 ∨ len = 0) (src : Source) (write : Bool) :
    exec (.misalignedAccess src write off len) s =
      .next (s.after (s.dev.access src write off len fun d _ => (d, []))) := by
  change execMisalignedAccess src write off len s = _
  exact onDevice_eq (if_neg (by omega))

/-- What an access to an unassigned offset does to a device that has let it in (R9). -/
def Device.accessUnassigned (write : Bool) (off : Nat) (d : Device) (path : Nat) : Device × List Word :=
  if write then (d.writeReg path off 0, []) else ((d.readReg path off).2, [(d.readReg path off).1])

theorem exec_unassignedOffsetAccess {off : Nat} (hr : regRowAt off = none) (src : Source) (write : Bool) :
    exec (.unassignedOffsetAccess src write off) s =
      .next (s.after (s.dev.access src write off 8 (Device.accessUnassigned write off))) := by
  change execUnassignedOffsetAccess src write off s = _
  exact onDevice_eq (if_neg (by simp [hr]))

theorem exec_flsMirrorWrite {off : Nat} (hc : flsClosed off = true) (src : Source) (v : Word) :
    exec (.flsMirrorWrite src off v) s =
      .next (s.after (s.dev.access src true off 8 fun d p => (d.writeReg p off v, []))) := by
  change execFlsMirrorWrite src off v s = _
  exact onDevice_eq (if_neg (by simp [hc]))

theorem exec_mgmtRead {n : Nat} (hn : 0 < n) (hmax : n ≤ 64) (h : MgmtHdr) (off : Nat) :
    exec (.mgmtRead h off n) s =
      .next (s.after (s.dev.access (.mgmt h) false off (8 * n) fun d p =>
        ((d.readRegs p off n).2, (d.readRegs p off n).1))) := by
  change execMgmtRead h off n s = _
  exact onDevice_eq (if_neg (by omega))

theorem exec_mgmtWrite {n : Nat} {vs : List Word} (hn : 0 < n) (hmax : n ≤ 64) (hlen : vs.length = n) (h : MgmtHdr)
    (off : Nat) :
    exec (.mgmtWrite h off n vs) s =
      .next (s.after (s.dev.access (.mgmt h) true off (8 * n) fun d p => (d.writeRegs p off vs, []))) := by
  change execMgmtWrite h off n vs s = _
  exact onDevice_eq (if_neg (by omega))

/-- A MGMT_WRITE of any form is one management request that is not open to all. -/
theorem exec_mgmtWrite_mgmt (h : MgmtHdr) (off n : Nat) (vs : List Word) :
    ∃ f, exec (.mgmtWrite h off n vs) s = .next (s.after (s.dev.mgmt h false f)) := by
  by_cases hbad : n = 0 ∨ 64 < n ∨ vs.length ≠ n
  · refine ⟨fun d => (d, some (mgStatus 1)), ?_⟩
    change execMgmtWrite h off n vs s = _
    exact onDevice_eq (if_pos hbad)
  · exact ⟨_, exec_mgmtWrite s (by omega) (by omega) (by omega) h off⟩

end

/-! ### Ring sizes (R473) -/

/-- A write changes nothing when the behaviour of the register's row changes nothing; where the stage does not serve the
register it is discarded anyway. -/
theorem Device.writeReg_eq_self {d : Device} {off base : Nat} {v : Word} (hb : (regRowAt off).map RegRow.base = some base)
    (hc : flsClosed off = false)
    (h : ∀ r : RegRow, r.base = base → d.writeSpecial r off (r.index off).1 (r.index off).2 v = d) (path : Nat) :
    d.writeReg path off v = d := by
  obtain ⟨r, hr, hrb⟩ := Option.map_eq_some_iff.mp hb
  cases hw : d.windowOpen off with
  | false => exact Device.writeReg_closed hw path v
  | true => rw [Device.writeReg_assigned hw hr hc]; exact h r hrb

/-- A register row whose effect is nothing leaves the device as it was, whether or not its register is served. -/
theorem onRegister_eq_self {s : State} {off : Nat} {f : Device → Device} (h : f s.dev = s.dev) :
    onRegister s off f = .next (s.after s.dev) :=
  onDevice_eq (by rw [h, ite_self])

theorem Device.writeEaveCfg_discarded (d : Device) {v : Word} (h : bits v 52 48 < 6 ∨ 16 < bits v 52 48) :
    d.writeEaveCfg v = d :=
  if_pos (by simpa using h)

theorem Device.writeGutCfg_discarded (d : Device) (r : RegRow) (off : Nat) {v : Word}
    (h : bits v 4 0 < 6 ∨ 16 < bits v 4 0) : d.writeGutCfg r off v = d :=
  if_pos (by simpa using h)

theorem Device.xltCfgWrite_discarded (d : Device) {v : Word} (h : bits v 4 0 < 6 ∨ 12 < bits v 4 0) :
    d.xltCfgWrite v = d :=
  if_pos (by simpa using h)

theorem Device.ringCfgWrite_discarded (d : Device) (off : Nat) {lo hi : Nat} {v : Word}
    (h : bits v 3 0 < lo ∨ hi < bits v 3 0) : d.ringCfgWrite off lo hi v = d :=
  if_pos (by simpa using h)

section
variable {r : RegRow} (d : Device) (off i j : Nat) (v : Word)

theorem Device.writeSpecial_eaveCfg (h : r.base = Reg.EAVE_CFG) : d.writeSpecial r off i j v = d.writeEaveCfg v := by
  unfold Device.writeSpecial; rw [h]; rfl

theorem Device.writeSpecial_gutCfg (h : r.base = Reg.GUT_CFG 0) : d.writeSpecial r off i j v = d.writeGutCfg r off v := by
  unfold Device.writeSpecial; rw [h]; rfl

theorem Device.writeSpecial_xltReqCfg (h : r.base = Reg.XLT_REQ_CFG) : d.writeSpecial r off i j v = d.xltCfgWrite v := by
  unfold Device.writeSpecial; rw [h]; rfl

theorem Device.writeSpecial_fltLogCfg (h : r.base = Reg.FLT_LOG_CFG) :
    d.writeSpecial r off i j v = d.ringCfgWrite Reg.FLT_LOG_CFG 6 14 v := by
  unfold Device.writeSpecial; rw [h]; rfl

theorem Device.writeSpecial_mtrRingCfg (h : r.base = Reg.MTR_RING_CFG) :
    d.writeSpecial r off i j v = d.ringCfgWrite Reg.MTR_RING_CFG 7 14 v := by
  unfold Device.writeSpecial; rw [h]; rfl

end

/-- The 64 instances of GUT_CFG share one row. -/
theorem regRowAt_gutCfg_base : ∀ c < 64, (regRowAt (Reg.GUT_CFG c)).map RegRow.base = some (Reg.GUT_CFG 0) := by
  decide

theorem flsClosed_gutCfg : ∀ c < 64, flsClosed (Reg.GUT_CFG c) = false := by
  decide

/-- Settles O7: each row's write begins with the check of the size, and a failed check leaves the device. -/
theorem ringSizesOutOfRangeAreDiscarded : Obligations.RingSizesOutOfRangeAreDiscarded := by
  intro path v d
  refine ⟨fun h => ⟨?_, ?_⟩, fun c hc h => ?_, fun h => ⟨?_, ?_⟩, fun h => ?_, fun h => ?_⟩
  · exact Device.writeReg_eq_self (base := Reg.EAVE_CFG) (by decide) (by decide)
      (fun r hr => (d.writeSpecial_eaveCfg _ _ _ v hr).trans (d.writeEaveCfg_discarded h)) path
  · rintro s rfl
    exact (exec_eaveCfgWrite s v).trans (onRegister_eq_self (s.dev.writeEaveCfg_discarded h))
  · exact Device.writeReg_eq_self (regRowAt_gutCfg_base c hc) (flsClosed_gutCfg c hc)
      (fun r hr => (d.writeSpecial_gutCfg _ _ _ v hr).trans (d.writeGutCfg_discarded r _ h)) path
  · exact Device.writeReg_eq_self (base := Reg.XLT_REQ_CFG) (by decide) (by decide)
      (fun r hr => (d.writeSpecial_xltReqCfg _ _ _ v hr).trans (d.xltCfgWrite_discarded h)) path
  · rintro s rfl
    exact (exec_xltReqCfgWrite s v).trans (onRegister_eq_self (s.dev.xltCfgWrite_discarded h))
  · exact Device.writeReg_eq_self (base := Reg.FLT_LOG_CFG) (by decide) (by decide)
      (fun r hr => (d.writeSpecial_fltLogCfg _ _ _ v hr).trans (d.ringCfgWrite_discarded _ h)) path
  · exact Device.writeReg_eq_self (base := Reg.MTR_RING_CFG) (by decide) (by decide)
      (fun r hr => (d.writeSpecial_mtrRingCfg _ _ _ v hr).trans (d.ringCfgWrite_discarded _ h)) path

/-! ### Requests on the management path (R461 to R463) -/

@[simp] theorem Device.count_clk (d : Device) (off n : Nat) : (d.count off n).clk = d.clk := (d.count_reported off n).clk

@[simp] theorem Device.count_fls (d : Device) (off n : Nat) : (d.count off n).fls = d.fls := by
  obtain ⟨r, h⟩ := d.count_regs_only off n
  rw [h]

@[simp] theorem Device.count_mgmtBarred (d : Device) (off n : Nat) (h : MgmtHdr) (isOpen : Bool) :
    (d.count off n).mgmtBarred h isOpen = d.mgmtBarred h isOpen := by
  unfold Device.mgmtBarred; rw [d.count_fls]

@[simp] theorem Device.mgmtIn_clk (d : Device) (h : MgmtHdr) : (d.mgmtIn h).clk = d.clk := by simp [Device.mgmtIn]

@[simp] theorem Device.mgmtIn_fls (d : Device) (h : MgmtHdr) : (d.mgmtIn h).fls = d.fls := by simp [Device.mgmtIn]

section
variable {d : Device} {h : MgmtHdr} {isOpen : Bool}

/-- A repeat draws the kept reply (R462). -/
theorem Device.mgmt_repeated (hon : d.mgmtOn h.port = true) (hwf : mgmtMalformed h = false) {k : Kept}
    (hk : d.fls.kept.find? (fun k => k.src == h.src && k.seq == h.seq) = some k)
    (f : Device → Device × Option MgmtReply) : d.mgmt h isOpen f = (d.mgmtIn h).sendReply h.port k := by
  simp [Device.mgmt, Device.mgmtIn, hon, hwf, hk]

/-- A source outside a filled manager table is refused what is not open to all (R463). -/
theorem Device.mgmt_barred (hon : d.mgmtOn h.port = true) (hwf : mgmtMalformed h = false)
    (hk : d.fls.kept.find? (fun k => k.src == h.src && k.seq == h.seq) = none) (hb : d.mgmtBarred h isOpen = true)
    (f : Device → Device × Option MgmtReply) :
    d.mgmt h isOpen f = (d.mgmtIn h).replyKept h.port (keptReply h (mgStatus 3)) := by
  simp [Device.mgmt, Device.mgmtIn, keptReply, hon, hwf, hk, hb]

/-- A request that is let in is answered with what its operation replies, and the reply is kept (R461, R462). -/
theorem Device.mgmt_admitted (ha : d.Admits h isOpen) {f : Device → Device × Option MgmtReply} {e : Device}
    {r : MgmtReply} (hf : f (d.mgmtIn h) = (e, some r)) : d.mgmt h isOpen f = e.replyKept h.port (keptReply h r) := by
  obtain ⟨hon, hwf, hk, hb⟩ := ha
  unfold Device.mgmtIn at hf
  simp [Device.mgmt, keptReply, hon, hwf, hk, hb, hf]

end

/-! ### Accesses to the control window (R6, R459, R461) -/

/-- An access of whole aligned registers within the window (R6). -/
def WholeRegisters (off n : Nat) : Prop := off % 8 = 0 ∧ n % 8 = 0 ∧ n ≠ 0 ∧ off + n ≤ windowSize

theorem wholeRegisters_of_count {off n : Nat} (ho : off % 8 = 0) (hn : 0 < n) (hw : off + 8 * n ≤ windowSize) :
    WholeRegisters off (8 * n) :=
  ⟨ho, by omega, by omega, hw⟩

/-- The FLS block lies within the window. -/
theorem wholeRegisters_of_flsClosed {off : Nat} (ho : off % 8 = 0) (hc : flsClosed off = true) : WholeRegisters off 8 := by
  have hblock : off / 0x100000 = 12 := by
    simp only [flsClosed, Bool.and_eq_true, beq_iff_eq] at hc
    exact hc.1
  refine ⟨ho, rfl, by decide, ?_⟩
  unfold windowSize
  omega

section
variable {d : Device} {qpn : Nat} {rkey : BitVec 32} {write : Bool} {off n : Nat}

/-- An access with the owner's queue pair and the control rkey is carried out, charged and acknowledged. -/
theorem Device.access_rdma (ho : d.ControlOpen qpn rkey) (hw : WholeRegisters off n)
    (f : Device → Nat → Device × List Word) :
    d.access (.rdma qpn rkey) write off n f =
      ((f (d.rdmaIn 0 qpn (if write then n else 0)) pathRdma).1.charge 0 .eth
        (8 * (f (d.rdmaIn 0 qpn (if write then n else 0)) pathRdma).2.length) 16).rdmaAnswer qpn 0
        (wordsBytes (f (d.rdmaIn 0 qpn (if write then n else 0)) pathRdma).2) := by
  obtain ⟨hq, hrole, hkey⟩ := ho
  obtain ⟨hoff, hn, hn0, hend⟩ := hw
  have hin := d.rdmaIn_reported 0 qpn (if write then n else 0)
  simp [Device.access, Device.rdmaControl, hq, hin.qps, hin.rkeyControl, hrole, hkey, hoff, hn, hn0, hend]

/-- A misaligned or partial access draws a remote access error, whatever the role and the rkey. -/
theorem Device.access_rdma_misaligned (hq : d.qpOn qpn = true) (hm : off % 8 ≠ 0 ∨ n % 8 ≠ 0 ∨ n = 0)
    (f : Device → Nat → Device × List Word) :
    d.access (.rdma qpn rkey) write off n f = (d.rdmaIn 0 qpn (if write then n else 0)).rdmaAnswer qpn nakAccess [] := by
  simp only [Device.access, Device.rdmaControl, hq, Bool.not_true, Bool.false_eq_true, if_false]
  refine if_pos ?_
  rcases hm with h | h | h <;> simp [h]

end

section
variable {d : Device} {h : MgmtHdr} {write : Bool} {off n : Nat}

/-- A management access that is let in is carried out, and its values are the reply. -/
theorem Device.access_mgmt (ha : d.AdmitsAccess h (!write)) (hw : WholeRegisters off n)
    (f : Device → Nat → Device × List Word) :
    d.access (.mgmt h) write off n f =
      (f (d.mgmtIn h) pathMgmt).1.replyKept h.port (keptReply h ⟨0, (f (d.mgmtIn h) pathMgmt).2, []⟩) := by
  obtain ⟨hadm, hrom⟩ := ha
  obtain ⟨hoff, hn, hn0, hend⟩ := hw
  unfold Device.access Device.mgmtControl
  refine Device.mgmt_admitted hadm ?_
  simp [hrom, hoff, hn, hn0, hend]

/-- A misaligned or partial management access is answered "access refused". -/
theorem Device.access_mgmt_misaligned (ha : d.AdmitsAccess h (!write)) (hm : off % 8 ≠ 0 ∨ n % 8 ≠ 0 ∨ n = 0)
    (f : Device → Nat → Device × List Word) :
    d.access (.mgmt h) write off n f = (d.mgmtIn h).replyKept h.port (keptReply h (mgStatus mgAccess)) := by
  obtain ⟨hadm, hrom⟩ := ha
  unfold Device.access Device.mgmtControl
  refine Device.mgmt_admitted hadm ?_
  rw [Device.mgmtIn_fls, hrom, if_neg Bool.false_ne_true, if_pos]
  rcases hm with h | h | h <;> simp [h]

end

/-- Settles O9: the alignment is checked on both paths before the access is carried out. -/
theorem misalignedAccessIsRefused : Obligations.MisalignedAccessIsRefused := by
  refine ⟨fun qpn rkey w off len s hq hm => ?_, fun h w off len s ha hm => ?_⟩
  · rw [exec_misalignedAccess s hm, Device.access_rdma_misaligned hq hm]
    rfl
  · rw [exec_misalignedAccess s hm, Device.access_mgmt_misaligned ha hm]
    rfl

/-! ### Runs of registers (R7) -/

/-- Settles O10: an access of whole registers within the window is carried out on both paths; a repeated or a barred
request is answered before it reaches the window. -/
theorem registerRuns : Obligations.RegisterRuns := by
  refine ⟨⟨?_, ?_, ?_⟩, ?_⟩
  · intro qpn rkey off n s ho hoff hn hend
    rw [exec_regRead, Device.access_rdma ho (wholeRegisters_of_count hoff hn hend)]
    rfl
  · intro h off n s ha hoff hn hmax hend
    rw [exec_mgmtRead s hn hmax, Device.access_mgmt ha (wholeRegisters_of_count hoff hn hend)]
    rfl
  · intro h off vs s ha hoff hne hmax hend
    have hn : 0 < vs.length := List.length_pos_iff.mpr hne
    rw [exec_mgmtWrite s hn hmax rfl, Device.access_mgmt ha (wholeRegisters_of_count hoff hn hend)]
    rfl
  · intro h off n vs s hon hwf
    obtain ⟨f, hf⟩ := exec_mgmtWrite_mgmt s h off n vs
    refine ⟨fun k hk _ _ _ => ?_, fun hk hb => ?_⟩
    · rw [hf, Device.mgmt_repeated hon hwf hk]
    · rw [hf, Device.mgmt_barred hon hwf hk hb]

/-! ### Writes of the window -/

/-- The first instances of the registers whose writes do more than set their fields. -/
def specialBases : List Nat :=
  [Reg.SOF_CTRL 0, Reg.SOF_WAY_LOCK 0, Reg.SOF_INV 0, Reg.SOF_PRELOAD_CTRL 0, Reg.HOD_SCALE_TOL 0, Reg.RAF_BALLAST 0 0,
    Reg.EAVE_CFG, Reg.RIDGE_CTRL, Reg.EAVE_EXPECT, Reg.EAVE_DOORBELL, Reg.RIDGE_FENCE_SEL, Reg.GUT_CFG 0, Reg.GUT_CONS 0,
    Reg.GUT_CTL 0, Reg.XLT_REQ_CFG, Reg.XLT_REQ_CONS, Reg.XLT_ANSWER, Reg.MEM_MAINT, Reg.MEM_FRAME_CMD, Reg.MEM_PC_CMD,
    Reg.MEM_MAP 0, Reg.MEM_EXCL 0 0, Reg.SPN_SPLICE, Reg.FLT_TRUSS_CMD, Reg.FLT_LOG_BASE, Reg.FLT_LOG_CFG,
    Reg.FLT_LOG_CONS, Reg.REP_WREG_N, Reg.DLM_CTRL, Reg.REP_CFG 0, Reg.REP_STAT 0, Reg.REP_CMD 0, Reg.MTR_SNAP,
    Reg.MTR_OVF, Reg.MTR_RING_BASE, Reg.MTR_RING_CFG, Reg.MTR_RING_CONS, Reg.FLS_MBOX_CMD]

/-- Any other register takes the value by its access codes. -/
theorem Device.writeSpecial_plain {r : RegRow} (h : r.base ∉ specialBases) (d : Device) (off i j : Nat) (v : Word) :
    d.writeSpecial r off i j v = d.writePlain r off v := by
  simp only [specialBases, List.mem_cons, not_or] at h
  simp only [Device.writeSpecial, h, if_false]

theorem Device.writePlain_of_ne {d : Device} {r : RegRow} {off : Nat} {v : Word} (h : r.written (d.reg off) v ≠ d.reg off) :
    d.writePlain r off v = d.setReg off (r.written (d.reg off) v) :=
  if_neg h

/-- The control registers of the blocks, which have no behaviour of their own. -/
def plainControls : List Nat :=
  [Reg.EAVE_POLL, Reg.THT_CTRL, Reg.ATN_CTRL, Reg.CRS_CTRL, Reg.XLT_CTRL, Reg.MEM_CTRL, Reg.LNK_CTRL, Reg.COL_CTRL,
    Reg.FLT_CTRL, Reg.REP_CTRL, Reg.MTR_CTRL]

theorem regRowAt_plainControls :
    ∀ off ∈ plainControls, flsClosed off = false ∧ ∀ r ∈ regRowAt off, r.base ∉ specialBases := by
  decide

theorem Device.writeReg_plainControl {d : Device} {off : Nat} {r : RegRow} {v : Word} (hopen : d.windowOpen off = true)
    (hr : regRowAt off = some r) (hoff : off ∈ plainControls) (hne : r.written (d.reg off) v ≠ d.reg off) (path : Nat) :
    d.writeReg path off v = d.setReg off (r.written (d.reg off) v) := by
  obtain ⟨hc, hbase⟩ := regRowAt_plainControls off hoff
  rw [Device.writeReg_assigned hopen hr hc, Device.writeSpecial_plain (hbase r hr), Device.writePlain_of_ne hne]

theorem Device.rdmaIn_windowOpen (d : Device) (acct qpn n off : Nat) :
    (d.rdmaIn acct qpn n).windowOpen off = d.windowOpen off :=
  Device.windowOpen_congr (d.rdmaIn_reported acct qpn n).clk off

theorem Device.mgmtIn_windowOpen (d : Device) (h : MgmtHdr) (off : Nat) : (d.mgmtIn h).windowOpen off = d.windowOpen off :=
  Device.windowOpen_congr (d.mgmtIn_clk h) off

/-- An access to an unassigned offset is recorded, and a read returns zero (R9). -/
theorem Device.accessUnassigned_eq {d : Device} {off : Nat} (hopen : d.windowOpen off = true) (hr : regRowAt off = none)
    (write : Bool) (path : Nat) :
    Device.accessUnassigned write off d path = (d.logAccess off path, if write then [] else [0]) := by
  cases write with
  | false => simp [Device.accessUnassigned, Device.readReg_unassigned hopen hr]
  | true => simp [Device.accessUnassigned, Device.writeReg_unassigned hopen hr]

theorem exec_unassignedOffsetAccess_rdma {s : State} {qpn : Nat} {rkey : BitVec 32} {off : Nat}
    (ho : s.dev.ControlOpen qpn rkey) (hw : WholeRegisters off 8) (hr : regRowAt off = none)
    (hopen : s.dev.windowOpen off = true) (write : Bool) :
    exec (.unassignedOffsetAccess (.rdma qpn rkey) write off) s =
      .next (s.after ((((s.dev.rdmaIn 0 qpn (if write then 8 else 0)).logAccess off pathRdma).charge 0 .eth
        (8 * (if write then [] else [(0 : Word)]).length) 16).rdmaAnswer qpn 0
          (wordsBytes (if write then [] else [0])))) := by
  rw [exec_unassignedOffsetAccess s hr, Device.access_rdma ho hw,
    Device.accessUnassigned_eq ((s.dev.rdmaIn_windowOpen _ _ _ off).trans hopen) hr]

theorem exec_unassignedOffsetAccess_mgmt {s : State} {h : MgmtHdr} {write : Bool} {off : Nat}
    (ha : s.dev.AdmitsAccess h (!write)) (hw : WholeRegisters off 8) (hr : regRowAt off = none)
    (hopen : s.dev.windowOpen off = true) :
    exec (.unassignedOffsetAccess (.mgmt h) write off) s =
      .next (s.after (((s.dev.mgmtIn h).logAccess off pathMgmt).replyKept h.port
        (keptReply h ⟨0, if write then [] else [0], []⟩))) := by
  rw [exec_unassignedOffsetAccess s hr, Device.access_mgmt ha hw,
    Device.accessUnassigned_eq ((s.dev.mgmtIn_windowOpen h off).trans hopen) hr]

/-- Settles O8: one law for each path and each of the three rows; clause by clause. -/
theorem controlWindowAccesses : Obligations.ControlWindowAccesses := by
  refine ⟨⟨?_, ?_, fun _ _ _ _ _ => rfl, ?_⟩, ⟨?_, ?_⟩, ?_⟩
  · intro qpn rkey off vs s ho hoff hne hend
    rw [exec_regWrite,
      Device.access_rdma ho (wholeRegisters_of_count hoff (List.length_pos_iff.mpr hne) hend)]
    rfl
  · intro h off vs s ha hoff hne hend
    rw [exec_regWrite,
      Device.access_mgmt ha (wholeRegisters_of_count hoff (List.length_pos_iff.mpr hne) hend)]
    rfl
  · intro path off v d r hopen hr hoff hne
    exact Device.writeReg_plainControl hopen hr hoff hne path
  · intro qpn rkey off s ho hoff hend hr hopen
    have hw : WholeRegisters off 8 := wholeRegisters_of_count hoff one_pos hend
    exact ⟨exec_unassignedOffsetAccess_rdma ho hw hr hopen false, exec_unassignedOffsetAccess_rdma ho hw hr hopen true⟩
  · intro h off s hoff hend hr hopen
    have hw : WholeRegisters off 8 := wholeRegisters_of_count hoff one_pos hend
    exact ⟨fun ha => exec_unassignedOffsetAccess_mgmt (write := false) ha hw hr hopen,
      fun ha => exec_unassignedOffsetAccess_mgmt (write := true) ha hw hr hopen⟩
  · intro off v s hoff hc hopen
    have hw : WholeRegisters off 8 := wholeRegisters_of_flsClosed hoff hc
    refine ⟨fun qpn rkey ho => ?_, fun h ha => ?_⟩
    · rw [exec_flsMirrorWrite s hc, Device.access_rdma ho hw,
        Device.writeReg_flsClosed ((s.dev.rdmaIn_windowOpen _ _ _ off).trans hopen) hc]
      rfl
    · rw [exec_flsMirrorWrite s hc, Device.access_mgmt ha hw,
        Device.writeReg_flsClosed ((s.dev.mgmtIn_windowOpen h off).trans hopen) hc]
      rfl

end Sys2Proof.Machine
end

section
/-! SUPPORT. The Loft patrol and the Soffit slices (01): what each operation of a slice comes to, form by form, and the
statement of the family settled with them. -/
namespace Sys2Proof.Machine

open Sys2Proof

/-! ### A slice after an update -/

@[simp] theorem Device.sof_setSof_self (d : Device) (t : Nat) (c : Soffit) : (d.setSof t c).sof t = c :=
  tget_tset_self _ _ _ _

@[simp] theorem Device.sof_setReg (d : Device) (off : Nat) (w : Word) (t : Nat) : (d.setReg off w).sof t = d.sof t := rfl

/-- Stopping a preload where none runs is nothing (R27). -/
theorem Device.sofStopPreload_none {d : Device} {t : Nat} (h : (d.sof t).preload = none) (e : Ending) :
    d.sofStopPreload t e = d := by
  simp [Device.sofStopPreload, h]

/-! ### The patrol (R13, R14, R32) -/

/-- The device once the patrol of a truss has moved on from a word (R13). -/
def Device.patrolFrom (d : Device) (t word : Nat) : Device :=
  { d with patrol := tset d.patrol t ((word + 1) % (loftSize / 32)) }

section
variable {t : Truss} {word : Nat} {s : State} (hw : 32 * word < loftSize)
include hw

theorem exec_loftPatrol_clean : exec (.loftPatrol t word .clean) s = .next (s.after (s.dev.patrolFrom t word)) := by
  change execLoftPatrol t word .clean s = _
  exact onDevice_eq (if_neg (Nat.not_le.mpr hw))

theorem exec_loftPatrol_corrected :
    exec (.loftPatrol t word .corrected) s = .next (s.after ((s.dev.patrolFrom t word).count (Reg.LOFT_ECC_CORR t) 1)) := by
  change execLoftPatrol t word .corrected s = _
  exact onDevice_eq (if_neg (Nat.not_le.mpr hw))

theorem exec_loftPatrol_soffitRegion (hr : s.dev.inSoffitRegion t (32 * word) = true) :
    exec (.loftPatrol t word .uncorrectable) s = .next (s.after ((s.dev.patrolFrom t word).dropLineAt t
      (32 * word - (tget s.dev.truss t default).stageGr * granule))) := by
  change execLoftPatrol t word .uncorrectable s = _
  exact onDevice_eq ((if_neg (Nat.not_le.mpr hw)).trans (if_pos hr))

/-- An uncorrectable word outside the Soffit region is marked bad, once, and reported (R14). -/
theorem exec_loftPatrol_otherRegion (hr : s.dev.inSoffitRegion t (32 * word) = false) :
    exec (.loftPatrol t word .uncorrectable) s = .next (s.after ({ s.dev.patrolFrom t word with
      loftBad := if s.dev.loftBad.contains (t.val, word) then s.dev.loftBad else (t.val, word) :: s.dev.loftBad
      }.noteLoftUncorr t noCtx (unitCode t 0) 0 0 (32 * word))) := by
  change execLoftPatrol t word .uncorrectable s = _
  exact onDevice_eq ((if_neg (Nat.not_le.mpr hw)).trans (if_neg (Bool.eq_false_iff.mp hr)))

end

/-! ### The writes of a slice's registers (R24, R27, R33 to R37) -/

section
variable (d : Device) (t : Nat) (v : Word)

theorem Device.sofWayLockWrite_eq : d.sofWayLockWrite t v =
    if (d.sof t).wayMask ≠ 0 ∧ v.toNat % 2 ^ 16 &&& (d.sof t).wayMask = (d.sof t).wayMask then
      d.setFld (Reg.SOF_STATUS t) Fld.SOF_STATUS_LOCK_REFUSED 1
    else d.setReg (Reg.SOF_WAY_LOCK t) (BitVec.ofNat 64 (v.toNat % 2 ^ 16 &&& (d.sof t).wayMask)) := by
  simp [Device.sofWayLockWrite]

/-- A GO that the slice cannot take: it is off or going off, a preload runs, no configured way is asked for, or there are
too many lines (R27). -/
def Soffit.RefusesGo (c : Soffit) (v : Word) : Prop :=
  c.enabled = false ∨ c.disabling = true ∨ c.preload.isSome = true ∨ bits v 47 32 &&& c.wayMask = 0 ∨ 65536 < bits v 16 0

/-- The check of `Device.sofPreloadGo`. -/
theorem Soffit.refusesGo_iff {c : Soffit} {v : Word} : c.RefusesGo v ↔
    (!c.enabled || c.disabling || c.preload.isSome || bits v 47 32 &&& c.wayMask == 0
      || decide (65536 < bits v 16 0)) = true := by
  simp [Soffit.RefusesGo, or_assoc]

variable {d t v}

theorem Device.sofPreloadGo_refused (hgo : bit v 63 = true) (hc : (d.sof t).RefusesGo v) :
    d.sofPreloadGo t v = (d.setReg (Reg.SOF_PRELOAD_CTRL t) (v &&& 0x0000FFFF0001FFFF#64)).setFld
      (Reg.SOF_STATUS t) Fld.SOF_STATUS_PRELOAD_REFUSED 1 := by
  simp [Device.sofPreloadGo, hgo, Soffit.refusesGo_iff.mp hc]

theorem Device.sofPreloadGo_started (hgo : bit v 63 = true) (hc : ¬ (d.sof t).RefusesGo v) :
    d.sofPreloadGo t v =
      let e := d.setReg (Reg.SOF_PRELOAD_CTRL t) (v &&& 0x0000FFFF0001FFFF#64)
      e.setSof t { d.sof t with
        preload := some ⟨[(e.fld (Reg.SOF_PRELOAD_BASE t) Fld.SOF_PRELOAD_BASE_ADDR, preloadLines (bits v 16 0))],
          BitVec.ofNat 16 (bits v 47 32 &&& (d.sof t).wayMask), none, 0, deviceAccount⟩
        preloadDone := 0 } := by
  simp [Device.sofPreloadGo, hgo, Bool.eq_false_iff.mpr (mt Soffit.refusesGo_iff.mpr hc)]

/-- A disable with no preload to stop marks the fills in flight and settles (R33). -/
theorem Device.sofDisable_noPreload (hen : bit v 0 = false) (hp : (d.sof t).preload = none) :
    d.sofDisable t v = ((d.setReg (Reg.SOF_CTRL t) (v &&& 2#64)).setSof t
      { d.sof t with
        disabling := (d.sof t).enabled, deferredEnable := false
        misses := (d.sof t).misses.map (fun m => { m with noInstall := true }) }).sofSettle t := by
  have hstop := fun (e : Device) (c : Soffit) (hc : c.preload = none) =>
    Device.sofStopPreload_none (d := e.setSof t c) (t := t) (by rw [Device.sof_setSof_self]; exact hc)
  simp [Device.sofDisable, hen, hstop, hp]

/-- An enable waits for an invalidation that is running (R35). -/
theorem Device.sofEnable_deferred (hen : bit v 0 = true) (hways : (d.sof t).ways ≠ 0) (hinv : (d.sof t).inv ≠ 0) :
    d.sofEnable t v = (d.setReg (Reg.SOF_CTRL t) (v &&& 3#64)).setSof t { d.sof t with deferredEnable := true } := by
  simp [Device.sofEnable, hen, hways, hinv]

theorem Device.sofEnable_idle (hen : bit v 0 = true) (hways : (d.sof t).ways ≠ 0) (hinv : (d.sof t).inv = 0) :
    d.sofEnable t v = (d.setReg (Reg.SOF_CTRL t) (v &&& 3#64)).sofTurnOn t := by
  simp [Device.sofEnable, hen, hways, hinv]

theorem Device.sofInvAll_idle (hinv : (d.sof t).inv = 0) :
    d.sofInvAll t = d.setSof t { d.sof t with inv := 1, lines := [] } := by
  simp [Device.sofInvAll, hinv]

theorem Device.sofInvUnlocked_idle (hinv : (d.sof t).inv = 0) :
    d.sofInvUnlocked t = d.setSof t { d.sof t with
      inv := 2
      lines := (d.sof t).lines.filter
        (fun l => (d.fld (Reg.SOF_WAY_LOCK t) Fld.SOF_WAY_LOCK_LOCK).testBit l.way) } := by
  simp [Device.sofInvUnlocked, hinv]

end

section
variable {s : State} (hup : s.dev.Up) (t : Truss) (v : Word)
include hup

theorem exec_sofWayLockWrite : exec (.sofWayLockWrite t v) s = .next (s.after (s.dev.sofWayLockWrite t v)) := by
  change execSofWayLockWrite t v s = _
  exact onRegister_eq (hup.windowOpen _) rfl

theorem exec_sofPreloadGo : exec (.sofPreloadGo t v) s = .next (s.after (s.dev.sofPreloadGo t v)) := by
  change execSofPreloadGo t v s = _
  exact onRegister_eq (hup.windowOpen _) rfl

theorem exec_sofDisable : exec (.sofDisable t v) s = .next (s.after (s.dev.sofDisable t v)) := by
  change execSofDisable t v s = _
  exact onRegister_eq (hup.windowOpen _) rfl

theorem exec_sofEnable : exec (.sofEnable t v) s = .next (s.after (s.dev.sofEnable t v)) := by
  change execSofEnable t v s = _
  exact onRegister_eq (hup.windowOpen _) rfl

theorem exec_sofInvAll : exec (.sofInvAll t) s = .next (s.after (s.dev.sofInvAll t)) := by
  change execSofInvAll t s = _
  exact onRegister_eq (hup.windowOpen _) rfl

theorem exec_sofInvUnlocked : exec (.sofInvUnlocked t) s = .next (s.after (s.dev.sofInvUnlocked t)) := by
  change execSofInvUnlocked t s = _
  exact onRegister_eq (hup.windowOpen _) rfl

end

/-! ### The events of a slice (R23, R26, R29, R31, R34 to R36) -/

section
variable {d : Device} {t mshr : Nat} {m : SofMiss}

/-- The slice once a miss register is free again (R29). -/
def Soffit.freeMiss (c : Soffit) (mshr : Nat) : Soffit := { c with misses := c.misses.filter (fun n => n.id != mshr) }

/-- A returned line that nobody waits for is installed in a way that is allowed now; no waiting miss goes on (R23). -/
theorem Device.soffitFill_installed {bs : List Byte} {c : Soffit}
    (hm : (d.sof t).misses.find? (fun n => n.id == mshr) = some m) (hdata : m.data = some bs)
    (hinst : m.noInstall = false) (hact : (d.sof t).active = true) (hwait : m.waiters = [])
    (hc : ((d.sof t).freeMiss mshr).install m.line
      ((d.setSof t ((d.sof t).freeMiss mshr)).fillWays t m.ctx) bs = some c)
    (hnext : c.missWait = []) :
    d.soffitFill t mshr = (((d.setSof t ((d.sof t).freeMiss mshr)).setSof t c).setSof t
      { c with missWait := [] }).sofSettle t := by
  have hact' : ((d.sof t).freeMiss mshr).active = true := hact
  unfold Soffit.freeMiss at hc hact' ⊢
  simp [Device.soffitFill, hm, hdata, hinst, hact', hwait, hc, hnext]

/-- A line that may not be installed, or that was not read, leaves the slice's lines as they are (R31, R33). -/
theorem Device.soffitFill_dropped (hm : (d.sof t).misses.find? (fun n => n.id == mshr) = some m)
    (hinst : m.noInstall = true ∨ m.data = none) (hwait : m.waiters = []) (hnext : (d.sof t).missWait = []) :
    d.soffitFill t mshr = ((d.setSof t ((d.sof t).freeMiss mshr)).setSof t
      { (d.sof t).freeMiss mshr with missWait := [] }).sofSettle t := by
  unfold Soffit.freeMiss
  rcases hinst with hno | hnone
  · cases hdata : m.data <;> simp [Device.soffitFill, hm, hdata, hno, hwait, hnext]
  · simp [Device.soffitFill, hm, hnone, hwait, hnext]

end

theorem exec_soffitFill (t : Truss) (mshr : Nat) (s : State) :
    exec (.soffitFill t mshr) s = .next (s.after (s.dev.soffitFill t mshr).rowsServed) := rfl

/-- A line that the preload reads is installed in the preload's ways, and further lines are left (R26). -/
theorem exec_sofPreloadLine_read {t : Truss} {p : SofPreload} {line n : Nat} {rest : List (Nat × Nat)} {bs : List Byte}
    {d : Device} {s : State} (hp : (s.dev.sof t).preload = some p) (hinv : (s.dev.sof t).inv = 0)
    (hruns : p.runs = (line, n) :: rest) (hreach : s.dev.hbm.allReachable (line * 128) 128 = true)
    (hfind : (s.dev.sof t).find? line = none)
    (hread : s.dev.readLine (if p.job.isSome then 2 else 0) p.acct line = (d, some bs)) (hmore : nextRuns p.runs ≠ []) :
    let c := ((d.sof t).install line p.ways.toNat bs).getD (d.sof t)
    exec (.sofPreloadLine t) s = .next (s.after (d.setSof t { c with
      preload := some { p with runs := nextRuns p.runs, vaddr := p.vaddr + 128 }, preloadDone := c.preloadDone + 1 })) := by
  change execSofPreloadLine t s = _
  refine onDevice_eq ?_
  rw [hruns] at hmore ⊢
  simp [hp, hinv, hruns, hreach, hfind, hread, hmore]

/-- The end of an invalidation: a deferred enable then takes effect (R34 to R36). -/
theorem exec_sofInvDone_running {t : Truss} {s : State} (hinv : (s.dev.sof t).inv ≠ 0) :
    let all := (s.dev.sof t).inv == 1
    let d := s.dev.setSof t { s.dev.sof t with
      inv := 0, deferredEnable := false
      invNeeded := (s.dev.sof t).invNeeded && !all, staleRisk := (s.dev.sof t).staleRisk && !all }
    exec (.sofInvDone t) s = .next (s.after (if (s.dev.sof t).deferredEnable then d.sofTurnOn t else d)) := by
  change execSofInvDone t s = _
  exact onDevice_eq (if_neg hinv)

/-- Settles O12: the rows of the patrol, of a slice's registers and of its events, each by the law of its form. -/
theorem soffitAndPatrol : Obligations.SoffitAndPatrol := by
  refine ⟨fun t word s hw => ⟨exec_loftPatrol_clean hw, exec_loftPatrol_corrected hw, exec_loftPatrol_soffitRegion hw,
    fun hr hgood => ?_⟩, ?_, ?_, ?_, ?_, ?_⟩
  · rw [exec_loftPatrol_otherRegion hw hr, hgood]
    rfl
  · rintro t v c lock s hup rfl rfl
    refine ⟨?_, fun hgo hen hdis hp hn hways => ?_, fun hgo hc => ?_, fun hen hp => ?_, fun hen hways hinv => ?_,
      fun hen hways hinv => ?_, fun hinv => ?_, fun hinv => ?_⟩
    · rw [exec_sofWayLockWrite hup, Device.sofWayLockWrite_eq]
    · have hc : ¬ (s.dev.sof t).RefusesGo v := by simp [Soffit.RefusesGo, hen, hdis, hp, hways, hn]
      rw [exec_sofPreloadGo hup, Device.sofPreloadGo_started hgo hc]
    · rw [exec_sofPreloadGo hup, Device.sofPreloadGo_refused hgo hc]
    · rw [exec_sofDisable hup, Device.sofDisable_noPreload hen hp]
    · rw [exec_sofEnable hup, Device.sofEnable_deferred hen hways hinv]
    · rw [exec_sofEnable hup, Device.sofEnable_idle hen hways hinv]
    · rw [exec_sofInvAll hup, Device.sofInvAll_idle hinv]
    · rw [exec_sofInvUnlocked hup, Device.sofInvUnlocked_idle hinv]
  · rintro t mshr m bs c c' d s hm hdata hinst hact hwait hnext rfl rfl hc
    rw [exec_soffitFill, Device.soffitFill_installed hm hdata hinst hact hwait hc hnext]
    rfl
  · rintro t mshr m c s hm hinst hwait hnext rfl
    rw [exec_soffitFill, Device.soffitFill_dropped hm hinst hwait hnext]
    rfl
  · intro t p line n rest bs d s
    exact exec_sofPreloadLine_read
  · intro t s
    exact exec_sofInvDone_running

end Sys2Proof.Machine
end

section
/-! SUPPORT. The transfers of a Hod engine (02, 09), their remote accesses, and what the device serves for others (06,
12): what each operation comes to, form by form, and the statement of the family settled with them. -/
namespace Sys2Proof.Machine

open Sys2Proof

/-! ### What an access got -/

@[simp] theorem Device.andThen_ok {α : Type} (d : Device) (v : α) (id kind t : Nat) (k : Device → α → Device) :
    Device.andThen (d, .ok v) id kind t k = k d v := rfl

@[simp] theorem Device.served_ok {α : Type} (d : Device) (v : α) (p : Packet) (ctx kind t : Nat)
    (k : Device → α → Device) : Device.served (d, .ok v) p ctx kind t k = k d v := rfl

/-! ### The start of a transfer (R58 to R60, R273) -/

/-- A side of a transfer that names both Loft and another device (Table 09-6, R359). -/
def Device.hodLoftFar (d : Device) (w : HodDesc) : Bool :=
  (hodLoft w false && (d.hodFar w false).isSome) || (hodLoft w true && (d.hodFar w true).isSome)

theorem Device.hodLoftFar_eq_false {d : Device} {w : HodDesc} (hsrc : hodLoft w false = false ∨ d.hodFar w false = none)
    (hdst : hodLoft w true = false ∨ d.hodFar w true = none) : d.hodLoftFar w = false := by
  have hside : ∀ {b : Bool} {o : Option Nat}, b = false ∨ o = none → (b && o.isSome) = false := by
    rintro b o (rfl | rfl)
    · rfl
    · exact Bool.and_false b
  rw [Device.hodLoftFar, hside hsrc, hside hdst, Bool.or_false]

/-- A transfer whose descriptor is read and not refused: it moves nothing, names Loft on another device, or
begins. -/
theorem exec_hodXfer_accepted {t : Truss} {j : Job} {d : Device} {bs : List Byte} {s : State}
    (hj : s.dev.active? (.hod t) = some j) (hrun : j.run = .none) (halign : j.cmd.c1.toNat % 8 = 0)
    (hload : s.dev.ptrLoad j.ctx t (unitCode t 1) true j.cmd.c1 128 = (d, .ok bs))
    (href : hodRefusal (bytesWords bs) (d.trussSt t).hodCaps.toNat = none) :
    let w := bytesWords bs
    exec (.hodXfer t) s = .next (s.after (
      if hodTotal w = 0 ∨ hodN0 w = 0 then d.endJob j.id endOk
      else if d.hodLoftFar w then d.endJob j.id (endC stViolation 0 (unitCode t 1) 0 0)
      else d.mapJob j.id (fun j => { j with
        run := .hod w 0 0 (d.fld (Reg.HOD_SCALE_TOL t) Fld.HOD_SCALE_TOL_TOL_S8)
          (d.fld (Reg.HOD_SCALE_TOL t) Fld.HOD_SCALE_TOL_TOL_S4) [] [] false }))) := by
  change execHodXfer t s = _
  refine onDevice_eq ?_
  simp [hj, hrun, halign, hload, href, Device.hodLoftFar]

/-! ### The stores of a unit (R302, Table 10-3) -/

section
variable {d d6 d7 : Device} {j : Job} {t : Nat} {w : HodDesc} {row piece a b : Nat} {fs : List (Nat × List Byte)}
  {stores fit rest : List (Nat × Int × List Byte)}
  (hsplit : splitStores 4096 stores = (fit, rest)) (hwrite : d.hodWriteAll j t w fit = (d6, .ok ()))
  (hcharge : d6.charge j.ctx .hodKib (fit.foldl (fun n y => n + y.2.2.length) 0) t = d7)
include hsplit hwrite hcharge

/-- The task goes on with the rest of the unit. -/
theorem Device.hodPut_more (hrest : rest ≠ []) : d.hodPut j t w row piece a b fs stores =
    d7.mapJob j.id (fun j => { j with run := .hod w row piece a b fs rest false }) := by
  simp [Device.hodPut, hsplit, hwrite, hcharge, hrest]

/-- The task goes on with the next unit, or finishes after its last row. -/
theorem Device.hodPut_done (hrest : rest = []) : d.hodPut j t w row piece a b fs stores =
    let e := d7.mapJob j.id (fun j => { j with
      run := .hod w (hodNext w row piece).1 (hodNext w row piece).2 a b [] [] false })
    if hodTotal w ≤ (hodNext w row piece).1 then e.hodFinish j w else e := by
  simp [Device.hodPut, hsplit, hwrite, hcharge, hrest]

end

/-! ### One step of a transfer (R58, R60 to R70, R304) -/

section
variable {t : Truss} {u : Upset} {j : Job} {w : HodDesc} {row piece a b : Nat} {fs : List (Nat × List Byte)}
  {left : List (Nat × Int × List Byte)} {again : Bool} {s : State}
  (hj : s.dev.active? (.hod t) = some j) (hrun : j.run = .hod w row piece a b fs left again) (hrow : row < hodTotal w)
include hj hrun hrow

/-- A transfer whose writes wait for link credit yields (R304). -/
theorem exec_hodTile_unsent (hunsent : s.dev.unsent j.id = true) :
    exec (.hodTile t u) s = .next (s.after (Device.yieldJob { s.dev with
      remotes := s.dev.remotes.map (fun r => if r.job = j.id ∧ r.kind = 2 then { r with sub := 1 } else r) } j.id)) := by
  change execHodTile t u s = _
  refine onDevice_eq ?_
  simp [hj, hrun, Nat.not_le.mpr hrow, hunsent]

/-- Stores that are left of a unit come first. -/
theorem exec_hodTile_left (hsent : s.dev.unsent j.id = false) (hleft : left ≠ []) :
    exec (.hodTile t u) s = .next (s.after (s.dev.hodPut j t w row piece a b fs left)) := by
  change execHodTile t u s = _
  refine onDevice_eq ?_
  simp [hj, hrun, Nat.not_le.mpr hrow, hsent, hleft]

/-- A unit whose source bytes are there and whose checks pass is converted, counted once, and stored. -/
theorem exec_hodTile_unit {d1 d2 d3 d4 : Device} {first got : List (List Byte)} (hleft : left = [])
    (hsent : s.dev.unsent j.id = false) (hfetch : s.dev.hodFetch j t w row (hodUnit w row piece) fs = (d1, true))
    (hfirst : (if hodTwice w then d1.hodReadAll j.ctx t w fs (hodReads w row (hodUnit w row piece)) else (d1, .ok [])) =
      (d2, .ok first))
    (hread : d2.hodReadAll j.ctx t w fs.reverse (hodReads w row (hodUnit w row piece)) = (d3, .ok got))
    (hskew : hodSkew w (hodUnit w row piece) got = none) (hres : d3.residue j (.hod t) u = (d4, true)) :
    let o := hodConvert (d4.fls.silicon == 0xA1) w a b (hodUnit w row piece) got
    let d5 := if again then d4 else (d4.hodCount t o.tally).report j.id o.tally.report
    exec (.hodTile t u) s = .next (s.after
      ((d5.mapJob j.id (fun j => { j with run := .hod w row piece a b fs [] true })).hodPut j t w row piece a b fs
        (hodStores w row (hodUnit w row piece) o))) := by
  subst hleft
  change execHodTile t u s = _
  refine onDevice_eq ?_
  simp [hj, hrun, Nat.not_le.mpr hrow, hsent, hfetch, hfirst, hread, hskew, hres]

end

/-! ### Replies to a transfer's requests (R359 to R361) -/

section
variable {rtag : Nat} {r : Remote} {s : State}

/-- A reply lands in its reservation and closes it (R360). -/
theorem exec_hodReadReply_open (hr : s.dev.remote? rtag = some r) (hk : r.kind = 1) (data : List Byte) :
    exec (.hodReadReply rtag data) s = .next (s.after ((s.dev.mapJob r.job (fun j => { j with
      run := j.run.withFetched r.addr (slice data 0 r.len) })).remoteDone r)) := by
  change execHodReadReply rtag data s = _
  refine onDevice_eq ?_
  simp [hr, hk]

/-- A reply to a closed reservation is discarded (R360). -/
theorem exec_hodReadReply_closed (hr : s.dev.remote? rtag = none) (data : List Byte) :
    exec (.hodReadReply rtag data) s = .next (s.after s.dev) := by
  change execHodReadReply rtag data s = _
  refine onDevice_eq ?_
  rw [hr]

/-- An acknowledgement closes its write (R359). -/
theorem exec_hodRemoteWriteAck_open (hr : s.dev.remote? rtag = some r) (hk : r.kind = 2) :
    exec (.hodRemoteWriteAck rtag) s = .next (s.after (s.dev.remoteDone r)) := by
  change execHodRemoteWriteAck rtag s = _
  refine onDevice_eq ?_
  simp [hr, hk]

theorem exec_hodRemoteWriteAck_closed (hr : s.dev.remote? rtag = none) :
    exec (.hodRemoteWriteAck rtag) s = .next (s.after s.dev) := by
  change execHodRemoteWriteAck rtag s = _
  refine onDevice_eq ?_
  rw [hr]

/-- A request with no reply by its limit fails its task (R361). -/
theorem exec_hodRemoteTimeout_due {t : Truss}
    (hr : s.dev.remotes.find? (fun r => r.truss == t.val && (r.kind == 1 || r.kind == 2) && r.late s.dev.now) = some r) :
    exec (.hodRemoteTimeout t) s = .next (s.after (s.dev.failRemote r.rtag stRemoteLost 0x51)) := by
  change execHodRemoteTimeout t s = _
  refine onDevice_eq ?_
  simp [hr]

end

/-! ### Requests of other devices (R172, R359) -/

/-- From Stage Batten on, requests of other devices reach the units. -/
theorem Device.Up.serves {d : Device} (h : d.Up) : d.serves = true := by
  rcases h with h | h <;> simp [Device.serves, h]

section
variable {s : State} (hup : s.dev.Up) (p : Packet)
include hup

theorem exec_hodReadRequest :
    exec (.hodReadRequest p) s = .next (s.after (s.dev.serveHodRead { p with kind := 3 })) := by
  change execHodReadRequest p s = _
  exact onDevice_eq (if_pos hup.serves)

theorem exec_hodRemoteWrite :
    exec (.hodRemoteWrite p) s = .next (s.after (s.dev.serveHodWrite { p with kind := 5 })) := by
  change execHodRemoteWrite p s = _
  exact onDevice_eq (if_pos hup.serves)

theorem exec_thtRemoteRowRequest :
    exec (.thtRemoteRowRequest p) s = .next (s.after (s.dev.serveRow { p with kind := 1 })) := by
  change execThtRemoteRowRequest p s = _
  exact onDevice_eq (if_pos hup.serves)

end

section
variable {d e : Device} {p : Packet}

/-- No context of that number here has the request's tenant (R359). -/
theorem Device.serveHodRead_barred (ht : d.tenantOk p = false) : d.serveHodRead p = d.refuseRemote p stViolation 0x50 := by
  simp [Device.serveHodRead, ht]

theorem Device.serveHodWrite_barred (ht : d.tenantOk p = false) :
    d.serveHodWrite p = d.refuseRemote p stViolation 0x50 := by
  simp [Device.serveHodWrite, ht]

theorem Device.serveHodRead_loaded {bs : List Byte} (ht : d.tenantOk p = true)
    (hload : d.vload p.ctx 16 0 p.addr.toNat p.len = (e, .ok bs)) : d.serveHodRead p = e.replyTo p 0x04 bs := by
  simp [Device.serveHodRead, ht, hload]

theorem Device.serveHodWrite_stored (ht : d.tenantOk p = true)
    (hstore : d.vstore p.ctx 16 0 p.addr.toNat p.payload = (e, .ok ())) : d.serveHodWrite p = e.replyTo p 0x06 [] := by
  simp [Device.serveHodWrite, ht, hstore]

/-- The request that stands for a row served to another device (R172). -/
def Table.servedRow (tb : Table) (tag home : Nat) (b : Bool) (l : Nat) (ps : List (Nat × Nat)) (p : Packet) : RowReq :=
  let q := tb.rowOfNo (bits p.addr 39 0)
  { tag := tag, job := 0, truss := home, bag := 0, pos := 0, sub := q.1, addr := (ps.headD (0, 0)).1, len := tb.rowLen
    lines := [], ctx := tb.ctx, va := tb.rowAddr b q.1 l, serve := some p }

/-- A row that this device holds and has translated: its lines are asked of the Soffit, or it is read at once (R172). -/
theorem Device.serveRow_translated {n sub l tag : Nat} {tb : Table} {b : Bool} {ps : List (Nat × Nat)} {f : Device}
    (htb : d.tableOf p.tgid = some (n, tb)) (hexp : d.tableExpelled n = false) (hten : tb.tenant = p.tenant)
    (hgen : tb.slotOfGen p.gen [vStandby, vCurrent, vRetiring] = some b)
    (hplace : tb.place (tb.rowOfNo (bits p.addr 39 0)).2 = some (sub, l)) (hl : l < tb.nlocal)
    (htr : d.translateAll tb.ctx (d.homeOf tb) (unitCode (d.homeOf tb) 8) false
      (pieces (2 ^ 21) (tb.rowAddr b (tb.rowOfNo (bits p.addr 39 0)).1 l) (if tb.cache then tb.rowLen else tb.readLen)) =
        (e, .ok ps))
    (htag : e.newTag = (tag, f)) :
    let r := tb.servedRow tag (d.homeOf tb) b l ps p
    d.serveRow p =
      if tb.cache then
        let lines := ps.flatMap (fun p => (pieces 128 p.1 p.2).map (fun y => y.1 / 128))
        (lines.foldl (fun (d : Device) y => d.sofDemand r.truss y tb.ctx tb.ctx tag)
          { f with rowReqs := f.rowReqs ++ [{ r with lines := lines.map (fun y => (y, none)) }] }).rowsServed
      else
        let got := f.readRow tb.ctx ps
        let data := got.2.map (fun bs => List.replicate (r.addr % 128) (0 : Byte) ++ bs)
        Device.rowsServed { got.1 with
          rowReqs := got.1.rowReqs ++ [{ r with lines := [(r.addr / 128, some data)] }] } := by
  unfold Device.serveRow Table.servedRow
  simp only [htb, hexp, hten, hgen, hplace, htr, htag, ne_eq, not_true_eq_false, if_false, Bool.false_eq_true,
    Nat.not_le.mpr hl, Device.served_ok]

/-- One served row that has all its lines is counted, charged and answered (R172). -/
theorem Device.rowsServed_one {r : RowReq} {bs : List Byte}
    (hdue : d.rowReqs.filter (fun r => r.serve.isSome && r.settled) = [r]) (hserve : r.serve = some p)
    (hbytes : r.bytes = some bs) :
    d.rowsServed = (((Device.count { d with rowReqs := d.rowReqs.filter (fun q => q.tag != r.tag) }
      (Reg.THT_ROWS_SERVED r.truss) 1).charge r.ctx .thtRows 1 r.truss).replyTo p 0x02 bs) := by
  simp [Device.rowsServed, hdue, hserve, hbytes]

end

/-- Settles O13: the forms of each row by its laws above; a tile by what it stores, a row request by what it translates. -/
theorem hodTransfers : Obligations.HodTransfers := by
  refine ⟨?_, ⟨?_, ?_, ?_⟩, ⟨?_, ?_, ?_, ?_⟩, ?_, ?_, ?_, ?_, ?_⟩
  · rintro t j d bs w s hj hrun halign hload rfl href
    rw [exec_hodXfer_accepted hj hrun halign hload href]
    refine ⟨fun hnone => ?_, fun htotal hn0 hsrc hdst => ?_⟩
    · rw [if_pos hnone]
    · rw [if_neg (not_or.mpr ⟨htotal, hn0⟩), Device.hodLoftFar_eq_false hsrc hdst, if_neg Bool.false_ne_true]
  · rintro t u j w row piece a b fs again x o d1 d2 d3 d4 d5 d6 d7 first got fit rest s hj hrun hrow hsent rfl hfetch hfirst
      hread hskew hres rfl rfl hsplit hwrite hcharge
    rw [exec_hodTile_unit hj hrun hrow rfl hsent hfetch hfirst hread hskew hres]
    refine ⟨fun hrest => ?_, fun hrest e he => ?_⟩
    · rw [Device.hodPut_more hsplit hwrite hcharge hrest]
    · rw [Device.hodPut_done hsplit hwrite hcharge hrest, he]
  · intro t u j w row piece a b fs again left fit rest d6 d7 s hj hrun hrow hleft hsent hsplit hrest hwrite hcharge
    rw [exec_hodTile_left hj hrun hrow hsent hleft, Device.hodPut_more hsplit hwrite hcharge hrest]
  · intro t u j w row piece a b fs again left s hj hrun hrow hunsent
    exact exec_hodTile_unsent hj hrun hrow hunsent
  · intro rtag data r s hr hk
    exact exec_hodReadReply_open hr hk data
  · intro rtag data s hr
    exact ⟨exec_hodReadReply_closed hr data, exec_hodRemoteWriteAck_closed hr⟩
  · intro rtag r s hr hk
    exact exec_hodRemoteWriteAck_open hr hk
  · intro t r s hr
    exact exec_hodRemoteTimeout_due hr
  · intro p s hup ht
    rw [exec_hodReadRequest hup, exec_hodRemoteWrite hup, Device.serveHodRead_barred (p := { p with kind := 3 }) ht,
      Device.serveHodWrite_barred (p := { p with kind := 5 }) ht]
    exact ⟨rfl, rfl⟩
  · intro p d bs s hup ht hload
    rw [exec_hodReadRequest hup, Device.serveHodRead_loaded (p := { p with kind := 3 }) ht hload]
  · intro p d s hup ht hstore
    rw [exec_hodRemoteWrite hup, Device.serveHodWrite_stored (p := { p with kind := 5 }) ht hstore]
  · rintro p n tb b sub l home a tag q d e ps r s hup htb hexp hten hgen rfl hplace hl rfl rfl htr htag hr
    rw [exec_thtRemoteRowRequest hup,
      Device.serveRow_translated (p := { p with kind := 1 }) htb hexp hten hgen hplace hl htr htag]
    subst hr
    refine ⟨fun hcache ls hls => ?_, fun hcache f bs hread => ?_⟩
    · rw [if_pos hcache, hls]
      rfl
    · rw [if_neg (Bool.eq_false_iff.mp hcache), hread]
      rfl
  · intro d r p bs hdue hserve hbytes
    exact Device.rowsServed_one hdue hserve hbytes

end Sys2Proof.Machine
end

section
/-! SUPPORT. The Rafter arrays (04): what a task, its instructions, its entries and the ballast come to, form by form, and
the statements of the family settled with them. -/
namespace Sys2Proof.Machine

open Sys2Proof

/-! ### An array after an update -/

@[simp] theorem Device.rafa_mapRafa_self (d : Device) (t a : Nat) (f : RafArray → RafArray) :
    (d.mapRafa t a f).rafa t a = f (d.rafa t a) := tget_tset_self _ _ _ _

@[simp] theorem Device.rafa_rafAt (d : Device) (id : Nat) (q : RafSeq) (t a : Nat) :
    (d.rafAt id q).rafa t a = d.rafa t a := rfl

@[simp] theorem Device.fed_ok {α : Type} (d : Device) (v : α) (t a : Nat) (x : RafTask) (k : Device → α → Device) :
    Device.fed (d, .ok v) t a x k = k d v := rfl

/-! ### The sequencer (R98, R99) -/

section
variable {t : Truss} {a : ArrayNo} {want : Nat} {s : State} {d : Device} {x : RafTask} {w : RafIns}

/-- A task whose END is not decoded goes on (R98). -/
theorem Device.rafMaybeEnd_open {q : RafSeq} (hq : q.ended = false) : d.rafMaybeEnd t a x q = d := by
  simp [Device.rafMaybeEnd, hq]

/-- The task ends when END is decoded, every instruction has admitted its rows, and no entry is left (R98). -/
theorem Device.rafGoOn_eq (d : Device) (x : RafTask) (q : RafSeq) :
    d.rafGoOn t a x q =
      if q.ended = true ∧ q.streams = [] ∧ q.loads = [] ∧ (d.rafa t a).idle = true then
        ((d.rafAt x.job.id q).endJob x.job.id endOk).rafDrop t a x.pair
      else d.rafAt x.job.id q := by
  simp [Device.rafGoOn, Device.rafMaybeEnd, RafSeq.clear, and_assoc]

/-- A task starts: on both arrays of a pair, from the even one (R98, R101). -/
theorem Device.rafBegin_aligned {j : Job} (halign : j.cmd.c1.toNat % 32 = 0)
    (heven : j.cmd.arg 19 19 = 1 → a.val % 2 = 0) :
    d.rafBegin t a j =
      if j.cmd.arg 19 19 = 1 then
        (d.mapJob j.id (fun j => { j with run := .raf j.cmd.c1 true seqStart [] })).mapRafa t (a + 1)
          (fun r => { r with fused := true })
      else d.mapJob j.id (fun j => { j with run := .raf j.cmd.c1 false seqStart [] }) := by
  by_cases hpair : j.cmd.arg 19 19 = 1
  · simp [Device.rafBegin, halign, hpair, heven hpair]
  · simp [Device.rafBegin, halign, hpair, beq_false_of_ne hpair]

theorem exec_rafTask_first {j : Job} (hj : s.dev.active? (.raf t a) = some j) (hrun : j.run = .none) :
    exec (.rafTask t a) s = .next (s.after (s.dev.rafBegin t a j)) := by
  change execRafTask t a s = _
  refine onDevice_eq ?_
  simp [hj, hrun]

/-- The sequencer meets the instruction of its list at its place (R98, R99). -/
theorem Device.rafMeet_loaded {e : Device} {p : Word} {bs : List Byte} (hx : d.rafTask? t a = some x)
    (hopen : x.seq.ended = false) (hstop : x.stopping = false) (hp : ptrMove x.ptr (32 * x.seq.pc : Nat) = some p)
    (hload : d.ptrLoad x.job.ctx t (rafUnit t a) false p 32 = (e, .ok bs))
    (hknown : rafKnown (rafOpc (bytesWords bs)) = true) :
    d.rafMeet t a want = (e, if rafOpc (bytesWords bs) = want then some (x, bytesWords bs) else none) := by
  simp only [Device.rafMeet, hx, hopen, hstop, hp, hload, hknown, Option.getD_some, Bool.or_self, Bool.not_true,
    Bool.false_eq_true, if_false]
  split <;> rfl

theorem rafStep_met (hmeet : s.dev.rafMeet t a want = (d, some (x, w))) (k : Device → RafTask → RafIns → Device) :
    rafStep t a want s k = .next (s.after (k d x w)) :=
  onDevice_eq (by rw [hmeet])

theorem exec_rafNop_met (hmeet : s.dev.rafMeet t a opNop = (d, some (x, w))) :
    exec (.rafNop t a) s = .next (s.after (d.rafAt x.job.id x.seq.next)) := by
  change execRafNop t a s = _
  exact rafStep_met hmeet _

theorem exec_rafEnd_met (hmeet : s.dev.rafMeet t a opEnd = (d, some (x, w))) :
    exec (.rafEnd t a) s = .next (s.after (d.rafGoOn t a x { x.seq with ended := true })) := by
  change execRafEnd t a s = _
  exact rafStep_met hmeet _

end

/-! ### Loads (R95, R97) -/

section
variable {t : Truss} {a : ArrayNo} {s : State} {d : Device} {x : RafTask} {w : RafIns}

theorem exec_rafSload_met (hmeet : s.dev.rafMeet t a opSload = (d, some (x, w))) :
    exec (.rafSload t a) s = .next (s.after (d.rafLoadDecode t a x w)) := by
  change execRafSload t a s = _
  exact onDevice_eq (by rw [hmeet])

/-- An SLOAD that is not refused is decoded behind those that wait, and the oldest of them begins when it may. -/
theorem Device.rafLoadDecode_accepted {q : RafSeq} (hcause : sloadCause w (d.rafCaps t a) x.pair = none)
    (hq : { x.seq.next with loads := x.seq.loads ++ [(x.seq.pc, w)] } = q) :
    d.rafLoadDecode t a x w = (d.rafAt x.job.id q).rafLoad t a { x with seq := q } := by
  simp [Device.rafLoadDecode, hcause, ← hq]

section
variable {idx : Nat} {rest : List (Nat × List Word)} (hloads : x.seq.loads = (idx, w) :: rest)
include hloads

theorem Device.rafLoad_waits (hmay : x.seq.mayLoad (d.rafa t a) idx w = false) : d.rafLoad t a x = d := by
  simp [Device.rafLoad, hloads, hmay]

/-- A set that loads leaves the shadow half that it replaces (R95). -/
theorem Device.rafLoad_begins {e : Device} {set : RafSet} (hmay : x.seq.mayLoad (d.rafa t a) idx w = true)
    (hopen : x.seq.ended = false) (hload : d.loadSet x.job.ctx t (rafUnit t a) w = (e, .ok set)) :
    d.rafLoad t a x =
      (e.mapSets t a x.pair (fun r => r.startLoad (sldHalf w) set)).rafAt x.job.id { x.seq with loads := rest } := by
  simp [Device.rafLoad, hloads, hmay, hload, Device.rafGoOn, Device.rafMaybeEnd_open, hopen]

end

/-- The set whose last row is in becomes the valid shadow set (R95). -/
theorem exec_rafSloadDone_loading {h : Nat} {set : RafSet} {rest : Tbl RafSet} (hon : s.dev.engineOn t = true)
    (hfused : (s.dev.rafa t a).fused = false) (hl : (s.dev.rafa t a).loading = (h, set) :: rest) :
    exec (.rafSloadDone t a) s = .next (s.after (s.dev.mapSets t a (set.shape == 4) (fun r => r.endLoad h set))) := by
  change execRafSloadDone t a s = _
  refine onDevice_eq ?_
  simp [hon, hfused, hl]

end

/-! ### Compute instructions (R94 to R112) -/

/-- The four compute rows are one operation on an opcode and a half (R99, R100). -/
theorem exec_rafCompute {i : Instr} {op half : Nat} {t : Truss} {a : ArrayNo} {h : Fin 2} {bubbles : Nat}
    (hi : (i, op, half) ∈ [(Instr.rafMx128 t a bubbles, opMx128, 0), (.rafMx64p t ⟨a, h⟩ bubbles, opMx64p, h.val),
      (.rafMx256k t a bubbles, opMx256k, 0), (.rafMt128 t a bubbles, opMt128, 0)]) (s : State) :
    exec i s = .next (s.after (s.dev.rafCompute t a op half bubbles)) := by
  simp only [List.mem_cons, List.not_mem_nil, or_false, Prod.mk.injEq] at hi
  rcases hi with ⟨rfl, rfl, rfl⟩ | ⟨rfl, rfl, rfl⟩ | ⟨rfl, rfl, rfl⟩ | ⟨rfl, rfl, rfl⟩
  case inl => rfl
  case inr.inl => rfl
  case inr.inr.inl => rfl
  case inr.inr.inr => rfl

section
variable {t : Truss} {a : ArrayNo} {op half bubbles : Nat} {d e : Device} {x : RafTask} {w : RafIns} {st : RafStream}
  {set : RafSet}

/-- A compute instruction that is not refused is decoded once every one before it has begun (R98). -/
theorem Device.rafDecode_accepted (hbegun : x.seq.streams.all (·.begun) = true)
    (hset : (d.rafa t a).setFor x.seq.loads w x.job.ctx = some set)
    (hcause : computeCause w (d.rafCaps t a) x.pair (some set) = none) :
    let st : RafStream := ⟨x.seq.pc, w, false, 0, d.segRows t x.job.ctx w set⟩
    let q := { x.seq.next with streams := x.seq.streams ++ [st] }
    d.rafDecode t a x w = (d.rafAt x.job.id q, some ({ x with seq := q }, st)) := by
  simp [Device.rafDecode, hbegun, hset, hcause]

/-- With none under way, the instruction that the sequencer meets is decoded and goes on. -/
theorem Device.rafCompute_decodes {y : RafTask} {f : Device} (hx : d.rafTask? t a = some x) (hstop : x.stopping = false)
    (hnone : x.seq.streams = []) (hmeet : d.rafMeet t a op = (e, some (x, w))) (hop : rafOpc w = op)
    (hhalf : rafHalf w = half) (hdec : e.rafDecode t a x w = (f, some (y, st))) :
    d.rafCompute t a op half bubbles = f.rafGo t a y st bubbles := by
  simp [Device.rafCompute, hx, hstop, hnone, hmeet, hop, hhalf, hdec]

/-- One under way goes on before the next is decoded. -/
theorem Device.rafCompute_goesOn (hx : d.rafTask? t a = some x) (hstop : x.stopping = false)
    (hst : x.seq.streams.find? (fun r => rafOpc r.w == op && rafHalf r.w == half) = some st)
    (hmeet : (d.rafGo t a x st bubbles).rafMeet t a op = (e, none)) : d.rafCompute t a op half bubbles = e := by
  simp [Device.rafCompute, hx, hstop, hst, hmeet]

/-- An instruction with rows, on its set, lets rows enter (R96, R98, R104, R123). -/
theorem Device.rafGo_onSet (hmay : st.begun = true ∨ x.seq.mayBegin (d.rafa t a) st = true)
    (hi16 : rafSfmt st.w = fmtI16 → (d.rafa t a).loading = []) (hreload : (d.rafa t a).reload = false)
    (hset : (d.rafa t a).setOf st = some set) (hrows : rafM st.w ≠ 0) :
    d.rafGo t a x st bubbles = d.rafRows t a x st set bubbles := by
  have hmay' : (!st.begun && !x.seq.mayBegin (d.rafa t a) st) = false := by
    rcases hmay with h | h <;> simp [h]
  have hi16' : (decide (rafSfmt st.w = fmtI16) && !(d.rafa t a).loading.isEmpty) = false := by
    simpa using hi16
  simp [Device.rafGo, Device.refresh, hmay', hi16', hreload, hset, hrows]

/-- Rows enter when the segment and the drain slots admit some and the permitted fraction is not 0 (R112, R125). -/
theorem Device.rafRows_admitted {n : Nat} {b : Device} (hn : admissible st.w set (d.rafa t a) st.row st.seg = n)
    (hsome : n ≠ 0) (hpermit : d.permit t a x.pair ≠ 0)
    (hb : (if st.begun then d else d.mapRafa t a (fun r => { r with ctrl := some (d.reg (Reg.RAF_CTRL t a)) })) = b) :
    d.rafRows t a x st set bubbles = (b.reslateFor t a x st set).takeInstruction t a x st set n
      (withBubbles n (b.permit t a x.pair) bubbles) := by
  simp only [Device.rafRows, hn, if_neg hsome, if_neg hpermit, hb]

/-- The reslate rides on the first row (R96). -/
theorem Device.reslateFor_eq (d : Device) (t a : Nat) (x : RafTask) (st : RafStream) (set : RafSet) :
    d.reslateFor t a x st set = if st.begun = false ∧ rafRsl st.w = true then
      (d.mapSets t a x.pair (fun r => r.reslate (rafHalf st.w) set)).count (Reg.RAF_RESLATES t a) 1 else d := by
  simp [Device.reslateFor]

/-- The array once rows `xs` of an instruction have entered: their entries are in the cells, and rows, bubbles and
multiply-accumulates are counted and charged (R110, R117). -/
def Device.rowsIn (d : Device) (t : Truss) (a : ArrayNo) (x : RafTask) (st : RafStream) (set : RafSet) (n bubbles : Nat)
    (xs : List Side) : Device :=
  ((((d.onArrays a x.pair (fun d a => d.rowsEnter t a bubbles)).mapRafa t a (fun r => { r with
      inflight := admitRows a x.job.ctx st.w set st.row xs r.inflight })).count (Reg.RAF_ROWS t a) n).count
    (Reg.RAF_BUBBLES t a) bubbles).charge x.job.ctx .rafMac
      (n * set.krows * set.ncols * (if rafSfmt st.w = fmtI16 then 4 else 1)) t

theorem Device.takeInstruction_streamed {n : Nat} {xs : List Side}
    (hfed : d.streamed x.job.ctx t (rafUnit t a) st.w set.krows ((List.range n).map (st.row + ·)) = (e, .ok xs)) :
    let g := e.rowsIn t a x st set n bubbles xs
    d.takeInstruction t a x st set n bubbles = (if set.krows = 0 then g.noteJob x.job.id noteEmptyRed else g).rafAt
      x.job.id (x.seq.put { st with begun := true, row := st.row + n }) := by
  rw [Device.takeInstruction, hfed]
  rfl

end

/-- Settles O14: each row by what the sequencer meets; a compute row by what is decoded and what goes on. -/
theorem rafterInstructions : Obligations.RafterInstructions := by
  refine ⟨?_, ?_, ⟨?_, ?_, ?_, ?_⟩, ?_, ?_, ?_⟩
  · intro t a j s hj hrun halign heven
    rw [exec_rafTask_first hj hrun, Device.rafBegin_aligned halign heven]
    rfl
  · intro t a want x d d' p bs
    exact Device.rafMeet_loaded
  · intro t a d x w s hmeet
    exact exec_rafNop_met hmeet
  · intro t a d x w s hmeet
    rw [exec_rafEnd_met hmeet, Device.rafGoOn_eq]
    refine ⟨fun hidle hstreams hloads => ?_, fun hleft => ?_⟩
    · rw [if_pos ⟨rfl, hstreams, hloads, hidle⟩]
    · rw [if_neg]
      rintro ⟨-, hstreams, hloads, hidle⟩
      rcases hleft with h | h | h
      · exact Bool.false_ne_true (h.symm.trans hidle)
      · exact h hstreams
      · exact h hloads
  · rintro t a d d' e x q w set s hmeet hcause hnone hq rfl
    have hloads : q.loads = [(x.seq.pc, w)] := by rw [← hq]
    rw [exec_rafSload_met hmeet, Device.rafLoadDecode_accepted (q := q) hcause (by rw [hnone]; exact hq)]
    refine ⟨fun hmay => ?_, fun hmay hopen hload => ?_⟩
    · rw [Device.rafLoad_waits (d := d.rafAt x.job.id q) (x := { x with seq := q }) hloads hmay]
    · have hopen' : q.ended = false := by rw [← hq]; exact hopen
      rw [Device.rafLoad_begins (d := d.rafAt x.job.id q) (x := { x with seq := q }) hloads hmay hopen' hload]
      rfl
  · intro t a h set rest s
    exact exec_rafSloadDone_loading
  · rintro i op half t a h bubbles d x w set st q s hi hx hstop hnone hmeet hop hhalf hset hcause rfl rfl
    have hdec := Device.rafDecode_accepted (by simp [hnone]) hset hcause
    rw [exec_rafCompute hi, Device.rafCompute_decodes hx hstop hnone hmeet hop hhalf hdec, hnone]
    rfl
  · intro i op half t a h bubbles d x st s hi hx hstop hst hmeet
    rw [exec_rafCompute hi, Device.rafCompute_goesOn hx hstop hst hmeet]
  · rintro t a bubbles n m d b e f x st set xs hmay hi16 hreload hset hrows hn hsome hpermit hb rfl he hfed
    refine ⟨_, rfl, ?_⟩
    rw [Device.rafGo_onSet hmay hi16 hreload hset hrows, Device.rafRows_admitted hn hsome hpermit hb,
      Device.reslateFor_eq, he, Device.takeInstruction_streamed hfed]
    rfl

/-! ### Entries (R53, R105, R106, R110, R118 to R121) -/

section
variable {t : Truss} {a : ArrayNo} {u v : AbftRun} {s : State} {d : Device} {x : RafTask} {p : PendEntry}
  {l r : List PendEntry}

/-- The oldest entry whose rows are all in, when its checks pass, leaves the cells and is placed. -/
theorem exec_rafEntryReady_passes (hx : s.dev.rafTask? t a = some x) (hopen : x.seq.ended = false)
    (hfull : splitFull (s.dev.rafa t a).inflight = some (l, p, r))
    (hcheck : p.check (Fld.RAF_CTRL_ABFT_EN.of (s.dev.rafCtrl t a) == 1) u = none) :
    exec (.rafEntryReady t a ⟨u, v⟩) s = .next (s.after
      ((s.dev.mapRafa t a (fun y => { y with inflight := l ++ r })).rafPlace t a x p u.errs)) := by
  change execRafEntryReady t a ⟨u, v⟩ s = _
  refine onDevice_eq ?_
  simp [hx, hfull, hcheck, Device.rafMaybeEnd_open hopen]

/-- With the retry off, an entry that fails a check ends its task (R120). -/
theorem exec_rafEntryReady_fails {m : Mismatch} (hx : s.dev.rafTask? t a = some x)
    (hfull : splitFull (s.dev.rafa t a).inflight = some (l, p, r))
    (hcheck : p.check (Fld.RAF_CTRL_ABFT_EN.of (s.dev.rafCtrl t a) == 1) u = some m)
    (hoff : Fld.RAF_CTRL_ABFT_EN.of (s.dev.rafCtrl t a) = 0 ∨ Fld.RAF_CTRL_ABFT_RETRY.of (s.dev.rafCtrl t a) = 0) :
    exec (.rafEntryReady t a ⟨u, v⟩) s = .next (s.after (s.dev.rafMismatch t a x p.hdr.tag m false)) := by
  change execRafEntryReady t a ⟨u, v⟩ s = _
  refine onDevice_eq ?_
  simp only [hx, hfull, hcheck]
  rcases hoff with h | h
  · simp [h]
  · simp [h]

section
variable {errs : List CellErr}

theorem Device.rafPlace_acm0 (hacm : p.acm = 0) : d.rafPlace t a x p errs =
    d.mapRafa t a (fun r => { r with
      drain := r.drain ++ [{ p.hdr with rows := (narrowEntry (p.cells errs)).rows
                                        xs := (narrowEntry (p.cells errs)).xs }] }) := by
  simp [Device.rafPlace, hacm]

theorem Device.rafPlace_acm1 (hacm : p.acm = 1) : d.rafPlace t a x p errs =
    d.mapRafa t a (fun r => { r with
      bank := tset r.bank (bankKey (d.slotNo x.job.ctx t) p.bankEntry) (narrowEntry (p.cells errs)) }) := by
  simp [Device.rafPlace, hacm]

variable {key : Nat} {sum : BankEntry × Nat} (hkey : bankKey (d.slotNo x.job.ctx t) p.bankEntry = key)
  (hsum : bankAdd (tget (d.rafa t a).bank key zeroBank) (narrowEntry (p.cells errs)) = sum)
include hkey hsum

theorem Device.rafPlace_acm2 (hacm : p.acm = 2) : d.rafPlace t a x p errs =
    (d.report x.job.id (reportCounts sum.2 0)).mapRafa t a (fun r => { r with bank := tset r.bank key sum.1 }) := by
  simp [Device.rafPlace, hacm, hkey, hsum]

theorem Device.rafPlace_acm3 (hacm : p.acm = 3) : d.rafPlace t a x p errs =
    ((d.report x.job.id (reportCounts sum.2 0)).mapRafa t a (fun r => { r with bank := tdel r.bank key })).mapRafa t a
      (fun r => { r with
        drain := r.drain ++ [{ p.hdr with rows := (sum.1.masked p.rows p.cols).rows
                                          xs := (sum.1.masked p.rows p.cols).xs }] }) := by
  simp [Device.rafPlace, hacm, hkey, hsum]

end

/-- The head of the drain buffer enters its queue when that has room and is its context's (R17, R112, R137). -/
theorem exec_tileEntryPush_enters {y : TileEntry} {rest : List TileEntry} {q : LthEngine}
    (hdrain : (s.dev.rafa t a).drain = y :: rest) (hq : tget s.dev.lth (s.dev.lathOf t a) default = q)
    (hon : s.dev.engineOn t = true) (hroom : q.queue.length < 8) (howner : q.queue = [] ∨ q.qowner = some y.ctx) :
    exec (.tileEntryPush t ⟨a, none⟩) s = .next (s.after (s.dev.pushEntry t a y rest q)) := by
  have howner' : (q.queue.isEmpty || q.qowner == some y.ctx) = true := by simpa using howner
  change execTileEntryPush t ⟨a, none⟩ s = _
  refine onDevice_eq ?_
  simp [hdrain, hq, hon, Nat.not_le.mpr hroom, howner']

/-- An entry of no running task is pushed, and no task waits to end by it. -/
theorem Device.pushEntry_noTask {y : TileEntry} {rest : List TileEntry} {q : LthEngine}
    (hx : d.rafTask? t a = none) :
    d.pushEntry t a y rest q = Device.mapRafa
      { d with lth := tset d.lth (d.lathOf t a) { q with queue := q.queue ++ [y], qowner := some y.ctx } }
      t a (fun r => { r with drain := rest }) := by
  have hx' : ∀ (m : Tbl LthEngine) (f : RafArray → RafArray),
      (Device.mapRafa { d with lth := m } t a f).rafTask? t a = none := fun _ _ => hx
  simp only [Device.pushEntry, hx']

end

/-! ### Ballast (R121 to R125) -/

section
variable {d e : Device} (h : d.regs = e.regs)
include h

theorem Device.reg_congr (off : Nat) : d.reg off = e.reg off := by
  rw [Device.reg, Device.reg, h]

theorem Device.setReg_regs_congr (off : Nat) (w : Word) : (d.setReg off w).regs = (e.setReg off w).regs :=
  congrArg (tset · off w) h

/-- What a count leaves in the registers comes from the registers alone (R413, R414). -/
theorem Device.count_regs_congr (off n : Nat) : (d.count off n).regs = (e.count off n).regs := by
  have hset := Device.setReg_regs_congr h off (BitVec.ofNat 64 (min ((e.reg off).toNat + n) counterMax))
  simp only [Device.count, Device.reg_congr h off]
  split
  · exact h
  · split
    · simp only [Device.setOvf, Device.reg_congr hset]
      split
      · exact hset
      · exact Device.setReg_regs_congr hset _ _
    · exact hset

end

section
variable (d : Device) (t a : Nat)

/-- Ballast changes nothing of its array but the generator (R122). -/
theorem Device.ballast_rafa (rows ns : Nat) : ∃ g, (d.ballast t a rows ns).rafa t a = { d.rafa t a with lfsr := g } := by
  unfold Device.ballast
  split
  · exact ⟨_, rfl⟩
  · exact ⟨_, (congrArg (tget · (4 * t + a) default) (Device.count_reported _ _ _).raf).trans
      (Device.rafa_mapRafa_self _ _ _ _)⟩

theorem Device.ballast_jobs (rows ns : Nat) : (d.ballast t a rows ns).jobs = d.jobs := by
  unfold Device.ballast
  split
  · rfl
  · exact (Device.count_reported _ _ _).jobs

/-- Ballast rows are counted, and no other register changes (R122). -/
theorem Device.ballast_regs (rows ns : Nat) :
    (d.ballast t a rows ns).regs = (d.count (Reg.RAF_BALLAST_ROWS t a) rows).regs := by
  have hregs : ∀ f, (d.takeFree.2.mapRafa t a f).regs = d.regs := fun _ => rfl
  unfold Device.ballast
  split
  next hrows => rw [Device.count, if_pos hrows]
  next => exact Device.count_regs_congr (hregs _) _ _

/-- Counting the ballast changes nothing of its array but the generator and up to when it is counted. -/
theorem Device.fillCount_rafa :
    ∃ g n, (d.fillCount t a).rafa t a = { d.rafa t a with lfsr := g, filled := n } := by
  unfold Device.fillCount
  split
  · exact ⟨_, _, rfl⟩
  · obtain ⟨g, hg⟩ := d.ballast_rafa t a (d.fillRows t a) (d.fillNs t a)
    exact ⟨g, d.fillEnd t a, by rw [Device.rafa_mapRafa_self, hg]⟩

theorem Device.fillCount_jobs : (d.fillCount t a).jobs = d.jobs := by
  unfold Device.fillCount
  split
  · rfl
  · exact d.ballast_jobs t a _ _

theorem Device.fillCount_regs :
    (d.fillCount t a).regs = (d.count (Reg.RAF_BALLAST_ROWS t a) (d.fillRows t a)).regs := by
  unfold Device.fillCount
  split
  next hrows => rw [Device.count, if_pos hrows]
  next => exact d.ballast_regs t a _ _

end

section
variable {t : Truss} {a : ArrayNo} {s : State}

/-- A mismatch of running ballast is counted, held and logged, and the active set is loaded again (R121, R123). -/
theorem exec_ballastMismatch_running {col : Option Nat}
    (hballast : Fld.RAF_CTRL_BALLAST_EN.of (s.dev.rafCtrl t a) = 1) (habft : Fld.RAF_CTRL_ABFT_EN.of (s.dev.rafCtrl t a) = 1)
    (hon : s.dev.engineOn t = true) (hduty : (s.dev.rafa t a).duty ≠ 0) :
    let d := (s.dev.count (Reg.RAF_BALLAST_ERR t a) 1).abftInfo t a 0 col 0 0 0 5 false
    exec (.ballastMismatch t a col) s = .next (s.after
      (((d.log 0x02 2 (rafUnit t a) noCtx 0 0 (d.reg (Reg.RAF_ABFT_INFO t a)) (d.reg (Reg.RAF_BALLAST_ERR t a))).suspect
        t).mapRafa t a (fun r => { r with reload := true }))) := by
  change execBallastMismatch t a col s = _
  refine onDevice_eq ?_
  simp [hballast, habft, hon, hduty]

/-- When the window has passed with no valid row, or ballast is off, the ramp-down starts (R124, R125). -/
theorem exec_rafBallastWindow_over (hduty : (s.dev.rafa t a).duty ≠ 0) (hdown : (s.dev.rafa t a).rampDown = false)
    (hover : (s.dev.rafa t a).lastRow + (if Fld.RAF_CTRL_BALLAST_EN.of (s.dev.rafCtrl t a) = 1 then
      s.dev.fld (Reg.RAF_BALLAST t a) Fld.RAF_BALLAST_WINDOW else 0) ≤ s.dev.now) :
    exec (.rafBallastWindow t a) s = .next (s.after ((s.dev.fillCount t a).mapRafa t a fun r =>
      { r with duty := r.duty - 1, rampDown := decide (1 < r.duty), rampUp := false, lastStep := s.dev.now
               filled := s.dev.now
               downStep := max 250 (s.dev.fld (Reg.RAF_BALLAST t a) Fld.RAF_BALLAST_DOWN_STEP) })) := by
  change execRafBallastWindow t a s = _
  refine onDevice_eq ?_
  simp [hduty, hdown, Nat.not_lt.mpr hover]

theorem exec_rafRampDownStep_due (hdown : (s.dev.rafa t a).rampDown = true)
    (hdue : (s.dev.rafa t a).lastStep + (s.dev.rafa t a).downStep ≤ s.dev.now) :
    exec (.rafRampDownStep t a) s = .next (s.after ((s.dev.fillCount t a).mapRafa t a (fun r => { r with
      duty := r.duty - 1, rampDown := decide (1 < r.duty), lastStep := s.dev.now, filled := s.dev.now }))) := by
  change execRafRampDownStep t a s = _
  refine onDevice_eq ?_
  simp [hdown, Nat.not_lt.mpr hdue]

theorem exec_rafRampUpStep_due (hup : (s.dev.rafa t a).rampUp = true)
    (hdue : (s.dev.rafa t a).lastStep + (s.dev.rafa t a).upStep ≤ s.dev.now) :
    exec (.rafRampUpStep t a) s = .next (s.after ((s.dev.fillCount t a).mapRafa t a (fun r => { r with
      duty := min 16 (r.duty + 1), rampUp := decide (r.duty + 1 < 16), lastStep := s.dev.now, filled := s.dev.now }))) := by
  change execRafRampUpStep t a s = _
  refine onDevice_eq ?_
  simp [hup, Nat.not_lt.mpr hdue]

end

/-- Settles O15: an entry by its ACM or its failing check, the ballast by what counting it changes. -/
theorem rafterEntriesAndBallast : Obligations.RafterEntriesAndBallast := by
  refine ⟨⟨?_, ?_, ?_⟩, ?_, ?_, ?_, ?_⟩
  · rintro t a u v x p l r e key new s hx hopen hfull hcheck he rfl hkey
    have hkey' : bankKey (e.slotNo x.job.ctx t) p.bankEntry = key := by rw [← he]; exact hkey
    rw [exec_rafEntryReady_passes hx hopen hfull hcheck, he]
    refine ⟨fun hacm => ?_, fun hacm => ?_, fun sum hsum => ⟨fun hacm => ?_, fun hacm => ?_⟩⟩
    · rw [Device.rafPlace_acm0 hacm]
    · rw [Device.rafPlace_acm1 hacm, hkey']
    · rw [Device.rafPlace_acm2 hkey' hsum hacm]
    · rw [Device.rafPlace_acm3 hkey' hsum hacm]
  · intro t a u v x p l r m s
    exact exec_rafEntryReady_fails
  · intro t a y rest q s hdrain hq hon hroom howner hx
    rw [exec_tileEntryPush_enters hdrain hq hon hroom howner, Device.pushEntry_noTask hx]
  · rintro t a col d s hballast habft hon hduty rfl
    exact exec_ballastMismatch_running hballast habft hon hduty
  · rintro t a w s hduty hdown rfl hover
    obtain ⟨g, n, hfill⟩ := s.dev.fillCount_rafa t a
    refine ⟨_, exec_rafBallastWindow_over hduty hdown hover, ?_, ?_, ?_, ?_, ?_, s.dev.fillCount_jobs t a, ?_,
      fun hnone => ?_, fun _ => s.dev.fillCount_regs t a⟩
    · rw [Device.rafa_mapRafa_self, hfill]
    · rw [Device.rafa_mapRafa_self, hfill, decide_eq_true_iff]
    · rw [Device.rafa_mapRafa_self]
    · rw [Device.rafa_mapRafa_self]
      exact Nat.le_max_left _ _
    · rw [Device.rafa_mapRafa_self]
    · rw [Device.rafa_mapRafa_self, hfill]
    · refine (s.dev.fillCount_regs t a).trans ?_
      rw [hnone, Device.count, if_pos rfl]
  · intro t a s
    exact exec_rafRampDownStep_due
  · intro t a s
    exact exec_rafRampUpStep_due

end Sys2Proof.Machine
end

section
/-! SUPPORT. The banks of a Lath engine (05): what a register holds after a write to it or to another register; and the
statement of the family settled with them. -/
namespace Sys2Proof.Machine

open Sys2Proof

/-! ### Scalars and masks (R130) -/

section
variable (b : LthBank) {k : Nat}

@[simp] theorem LthBank.s_zero : b.s 0 = 0 := rfl

@[simp] theorem LthBank.setS_zero (w : Word) : b.setS 0 w = b := rfl

theorem LthBank.s_setS_self (h : k % 16 ≠ 0) (w : Word) : (b.setS k w).s k = w := by
  simp [LthBank.setS, LthBank.s, h]

/-- A write of a scalar leaves the others; a write of S0 leaves them all. -/
theorem LthBank.s_setS_of_ne {n : Nat} (h : n % 16 ≠ k % 16) (w : Word) : (b.setS k w).s n = b.s n := by
  unfold LthBank.setS
  split
  · rfl
  · simp [LthBank.s, tget_tset_ne _ _ _ h]

@[simp] theorem LthBank.maskReg_zero : b.maskReg 0 = BitVec.allOnes 128 := rfl

@[simp] theorem LthBank.setMask_zero (m : BitVec 128) (mz : Bool) (v : BitVec 128) : b.setMask 0 m mz v = b := rfl

theorem LthBank.maskReg_setMask_self (h : k % 8 ≠ 0) (m : BitVec 128) (mz : Bool) (v : BitVec 128) :
    (b.setMask k m mz v).maskReg k = (v &&& m) ||| (if mz then 0 else b.maskReg k &&& ~~~ m) := by
  simp [LthBank.setMask, LthBank.maskReg, h]

end

/-! ### Vectors (R141) -/

section
variable (b : LthBank) {r : Nat} (hr : r < 32) (m : BitVec 128) (mz : Bool) (xs : List (BitVec 32))

theorem LthBank.vec_setVec_of_ne {k : Nat} (h : k ≠ r % 32) : (b.setVec r m mz xs).vec k = b.vec k :=
  tget_tset_ne _ _ _ h

include hr

theorem LthBank.vec_setVec_self : (b.setVec r m mz xs).vec r =
    lanes.map fun i => if m.getLsbD i then xs.getD i 0 else if mz then 0 else (b.vec r).getD i 0 := by
  simp [LthBank.setVec, LthBank.vec, Nat.mod_eq_of_lt hr]

theorem LthBank.length_vec_setVec_self : ((b.setVec r m mz xs).vec r).length = 128 := by
  simp [b.vec_setVec_self hr, lanes]

theorem LthBank.getD_vec_setVec_self {i : Nat} (hi : i < 128) : ((b.setVec r m mz xs).vec r).getD i 0 =
    if m.getLsbD i then xs.getD i 0 else if mz then 0 else (b.vec r).getD i 0 := by
  simp [b.vec_setVec_self hr, lanes, List.getD_eq_getElem?_getD, hi]

end

/-- Settles O20: the reads of each register file after a write, the hard-wired register apart. -/
theorem lathRegisterWrites : Obligations.LathRegisterWrites := by
  refine ⟨fun b k w m v mz => ⟨b.s_zero, b.setS_zero w, b.maskReg_zero, b.setMask_zero m mz v, fun hpos hk => ?_,
    fun n hn hne hk => ?_, fun hpos hk => ?_⟩, fun b r m mz xs hr => ⟨b.length_vec_setVec_self hr m mz xs,
    fun i => b.getD_vec_setVec_self hr m mz xs, fun k hk => ?_, rfl, rfl, rfl⟩⟩
  · exact b.s_setS_self (by omega) w
  · exact b.s_setS_of_ne (by omega) w
  · exact b.maskReg_setMask_self (by omega) m mz v
  · exact b.vec_setVec_of_ne m mz xs (by omega)

end Sys2Proof.Machine
end

section
/-! SUPPORT. The instructions of a Lath task (05): how an engine meets one, what its row comes to once it runs, and the
statements of the family settled with them. -/
namespace Sys2Proof.Machine

open Sys2Proof

/-! ### The start of a task (R131, R133, R145) -/

/-- The bank a task starts with: S1 to S7 take the words of the argument block, and the program counter is 0. -/
def LthBank.started (b : LthBank) (ws : List Word) : LthBank :=
  (List.range 7).foldl (fun b i => b.setS (i + 1) (wordAt ws i)) { b with pc := 0 }

theorem exec_lthTask_argsRead {t : Truss} {e : LathNo} {j : Job} {d : Device} {bs : List Byte} {s : State}
    (hj : s.dev.active? (.lth t e) = some j) (hrun : j.run = .none) (halign : j.cmd.c1.toNat % 8 = 0)
    (hargs : (if j.cmd.c3 = 0 then (s.dev, Got.ok (List.replicate 56 0))
      else s.dev.ptrLoad j.ctx t (lthUnit t e) false j.cmd.c3 56) = (d, .ok bs)) :
    let f := d.setLthBank t e (d.lthSlot t j.ctx) ((d.lthBank t e (d.lthSlot t j.ctx)).started (bytesWords bs))
    exec (.lthTask t e) s = .next (s.after (if bits j.cmd.c2 15 0 = 0 then f.endJob j.id endOk
      else f.mapJob j.id (fun k => { k with
        run := .lth k.cmd.c1 (bits j.cmd.c2 15 0) (f.fld (Reg.HOD_SCALE_TOL t) Fld.HOD_SCALE_TOL_TOL_S8)
          (f.fld (Reg.HOD_SCALE_TOL t) Fld.HOD_SCALE_TOL_TOL_S4) none }))) := by
  change execLthTask t e s = _
  refine onDevice_eq ?_
  simp only [hj, hrun, halign, ne_eq, not_true_eq_false, if_false]
  rw [hargs]
  rfl

/-! ### The instruction that an engine meets (R133, R143) -/

/-- The task that engine `e` runs for `j`, at the instruction whose eight bytes are `bs`. -/
def Device.lthTaskAt (d : Device) (t : Truss) (e : LathNo) (j : Job) (len a b : Nat) (wf : Option Nat) (bs : List Byte) :
    LthTask :=
  ⟨t, e, j, len, a, b, wf, d.lthSlot t j.ctx, d.lthBank t e (d.lthSlot t j.ctx), lthDecode (bytesWord bs)⟩

section
variable {d d' : Device} {t : Truss} {e : LathNo} {j : Job} {ptr p : Word} {len a b : Nat} {wf : Option Nat}
  {bs : List Byte} (want : Nat) (hj : d.active? (.lth t e) = some j) (hrun : j.run = .lth ptr len a b wf)
  (hat : ptrMove ptr (8 * (d.lthBank t e (d.lthSlot t j.ctx)).pc.toNat : Nat) = some p)
  (hload : d.ptrLoad j.ctx t (lthUnit t e) false p 8 = (d', .ok bs))
include hj hrun hat hload

theorem Device.lthMeet_taken {x : LthTask} (hx : d.lthTaskAt t e j len a b wf bs = x)
    (hc : lthCause x.ins x.bank x.pc len = none) :
    d.lthMeet t e want = (d', if x.ins.opc = want then some x else none) := by
  subst hx
  simp only [Device.lthTaskAt, LthTask.pc] at hc
  simp only [Device.lthMeet, Device.lthTaskAt, hj, hrun, hat, Option.getD_some, hload, hc]
  exact (apply_ite (Prod.mk d') _ _ _).symm

theorem Device.lthMeet_refused {x : LthTask} {c : Nat} (hx : d.lthTaskAt t e j len a b wf bs = x)
    (hc : lthCause x.ins x.bank x.pc len = some c) : d.lthMeet t e want = (d'.lthRefuse x c, none) := by
  subst hx
  simp only [Device.lthTaskAt, LthTask.pc] at hc
  simp only [Device.lthMeet, Device.lthTaskAt, hj, hrun, hat, Option.getD_some, hload, hc]

end

/-- Settles O16: a task by what its argument block leaves, an instruction by how its word is met. -/
theorem lathTasksAndInstructions : Obligations.LathTasksAndInstructions := by
  refine ⟨?_, ?_⟩
  · rintro t e j d f bs s hj hrun halign hargs rfl
    exact exec_lthTask_argsRead hj hrun halign hargs
  · rintro t e want j ptr p len a b wf bank d d' bs x hj hrun rfl hat hload rfl
    exact ⟨Device.lthMeet_taken want hj hrun hat hload rfl, fun c => Device.lthMeet_refused want hj hrun hat hload rfl⟩

/-! ### What an instruction comes to once it runs (R133, R152 to R155) -/

section
variable {s : State} {t : Truss} {e : LathNo} {want : Nat} {u : LathUpset} {m d g : Device} {x : LthTask}

/-- A row carries out its effect on the instruction that the engine has come to. -/
theorem lthRow_of_lthMeet (h : s.dev.lthMeet t e want = (m, some x)) (k : Device → LthTask → Device) :
    lthRow t e want s k = .next (s.after (k m x)) :=
  onDevice_eq (by rw [h])

/-- A row whose effect begins with the checks goes on where they let it. -/
theorem State.LathRuns.lthRow_eq (h : s.LathRuns t e want u d x) {k : Device → LthTask → Device}
    (hk : ∀ m, m.lthUpset x u = (d, true) → k m x = g) : lthRow t e want s k = .next (s.after g) := by
  obtain ⟨m, hmeet, hup⟩ := h
  rw [lthRow_of_lthMeet hmeet, hk m hup]

/-- An instruction that acts on its bank alone retires with the bank it leaves. -/
theorem State.LathRuns.lthPure_eq (h : s.LathRuns t e want u d x) (f : LthTask → LthOut) :
    lthPure t e u want s f = .next (s.after (d.lthRetire x (f x))) :=
  h.lthRow_eq fun m hup => by simp [hup]

/-- An instruction whose access to Loft succeeds retires on the device that the access leaves. -/
theorem State.LathRuns.lthLoft_eq (h : s.LathRuns t e want u d x) {f : Device → LthTask → Device × Got LthOut} {o : LthOut}
    (hf : f d x = (g, .ok o)) : lthLoft t e u want s f = .next (s.after (g.lthRetire x o)) :=
  h.lthRow_eq fun m hup => by simp [hup, hf]

@[simp] theorem gotMap_ok {α β : Type} (d : Device) (v : α) (f : α → β) : gotMap (d, .ok v) f = (d, .ok (f v)) := rfl

/-- The row `i`, which wants the operation `op`, acts on the bank alone, and `x` comes to `o` by it. -/
def LthTask.PureRow (t : Truss) (e : LathNo) (u : LathUpset) (x : LthTask) (i : Instr) (op : Nat) (o : LthOut) : Prop :=
  ∃ f : LthTask → LthOut, f x = o ∧ ∀ s, exec i s = lthPure t e u op s f

theorem LthTask.PureRow.exec_eq {i : Instr} {o : LthOut} (hrow : x.PureRow t e u i want o)
    (h : s.LathRuns t e want u d x) : exec i s = .next (s.after (d.lthRetire x o)) := by
  obtain ⟨f, rfl, hexec⟩ := hrow
  rw [hexec s]
  exact h.lthPure_eq f

/-- Where every row of a list acts on the bank alone, a row of the list retires with what the list gives. -/
theorem State.LathRuns.exec_of_mem {α : Type} {out : α → LthOut} {rows : List (Instr × Nat × α)}
    (hrows : rows.Forall fun r => x.PureRow t e u r.1 r.2.1 (out r.2.2)) {i : Instr} {v : α}
    (hmem : (i, want, v) ∈ rows) (h : s.LathRuns t e want u d x) : exec i s = .next (s.after (d.lthRetire x (out v))) :=
  (List.forall_iff_forall_mem.mp hrows _ hmem).exec_eq h

end

/-! ### Scalars, masks and lanes (R55, R61, R77, R135, R140, R141, R144 to R151) -/

/-- Settles O19: every row of the list is `lthPure` of the bank it gives, and the two accesses retire with what they got. -/
theorem lathScalarsAndMasks : Obligations.LathScalarsAndMasks := by
  refine ⟨?_, ?_, ?_⟩
  · intro t e u d x s i op b
    refine State.LathRuns.exec_of_mem (out := outOf) ?_
    simp only [List.Forall]
    and_intros <;> exact ⟨_, rfl, fun _ => rfl⟩
  · intro t e u d f x bs s hruns hload
    exact hruns.lthLoft_eq (by rw [hload])
  · intro t e u d f x s hruns hstore
    exact hruns.lthLoft_eq (by rw [hstore])

/-- Settles O21: every row of the three lists is `lthPure` of what it gives, and the two loads retire with what they got.
That reductions write masked-off lanes too is the model's choice (log entry 117). -/
theorem lathRows : Obligations.LathRows := by
  refine ⟨?_, ⟨?_, fun t e u d f x bs s => ⟨fun hruns hload => ?_, fun hruns hload => ?_⟩⟩, ?_⟩
  · intro t e u d x s i op o
    refine State.LathRuns.exec_of_mem (out := id) ?_
    simp only [List.Forall]
    and_intros <;> exact ⟨_, rfl, fun _ => rfl⟩
  · intro t e u d x s i op o
    refine State.LathRuns.exec_of_mem (out := id) ?_
    simp only [List.Forall]
    and_intros <;> exact ⟨_, rfl, fun _ => rfl⟩
  · exact hruns.lthLoft_eq (by rw [hload, gotMap_ok])
  · exact hruns.lthLoft_eq (by rw [hload, gotMap_ok])
  · intro t e u d x s i op o
    refine State.LathRuns.exec_of_mem (out := id) ?_
    simp only [List.Forall]
    and_intros <;> exact ⟨_, rfl, fun _ => rfl⟩

/-! ### Control and fences (R133, R136, R143, R266, R373) -/

section
variable {s : State} {t : Truss} {e : LathNo} {u : LathUpset} {d f : Device} {x : LthTask} {bs : List Byte}

theorem exec_lthEnd (h : s.LathRuns t e 0x01 u d x) :
    exec (.lthEnd t e u) s = .next (s.after (d.lthRetireTo x (outOf x.bank) x.len)) :=
  h.lthRow_eq fun m hup => by rw [hup]

theorem exec_lthBr (h : s.LathRuns t e 0x02 u d x) (hk : x.ins.t < 4) : exec (.lthBr t e u) s =
    .next (s.after (d.lthRetireTo x (outOf x.bank)
      (if x.ins.t = 0 ∨ (x.ins.t = 1 ∧ x.bank.s x.ins.va = 0) ∨ (x.ins.t = 2 ∧ x.bank.s x.ins.va ≠ 0) ∨
          (x.ins.t = 3 ∧ (x.bank.s x.ins.va).msb = true)
        then ((x.pc : Int) + x.ins.imm).toNat else x.pc + 1))) := by
  refine h.lthRow_eq fun m hup => ?_
  rw [hup]
  dsimp only
  congr 1
  refine if_congr ?_ rfl rfl
  obtain hk | hk | hk | hk : x.ins.t = 0 ∨ x.ins.t = 1 ∨ x.ins.t = 2 ∨ x.ins.t = 3 := by omega
  all_goals simp [hk]

theorem exec_lthFsig_beyond (h : s.LathRuns t e 0x03 u d x) (hn : 4095 < (x.bank.s x.ins.va).toNat) :
    exec (.lthFsig t e u) s = .next (s.after (d.lthEnd x (endC stInternal 0x07 x.unit x.pc 0))) :=
  h.lthRow_eq fun m hup => by rw [hup]; exact if_pos hn

/-- The device once the slot that FSIG names has taken its trigger, if it asks for one (R373). -/
def Device.fsigTrigger (d : Device) (x : LthTask) : Option Device :=
  if x.ins.t = 1 then d.trigger x.job.ctx (x.bank.s x.ins.vc) else some d

theorem exec_lthFsig_barred (h : s.LathRuns t e 0x03 u d x) (hn : (x.bank.s x.ins.va).toNat ≤ 4095)
    (htrig : d.fsigTrigger x = none) :
    exec (.lthFsig t e u) s = .next (s.after (d.lthEnd x (endC stViolation 0x55 x.unit 0 0))) := by
  refine h.lthRow_eq fun m hup => ?_
  unfold Device.fsigTrigger at htrig
  simp only [hup, if_neg (Nat.not_lt.mpr hn), htrig]

theorem exec_lthFsig_signals (h : s.LathRuns t e 0x03 u d x) (hn : (x.bank.s x.ins.va).toNat ≤ 4095)
    (htrig : d.fsigTrigger x = some f) :
    let r := f.signal x.job.ctx (x.bank.s x.ins.va).toNat (x.bank.s x.ins.vb)
    exec (.lthFsig t e u) s =
      .next (s.after ((if r.2 then r.1.noteJob x.job.id noteFenceStale else r.1).lthRetire x (outOf x.bank))) := by
  refine h.lthRow_eq fun m hup => ?_
  unfold Device.fsigTrigger at htrig
  simp only [hup, if_neg (Nat.not_lt.mpr hn), htrig]

/-! ### Loads and stores (R20, R80, R82, R142, R145) -/

/-- LDSC takes the exponents once no active block's entry has another ordinal (R82). -/
theorem exec_lthLdsc_matching (h : s.LathRuns t e 0x42 u d x)
    (hload : d.ptrLoad x.job.ctx t x.unit false (lthPtr x.ins x.bank x.ins.va) (2 * (128 / blkSize x.ins.t)) = (f, .ok bs))
    (hord : ∀ j, j < 128 / blkSize x.ins.t → x.blockOn (blkSize x.ins.t) j = true →
      entryOrd (leNat (slice bs (2 * j) 2)) = ((x.bank.s x.ins.vb).toNat + j) % 64) :
    exec (.lthLdsc t e u) s = .next (s.after (f.lthRetire x (outOf (x.put32 (lanes.map (fun i =>
      (entryExp (leNat (slice bs (2 * (i / blkSize x.ins.t)) 2)) : Int))))))) := by
  have hnone : (List.range (128 / blkSize x.ins.t)).find? (fun j => x.blockOn (blkSize x.ins.t) j &&
      entryOrd (leNat (slice bs (2 * j) 2)) != ((x.bank.s x.ins.vb).toNat + j) % 64) = none := by
    simpa [List.find?_eq_none] using hord
  refine h.lthRow_eq fun m hup => ?_
  simp only [hup, hload, hnone]

/-! ### The finished-tile queue (R137 to R139) -/

/-- What the queue holds once the next row of its head is taken (R138). -/
def tqLeft (head : TileEntry) (rest : List TileEntry) : List TileEntry :=
  if head.popped = 7 then rest else { head with popped := head.popped + 1 } :: rest

/-- The device once the queue of an engine holds what is left of it: an empty queue is nobody's (R137). -/
def Device.tqTake (d : Device) (t : Truss) (e : LathNo) (left : List TileEntry) : Device :=
  let g := d.setLthe t e { d.lthe t e with queue := left, qowner := if left.isEmpty then none else (d.lthe t e).qowner }
  (if left.isEmpty then g.wakeQueue t e else g).count (Reg.LTH_TQ_POPS t e) 1

section
variable {m : Device} {head : TileEntry} {rest : List TileEntry} (hq : (m.lthe t e).queue = head :: rest)
  (hready : m.tqReady x = true) (hup : m.lthUpset x u = (d, true))
include hq hready hup

theorem exec_lthTqpop_ready (hmeet : s.dev.lthMeet t e 0x44 = (m, some x)) : exec (.lthTqpop t e u) s =
    .next (s.after (((d.tqGo x).tqTake t e (tqLeft head rest)).lthRetire x
      (outOf (x.bank.setGroup x.ins.vd x.mask x.ins.mz (tileRow head))))) := by
  refine (lthRow_of_lthMeet hmeet _).trans ?_
  simp only [hq, hready, hup, Bool.not_true, Bool.false_eq_true, if_false, beq_iff_eq]
  rfl

theorem exec_lthTqhdr_ready (hmeet : s.dev.lthMeet t e 0x45 = (m, some x)) : exec (.lthTqhdr t e u) s =
    .next (s.after ((d.tqGo x).lthRetire x (outOf (x.bank.setS x.ins.vd (tqHeader head))))) := by
  refine (lthRow_of_lthMeet hmeet _).trans ?_
  simp only [hq, hready, hup, Bool.not_true, Bool.false_eq_true, if_false]

end

section
variable {j : Job} {rest : List Job} {p : Word} {n a b w : Nat} (hjobs : s.dev.jobs = j :: rest)
  (heng : j.engine = some (.lth t e)) (hrun : j.run = .lth p n a b (some w))
include hjobs heng hrun

theorem exec_lthTqTimeout_late
    (hlate : w + max 1 (s.dev.fld (Reg.LTH_CTRL t e) Fld.LTH_CTRL_TQ_TIMEOUT) * 1000 < s.dev.now) :
    exec (.lthTqTimeout t e) s = .next (s.after ((s.dev.endJob j.id
      (endC stInternal 0x06 (lthUnit t e) (s.dev.lthBank t e (s.dev.lthSlot t j.ctx)).pc.toNat 0)).lthWait t e 0)) := by
  change execLthTqTimeout t e s = _
  refine onDevice_eq ?_
  simp [hjobs, heng, hrun, hlate]

theorem Device.countTq_waiting :
    s.dev.countTq j.id = s.dev.count (Reg.LTH_TQ_WAIT t e) ((s.dev.now - w) * s.dev.mhzNow t / 1000) := by
  simp [Device.countTq, Device.job?, hjobs, heng, hrun]

end

end

/-- Settles O18: each row by its law above, the stores and LD by what the access got. -/
theorem lathControlAndMemory : Obligations.LathControlAndMemory := by
  refine ⟨fun t e u d x s => ⟨fun h => h.lthPure_eq _, exec_lthEnd, exec_lthBr⟩, fun t e u d x s h =>
    ⟨exec_lthFsig_beyond h, fun hn => ⟨fun hk htrig => ?_, ?_⟩⟩, fun t e u d f x bs tr a s =>
    ⟨fun h hload => ?_, fun h hres hst => ?_, exec_lthLdsc_matching, fun h hres hst => ?_⟩, ?_, ?_, ?_⟩
  · exact exec_lthFsig_barred h hn ((if_pos hk).trans htrig)
  · rintro f r htrig rfl
    exact exec_lthFsig_signals h hn htrig
  · exact h.lthLoft_eq (by rw [hload, gotMap_ok])
  · exact h.lthLoft_eq (by simp only [hres, hst, gotMap_ok])
  · exact h.lthLoft_eq (by simp only [hres, hst, gotMap_ok])
  · rintro t e u m d f g x head rest left s hmeet hq hready hup rfl rfl rfl
    exact exec_lthTqpop_ready hq hready hup hmeet
  · intro t e u m d x head rest s hmeet hq hready hup
    exact exec_lthTqhdr_ready hq hready hup hmeet
  · intro t e j rest p n a b w s hjobs heng hrun hlate
    exact ⟨exec_lthTqTimeout_late hjobs heng hrun hlate, Device.countTq_waiting hjobs heng hrun⟩

end Sys2Proof.Machine
end

section
/-! SUPPORT. The Thatch engine (06): how a look-up binds its slot and takes its rows in, what a delta task sends, what an
owner makes of a batch or marker, and the statement of the family settled with them. -/
namespace Sys2Proof.Machine

open Sys2Proof

/-! ### Look-ups (R162 to R166, R178) -/

section
variable {t : Truss} {j k : Job} {d e : Device} {s : State}

/-- A look-up that passes its checks binds the slot that VSEL selects, with its generation (R166, R178). -/
theorem Device.thtStart_bound {bs : List Byte} {b : Bool}
    (hload : d.ptrLoad j.ctx t (unitCode t 8) false j.cmd.c1 64 = (e, .ok bs))
    (hvalid : (e.table (thtTable (bytesWords bs))).valid = true) (hctx : j.ctx = (e.table (thtTable (bytesWords bs))).ctx)
    (hcause : thtStartCause (bytesWords bs) (e.table (thtTable (bytesWords bs))) = none)
    (hbind : (e.table (thtTable (bytesWords bs))).bindSlot (bytesWords bs) = some b)
    (hexp : e.tableExpelled (thtTable (bytesWords bs)) = false) :
    let w := bytesWords bs
    d.thtStart j t = e.setTht j (.tht w (thtTable w) b ((e.table (thtTable w)).slot b).gen 0 []) := by
  rw [Device.thtStart, hload, Device.andThen_ok]
  dsimp only
  rw [hcause, hvalid, Bool.not_true, if_neg Bool.false_ne_true, if_neg (not_not.mpr hctx)]
  dsimp only
  rw [hbind]
  dsimp only
  rw [hexp, if_neg Bool.false_ne_true]

/-- With every complete bag stored and every row asked for, the next bag opens (R164). -/
theorem Device.thtGo_opens {w : ThtDesc} {n gen next : Nat} {b : Bool} {bags : List ThtBag} (hdone : d.bagsDone j.id t = e)
    (hk : e.job? j.id = some k) (hstate : k.state = .running) (hrun : k.run = .tht w n b gen next bags)
    (hasked : unasked bags = []) (hnext : next < thtBags w) : d.thtGo j t = (e.openBag k t).bagsDone k.id t := by
  simp [Device.thtGo, hdone, hk, hstate, hrun, hasked, hnext]

section
variable (hj : s.dev.active? (.tht t) = some j) (hlook : bit j.cmd.c0 19 = false)
include hj hlook

theorem exec_thtTask_first (hrun : j.run = .none) (halign : j.cmd.c1.toNat % 8 = 0) :
    exec (.thtTask t) s = .next (s.after (s.dev.thtStart j t)) := by
  change execThtTask t s = _
  refine onDevice_eq ?_
  simp [hj, hlook, hrun, halign]

theorem exec_thtTask_bound {w : ThtDesc} {n gen next : Nat} {b : Bool} {bags : List ThtBag}
    (hrun : j.run = .tht w n b gen next bags) : exec (.thtTask t) s = .next (s.after (s.dev.thtGo j t)) := by
  change execThtTask t s = _
  refine onDevice_eq ?_
  simp [hj, hlook, hrun]

end

end

/-! ### The rows of a look-up (R167, R171, R174) -/

/-- A local row that came whole is counted, charged and put in its place (R167). -/
theorem exec_thtRowArrive_whole {t : Truss} {rtag : Nat} {u : Upset} {r : RowReq} {j : Job} {bs : List Byte} {e d : Device}
    {s : State} (hr : s.dev.rowReqs.find? (fun r => r.tag == rtag && r.truss == t.val && r.serve.isNone) = some r)
    (hsettled : r.settled = true) (he : { s.dev with rowReqs := s.dev.rowReqs.filter (fun q => q.tag != rtag) } = e)
    (hj : e.job? r.job = some j) (hlive : j.state ≠ .done) (hbytes : r.bytes = some bs)
    (hres : e.residue j (.tht t) u = (d, true)) :
    exec (.thtRowArrive t rtag u) s = .next (s.after ((((d.count (Reg.THT_ROWS_LOCAL t) 1).charge j.ctx .thtRows 1 t).mapRow
      j.id r.bag r.pos r.sub (fun x => { x with data := some bs })).bagsDone j.id t)) := by
  change execThtRowArrive t rtag u s = _
  refine onDevice_eq ?_
  simp [hr, hsettled, he, hj, hlive, hbytes, hres]

section
variable {rtag : Nat} {r : Remote} {s : State}

/-- A remote row is charged to its task's context and put in its place (R171). -/
theorem exec_thtRemoteReply_open {j : Job} (hr : s.dev.remote? rtag = some r) (hk : r.kind = 0)
    (hj : s.dev.job? r.job = some j) (data : List Byte) :
    exec (.thtRemoteReply rtag data) s = .next (s.after ((((s.dev.mapRow r.job r.bag r.pos r.sub (fun x => { x with
      data := some (slice data 0 r.len) })).charge j.ctx .thtRows 1 r.truss).remoteDone r).bagsDone r.job r.truss)) := by
  change execThtRemoteReply rtag data s = _
  refine onDevice_eq ?_
  simp [hr, hk, hj]

/-- A reply to a task that has ended is discarded (R174). -/
theorem exec_thtRemoteReply_closed (hr : s.dev.remote? rtag = none) (data : List Byte) :
    exec (.thtRemoteReply rtag data) s = .next (s.after { s.dev with
      remotes := s.dev.remotes.filter (fun r => r.rtag != rtag) }) := by
  change execThtRemoteReply rtag data s = _
  refine onDevice_eq ?_
  rw [hr]

/-- A remote row with no reply by its limit fails its task (R174, R361). -/
theorem exec_thtRemoteTimeout_due {t : Truss}
    (hr : s.dev.remotes.find? (fun r => r.truss == t.val && r.kind == 0 && r.late s.dev.now) = some r) :
    exec (.thtRemoteTimeout t) s = .next (s.after (s.dev.failRemote r.rtag stRemoteLost 0x51)) := by
  change execThtRemoteTimeout t s = _
  refine onDevice_eq ?_
  rw [hr]

end

/-! ### Delta tasks (R180, R181, R183) -/

/-- A delta task that has sent all it has yields while acknowledgements are awaited, and ends with the last (R183). -/
def Device.deltaAwait (d : Device) (id : Nat) : Device :=
  match d.job? id with
  | none => d
  | some k =>
    if k.state = .done then d
    else if d.remotes.any (fun q => q.job == id) then d.yieldJob id
    else d.endJob id endOk

/-- What a delta task sends of its folded records: its batches, then its markers if asked for (R181). -/
def Device.deltaSent (d : Device) (j : Job) (t : Nat) (w : ThtDesc) (x : Table) (fs : List Folded) : Device :=
  let b := d.deltaBase j w x
  let o := (d.setTht j (.delta w)).deltaOpens j t b fs ((fs.map (·.1)).eraseDups)
  let e := o.1.deltaSends j t o.2
  if thtF w 0 12 12 = 1 && !e.taskFailed j.id then e.markers j t b (e.ownersOf x) else e

section
variable {t : Truss} {j k : Job} {d e f : Device} {w : ThtDesc} {x : Table} {fs : List Folded}

theorem Device.deltaAwait_live (hk : d.job? j.id = some k) (hlive : k.state ≠ .done) :
    d.deltaAwait j.id = if d.remotes.any (fun q => q.job == j.id) then d.yieldJob j.id else d.endJob j.id endOk := by
  rw [Device.deltaAwait, hk]
  exact if_neg hlive

/-- A task that no batch has ended sends its markers when LAST = 1 (R181). -/
theorem Device.deltaSent_live {os : List (Nat × DeltaBatch)}
    (hopen : (d.setTht j (.delta w)).deltaOpens j t (d.deltaBase j w x) fs ((fs.map (·.1)).eraseDups) = (e, os))
    (hsend : e.deltaSends j t os = f) (hlive : f.taskFailed j.id = false) :
    d.deltaSent j t w x fs =
      if thtF w 0 12 12 = 1 then f.markers j t (d.deltaBase j w x) (f.ownersOf x) else f := by
  simp [Device.deltaSent, hopen, hsend, hlive]

/-- A delta task whose descriptor passes its checks and whose records fold sends them and waits (R166, R180). -/
theorem exec_thtDeltaTask_folded {bs : List Byte} {s : State} (hj : s.dev.active? (.tht t) = some j)
    (hdelta : bit j.cmd.c0 19 = true) (hrun : j.run = .none) (halign : j.cmd.c1.toNat % 8 = 0)
    (hload : s.dev.ptrLoad j.ctx t (unitCode t 8) false j.cmd.c1 32 = (d, .ok bs)) (hw : bytesWords bs = w)
    (hx : d.table (thtTable w) = x) (hvalid : x.valid = true) (hctx : j.ctx = x.ctx) (hcause : deltaStartCause w x = none)
    (hfold : d.deltaRecords j t (thtF w 3 31 0) x (thtF w 2 48 32) 0 0 [] = (e, some fs)) :
    exec (.thtDeltaTask t) s = .next (s.after ((e.deltaSent j t w x fs).deltaAwait j.id)) := by
  change execThtDeltaTask t s = _
  refine onDevice_eq ?_
  simp only [hj, hdelta, hrun, halign, hload, hw, hx, hvalid, hcause, hfold, Device.andThen_ok, bne_self_eq_false,
    Bool.not_true, Bool.or_self, Bool.false_eq_true, ne_eq, not_true_eq_false, not_not.mpr hctx, if_false]
  rfl

end

/-! ### Batches and markers at their owner (R182, R183, R356) -/

/-- What becomes of a batch at its owner: its source hears of one taken or refused. -/
def Device.answerBatch (d : Device) (b : DeltaBatch) : Accept → Device
  | .taken => d.tellSource b stOk 0
  | .refused st c => d.tellSource b st c
  | .duplicate | .waits => d

theorem exec_deltaBatch_met {b : DeltaBatch} {d : Device} {a : Accept} {s : State} (hup : s.dev.serves = true)
    (h : s.dev.acceptBatch b = (d, a)) : exec (.deltaBatch b) s = .next (s.after (d.answerBatch b a)) := by
  change execDeltaBatch b s = _
  refine onDevice_eq ?_
  rw [hup, Bool.not_true, if_neg Bool.false_ne_true, h]
  cases a <;> rfl

/-- The first marker of a source in an open round within the window joins the round (R182). -/
theorem Device.acceptMarker_joins {d : Device} {b : DeltaBatch} {n : Nat} {c : Bool} {tb : Table} {r : Round}
    (htb : d.tableOf b.tgid = some (n, tb)) (hslot : tb.slotOfGen b.gen acceptingStates = some c)
    (hr : (tb.slot c).round? b.round = some r) (hnew : (tb.slot c).applied < b.round) (hopen : r.closed = false)
    (hwin : b.round ≤ (tb.slot c).applied + 4) (hfirst : r.markers.contains b.source = false) :
    d.acceptMarker b = (d.mapSlot n c (fun v => v.putRound { r with
      markers := r.markers ++ [b.source], said := if r.markers.isEmpty then b.nsrc else r.said }), .taken) := by
  simp only [Device.acceptMarker, htb, hslot, hr, hopen, hfirst, Nat.not_le.mpr hnew, Nat.not_lt.mpr hwin, decide_false,
    Bool.or_self, Bool.false_eq_true, if_false]

theorem exec_endOfRoundMarker_served {s : State} (hup : s.dev.serves = true) (source tgid gen round nsrc : Nat) :
    exec (.endOfRoundMarker source tgid gen round nsrc) s = .next (s.after (s.dev.acceptMarker
      { source := source, tgid := tgid, tenant := 0, gen := gen, round := round, nsrc := nsrc, seq := 0, rtag := 0
        dfence := false, wait := false, rows := [] }).1) := by
  change execEndOfRoundMarker source tgid gen round nsrc s = _
  refine onDevice_eq ?_
  rw [hup, Bool.not_true, if_neg Bool.false_ne_true]

/-! ### Acknowledgements (R166, R183) -/

section
variable {d : Device} {rtag status cause : Nat} {r : Remote} (hr : d.remote? rtag = some r) (hk : r.kind = 3)
include hr hk

theorem Device.batchAck_failed (hfail : status ≠ stOk) (hown : status ≠ stInternal) :
    d.batchAck rtag status cause = d.failRemote rtag status cause := by
  simp [Device.batchAck, hr, hk, hfail, hown]

/-- A batch that its owner refuses is a refusal of its task too: counted and logged (R166, R183). -/
theorem Device.batchAck_refused {e : Device} {j : Job} (he : d.failRemote rtag stInternal cause = e)
    (hj : e.job? r.job = some j) :
    d.batchAck rtag stInternal cause = ((e.count (Reg.THT_REFUSED r.truss) 1).log 0x0C 3 (unitCode r.truss 8) j.ctx 2 0
      (BitVec.ofNat 64 cause) (BitVec.ofNat 64 r.bag)) := by
  have hfail : stInternal ≠ stOk := by decide
  simp [Device.batchAck, hr, hk, hfail, he, hj]

/-- A batch that also waits for its round takes its first acknowledgement (R183). -/
theorem Device.batchAck_first (hpos : 1 < r.pos) : d.batchAck rtag stOk cause = { d with
    remotes := d.remotes.map (fun q => if q.rtag = rtag then { q with pos := q.pos - 1 } else q) } := by
  simp [Device.batchAck, hr, hk, hpos]

/-- A batch is done with its last acknowledgement, and its task with its last batch (R183). -/
theorem Device.batchAck_last {e : Device} (hpos : r.pos ≤ 1)
    (he : { d with remotes := d.remotes.filter (fun q => q.rtag != rtag) } = e) :
    d.batchAck rtag stOk cause = if e.remotes.any (fun q => q.job == r.job) then e else e.endJob r.job endOk := by
  subst he
  simp only [Device.batchAck, hr, hk, ne_eq, not_true_eq_false, if_false, Nat.not_lt.mpr hpos]

end

theorem exec_deltaBatchAck (rtag status cause : Nat) (s : State) :
    exec (.deltaBatchAck rtag status cause) s = .next (s.after (s.dev.batchAck rtag (status % 256) (cause % 256))) := rfl

/-- Settles O23: each form of a row by its law above. That an acknowledgement may be the first of two (`r.pos`) is the
model's choice (log entry 54). -/
theorem lookUpsAndDeltas : Obligations.LookUpsAndDeltas := by
  refine ⟨⟨?_, ?_⟩, ⟨?_, ?_, ?_, ?_⟩, ?_, ?_, ?_, ?_⟩
  · rintro t j d bs w b s hj hlook hrun halign hload rfl hvalid hctx hcause hbind hexp
    rw [exec_thtTask_first hj hlook hrun halign, Device.thtStart_bound hload hvalid hctx hcause hbind hexp]
  · rintro t j k d w n gen next b bags s hj hlook hrun hdone hk hstate ⟨bags', hrun', hasked⟩ hnext
    rw [exec_thtTask_bound hj hlook hrun, Device.thtGo_opens hdone hk hstate hrun' hasked hnext]
  · intro t rtag u r j bs e d s
    exact exec_thtRowArrive_whole
  · intro rtag data r j s hr hk hj
    exact exec_thtRemoteReply_open hr hk hj data
  · intro rtag data s hr
    exact exec_thtRemoteReply_closed hr data
  · intro t r s
    exact exec_thtRemoteTimeout_due
  · rintro t j k d d2 d3 d4 d5 bs w x fs os s hj hdelta hrun halign hload hw hx hvalid hctx hcause hfold hopen hsend hlive rfl
      hk hstate
    rw [exec_thtDeltaTask_folded hj hdelta hrun halign hload hw hx hvalid hctx hcause hfold,
      Device.deltaSent_live hopen hsend hlive, Device.deltaAwait_live hk hstate]
  · intro b d s hup
    exact ⟨exec_deltaBatch_met hup, exec_deltaBatch_met hup, fun st c => exec_deltaBatch_met hup⟩
  · intro source tgid gen round nsrc n b tb r s hup htb hslot hr hnew hopen hwin hfirst
    rw [exec_endOfRoundMarker_served hup, Device.acceptMarker_joins htb hslot hr hnew hopen hwin hfirst]
  · intro rtag status cause r s hr hk
    rw [exec_deltaBatchAck]
    refine ⟨fun hfail hown => ?_, fun hown d j he hj => ?_, fun hok hpos => ?_, fun d hok hpos he => ?_⟩
    · rw [Device.batchAck_failed hr hk hfail hown]
    · rw [hown, Device.batchAck_refused hr hk he hj]
    · rw [hok, Device.batchAck_first hr hk hpos]
    · rw [hok, Device.batchAck_last hr hk hpos he]

end Sys2Proof.Machine
end

section
/-! SUPPORT. The tables of the Thatch (06): how rounds, digest builds and retiring slots move on, what each table operation
does to its slot, and the statement of the family settled with them. -/
namespace Sys2Proof.Machine

open Sys2Proof

/-! ### What an access got, and what a count of nothing leaves -/

@[simp] theorem Device.andThenIn_ok {α : Type} (d : Device) (v : α) (c id kind t : Nat) (k : Device → α → Device) :
    Device.andThenIn (d, .ok v) c id kind t k = k d v := rfl

@[simp] theorem Device.count_zero (d : Device) (off : Nat) : d.count off 0 = d := if_pos rfl

/-! ### Rounds, digests and releases (R177, R182, R184 to R187) -/

section
variable {n j : Nat} {b : Bool} {d : Device} {s : State}

/-- A row after which served requests go on answers the state after they have. -/
theorem onServing_eq {f : Device → Device} (h : f s.dev = d) : onServing s f = .next (s.after d.serveAgain) :=
  onDevice_eq (congrArg Device.serveAgain h)

/-- The lowest open round, complete and with every update made, is applied (R182, R184). -/
theorem exec_roundApply_made {r : Round} (hup : s.dev.serves = true) (hvalid : (s.dev.table n).valid = true)
    (hbuild : ((s.dev.table n).slot b).build = none) (hstate : ((s.dev.table n).slot b).state ≠ vEmpty)
    (hlow : ((s.dev.table n).slot b).lowest = some r) (hcomplete : r.complete = true)
    (hmade : s.dev.writeRows n b (s.dev.table n) (r.updates.drop r.made) = (d, true)) :
    exec (.roundApply n b) s = .next (s.after (d.roundDone n b r).serveAgain) := by
  change execRoundApply n b s = _
  refine onServing_eq ?_
  simp [hup, hvalid, hbuild, hstate, hlow, hcomplete, hmade]

/-- A build whose rows are all read: SEAL leaves its slot STANDBY with the sum, and REBUILD ends OK when the sum is the
digest kept, or records the difference (R186, R187). -/
theorem exec_digestBuildDone_summed {kind : Nat} {sum : Word} (hbuild : ((s.dev.table n).slot b).build = some (kind, j))
    (hsum : s.dev.digestRows (s.dev.table n) b (s.dev.localRows (s.dev.table n)) 0 = (d, .ok sum)) :
    let t := s.dev.table n
    let e := (d.endBuild n b).mapSlot n b (fun v => { v with digest := sum })
    exec (.digestBuildDone n b) s = .next (s.after
      (if kind = 1 then ((d.endBuild n b).mapSlot n b (fun v => { v with digest := sum, state := vStandby })).endJob j endOk
      else if sum = (t.slot b).digest then e.endJob j endOk
      else (e.endJob j (endC stAbft 0 0 n 0)).log 0x0B 0 (unitCode (e.homeOf t) 8) t.ctx 2 0 (t.slot b).digest sum)) := by
  change execDigestBuildDone n b s = _
  refine onDevice_eq ?_
  dsimp only
  rw [hbuild]
  dsimp only
  rw [hsum]

/-- A slot that no build holds becomes EMPTY, and no command hears of it. -/
theorem Device.emptySlot_unbuilt (hbuild : ((d.table n).slot b).build = none) :
    d.emptySlot n b = d.mapSlot n b (fun v => { v with state := vEmpty, rounds := [], build := none }) := by
  simp only [Device.emptySlot, hbuild]

/-- A RETIRING slot with no bound task, no request waiting here and nothing staged is emptied (R177). -/
theorem exec_slotRelease_unused (hstate : ((s.dev.table n).slot b).state = vRetiring) (hbound : s.dev.boundTasks n b = 0)
    (hserved : s.dev.serving.any (fun p => p.2.kind == 1 && p.2.tgid == (s.dev.table n).tgid &&
      p.2.gen == ((s.dev.table n).slot b).gen) = false)
    (hrounds : ((s.dev.table n).slot b).rounds = []) :
    exec (.slotRelease n b) s = .next (s.after (s.dev.emptySlot n b)) := by
  change execSlotRelease n b s = _
  refine onDevice_eq ?_
  simp only [hstate, hbound, hserved, hrounds, ne_eq, not_true_eq_false, decide_false, bne_self_eq_false, List.any_nil,
    Bool.or_self, Bool.false_eq_true, if_false]

end

/-! ### Table operations (R159, R176, R182, R186, Table 06-6) -/

/-- DESC loads a descriptor that passes its checks, with its owner list, while both slots are EMPTY (R159, R176). -/
theorem exec_desc_loads {j : Nat} {k : Job} {d e : Device} {bs os : List Byte} {u : Table} {s : State}
    (hop : s.dev.tableOp? j 0 = some k) (ha : (s.dev.table k.cmd.tableNo).a.state = vEmpty)
    (hb : (s.dev.table k.cmd.tableNo).b.state = vEmpty)
    (hload : s.dev.vload 0 16 k.cmd.opUnit ((s.dev.fld Reg.THT_TDT_BASE Fld.THT_TDT_BASE_ADDR * 128 + 128 * k.cmd.tableNo :
      Nat) : Int) 128 = (d, .ok bs))
    (hu : { s.dev.table k.cmd.tableNo with desc := bytesWords bs } = u) (hctx : k.ctx = 0 ∨ k.ctx = u.ctx)
    (hgood : descBad u.desc = false)
    (howners : (if u.own = 0 then (d, .ok []) else d.vload u.ctx 16 k.cmd.opUnit (u.f 5 51 0) (4 * u.nshard)) = (e, .ok os)) :
    exec (.desc j) s = .next (s.after ((e.setTable k.cmd.tableNo { u with
      owners := (chunks 4 os.length os).map (fun c => leNat c % 2 ^ 18), valid := true }).endJob j endOk)) := by
  have hfree : ¬((s.dev.table k.cmd.tableNo).a.state ≠ vEmpty ∨ (s.dev.table k.cmd.tableNo).b.state ≠ vEmpty) := by
    simp [ha, hb]
  have hown : ¬(k.ctx ≠ 0 ∧ k.ctx ≠ u.ctx) := by tauto
  subst hu
  dsimp only at hgood hown howners
  change execDesc j s = _
  refine onDevice_eq ?_
  simp only [hop, if_neg hfree, hload, Device.andThenIn_ok, if_neg hown, hgood, Bool.false_eq_true, if_false, howners]

/-- Context 0 and a table's own context may operate on it once it is loaded (R176). -/
theorem Device.onTable_permitted {d : Device} {k : Job} (hvalid : (d.table k.cmd.tableNo).valid = true)
    (hctx : k.ctx = 0 ∨ k.ctx = (d.table k.cmd.tableNo).ctx) (f : Device → Table → Device) :
    d.onTable k f = f d (d.table k.cmd.tableNo) := by
  have hown : ¬(k.ctx ≠ 0 ∧ k.ctx ≠ (d.table k.cmd.tableNo).ctx) := by tauto
  simp only [Device.onTable, hvalid, Bool.not_true, Bool.false_eq_true, if_false, if_neg hown]

section
variable {j op : Nat} {k : Job} {s : State}

/-- What table operation `op` of command `j` does to a loaded table on which its context may operate. -/
theorem onDevice_tableOp (hop : s.dev.tableOp? j op = some k) (hvalid : (s.dev.table k.cmd.tableNo).valid = true)
    (hctx : k.ctx = 0 ∨ k.ctx = (s.dev.table k.cmd.tableNo).ctx) (f : Job → Device → Table → Device) :
    onDevice s (fun d => match d.tableOp? j op with | none => d | some k => d.onTable k (f k)) =
      .next (s.after (f k s.dev (s.dev.table k.cmd.tableNo))) :=
  onDevice_eq (by rw [hop]; exact Device.onTable_permitted hvalid hctx (f k))

variable {v w : VSlot} (hvalid : (s.dev.table k.cmd.tableNo).valid = true)
  (hctx : k.ctx = 0 ∨ k.ctx = (s.dev.table k.cmd.tableNo).ctx) (hv : (s.dev.table k.cmd.tableNo).slot k.cmd.slotB = v)
include hvalid hctx hv

/-- OPEN puts an EMPTY slot into LOADING with a generation that the other slot does not hold (R175, R176). -/
theorem exec_openSlot_opens (hop : s.dev.tableOp? j 1 = some k)
    (hw : (s.dev.table k.cmd.tableNo).slot (!k.cmd.slotB) = w) (hstate : v.state = vEmpty)
    (hgen : w.gen ≠ bits k.cmd.c1 31 0) :
    exec (.openSlot j) s = .next (s.after ((s.dev.setTable k.cmd.tableNo ((s.dev.table k.cmd.tableNo).setSlot k.cmd.slotB
      { (default : VSlot) with state := vLoading, gen := bits k.cmd.c1 31 0 })).endJob j endOk)) := by
  change execOpenSlot j s = _
  refine (onDevice_tableOp hop hvalid hctx _).trans ?_
  simp [hv, hw, hstate, hgen]

/-- SEAL starts the digest build of a LOADING slot (R186). -/
theorem exec_sealSlot_builds (hop : s.dev.tableOp? j 2 = some k) (hstate : v.state = vLoading) (hbuild : v.build = none) :
    exec (.sealSlot j) s = .next (s.after (s.dev.startBuild k 1)) := by
  change execSealSlot j s = _
  refine (onDevice_tableOp hop hvalid hctx _).trans ?_
  simp [hv, hstate, hbuild]

/-- PUBLISH makes a STANDBY slot CURRENT, and a CURRENT one beside it RETIRING (Table 06-6). -/
theorem exec_publish_standby (hop : s.dev.tableOp? j 3 = some k)
    (hw : (s.dev.table k.cmd.tableNo).slot (!k.cmd.slotB) = w) (hstate : v.state = vStandby) :
    let t := (s.dev.table k.cmd.tableNo).setSlot k.cmd.slotB { v with state := vCurrent }
    exec (.publish j) s = .next (s.after ((s.dev.setTable k.cmd.tableNo
      (if w.state = vCurrent then t.setSlot (!k.cmd.slotB) { w with state := vRetiring } else t)).endJob j endOk)) := by
  change execPublish j s = _
  refine (onDevice_tableOp hop hvalid hctx _).trans ?_
  simp only [hv, hw, hstate, ne_eq, not_true_eq_false, if_false]

/-- DROP empties a LOADING or STANDBY slot, and offers again what waited here (R176, R183). -/
theorem exec_dropSlot_unstaged (hop : s.dev.tableOp? j 4 = some k) (hstate : v.state = vLoading ∨ v.state = vStandby)
    (hrounds : v.rounds = []) :
    exec (.dropSlot j) s = .next (s.after
      ((s.dev.emptySlot k.cmd.tableNo k.cmd.slotB).retryLocal.endJob j endOk)) := by
  have hdrop : ¬(v.state ≠ vLoading ∧ v.state ≠ vStandby) := by tauto
  change execDropSlot j s = _
  refine (onDevice_tableOp hop hvalid hctx _).trans ?_
  simp only [hv, if_neg hdrop, hrounds, List.flatMap_nil, List.foldl_nil, List.length_nil, Device.count_zero]

/-- REBUILD starts the digest build of a slot that has one (R186). -/
theorem exec_rebuild_builds (hop : s.dev.tableOp? j 5 = some k)
    (hstate : v.state = vStandby ∨ v.state = vCurrent ∨ v.state = vRetiring) (hbuild : v.build = none) :
    exec (.rebuild j) s = .next (s.after (s.dev.startBuild k 2)) := by
  change execRebuild j s = _
  refine (onDevice_tableOp hop hvalid hctx _).trans ?_
  rcases hstate with h | h | h <;> simp [hv, h, hbuild]

/-- CLOSE_ROUND closes an open round (R182). -/
theorem exec_closeRound_open {r : Round} (hop : s.dev.tableOp? j 6 = some k)
    (hr : v.round? (bits k.cmd.c2 31 0) = some r) (hopen : r.closed = false) :
    exec (.closeRound j) s = .next (s.after ((s.dev.mapSlot k.cmd.tableNo k.cmd.slotB
      (fun v => v.putRound { r with closed := true })).endJob j endOk)) := by
  change execCloseRound j s = _
  refine (onDevice_tableOp hop hvalid hctx _).trans ?_
  simp [hv, hr, hopen]

end

/-- Settles O24: each form of a row by its law above. -/
theorem tablesMoveOn : Obligations.TablesMoveOn := by
  refine ⟨⟨?_, ?_, ?_, ?_⟩, ?_, ?_⟩
  · intro n b r d s
    exact exec_roundApply_made
  · intro n j b d sum s hbuild hsum
    rw [exec_digestBuildDone_summed hbuild hsum, if_pos rfl]
  · intro n j b d sum s hbuild hsum hsame
    rw [exec_digestBuildDone_summed hbuild hsum, if_neg (by decide), if_pos hsame.symm]
  · intro n b s hstate hbound hserved hrounds hbuild
    rw [exec_slotRelease_unused hstate hbound hserved hrounds, Device.emptySlot_unbuilt hbuild]
  · intro j k d e bs os u s
    exact exec_desc_loads
  · rintro j op n k t b v w s hop rfl rfl hvalid hctx rfl hv hw
    refine ⟨?_, ?_, ?_, ?_, ?_, ?_, ?_⟩
    · rintro rfl
      exact exec_openSlot_opens hvalid hctx hv hop hw
    · rintro rfl
      exact exec_sealSlot_builds hvalid hctx hv hop
    · rintro rfl hstate hcurrent
      rw [exec_publish_standby hvalid hctx hv hop hw hstate, if_pos hcurrent]
    · rintro rfl hstate hcurrent
      rw [exec_publish_standby hvalid hctx hv hop hw hstate, if_neg hcurrent]
    · rintro rfl
      exact exec_dropSlot_unstaged hvalid hctx hv hop
    · rintro rfl
      exact exec_rebuild_builds hvalid hctx hv hop
    · rintro rfl r
      exact exec_closeRound_open hvalid hctx hv hop

end Sys2Proof.Machine
end

section
/-! SUPPORT. The attention engine (07): how its tasks start and read their roots, what a page step, an appended row and a
combined row come to, why a row attends to no key after its own position, and the statements settled with them. -/
namespace Sys2Proof.Machine

open Sys2Proof

/-! ### Causality (R207, R208) -/

/-- What a row takes from a page depends on no key after the row's own position. -/
theorem groupStep_congr_upTo {w : AtnDesc} {g : AtnSeg} {qs : List (RowState × AtnVec)}
    {kvs kvs' : List (Nat × AtnVec × AtnVec)}
    (h : ∀ p ∈ qs, kvs.filter (fun x => decide (x.1 ≤ g.start + (p.1.row - g.first))) =
      kvs'.filter (fun x => decide (x.1 ≤ g.start + (p.1.row - g.first)))) :
    groupStep w g qs kvs = groupStep w g qs kvs' := by
  refine List.map_congr_left fun p hp => ?_
  dsimp only
  rw [h p hp]

/-- Settles O26: a row's page step reads only the keys up to the row's position. -/
theorem attentionIsCausal : Obligations.AttentionIsCausal := by
  intro w g qs kvs kvs' h
  exact groupStep_congr_upTo fun p hp => h p hp _ rfl

/-! ### Roots of a task's sequences (R194, R196) -/

@[simp] theorem Device.readRoots_nil (d : Device) (j : Job) (t : Nat) (w : AtnDesc) (segs : List AtnSeg) :
    d.readRoots j t w segs [] = d := rfl

/-- A root that is reached and suits the descriptor is held, and the next is read. -/
theorem Device.readRoots_cons {d e : Device} {j : Job} {t a q : Nat} {w : AtnDesc} {segs : List AtnSeg} {bs : List Byte}
    (ha : d.rootAddr q = some a) (hload : d.vload j.ctx t (unitCode t 9) a 64 = (e, .ok bs))
    (hgood : rootBad w (bytesWords bs) = false) (qs : List Nat) :
    d.readRoots j t w segs (q :: qs) =
      (e.mapRoots j.id (fun x => if x.1 = q then (q, bytesWords bs) else x)).readRoots j t w segs qs := by
  rw [Device.readRoots, ha]
  dsimp only
  rw [hload, Device.andThen_ok, hgood, if_neg Bool.false_ne_true]

/-! ### The start of a task (R198, R202, R204, R205) -/

section
variable {t : Truss} {j : Job} {s : State} (hj : s.dev.active? (.atn t) = some j)
include hj

/-- A task whose descriptor and segments pass their checks is held while an edit is pending on a sequence that it walks;
otherwise it starts at its first segment and reads its roots. -/
theorem exec_atnTask_accepted {d e : Device} {bs ss : List Byte} {recs : List (List Word)} (hrun : j.run = .none)
    (halign : j.cmd.c1.toNat % 8 = 0)
    (hdesc : s.dev.ptrLoad j.ctx t (unitCode t 9) false j.cmd.c1 128 = (d, .ok bs))
    (hcause : atnStartCause (bytesWords bs) = none)
    (hsegs : d.atnLoad j t (atnF (bytesWords bs) 3 63 32) 0 (16 * atnNseg (bytesWords bs)) = (e, .ok ss))
    (hrecs : (chunks 16 ss.length ss).map bytesWords = recs)
    (hrefusal : segRefusal (atnRows (bytesWords bs)) 0 [] recs = none) :
    let w := bytesWords bs
    let seqs := if atnWalks w then ((recs.map segOf).map AtnSeg.seq).eraseDups else []
    let busy := seqs.filter (fun q => e.editPending q || decide (65535 ≤ e.walks q))
    exec (.atnTask t) s = .next (s.after (
      if busy = [] then ((e.setAtnSt t { e.atnSt t with held := [] }).mapJob j.id (fun k => { k with
        run := .atn w (seqs.map (fun q => (q, []))) (recs.map segOf) 0 0 0 })).readRoots j t w (recs.map segOf) seqs
      else e.setAtnSt t { e.atnSt t with held := busy })) := by
  subst hrecs
  change execAtnTask t s = _
  refine onDevice_eq ?_
  simp only [hj, hrun, halign, hdesc, hcause, hsegs, hrefusal, Device.andThen_ok, ne_eq, not_true_eq_false, if_false,
    Bool.not_eq_true', List.isEmpty_eq_false_iff, ite_not]

/-- A started task reads the roots that have not come. -/
theorem exec_atnTask_started {w : AtnDesc} {rs : List (Nat × List Word)} {segs : List AtnSeg} {a b c : Nat}
    (hrun : j.run = .atn w rs segs a b c) :
    exec (.atnTask t) s = .next (s.after (s.dev.readRoots j t w segs (rootless rs))) := by
  change execAtnTask t s = _
  refine onDevice_eq ?_
  simp only [hj, hrun]

end

/-! ### Page steps (R206 to R212, R219 to R221) -/

/-- ATN_PAGE_STEP takes the next page step of the attending task that runs. -/
theorem exec_atnPageStep_running {t : Truss} {u : Upset} {j : Job} {slot seg grp page : Nat} {w : AtnDesc}
    {rs : List (Nat × List Word)} {segs : List AtnSeg} {s : State} (hrow : s.dev.atnRun? t 0 = some (j, slot))
    (hrun : j.run = .atn w rs segs seg grp page) :
    exec (.atnPageStep t u) s = .next (s.after (s.dev.pageGo j t slot w rs segs seg grp page u)) := by
  change execAtnPageStep t u s = _
  refine onDevice_eq ?_
  simp only [hrow, hrun]

/-- A step over a page of a sequence, with the group's queries and the page's keys and values read and the checks
passed. -/
theorem Device.pageGo_paged {d d1 d2 d3 d4 : Device} {t : Truss} {u : Upset} {j : Job} {slot seg grp page : Nat}
    {w : AtnDesc} {rs : List (Nat × List Word)} {segs : List AtnSeg} {sg : AtnSeg} {rows : List (Nat × Nat)}
    {phi : List Word} {qs : List AtnVec} {kvs : List (Nat × AtnVec × AtnVec)} {rot : List (AtnVec × Tally)}
    {outs : List PageOut} (hsg : segs.getD seg default = sg) (hpaged : atnPacked w = false)
    (hrange : (segRange w sg).1 < (segRange w sg).2) (hrows : atnGroupRows w sg grp = rows)
    (hphi : ∀ k, d.phis j t w k = k d1 phi)
    (hqs : ∀ k, d1.atnVecs j t w (rows.map (fun r => (atnF w 2 31 0, r.1 * atnF w 2 55 32 + r.2 * atnDh w,
      atnF w 3 31 0, (r.1 * atnQpg w + r.2) * atnNb w, 0))) [] k = k d2 qs)
    (hkvs : ∀ k, d2.pagedKeys j t w rs sg.seq ((segRange w sg).1 + page)
      (rows.foldl (fun m r => max m (sg.start + (r.1 - sg.first))) 0) k = k d3 kvs)
    (hrot : (rows.zip qs).map (fun p => p.2.roped w phi (sg.start + (p.1.1 - sg.first))) = rot)
    (houts : groupStep w sg ((if page = 0 then rows.map (fun r => RowState.fresh w r.1 r.2)
      else tget (d.atnSt t).store (4 * j.id + slot) []).zip (rot.map (·.1))) kvs = outs)
    (hchecked : d3.atnResidue j t sg.seq ((segRange w sg).1 + page) page (pairsOf outs) u = (d4, true)) :
    d.pageGo j t slot w rs segs seg grp page u =
      ((if page = 0 then d4.atnTally j t (rot.foldl (fun a r => a.join r.2) default) else d4).pageCounts j t outs).pageFinish
        j t slot w segs seg grp page (outs.map PageOut.state) := by
  rw [Device.pageGo, hsg, hrows, if_neg (Nat.not_le.mpr hrange), hphi, hqs]
  simp only [hpaged, Bool.false_eq_true, if_false, hkvs, hrot, houts, hchecked]

/-! ### Appended and combined rows (R207, R211, R214 to R216) -/

section
variable {t : Truss} {u : Upset} {j : Job} {slot seg grp page : Nat} {w : AtnDesc} {rs : List (Nat × List Word)}
  {segs : List AtnSeg} {g : AtnSeg} {d1 d2 d3 d4 d5 d6 : Device} {s : State}
  (hrun : j.run = .atn w rs segs seg grp page) (hg : segs.getD seg default = g)
include hrun hg

/-- The next row's key and value go into its slot, and the task goes to the row after it, or to the next segment. -/
theorem exec_atnAppendRow_stored {base : Nat} {phi : List Word} {k v : AtnVec}
    (hrow : s.dev.atnRun? t 1 = some (j, slot))
    (hwalk : ∀ f, s.dev.walk j t w rs g.seq ((g.start + grp) / 64) f = f d1 base)
    (hphi : ∀ f, d1.phis j t w f = f d2 phi)
    (hk : ∀ f, d2.atnVec j t w (atnF w 8 31 0) ((g.first + grp) * atnDh w) (atnF w 9 31 0) ((g.first + grp) * atnNb w) 3 f =
      f d3 k)
    (hv : ∀ f, d3.atnVec j t w (atnF w 8 63 32) ((g.first + grp) * atnDh w) (atnF w 9 63 32) ((g.first + grp) * atnNb w) 4 f =
      f d4 v)
    (hchecked : d4.atnResidue j t g.seq ((g.start + grp) / 64) grp 0 u = (d5, true))
    (hput : ∀ f, d5.putSlot j t w base ((g.start + grp) % 64) ((k.roped w phi (g.start + grp)).1, v) f = f d6) :
    let d7 := (d6.atnTally j t (k.roped w phi (g.start + grp)).2).count (Reg.ATN_APPENDED t) 1
    exec (.atnAppendRow t u) s = .next (s.after
      (if grp + 1 < g.nrow then d7.atnTo j t w segs seg (grp + 1) 0 else d7.atnTo j t w segs (seg + 1) 0 0)) := by
  change execAtnAppendRow t u s = _
  refine onDevice_eq ?_
  simp only [hrow, hrun, hg, hwalk, hphi, hk, hv, hchecked, hput]

/-- The row that its partials make is written, and the task goes to the next row and head, or to the next segment. -/
theorem exec_atnCombineStep_written {p : Tracked × List Tracked} (hrow : s.dev.atnRun? t 2 = some (j, slot))
    (hchecked : s.dev.atnResidue j t g.seq 0 grp 0 u = (d1, true))
    (hcombine : ∀ f, d1.combine j t w (g.first + grp / max 1 (atnQpg w)) (grp % max 1 (atnQpg w)) (atnNr w) 0
      (tzero, List.replicate (atnDh w) tzero) f = f d2 p)
    (hout : ∀ f, d2.atnOutput j t w (g.first + grp / max 1 (atnQpg w)) (grp % max 1 (atnQpg w)) p.1 p.2 f = f d3) :
    exec (.atnCombineStep t u) s = .next (s.after
      (if grp + 1 < g.nrow * atnQpg w then d3.atnTo j t w segs seg (grp + 1) 0 else d3.atnTo j t w segs (seg + 1) 0 0)) := by
  change execAtnCombineStep t u s = _
  refine onDevice_eq ?_
  simp only [hrow, hrun, hg, hchecked, hcombine, hout]

end

/-- Settles O25: each form of a row by its law above. -/
theorem attentionTasks : Obligations.AttentionTasks := by
  refine ⟨⟨?_, ?_, ?_⟩, ?_, ?_, ?_⟩
  · rintro t j d e bs ss _ recs _ s hj hrun halign hdesc rfl hcause hsegs hrecs hrefusal rfl
    have hexec := exec_atnTask_accepted hj hrun halign hdesc hcause hsegs hrecs hrefusal
    refine ⟨fun hfree => ?_, fun q qs hbusy => ?_⟩
    · rw [hexec, if_pos hfree]
    · rw [hexec, hbusy, if_neg (List.cons_ne_nil q qs)]
  · intro t j w rs segs a b c s hj hrun
    exact exec_atnTask_started hj hrun
  · rintro d e j t a q w _ segs qs bs ha hload rfl hgood
    exact ⟨Device.readRoots_nil d j t w segs, Device.readRoots_cons ha hload hgood qs⟩
  · intro t u j slot seg grp page w rs segs sg rows phi qs kvs rot outs d1 d2 d3 d4 s hrow hrun hsg hpaged hrange hrows
      hphi hqs hkvs hrot houts hchecked
    rw [exec_atnPageStep_running hrow hrun,
      Device.pageGo_paged hsg hpaged hrange hrows hphi hqs hkvs hrot houts hchecked]
  · rintro t u j slot seg grp page base w rs segs g phi k v d1 d2 d3 d4 d5 d6 _ s hrow hrun hg hwalk hphi hk hv hchecked
      hput rfl
    exact exec_atnAppendRow_stored hrun hg hrow hwalk hphi hk hv hchecked hput
  · intro t u j slot seg grp page w rs segs g p d1 d2 d3 s hrow hrun hg
    exact exec_atnCombineStep_written hrun hg hrow

end Sys2Proof.Machine
end

section
/-! SUPPORT. The operations on a sequence's pages (07, R200 to R202): what APPEND stores, when the edits of parked
sequences are accepted, what an edit does once no task walks its sequences, and the statement settled with them. -/
namespace Sys2Proof.Machine

open Sys2Proof

/-! ### The commands (R200 to R202) -/

section
variable {j q a : Nat} {k : Job} {r : Root} {d : Device} {s : State} (hmay : s.dev.mayEdit k (kvSeq k) = true)
  (hroot : ∀ g, s.dev.kvRoot k (kvSeq k) g = g d a r)
include hmay hroot

/-- APPEND of a page set that the sequence can take has its effect and ends at once (R201). -/
theorem exec_kvAppend_stored {f : Device} (hop : s.dev.kvOp? j 0 = some k) (hroom : rootPages r < 16384)
    (hset : badSet r (kvAddr k) = false) (happend : ∀ g, d.appendSet k (kvSeq k) a r (kvAddr k) g = g f) :
    exec (.kvAppend j) s = .next (s.after ((f.dropLab (kvSeq k)).endJob j endOk)) := by
  change execKvAppend j s = _
  refine onDevice_eq ?_
  simp only [hop, hmay, Bool.not_true, Bool.false_eq_true, if_false, hroot, Nat.not_le.mpr hroom, hset, happend]

section
variable (hparked : (s.dev.seq (kvSeq k)).parked = true)
include hparked

/-- TRUNCATE of a parked sequence to no more pages than it has is accepted (R202). -/
theorem exec_truncate_accepted (hop : s.dev.kvOp? j 1 = some k) (hn : kvN k ≤ rootPages r) :
    exec (.truncate j) s = .next (s.after (d.acceptEdit k 1 [kvSeq k])) := by
  change execTruncate j s = _
  refine onDevice_eq ?_
  simp only [hop, hmay, hparked, Bool.not_true, Bool.false_eq_true, if_false, hroot, Nat.not_lt.mpr hn]

/-- RELOCATE of one of a parked sequence's pages to a page set that it can take is accepted (R202). -/
theorem exec_relocate_accepted (hop : s.dev.kvOp? j 2 = some k) (hn : kvN k < rootPages r)
    (hset : badSet r (kvAddr k) = false) :
    exec (.relocate j) s = .next (s.after (d.acceptEdit k 2 [kvSeq k])) := by
  change execRelocate j s = _
  refine onDevice_eq ?_
  simp only [hop, hmay, hparked, Bool.not_true, Bool.false_eq_true, if_false, hroot, Nat.not_le.mpr hn, hset]

end

end

/-- FORK of a parked sequence, to one that is parked or WAITING, is accepted when both roots pass its checks (R202). -/
theorem exec_fork_accepted {j a b : Nat} {k : Job} {rd rs : Root} {ptes : List Word} {d e f : Device} {s : State}
    (hop : s.dev.kvOp? j 3 = some k) (hmaySrc : s.dev.mayEdit k (kvSeq k) = true)
    (hmayDst : s.dev.mayEdit k (kvDst k) = true) (hsrc : (s.dev.seq (kvSeq k)).parked = true)
    (hdst : (s.dev.seq (kvDst k)).parked = true ∨ (s.dev.seq (kvDst k)).state = 1)
    (hrootDst : ∀ g, s.dev.kvRootAt k (kvDst k) (s.dev.forkAddr (kvDst k)) g = g d a rd)
    (hrootSrc : ∀ g, d.kvRoot k (kvSeq k) g = g e b rs)
    (htable : ∀ g, e.readTable k (kvSeq k) rs (min (kvN k) (rootPages rs)) g = g f ptes)
    (hcause : forkCause rs rd (kvN k) ptes = none) :
    exec (.fork j) s = .next (s.after (f.acceptEdit k 3 [kvSeq k, kvDst k])) := by
  have hready : ((s.dev.seq (kvDst k)).parked || (s.dev.seq (kvDst k)).state == 1) = true := by
    simpa using hdst
  change execFork j s = _
  refine onDevice_eq ?_
  simp only [hop, hmaySrc, hmayDst, hsrc, hready, Bool.not_true, Bool.or_self, Bool.false_eq_true, if_false, hrootDst,
    hrootSrc, htable, hcause]

/-! ### The effect of an edit (R202, Table 07-3) -/

/-- The device once a WAITING destination of FORK holds the root that it is to take. -/
def Device.grantForkRoot (d : Device) (q : Nat) : Device :=
  match d.forkRoot q with
  | some i => d.takeRoot q i
  | none => d

section
variable {a : Nat} {k : Job} {e : KvEdit} {r : Root} {c d f : Device}
  (hroot : ∀ g, c.kvRoot k (e.seqs.headD 0) g = g d a r)
include hroot

/-- TRUNCATE writes NPAGES. -/
theorem Device.applyEdit_truncate (hop : e.op = 1) (hn : e.n ≤ rootPages r)
    (hpages : ∀ g, d.setPages k (e.seqs.headD 0) a r e.n g = g f) : c.applyEdit k e = f.editDone k.id e := by
  rw [Device.applyEdit, hroot, hop]
  simp only [Nat.not_lt.mpr hn, if_false, hpages]

/-- RELOCATE writes the page-table entry. -/
theorem Device.applyEdit_relocate (hop : e.op = 2) (hn : e.n < rootPages r) (hset : badSet r e.addr = false)
    (hstore : ∀ g, d.kvStore k (e.seqs.headD 0) (rootPt r + 8 * e.n) (wordBytes (pteWord e.addr)) g = g f) :
    c.applyEdit k e = f.editDone k.id e := by
  rw [Device.applyEdit, hroot, hop]
  simp only [Nat.not_le.mpr hn, if_false, hset, Bool.false_eq_true, hstore]

/-- FORK gives a WAITING destination its root, copies the source's entries to it and marks both sequences shared. -/
theorem Device.applyEdit_fork {p q b : Nat} {rd : Root} {ptes : List Word} {d2 d3 d4 d5 : Device} (hop : e.op = 3)
    (hseqs : e.seqs = [p, q]) (hrootDst : ∀ g, d.kvRootAt k q (d.forkAddr q) g = g d2 b rd)
    (htable : ∀ g, d2.readTable k p r (min e.n (rootPages r)) g = g d3 ptes) (hcause : forkCause r rd e.n ptes = none)
    (hstore : ∀ g, (d3.grantForkRoot q).kvStore k q (rootPt rd) (wordsBytes ptes) g = g d4)
    (hpages : ∀ g, d4.setPages k q b rd e.n g = g d5) :
    c.applyEdit k e = ((d5.markShared p).markShared q).editDone k.id e := by
  have hp : e.seqs.headD 0 = p := by rw [hseqs]; rfl
  have hq : (e.seqs.drop 1).headD 0 = q := by rw [hseqs]; rfl
  rw [Device.applyEdit, hroot, hop, hp, hq]
  dsimp only
  rw [hrootDst, htable, hcause]
  change (d3.grantForkRoot q).kvStore k q (rootPt rd) (wordsBytes ptes) _ = _
  rw [hstore, hpages]

end

/-! ### Waiting edits (R202) -/

section
variable {j : Nat} {k : Job} {e : KvEdit} {s : State} (hedit : s.dev.edit? j = some (k, e)) (hlive : k.state ≠ .done)
include hedit hlive

/-- An edit whose sequences no task walks has its effect. -/
theorem exec_kvEditApply_unwalked (hwalks : e.seqs.any (fun q => s.dev.walks q != 0) = false)
    (hwait : k.waitFrom = none) : exec (.kvEditApply j) s = .next (s.after (s.dev.applyEdit k e)) := by
  change execKvEditApply j s = _
  refine onDevice_eq ?_
  simp only [hedit, if_neg hlive, hwalks, hwait, Option.isSome_none, Bool.or_self, Bool.false_eq_true, if_false]

/-- An edit that is still walked at its deadline is refused, with cause 0x0B, and leaves the list. -/
theorem exec_kvEditTimeout_walked (hlate : e.deadline ≤ s.dev.now)
    (hwalks : e.seqs.any (fun q => s.dev.walks q != 0) = true) :
    exec (.kvEditTimeout j) s = .next (s.after ((s.dev.dropEdit j).kvRefuse k 0x0B 0)) := by
  change execKvEditTimeout j s = _
  refine onDevice_eq ?_
  simp only [hedit, if_neg hlive, hwalks, decide_eq_false (Nat.not_lt.mpr hlate), Bool.not_true, Bool.or_self,
    Bool.false_eq_true, if_false]

end

/-- Settles O27: each operation, and each form of an edit's effect, by its law above. -/
theorem sequenceEdits : Obligations.SequenceEdits := by
  refine ⟨?_, ?_, ?_, ?_, ?_, ?_⟩
  · rintro j _ a k r d f s hop rfl hmay hroot hroom hset happend
    exact exec_kvAppend_stored hmay hroot hop hroom hset happend
  · rintro j _ a k r d s hop rfl hmay hparked hroot hn
    exact exec_truncate_accepted hmay hroot hparked hop hn
  · rintro j _ a k r d s hop rfl hmay hparked hroot hn hset
    exact exec_relocate_accepted hmay hroot hparked hop hn hset
  · rintro j _ _ a b k rd rs ptes d e f s hop rfl rfl hmaySrc hmayDst hsrc hdst hrootDst hrootSrc htable hcause
    exact exec_fork_accepted hop hmaySrc hmayDst hsrc hdst hrootDst hrootSrc htable hcause
  · intro j a k e r d f s hedit hlive hwalks hwait hroot
    have hexec := exec_kvEditApply_unwalked hedit hlive hwalks hwait
    refine ⟨?_, ?_, ?_⟩
    · intro hop hn hpages
      rw [hexec, Device.applyEdit_truncate hroot hop hn hpages]
    · intro hop hn hset hstore
      rw [hexec, Device.applyEdit_relocate hroot hop hn hset hstore]
    · rintro p q b rd ptes d2 d3 _ d4 d5 hop hseqs hrootDst htable hcause rfl hstore hpages
      rw [hexec, Device.applyEdit_fork hroot hop hseqs hrootDst htable hcause hstore hpages]
  · intro j k e s hedit hlive hlate hwalks
    exact exec_kvEditTimeout_walked hedit hlive hlate hwalks

end Sys2Proof.Machine
end

section
/-! SUPPORT. The Course builder (08): the bounds of a laying and of a lane's factor, what the deadline policy comes to, how
a record is taken in and placed, how results, entries and clients go, what each course-control operation does, and the
statements of the family settled with them. -/
namespace Sys2Proof.Machine

open Sys2Proof

/-! ### Attempts -/

/-- An attempt that is carried through goes by what its first part came to. -/
theorem Att.exists_of_bind_eq_ok {α β : Type} {r : Att α} {f : α → Att β} {b : β} (h : r >>= f = .ok b) :
    ∃ a, r = .ok a ∧ f a = .ok b := by
  cases r with
  | ok a => exact ⟨a, rfl, h⟩
  | error m => cases h

@[simp] theorem Att.ok_bind {α β : Type} (a : α) (f : α → Att β) : ((.ok a : Att α) >>= f) = f a := rfl

/-- What each step of an attempt keeps, the whole of it keeps. -/
theorem Att.foldlM_keeps {α β : Type} {f : β → α → Att β} {P : β → Prop}
    (hstep : ∀ {y a z}, P y → f y a = .ok z → P z) :
    ∀ {as : List α} {y z : β}, P y → as.foldlM f y = .ok z → P z
  | [], _, _, hy, h => by cases h; exact hy
  | _ :: _, _, _, hy, h => by
    obtain ⟨_, hfirst, hrest⟩ := Att.exists_of_bind_eq_ok h
    exact Att.foldlM_keeps hstep (hstep hy hfirst) hrest

/-! ### The bounds of a laying (R235, R236) -/

@[simp] theorem Lay.add_laid (y : Lay) (d : Device) (i : LayItem) : (y.add d i).laid = y.laid ++ [i] := rfl

@[simp] theorem Lay.checked_tok (y : Lay) (d : Device) (l : Nat) (i : LayItem) : (y.checked d l i).tok = y.tok := by
  unfold Lay.checked
  dsimp only
  split <;> rfl

/-- A candidate of the decode phase joins the course only while it holds fewer than DECMAX rows. -/
theorem layDecode_laid_le {decmax e : Nat} {y z : Lay} (hy : y.laid.length ≤ decmax)
    (h : layDecode decmax y e = .ok z) : z.laid.length ≤ decmax := by
  unfold layDecode at h
  split at h
  · cases h
    exact hy
  next hroom =>
    obtain ⟨⟨d, need⟩, -, h⟩ := Att.exists_of_bind_eq_ok h
    cases need with
    | none =>
      cases h
      exact hy
    | some n =>
      cases h
      simpa using Nat.lt_of_not_le hroom

/-- A candidate of the prefill phase takes no more tokens than the budget has left. -/
theorem layPrefill_tok {budget l e : Nat} {y z : Lay} (h : layPrefill budget l y e = .ok z) :
    z.tok = y.tok ∨ ∃ c, c ≤ budget - y.tok ∧ z.tok = y.tok + c := by
  unfold layPrefill at h
  extract_lets x m c₀ c at h
  have hc : c ≤ budget - y.tok := by
    have hcut : c ≤ c₀ := by
      unfold c
      split
      · exact Nat.sub_le _ _
      · exact Nat.le_refl _
    exact hcut.trans (Nat.min_le_right _ _)
  split at h
  · cases h
    exact .inl rfl
  split at h
  · cases h
    exact .inl rfl
  obtain ⟨⟨d, need⟩, -, h⟩ := Att.exists_of_bind_eq_ok h
  cases need with
  | none =>
    cases h
    exact .inl rfl
  | some n =>
    cases h
    split
    · exact .inl (Lay.checked_tok _ _ _ _)
    · exact .inr ⟨c, hc, congrArg (· + c) (Lay.checked_tok _ _ _ _)⟩

/-- The prefill phase stays within its budget. -/
theorem layPrefill_tok_le {budget l e : Nat} {y z : Lay} (hy : y.tok ≤ budget)
    (h : layPrefill budget l y e = .ok z) : z.tok ≤ budget := by
  obtain hz | ⟨c, hc, hz⟩ := layPrefill_tok h <;> omega

/-- A lane's factor stays between 512 and 4,096, whichever way it is found (R245). -/
theorem Device.newFactor_bounds (d : Device) (f actual predicted : Nat) :
    512 ≤ (d.newFactor f actual predicted).1 ∧ (d.newFactor f actual predicted).1 ≤ 4096 := by
  unfold Device.newFactor
  split
  · simp
  split
  · have := Nat.mod_lt d.takeFree.1 (show 0 < 3585 by decide)
    dsimp only
    omega
  · dsimp only
    omega

/-! ### The deadline policy (R242 to R244) -/

/-- Nothing changes with the monitor off, or for an entry whose prediction meets its budget. -/
theorem Device.judge_onTime {d : Device} {e p : Nat}
    (h : d.fld Reg.DLM_CTRL Fld.DLM_CTRL_EN = 0 ∨ lateAt d.now p (d.model (d.seq e).model) (d.seq e) = false) :
    d.judge e p = (d, true) := by
  rcases h with h | h <;> simp [Device.judge, h]

section
variable {d : Device} {e p : Nat} (hen : d.fld Reg.DLM_CTRL Fld.DLM_CTRL_EN ≠ 0)
  (hlate : lateAt d.now p (d.model (d.seq e).model) (d.seq e) = true)
include hen hlate

/-- A late entry before its fallback point is switched or abandoned, and is not laid (R243). -/
theorem Device.judge_unbegun (h : (d.seq e).kind ≠ 1 ∨ (d.seq e).state = sqWaiting) :
    d.judge e p = ((d.switchOrAbandon e).laneNote (d.model (d.seq e).model).lane noteSwitch, false) := by
  rcases h with h | h <;> simp [Device.judge, hen, hlate, h]

section
variable (hkind : (d.seq e).kind = 1) (hbegun : (d.seq e).state ≠ sqWaiting)
include hkind hbegun

/-- A late sequence that has begun goes on under LATEPOL 1, and is marked as it first is late (R244). -/
theorem Device.judge_goesOn (hpol : (d.model (d.seq e).model).latepol = 1) (hfirst : (d.seq e).late = false) :
    d.judge e p = ((((d.setSeq e { d.seq e with late := true }).count Reg.DLM_LATE 1).charge (d.seq e).ctx .late 1 16).laneNote
      (d.model (d.seq e).model).lane noteLate, true) := by
  simp [Device.judge, hen, hlate, hkind, hbegun, hpol, hfirst]

/-- Under LATEPOL 0 a late sequence that has begun is abandoned (R244). -/
theorem Device.judge_abandons (hpol : (d.model (d.seq e).model).latepol ≠ 1) :
    d.judge e p = ((d.abandonEntry e caDeadline stAbandoned).laneNote (d.model (d.seq e).model).lane noteSwitch, false) := by
  simp [Device.judge, hen, hlate, hkind, hbegun, hpol]

end

end

/-- Settles O30: the phases by what one candidate keeps, the factor by its bounds, the policy case by case. -/
theorem coursesStayWithinTheirBounds : Obligations.CoursesStayWithinTheirBounds := by
  refine ⟨⟨?_, ?_, Device.newFactor_bounds⟩, ?_⟩
  · intro decmax es y z
    exact Att.foldlM_keeps layDecode_laid_le
  · intro budget l es y z
    exact Att.foldlM_keeps layPrefill_tok_le
  · rintro d e p _ _ rfl rfl
    exact ⟨Device.judge_onTime, fun hen hlate => ⟨Device.judge_goesOn hen hlate, Device.judge_abandons hen hlate,
      Device.judge_unbegun hen hlate⟩⟩

/-! ### Requests (R225 to R228) -/

section
variable {c : Nat} {record : List Byte} {d : Device} {s : State} (hd : s.dev.arrivals = d)
  (hattached : (d.client c).attached = true)
include hd hattached

/-- A record that cannot be taken is answered RNR NAK (R226). -/
theorem exec_requestArrival_barred (hbar : (d.client c).detaching = true ∨ d.crsReceives = false ∨
    (d.client c).freeSlot = none ∨ d.freeEntry = none) :
    exec (.requestArrival c record) s = .next (s.after (d.emit (.rnrNak (d.client c).qpn))) := by
  change execRequestArrival c record s = _
  refine onDevice_eq ?_
  have hnone : (if (d.client c).detaching || !d.crsReceives then none else (d.client c).freeSlot) = none ∨
      d.freeEntry = none := by
    rcases hbar with h | h | h | h <;> simp [h]
  simp only [hd, hattached, Bool.not_true, Bool.false_eq_true, if_false]
  split
  next hslot hentry =>
    rw [hslot, hentry] at hnone
    simp at hnone
  · rfl

/-- A record that can be taken is placed in the lowest free slot, behind those that wait; one longer than the slot puts the queue
pair into its error state and detaches the client (R225, R226). -/
theorem exec_requestArrival_taken {i e : Nat} (hstays : (d.client c).detaching = false) (hreceives : d.crsReceives = true)
    (hslot : (d.client c).freeSlot = some i) (hentry : d.freeEntry = some e) :
    exec (.requestArrival c record) s = .next (s.after
      (if 2 ^ (d.client c).slotLog2 < record.length then (d.rdmaAnswer (d.client c).qpn 3 []).clientError c
      else (d.setClient c { d.client c with
        used := (d.client c).used ++ [i], held := (d.client c).held ++ [(i, record)] }).arrivals)) := by
  change execRequestArrival c record s = _
  refine onDevice_eq ?_
  simp only [hd, hattached, hstays, hreceives, hslot, hentry, Bool.not_true, Bool.or_self, Bool.false_eq_true, if_false]

end

/-- A request that no check refuses, for a lane whose group is not expelled, takes the entry (R228). -/
theorem Device.requestIn_accepted {d f : Device} {c i e : Nat} {k : Client} {ws : List Word} (hclient : d.client c = k)
    (htype : bits (wordAt ws 0) 9 8 ≠ 2) (hgood : d.requestRefusal ws k = none)
    (hf : (d.setSeq e (reqEntry ws c k.ctx i d.now)).count Reg.CRS_ACCEPTED 1 = f)
    (hlane : f.laneExpelled (f.model (reqEntry ws c k.ctx i d.now).model).lane = false) :
    d.requestIn c i e ws = f := by
  subst hf
  simp only [Device.requestIn, if_neg htype, hclient, hgood, Device.acceptRequest, hlane, Bool.false_eq_true, if_false]

/-- A record whose slot is written has its SEND answered, and its header is read (R225). -/
theorem Device.placeRequest_written {d d1 d2 : Device} {c i e : Nat} {record bs : List Byte}
    (hstore : (d.rdmaIn (d.client c).ctx (d.client c).qpn record.length).tryStore (d.client c).ctx (d.client c).ctx
      ((d.client c).slotAt i) record = .ok (d1, true))
    (hload : d1.tryLoad (d.client c).ctx (d.client c).ctx ((d.client c).slotAt i) 64 = .ok (d2, some bs)) :
    d.placeRequest c i e record = .ok ((d2.rdmaAnswer (d.client c).qpn 0 []).requestIn c i e (bytesWords bs)) := by
  simp only [Device.placeRequest, hstore, hload, Att.ok_bind]

/-- A record that finds a free entry and is placed leaves the list of its inbox. -/
theorem Device.placeNext_placed {d f : Device} {c i e : Nat} {record : List Byte} (hentry : d.freeEntry = some e)
    (hplace : d.placeRequest c i e record = .ok f) (ps : List (Nat × List Byte)) :
    d.placeNext c (i, record) ps = (f.setClient c { f.client c with held := ps }, true) := by
  unfold Device.placeNext
  rw [hentry]
  dsimp only
  rw [hplace]

/-- Once a record is placed, the records behind it are. -/
theorem Device.placeHeld_placed {d f : Device} {c i e : Nat} {record : List Byte} (hentry : d.freeEntry = some e)
    (hplace : d.placeRequest c i e record = .ok f) (ps : List (Nat × List Byte)) :
    Device.placeHeld c ((i, record) :: ps) d = Device.placeHeld c ps (f.setClient c { f.client c with held := ps }) := by
  rw [Device.placeHeld, Device.placeNext_placed hentry hplace]
  exact if_pos rfl

/-! ### Results, entries and clients (R238, R246, R248, R254) -/

section
variable {n : Nat} {k : Ticket} {s : State} (hk : s.dev.tickets.find? (fun t => t.id == n) = some k)
include hk

/-- A final result that is written frees its slot, and its entry has had its result (R246, R248). -/
theorem exec_resultWriteDone_final {e : Nat} (hfinal : k.final = true) (hentry : k.entry = some e) :
    let d := { s.dev with tickets := s.dev.tickets.filter (fun u => u.id != n) }.freeSlotOf k.client k.slot
    exec (.resultWriteDone n true) s = .next (s.after (d.setSeq e { d.seq e with resultDone := true })) := by
  change execResultWriteDone n true s = _
  refine onDevice_eq ?_
  simp only [hk, hfinal, hentry, Bool.not_true, Bool.false_eq_true, Bool.true_or, if_false, if_true]

/-- A progress record that is written leaves its ticket alone behind (R250). -/
theorem exec_resultWriteDone_progress (hfinal : k.final = false) :
    exec (.resultWriteDone n true) s = .next (s.after { s.dev with
      tickets := s.dev.tickets.filter (fun u => u.id != n) }) := by
  change execResultWriteDone n true s = _
  refine onDevice_eq ?_
  simp only [hk, hfinal, Bool.not_false, Bool.true_or, if_true]

end

/-- Bytes of their own number are a slice of themselves. -/
theorem slice_whole {bs : List Byte} {n : Nat} (h : bs.length = n) : slice bs 0 n = bs := by
  subst h
  simp [slice]

/-- The page sets of an entry whose root and table can be read. -/
theorem Device.heldSets_read {d f g : Device} {e a : Nat} {bs ps : List Byte} (ha : d.rootAddr e = some a)
    (hroot : d.tryLoad (d.seq e).ctx (d.seq e).ctx a 64 = .ok (f, some bs)) (hlen : bs.length = 64)
    (htable : f.tryLoad (d.seq e).ctx (d.seq e).ctx (rootPt (bytesWords bs)) (8 * rootPages (bytesWords bs)) =
      .ok (g, some ps)) :
    d.heldSets e = .ok (g, (bytesWords ps).map pteAddr) := by
  simp only [Device.heldSets, ha, hroot, Att.ok_bind, Option.getD_some, slice_whole hlen, htable]

/-- The device once the RELEASE that waits for an entry, if one does, has ended. -/
def Device.answerRelease (d : Device) : Option Nat → Device
  | some j => d.endJob j endOk
  | none => d

/-- An entry whose page sets are its own returns them and its root to its model's pools and becomes FREE, which ends the
RELEASE that waits for it (R238, R248). -/
theorem Device.releaseEntry_returned {d g h : Device} {e n : Nat} {sets : List Nat} (hown : (d.seq e).shared = false)
    (hsets : d.heldSets e = .ok (g, sets)) (hroot : (d.seq e).root = some n)
    (hroom : (g.model (d.seq e).model).count + sets.length ≤ (g.model (d.seq e).model).nring)
    (hpush : (g.setModel (d.seq e).model { g.model (d.seq e).model with
      rootsUsed := (g.model (d.seq e).model).rootsUsed.filter (· != n) }).pushRing (d.seq e).model sets = .ok h) :
    d.releaseEntry e =
      .ok ({ h.dropLab e with seqs := tdel (h.dropLab e).seqs e }.answerRelease (d.seq e).releaseReq) := by
  simp only [Device.releaseEntry, hown, Bool.false_eq_true, if_false, hsets, Att.ok_bind, if_neg (Nat.not_lt.mpr hroom), hroot,
    hpush]
  rfl

/-- An entry that may become FREE does, where nothing that its release reads or writes lacks a translation. -/
theorem exec_entryRelease_released {e : Nat} {d h : Device} {s : State} (hd : s.dev.results = d)
    (hmay : d.releasable e = true) (hrelease : d.releaseEntry e = .ok h) :
    exec (.entryRelease e) s = .next (s.after h) := by
  change execEntryRelease e s = _
  refine onDevice_eq ?_
  simp only [hd, hmay, if_true, hrelease, Device.attempt]

/-- A client that detaches is gone once no course and no write of its results is out (R254). -/
theorem exec_detachComplete_idle {c : Nat} {d : Device} {s : State} (hd : s.dev.results = d)
    (hdetaching : (d.client c).detaching = true) (hcourse : d.seqs.any (fun p => p.2.client == c && p.2.inc) = false)
    (htickets : d.tickets.any (fun t => t.client == c) = false) :
    exec (.detachComplete c) s = .next (s.after { d with clients := tdel d.clients c }) := by
  change execDetachComplete c s = _
  refine onDevice_eq ?_
  simp only [hd, hdetaching, hcourse, htickets, Bool.not_true, Bool.or_self, Bool.false_eq_true, if_false]

/-- Settles O28: each form of a row by its law above. -/
theorem requestsArriveAndEntriesAreReleased : Obligations.RequestsArriveAndEntriesAreReleased := by
  refine ⟨⟨?_, ?_⟩, ?_, ?_, ?_, ?_⟩
  · rintro c record _ d s hd rfl hattached
    refine ⟨exec_requestArrival_barred hd hattached, fun i e hstays hreceives hslot hentry => ?_⟩
    have hexec := exec_requestArrival_taken (record := record) hd hattached hstays hreceives hslot hentry
    refine ⟨fun hlong => ?_, fun hfits => ?_⟩
    · rw [hexec, if_pos hlong]
    · rw [hexec, if_neg (Nat.not_lt.mpr hfits)]
  · rintro c i e record ps _ d d1 d2 _ d4 bs _ hentry rfl hstore hload rfl hclient htype rfl hgood h4 hlane
    rw [Device.placeHeld_placed hentry (Device.placeRequest_written hstore hload),
      Device.requestIn_accepted hclient htype hgood h4 hlane]
  · rintro n e k _ s hk hfinal hentry rfl
    exact exec_resultWriteDone_final hk hfinal hentry
  · intro n k s hk hfinal
    exact exec_resultWriteDone_progress hk hfinal
  · rintro e a n _ _ d f g h bs ps s hd hmay rfl rfl hown ha hroot hlen htable hmodel hn hroom hpush
    rw [← hmodel] at hroom hpush
    rw [← List.length_map (f := pteAddr)] at hroom
    exact exec_entryRelease_released hd hmay
      (Device.releaseEntry_returned hown (Device.heldSets_read ha hroot hlen htable) hn hroom hpush)
  · intro c d s
    exact exec_detachComplete_idle

/-! ### Operations of context 0 (R225, R231, R232, R254) -/

/-- An operation of context 0 is carried out. -/
theorem Device.byOwner_owner {d : Device} {j op : Nat} {k : Job} (hop : d.crsOp? j op = some k) (hctx : k.ctx = 0)
    (f : Job → Device) : d.byOwner j op f = f k := by
  simp only [Device.byOwner, hop, hctx, ne_eq, not_true_eq_false, if_false]

/-- The client that ATTACH describes. -/
def attachedClient (k : Job) : Client :=
  { attached := true, detaching := false, ctx := bits k.cmd.c3 29 24, qpn := bits k.cmd.c3 23 0, base := k.cmd.c2.toNat
    nslot := bits k.cmd.c3 42 30, slotLog2 := bits k.cmd.c3 47 43, used := [], held := [] }

section
variable {j : Nat} {k : Job} {s : State} (hctx : k.ctx = 0)
include hctx

/-- ATTACH gives a free client number its client when the queue pair, the context and the inbox suit (R225). -/
theorem exec_attach_attaches {x : Client} (hx : x = attachedClient k) (hop : s.dev.crsOp? j 0 = some k)
    (hfree : (s.dev.client k.crsNum).attached = false) (hqp : thas s.dev.qps x.qpn = true)
    (hgood : (tget s.dev.qps x.qpn default).error = false) (hrole : (tget s.dev.qps x.qpn default).role = 2)
    (hlive : (s.dev.ctx x.ctx).state = 1) (hslots : 0 < x.nslot) (hslots' : x.nslot ≤ 4096) (hsize : 8 ≤ x.slotLog2)
    (hsize' : x.slotLog2 ≤ 20) (halone : s.dev.clients.any (fun p => p.2.attached && p.2.qpn == x.qpn) = false) :
    exec (.attach j) s = .next (s.after ((s.dev.setClient k.crsNum x).endJob j endOk)) := by
  subst hx
  change execAttach j s = _
  refine onDevice_eq ?_
  rw [Device.byOwner_owner hop hctx]
  simp only [attachedClient] at hqp hgood hrole hlive hslots hslots' hsize hsize' halone ⊢
  simp only [hfree, hqp, hgood, hrole, hlive, halone, beq_false_of_ne (Nat.ne_of_gt hslots),
    decide_eq_false (Nat.not_lt.mpr hslots'), decide_eq_false (Nat.not_lt.mpr hsize), decide_eq_false (Nat.not_lt.mpr hsize'),
    bne_self_eq_false, Bool.not_true, Bool.or_self, Bool.false_eq_true, if_false]

/-- DETACH of a client begins, and the command ends at once (R254). -/
theorem exec_detach_begins (hop : s.dev.crsOp? j 1 = some k) (hattached : (s.dev.client k.crsNum).attached = true)
    (hstays : (s.dev.client k.crsNum).detaching = false) :
    exec (.detach j) s = .next (s.after ((s.dev.detachClient k.crsNum).endJob j endOk)) := by
  change execDetach j s = _
  refine onDevice_eq ?_
  rw [Device.byOwner_owner hop hctx]
  simp only [hattached, hstays, Bool.not_true, Bool.or_self, Bool.false_eq_true, if_false]

/-- MODEL keeps an accepted record for its lane's next laying while an entry names the model; otherwise it is in force at
once, with its pools kept where its place and use stay the same (R231, R232, log entry 102). -/
theorem exec_model_accepted {d : Device} {bs : List Byte} {new : Model} (hop : s.dev.crsOp? j 2 = some k)
    (hload : s.dev.vload 0 16 k.cmd.opUnit ((s.dev.fld Reg.CRS_MTAB_BASE Fld.CRS_MTAB_BASE_ADDR * 128 + 128 * k.crsNum :
      Nat) : Int) 128 = (d, .ok bs))
    (hnew : { d.model k.crsNum with loaded := true, words := bytesWords bs, next := none } = new)
    (hgood : d.modelBad k.crsNum new = false) :
    exec (.model j) s = .next (s.after ((d.setModel k.crsNum
      (if d.seqs.any (fun p => p.2.model == k.crsNum) then { d.model k.crsNum with next := some (bytesWords bs) }
      else if (d.model k.crsNum).loaded && !modelMoved (d.model k.crsNum) new then new
      else { new with rootsUsed := [], head := 0, count := 0 })).endJob j endOk)) := by
  subst hnew
  change execModel j s = _
  refine onDevice_eq ?_
  rw [Device.byOwner_owner hop hctx]
  simp only [hload, Device.andThenIn_ok, hgood, Bool.false_eq_true, if_false]
  split
  · rfl
  split <;> rfl

end

/-! ### Operations on an entry (R230, R248, R251 to R253) -/

theorem Device.askPark_out {d : Device} {e : Nat} (h : (d.seq e).inc = false) :
    d.askPark e = d.setSeq e { d.seq e with state := sqParked, pstate := (d.seq e).state } :=
  if_neg (Bool.eq_false_iff.mp h)

theorem Device.askPark_inCourse {d : Device} {e : Nat} (h : (d.seq e).inc = true) :
    d.askPark e = d.setSeq e { d.seq e with pendPark := true } := if_pos h

theorem Device.askCancel_out {d : Device} {e : Nat} (h : (d.seq e).inc = false) : d.askCancel e = d.cancelEntry e :=
  if_neg (Bool.eq_false_iff.mp h)

theorem Device.askCancel_inCourse {d : Device} {e : Nat} (h : (d.seq e).inc = true) :
    d.askCancel e = d.setSeq e { d.seq e with pendCancel := true } := if_pos h

section
variable {j : Nat} {k : Job} {s : State} (hused : (s.dev.seq k.crsEntry).state ≠ sqFree)
  (hctx : k.ctx = 0 ∨ k.ctx = (s.dev.seq k.crsEntry).ctx)
include hused hctx

/-- An operation on an entry that meets its condition, by a context that may operate on it, is carried out. -/
theorem onEntry_permitted {op : Nat} {cond : SeqEntry → Bool} {f : Job → Device} (hop : s.dev.crsOp? j op = some k)
    (hcond : cond (s.dev.seq k.crsEntry) = true) : s.dev.onEntry j op cond f = f k := by
  have hmay : ¬(k.ctx ≠ 0 ∧ ((s.dev.seq k.crsEntry).state = sqFree ∨ k.ctx ≠ (s.dev.seq k.crsEntry).ctx)) := by tauto
  rw [Device.onEntry, hop]
  dsimp only
  rw [if_neg hmay]
  simp only [hused, hcond, decide_false, Bool.not_true, Bool.or_self, Bool.false_eq_true, if_false]

/-- PARK, put off while the entry is in a course (R230, R253). -/
theorem exec_park_asks (hop : s.dev.crsOp? j 3 = some k) (hstate : (s.dev.seq k.crsEntry).state ≤ sqDecode) :
    exec (.park j) s = .next (s.after ((s.dev.askPark k.crsEntry).endJob j endOk)) := by
  change execPark j s = _
  exact onDevice_eq (onEntry_permitted hused hctx hop (decide_eq_true hstate))

/-- UNPARK gives a parked entry back the state it had (R252). -/
theorem exec_unpark_resumes (hop : s.dev.crsOp? j 4 = some k) (hstate : (s.dev.seq k.crsEntry).state = sqParked) :
    exec (.unpark j) s = .next (s.after ((s.dev.setSeq k.crsEntry { s.dev.seq k.crsEntry with
      state := (s.dev.seq k.crsEntry).pstate, pstate := 0 }).endJob j endOk)) := by
  change execUnpark j s = _
  exact onDevice_eq (onEntry_permitted hused hctx hop (beq_iff_eq.mpr hstate))

/-- RELEASE of an entry that its model keeps waits until the entry is FREE (R248, R252). -/
theorem exec_courseRelease_waits (hop : s.dev.crsOp? j 5 = some k) (hfinal : (s.dev.seq k.crsEntry).final = true)
    (hdone : (s.dev.seq k.crsEntry).resultDone = true) (hfirst : (s.dev.seq k.crsEntry).releaseReq = none)
    (hkeep : (s.dev.model (s.dev.seq k.crsEntry).model).keep = true) :
    exec (.courseRelease j) s = .next (s.after ((s.dev.setSeq k.crsEntry { s.dev.seq k.crsEntry with
      releaseReq := some j }).mapJob j (fun k => { k with state := .waiting }))) := by
  change execCourseRelease j s = _
  refine onDevice_eq (onEntry_permitted hused hctx hop ?_)
  simp only [hfinal, hdone, hfirst, hkeep, Option.isNone_none, Bool.and_self]

/-- CANCEL of an entry that is not final, put off while the entry is in a course (R230, R251). -/
theorem exec_cancel_asks (hop : s.dev.crsOp? j 6 = some k) (hlive : (s.dev.seq k.crsEntry).final = false) :
    exec (.cancel j) s = .next (s.after ((s.dev.askCancel k.crsEntry).endJob j endOk).results) := by
  change execCancel j s = _
  exact onDevice_eq (onEntry_permitted hused hctx hop (Bool.not_eq_true' _ ▸ hlive))

end

/-! ### POOL_ADD (R238) -/

/-- Entries that reach the ring's end at most are written in one run. -/
theorem Device.ringPut_run {d e : Device} {j m n : Nat} {x : Model} {bs : List Byte} (hlen : bs.length = 8 * n)
    (hrun : x.ringPlace x.count + n ≤ x.nring)
    (hstore : d.vstore x.ctx 16 (unitCode 0 11) (x.ringAt x.count : Nat) bs = (e, .ok ())) :
    d.ringPut j m x bs = (e.setModel m { e.model m with count := x.count + n }).endJob j endOk := by
  have hfits : bs.length ≤ 8 * (x.nring - x.ringPlace x.count) := by omega
  have hn : bs.length / 8 = n := by omega
  rw [Model.ringAt] at hstore
  simp only [Device.ringPut, List.take_of_length_le hfits, hstore, Device.andThenIn_ok, if_pos hfits, hn]

/-- POOL_ADD by context 0 or the model's own context, with room in the ring, writes the page sets that it reads at the
ring's tail (R238, R252). -/
theorem exec_poolAdd_writes {j : Nat} {k : Job} {d : Device} {bs : List Byte} {s : State}
    (hop : s.dev.crsOp? j 7 = some k) (hloaded : (s.dev.model k.crsNum).loaded = true)
    (hctx : k.ctx = 0 ∨ k.ctx = (s.dev.model k.crsNum).ctx)
    (hroom : (s.dev.model k.crsNum).count + bits k.cmd.c3 31 0 ≤ (s.dev.model k.crsNum).nring)
    (hload : s.dev.vload (s.dev.model k.crsNum).ctx 16 k.cmd.opUnit (k.cmd.c2.toNat : Int) (8 * bits k.cmd.c3 31 0) =
      (d, .ok bs)) :
    exec (.poolAdd j) s = .next (s.after (d.ringPut j k.crsNum (s.dev.model k.crsNum) bs)) := by
  have hmay : ¬(k.ctx ≠ 0 ∧ (!(s.dev.model k.crsNum).loaded || (s.dev.model k.crsNum).ctx != k.ctx) = true) := by
    rcases hctx with h | h <;> simp [hloaded, h]
  change execPoolAdd j s = _
  refine onDevice_eq ?_
  simp only [hop]
  rw [if_neg hmay]
  simp only [hloaded, decide_eq_false (Nat.not_lt.mpr hroom), Bool.not_true, Bool.or_self, Bool.false_eq_true, if_false, hload,
    Device.andThenIn_ok]

/-- Settles O31: each operation by its law above. -/
theorem courseControlOperations : Obligations.CourseControlOperations := by
  refine ⟨?_, ?_, ?_, ?_, ?_⟩
  · intro j k x s hop hctx hx
    exact exec_attach_attaches hctx hx hop
  · intro j k s hop hctx
    exact exec_detach_begins hctx hop
  · rintro j _ k d bs new s hop hctx rfl hload hnew hgood
    have hexec := exec_model_accepted hctx hop hload hnew hgood
    refine ⟨fun hnamed => ?_, fun hunnamed => ?_⟩
    · rw [hexec, if_pos hnamed]
    · rw [hexec, hunnamed, if_neg Bool.false_ne_true]
  · rintro j op _ k _ s hop rfl rfl hused hctx
    refine ⟨?_, ?_, ?_, ?_, ?_, ?_⟩
    · rintro rfl hstate hout
      rw [exec_park_asks hused hctx hop hstate, Device.askPark_out hout]
    · rintro rfl hstate hin
      rw [exec_park_asks hused hctx hop hstate, Device.askPark_inCourse hin]
    · rintro rfl
      exact exec_unpark_resumes hused hctx hop
    · rintro rfl
      exact exec_courseRelease_waits hused hctx hop
    · rintro rfl hlive hin
      rw [exec_cancel_asks hused hctx hop hlive, Device.askCancel_inCourse hin]
    · rintro rfl hlive hout
      rw [exec_cancel_asks hused hctx hop hlive, Device.askCancel_out hout]
      rfl
  · rintro j _ k _ d e bs s hop rfl hloaded hctx rfl hroom hload hlen hrun hstore
    rw [exec_poolAdd_writes hop hloaded hctx hroom hload, Device.ringPut_run hlen hrun hstore]

end Sys2Proof.Machine
end

section
/-! SUPPORT. The Eave, the Ridge, the Gutter rings, stored graphs and the engines' tasks (09, 10): what each row comes to,
form by form, and the statements of the family settled with them. -/
namespace Sys2Proof.Machine

open Sys2Proof

/-! ### Stages -/

/-- At Thatched the device is up. -/
theorem Device.up_of_thatched {d : Device} (h : d.clk.stage = .thatched) : d.Up := .inr h

theorem Device.ridgeOn_of_thatched {d : Device} (h : d.clk.stage = .thatched) (hen : d.eaveEn = true) : d.ridgeOn = true := by
  simp only [Device.ridgeOn, h, hen, beq_self_eq_true, Bool.and_self]

theorem Device.stage_bne_thatched {d : Device} (h : d.clk.stage = .thatched) : (d.clk.stage != Stage.thatched) = false := by
  rw [h]; rfl

/-! ### Doorbells, polls and the registers of the Eave (R258 to R260, R443) -/

section
variable {s : State} (hstage : s.dev.clk.stage = .thatched) (v : Word)
include hstage

theorem exec_eaveDoorbell : exec (.eaveDoorbell v) s = .next (s.after (s.dev.doorbell v)) := by
  change execEaveDoorbell v s = _
  exact onRegister_eq ((Device.up_of_thatched hstage).windowOpen _) rfl

theorem exec_eaveCfgWrite_served : exec (.eaveCfgWrite v) s = .next (s.after (s.dev.writeEaveCfg v)) :=
  (exec_eaveCfgWrite s v).trans (onRegister_eq ((Device.up_of_thatched hstage).windowOpen _) rfl)

theorem exec_eaveExpectWrite : exec (.eaveExpectWrite v) s = .next (s.after (s.dev.writeEaveExpect v)) := by
  change execEaveExpectWrite v s = _
  exact onRegister_eq ((Device.up_of_thatched hstage).windowOpen _) rfl

omit v in
/-- A poll is due while a target is outstanding and not stale, 250 ns after the last one (R259). -/
theorem exec_eavePoll_due (htarget : s.dev.eave.target ≠ none) (hfresh : s.dev.eave.stale = false)
    (hpace : s.dev.eave.lastPoll + 250 ≤ s.dev.now) (hen : s.dev.eaveEn = true) :
    exec .eavePoll s =
      .next (s.after ({ s.dev with eave := { s.dev.eave with lastPoll := s.dev.now } } : Device).eaveAccept) := by
  change execEavePoll s = _
  refine onDevice_eq ?_
  rw [if_pos (by simp [Option.isSome_iff_ne_none.mpr htarget, hfresh, hpace])]
  exact if_pos (Device.ridgeOn_of_thatched hstage hen)

end

/-- A target found nowhere for TIMEOUT is stale, a stall apart (R260, R264). -/
theorem exec_staleDoorbell_due {s : State} {x : RingEntry} (htarget : s.dev.eave.target ≠ none)
    (hfresh : s.dev.eave.stale = false) (hflows : s.dev.eave.stall = false)
    (hlate : s.dev.eave.since + max 1 (s.dev.fld Reg.EAVE_POLL Fld.EAVE_POLL_TIMEOUT) * 1000 ≤ s.dev.now)
    (hslot : s.dev.eaveSlot = some x) :
    exec .staleDoorbell s = .next (s.after ((({ s.dev with eave := { s.dev.eave with stale := true } } : Device).count
      Reg.EAVE_STALE 1).event stStale (pack [(0, 32, s.dev.eave.door), (32, 32, x.stamp)]) s.dev.expect)) := by
  change execStaleDoorbell s = _
  refine onDevice_eq ?_
  have hdue : (s.dev.eave.target.isSome && !s.dev.eave.stale && !s.dev.eave.stall && decide (s.dev.eave.since +
      max 1 (s.dev.fld Reg.EAVE_POLL Fld.EAVE_POLL_TIMEOUT) * 1000 ≤ s.dev.now)) = true := by
    simp only [Option.isSome_iff_ne_none.mpr htarget, hfresh, hflows, hlate, Bool.not_false, decide_true, Bool.and_self]
  simp only [hslot]
  rw [if_pos hdue]
  rfl

/-- EAVE_CFG takes any size of the range while EN is 0; at Thatched, EN = 1 is not held (R443, R473). -/
theorem Device.writeEaveCfg_taken {d : Device} {v : Word} (hstage : d.clk.stage = .thatched) (hlo : 6 ≤ bits v 52 48)
    (hhi : bits v 52 48 ≤ 16) (hoff : bit (d.reg Reg.EAVE_CFG) 53 = false) :
    d.writeEaveCfg v = Device.unstall { d.setReg Reg.EAVE_CFG (v &&& 0x003F0FFFFFFFFFC0#64) with
      eave := { d.eave with heldEnable := false, due := d.eave.due && bit v 53 } } := by
  have hsize : (decide (bits v 52 48 < 6) || decide (16 < bits v 52 48)) = false := by
    simp only [decide_eq_false (Nat.not_lt.mpr hlo), decide_eq_false (Nat.not_lt.mpr hhi), Bool.or_self]
  simp only [Device.writeEaveCfg, hsize, hoff, Bool.false_and, Bool.false_eq_true, if_false, Device.setReg_clk,
    Device.setReg_eave, Device.stage_bne_thatched hstage, Bool.and_false]

/-! ### Acceptance (R258, R259, R261 to R264) -/

/-- The entry that an accepted slot puts into the store, under its number and behind its context's last one. -/
def RingEntry.accepted (e : RingEntry) (id : Nat) (prev : Option Nat) : Entry :=
  { id := id, stamp := e.stamp, ctx := e.ctx, tag := e.tag, wen := bit (wordAt e.w 3) 12, wctx := e.wctx
    widx := bits (wordAt e.w 3) 11 0, wval := wordAt e.w 1, sen := bit (wordAt e.w 3) 32, sigok := bit (wordAt e.w 3) 33
    sidx := bits (wordAt e.w 3) 31 20, sval := wordAt e.w 2, conc := bit (wordAt e.w 3) 34, cmd := e.cmd
    state := .accepted, lane := none, prev := prev, ending := none }

/-- The device once an entry has been accepted: the expected number is `x`, which a target may pass, and the next read
is due (R258, R259). -/
def Device.expectNext (d : Device) (x : Nat) : Device :=
  ({ d.setFld Reg.EAVE_EXPECT Fld.EAVE_EXPECT_X x with eave := { d.eave.passed x with due := true } } : Device).count
    Reg.EAVE_ACCEPTED 1

/-- The device with an accepted entry in its store, the last one of its context (R265). -/
def Device.joinStore (d : Device) (e : RingEntry) : Device :=
  { d with
    nextEntry := d.nextEntry + 1
    entries := d.entries ++ [e.accepted d.nextEntry (d.ctx e.ctx).lastEntry]
    ctxs := tset d.ctxs e.ctx { d.ctx e.ctx with lastEntry := some d.nextEntry } }

section
variable {d : Device} {e : RingEntry} (hslot : d.eaveSlot = some e)
include hslot

theorem Device.eaveAccept_otherStamp (hstamp : e.stamp ≠ d.expect) : d.eaveAccept = d.eaveSeen := by
  simp only [Device.eaveAccept, hslot, if_pos hstamp]

theorem Device.eaveAccept_stalls (hstamp : e.stamp = d.expect) (hfull : d.storeFull e.ctx = true)
    (hflows : d.eave.stall = false) :
    d.eaveAccept = { d with eave := { d.eave with stall := true, stallFrom := d.now } } := by
  simp only [Device.eaveAccept, hslot, hstamp, ne_eq, not_true_eq_false, if_false, hfull, if_true, hflows,
    Bool.false_eq_true]

theorem Device.eaveAccept_joins (hstamp : e.stamp = d.expect) (hroom : d.storeFull e.ctx = false)
    (hruns : (d.unstall.expectNext ((d.unstall.expect + 1) % 2 ^ 32)).acceptEnding e = none) :
    d.eaveAccept = (d.unstall.expectNext ((d.unstall.expect + 1) % 2 ^ 32)).joinStore e := by
  unfold Device.expectNext at hruns ⊢
  simp only [Device.eaveAccept, hslot]
  rw [if_neg (not_not_intro hstamp), if_neg (Bool.eq_false_iff.mp hroom)]
  split
  · rfl
  · next hending => exact absurd (hending.symm.trans hruns) (Option.some_ne_none _)

end

theorem exec_eaveAccept_asked {s : State} (hon : s.dev.ridgeOn = true)
    (hasked : s.dev.eave.due = true ∨ s.dev.eave.stall = true) :
    exec .eaveAccept s = .next (s.after s.dev.eaveAccept) := by
  change execEaveAccept s = _
  exact onDevice_eq (if_pos (by simpa [hon] using hasked))

theorem exec_eaveAccept_unasked {s : State} (hdue : s.dev.eave.due = false) (hflows : s.dev.eave.stall = false) :
    exec .eaveAccept s = .next (s.after s.dev) := by
  change execEaveAccept s = _
  exact onDevice_eq (if_neg (by simp [hdue, hflows]))

/-! ### The Gutter rings and the fence latch (R289 to R292, Tables 09-22, 09-23) -/

theorem exec_gutWriteFail (c : Ctx) (n : Nat) (s : State) :
    exec (.gutWriteFail c n) s = .next (s.after (s.dev.gutFail c n)) := rfl

theorem Device.gutFail_sent {d : Device} {c n : Nat} (h : thas (d.gutter c).sent n = true) :
    d.gutFail c n = (d.setGutter c { (d.gutter c).takeBack n with blocked := (d.gutter c).blocked }).gutBlock c :=
  if_neg (by simp [h])

theorem Device.gutConsWrite_ignored {d : Device} {c : Nat} {v : Word}
    (h : ((d.gutter c).written + 2 ^ 32 - d.fld (Reg.GUT_CONS c) Fld.GUT_CONS_CONS) % 2 ^ 32 <
      (bits v 31 0 + 2 ^ 32 - d.fld (Reg.GUT_CONS c) Fld.GUT_CONS_CONS) % 2 ^ 32) :
    d.gutConsWrite c v = d.count Reg.GUT_CONS_IGNORED 1 :=
  if_pos h

/-- The device once ring `c` has been consumed up to count `cons`, its unconsumed records kept (R292). -/
def Device.gutConsumed (d : Device) (c cons : Nat) : Device :=
  (d.setReg (Reg.GUT_CONS c) (BitVec.ofNat 64 cons)).setGutter c { d.gutter c with
    sent := (d.gutter c).sent.filter (fun p =>
      decide ((d.gutter c).written - ((d.gutter c).written + 2 ^ 32 - cons) % 2 ^ 32 ≤ p.1)) }

theorem Device.gutConsWrite_taken {d : Device} {c : Nat} {v : Word}
    (h : (bits v 31 0 + 2 ^ 32 - d.fld (Reg.GUT_CONS c) Fld.GUT_CONS_CONS) % 2 ^ 32 ≤
      ((d.gutter c).written + 2 ^ 32 - d.fld (Reg.GUT_CONS c) Fld.GUT_CONS_CONS) % 2 ^ 32) :
    d.gutConsWrite c v = (d.gutConsumed c (bits v 31 0)).gutDrain ((d.gutter c).held.length + 1) c :=
  if_neg (Nat.not_lt.mpr h)

/-- The device with GUT_CTL_c written: a quota of 0, or one that takes the sum beyond 4,096, leaves the quota (R289). -/
def Device.gutCtlSet (d : Device) (c : Nat) (v : Word) : Device :=
  d.setReg (Reg.GUT_CTL c) (pack [(1, 1, bits v 1 1),
    (16, 13, if bits v 28 16 = 0 ∨ 4096 < bits v 28 16 + d.otherQuotas c then d.quota c else bits v 28 16)])

theorem Device.gutCtlWrite_eq (d : Device) (c : Nat) (v : Word) :
    d.gutCtlWrite c v = if bit v 0 then (d.gutCtlSet c v).gutRearm c (bit v 1) else d.gutCtlSet c v := by
  simp only [Device.gutCtlWrite, Device.gutCtlSet, Bool.or_eq_true, beq_iff_eq, decide_eq_true_eq]

/-- Re-arming without REDIRECT sends what the ring holds (R291). -/
theorem Device.gutRearm_own (d : Device) (c : Nat) : d.gutRearm c false =
    (d.setGutter c { d.gutter c with blocked := false, redirected := false }).gutDrain
      ((d.gutter c).held.length + 1) c := rfl

section
variable {s : State} (hup : s.dev.Up) (c : Ctx) (v : Word)
include hup

theorem exec_gutConsWrite : exec (.gutConsWrite c v) s = .next (s.after (s.dev.gutConsWrite c v)) := by
  change execGutConsWrite c v s = _
  exact onRegister_eq (hup.windowOpen _) rfl

theorem exec_gutQuotaWrite : exec (.gutQuotaWrite c v) s = .next (s.after (s.dev.gutCtlWrite c v)) := by
  change execGutQuotaWrite c v s = _
  exact onRegister_eq (hup.windowOpen _) rfl

theorem exec_gutRearm : exec (.gutRearm c v) s = .next (s.after (s.dev.gutCtlWrite c v)) := by
  change execGutRearm c v s = _
  exact onRegister_eq (hup.windowOpen _) rfl

omit c in
theorem exec_ridgeFenceSelWrite : exec (.ridgeFenceSelWrite v) s = .next (s.after (s.dev.fenceSelWrite v)) := by
  change execRidgeFenceSelWrite v s = _
  exact onRegister_eq (hup.windowOpen _) rfl

end

/-- Settles O32: each form of a row by its law above. That an ignored doorbell asks for a read too, and that the limit of
R260 runs anew after a stall, is the model's choice (log entry 115). -/
theorem eaveAndGutter : Obligations.EaveAndGutter := by
  refine ⟨?_, ?_, ?_⟩
  · intro v s hstage
    refine ⟨?_, ?_, ?_, ?_, ?_, ?_⟩
    · rintro _ rfl
      exact exec_eaveDoorbell hstage v
    · rintro _ rfl
      exact exec_eavePoll_due hstage
    · intro x
      exact exec_staleDoorbell_due
    · intro hlo hhi hoff
      rw [exec_eaveCfgWrite_served hstage, Device.writeEaveCfg_taken hstage hlo hhi hoff]
    · intro hoff
      rw [exec_eaveExpectWrite hstage, Device.writeEaveExpect, if_neg (Bool.eq_false_iff.mp hoff)]
    · intro hen
      rw [exec_eaveExpectWrite hstage, Device.writeEaveExpect, if_pos hen]
  · intro e s hon hslot
    refine ⟨exec_eaveAccept_unasked, ?_, ?_, ?_⟩
    · rintro _ hasked hstamp rfl
      rw [exec_eaveAccept_asked hon hasked, Device.eaveAccept_otherStamp hslot hstamp]
      rfl
    · intro hdue hstamp hfull hflows
      rw [exec_eaveAccept_asked hon (.inl hdue), Device.eaveAccept_stalls hslot hstamp hfull hflows]
    · rintro _ _ _ hasked hstamp hroom rfl rfl rfl hruns
      rw [exec_eaveAccept_asked hon hasked, Device.eaveAccept_joins hslot hstamp hroom hruns]
      rfl
  · intro c v s hup
    refine ⟨?_, ?_, ?_, ?_, exec_ridgeFenceSelWrite hup v⟩
    · rintro n _ rfl hsent
      rw [exec_gutWriteFail, Device.gutFail_sent hsent]
    · intro hbeyond
      rw [exec_gutConsWrite hup, Device.gutConsWrite_ignored hbeyond]
    · rintro _ hwithin rfl
      rw [exec_gutConsWrite hup, Device.gutConsWrite_taken hwithin]
      rfl
    · rintro _ _ rfl rfl
      refine ⟨fun hstays => ?_, fun hrearm hown => ?_⟩
      · rw [exec_gutQuotaWrite hup, Device.gutCtlWrite_eq, hstays, if_neg Bool.false_ne_true]
        rfl
      · rw [exec_gutRearm hup, Device.gutCtlWrite_eq, if_pos hrearm, hown, Device.gutRearm_own]
        rfl

/-! ### Entries start and complete (R265, R267, R278, R279, R289) -/

/-- The device of an entry that has just started; space may have freed for the entry that waits (R264). -/
def Device.startEntry (d : Device) (e : Nat) : Device :=
  (d.mapEntry e (fun y => { y with state := .started })).unstall

section
variable {e : Nat} {x : Entry} {s : State} (hx : s.dev.entry? e = some x)
include hx

theorem exec_entryStart_issues (hstage : s.dev.clk.stage = .thatched) (hmay : s.dev.mayStart x = true)
    (hruns : x.ending = none) :
    exec (.entryStart e) s = .next (s.after ((s.dev.startEntry e).issue e x.ctx none 0 x.cmd false)) := by
  change execEntryStart e s = _
  refine onDevice_eq ?_
  simp only [hx, Device.stage_bne_thatched hstage, hmay, hruns, Bool.not_true, Bool.or_self, Bool.false_eq_true, if_false]
  rfl

/-- An entry that has ended without running issues its command ended (R263, R268). -/
theorem exec_entryStart_ended {g : Ending} (hstage : s.dev.clk.stage = .thatched) (hmay : s.dev.mayStart x = true)
    (hended : x.ending = some g) :
    exec (.entryStart e) s = .next (s.after ((s.dev.startEntry e).issueEnded e x.ctx none 0 x.cmd g default)) := by
  change execEntryStart e s = _
  refine onDevice_eq ?_
  simp only [hx, Device.stage_bne_thatched hstage, hmay, hended, Bool.not_true, Bool.or_self, Bool.false_eq_true, if_false]
  rfl

/-- A started entry whose commands have all ended completes with their status and report. -/
theorem exec_entryComplete_settled (hstarted : x.state = .started) (hall : (s.dev.jobsOf e).all s.dev.settled = true) :
    exec (.entryComplete e) s = .next (s.after (s.dev.completeEntry x (entryResult (s.dev.jobsOf e)).1
      (entryResult (s.dev.jobsOf e)).2 true)) := by
  change execEntryComplete e s = _
  refine onDevice_eq ?_
  simp only [hx, hstarted, hall, beq_self_eq_true, Bool.and_self, if_true]

end

/-! ### Commands of the Ridge itself (R268 to R271, R275, R283) -/

section
variable {j : Nat} {k : Job} {s : State}

theorem exec_cmdNop_issued (hk : s.dev.issued? j 0x00 = some k) :
    exec (.cmdNop j) s = .next (s.after (s.dev.endJob j endOk)) := by
  change execCmdNop j s = _
  refine onDevice_eq ?_
  simp only [hk]

theorem exec_fenceSet_issued (hk : s.dev.issued? j 0x0A = some k) :
    exec (.fenceSet j) s =
      .next (s.after ((s.dev.setFence (k.cmd.arg 36 31) (k.cmd.arg 30 19) k.cmd.c1).endJob j endOk)) := by
  change execFenceSet j s = _
  refine onDevice_eq ?_
  simp only [hk]

/-- A number of commands that a buffer or a graph may have is not refused (R275). -/
theorem cmdCount_ok {n : Nat} (hn : 0 < n) (hmax : n ≤ 65536) : (decide (n = 0) || decide (65536 < n)) = false := by
  simp only [decide_eq_false (Nat.ne_of_gt hn), decide_eq_false (Nat.not_lt.mpr hmax), Bool.or_self]

/-- EXEC of a buffer that has its shape and its place starts it (R275, R283). -/
theorem exec_exec_opens {d : Device} {bs : List Byte} (hk : s.dev.issued? j 0x01 = some k)
    (hfirst : s.dev.bufs.any (fun b => b.job == j) = false) (halign : k.cmd.c1.toNat % 32 = 0)
    (hn : 0 < bits k.cmd.c2 31 0) (hmax : bits k.cmd.c2 31 0 ≤ 65536) (hdepth : s.dev.bufDepth 5 k.buf < 4)
    (hplace : k.buf.isSome = true ∨ s.dev.noPlace k.entry = false)
    (hload : s.dev.vload k.ctx 16 0 (k.cmd.c1.toNat : Int) (32 * bits k.cmd.c2 31 0) = (d, .ok bs))
    (hscan : scanOk (cmdsOf bs) = true) :
    exec (.exec j) s = .next (s.after (d.openBuf k k.ctx (cmdsOf bs) none none)) := by
  have hhas : (k.buf.isNone && s.dev.noPlace k.entry) = false := by
    rcases hplace with h | h
    · rw [Option.isNone_eq_false_iff.mpr h, Bool.false_and]
    · rw [h, Bool.and_false]
  change execExec j s = _
  refine onDevice_eq ?_
  simp only [hk, hfirst, halign, cmdCount_ok hn hmax, Nat.not_le.mpr hdepth, hhas, hload, hscan, ne_eq, not_true_eq_false,
    Bool.false_eq_true, if_false, if_true]

/-- SOF_PRELOAD of a slice that takes it runs on the lines named, from ways of its context (R26, R270). -/
theorem exec_sofPreload_taken {d : Device} {ps : List (Nat × Nat)} (hk : s.dev.issued? j 0x2B = some k)
    (htruss : s.dev.trussEnding k.ctx k.cmd.truss 0 k.index = none) (hlines : bits k.cmd.c2 16 0 ≤ 65536)
    (hon : (s.dev.sof k.cmd.truss).enabled = true) (hstays : (s.dev.sof k.cmd.truss).disabling = false)
    (hidle : (s.dev.sof k.cmd.truss).preload = none)
    (hways : bits k.cmd.c2 47 32 &&& (s.dev.sof k.cmd.truss).wayMask ≠ 0)
    (hmine : k.ctx = 0 ∨ bits k.cmd.c2 47 32 &&& (s.dev.sof k.cmd.truss).wayMask &&& s.dev.fillWays k.cmd.truss k.ctx =
      bits k.cmd.c2 47 32 &&& (s.dev.sof k.cmd.truss).wayMask)
    (hva : vaOk ((k.cmd.c1.toNat / 128 * 128 : Nat) : Int) (128 * preloadLines (bits k.cmd.c2 16 0)) = true)
    (htrans : s.dev.translateAll k.ctx k.cmd.truss 0 false
      (pieces (2 ^ 21) (k.cmd.c1.toNat / 128 * 128) (128 * preloadLines (bits k.cmd.c2 16 0))) = (d, .ok ps)) :
    exec (.sofPreload j) s = .next (s.after ((d.setSof k.cmd.truss { d.sof k.cmd.truss with
      preload := some ⟨lineRuns ps, BitVec.ofNat 16 (bits k.cmd.c2 47 32 &&& (s.dev.sof k.cmd.truss).wayMask), some j,
        k.cmd.c1.toNat / 128 * 128, k.ctx⟩
      preloadDone := 0 }).mapJob j (fun k => { k with state := .waiting }))) := by
  have hown : (k.ctx != 0 && (bits k.cmd.c2 47 32 &&& (s.dev.sof k.cmd.truss).wayMask &&& s.dev.fillWays k.cmd.truss k.ctx) !=
      (bits k.cmd.c2 47 32 &&& (s.dev.sof k.cmd.truss).wayMask)) = false := by
    rcases hmine with h | h <;> rw [h] <;> simp
  change execSofPreload j s = _
  refine onDevice_eq ?_
  simp only [hk, htruss, decide_eq_false (Nat.not_lt.mpr hlines), hon, hstays, hidle, beq_false_of_ne hways, hown, hva, htrans,
    Option.isSome_none, Bool.not_true, Bool.or_self, Bool.false_eq_true, if_false, Device.andThen_ok]

end

/-- Settles O33: each row by its law above. -/
theorem entriesAndRidgeCommands : Obligations.EntriesAndRidgeCommands := by
  refine ⟨⟨?_, fun e x s hx => exec_entryComplete_settled hx⟩, fun j k s => exec_cmdNop_issued,
    fun j k s => exec_fenceSet_issued, ?_, ?_⟩
  · rintro e x _ s hstage hx hmay rfl
    exact ⟨exec_entryStart_issues hx hstage hmay, fun g => exec_entryStart_ended hx hstage hmay⟩
  · rintro j _ k d bs s hk rfl hfirst halign hn hmax hdepth hplace hload hscan
    exact exec_exec_opens hk hfirst halign hn hmax hdepth hplace hload hscan
  · rintro j _ _ _ _ k d ps s hk rfl htruss rfl hlines hon hstays hidle rfl hways hmine rfl hva htrans
    exact exec_sofPreload_taken hk htruss hlines hon hstays hidle hways hmine hva htrans

/-! ### Control commands of a buffer (R263, R266, R268, R276, R277, R299) -/

section
variable {d : Device} {b opc : Nat} {x : Buf} {c : Cmd} {f : CmdForm} (hat : d.atControl? b opc = some (x, c))
  (hf : cmdForm c.opc = some f)
include hat hf

/-- A control command with a reserved field that is not zero ends at its place (R263, R269). -/
theorem Device.atControl_reserved (hres : c.reserved f x.slots.isSome = true) (k : Buf → Cmd → Device) :
    d.atControl b opc k = d.bufFail x c (endC stInternal 0x01 0 x.pc 0) := by
  simp only [Device.atControl, hat, hf, hres, if_true]

/-- Another control command is carried out. -/
theorem Device.atControl_met (hres : c.reserved f x.slots.isSome = false) (k : Buf → Cmd → Device) :
    d.atControl b opc k = k x c := by
  simp only [Device.atControl, hat, hf, hres, Bool.false_eq_true, if_false]

end

/-- The control commands with their codes (R276, R277). -/
def controlRows (b : Nat) : List (Nat × Instr) :=
  [(0x08, .cmdWait b), (0x09, .cmdSignal b), (0x0B, .barrier b), (0x0C, .loop b), (0x0D, .endloop b), (0x0E, .ifCmd b),
    (0x0F, .elseCmd b), (0x10, .endif b)]

/-- Each control command acts where its buffer has come to a command of its code only. -/
theorem exec_controlRow {b : Nat} (s : State) {p : Nat × Instr} (hp : p ∈ controlRows b) :
    ∃ k : Device → Buf → Cmd → Device, exec p.2 s = onDevice s fun d => d.atControl b p.1 (k d) := by
  revert p
  simp only [controlRows, List.forall_mem_cons, List.not_mem_nil, false_imp_iff, implies_true, and_true]
  refine ⟨?_, ?_, ?_, ?_, ?_, ?_, ?_, ?_⟩
  · change ∃ k, execCmdWait b s = _
    exact ⟨_, rfl⟩
  · change ∃ k, execCmdSignal b s = _
    exact ⟨_, rfl⟩
  · change ∃ k, execBarrier b s = _
    exact ⟨_, rfl⟩
  · change ∃ k, execLoop b s = _
    exact ⟨_, rfl⟩
  · change ∃ k, execEndloop b s = _
    exact ⟨_, rfl⟩
  · change ∃ k, execIfCmd b s = _
    exact ⟨_, rfl⟩
  · change ∃ k, execElseCmd b s = _
    exact ⟨_, rfl⟩
  · change ∃ k, execEndif b s = _
    exact ⟨_, rfl⟩

theorem atOrAfter_self (v : Word) : atOrAfter v v = true := by
  simp only [atOrAfter, serialGe, Nat.mod_eq_of_lt v.isLt, Nat.add_sub_cancel_left, Nat.mod_self, decide_eq_true_eq]
  decide

/-- A signal at or after its fence is not stale (R266). -/
theorem Device.signal_forward {d : Device} {c i : Nat} {v : Word} (h : atOrAfter v (d.fence c i) = true) :
    (d.signal c i v).2 = false := by
  simp only [Device.signal, h, if_true]
  split <;> rfl

/-- A signal before its fence is counted (R266). -/
theorem Device.signal_stale {d : Device} {c i : Nat} {v : Word} (h : atOrAfter v (d.fence c i) = false) :
    d.signal c i v = (d.count Reg.RIDGE_FENCE_STALE 1, true) := by
  have hne : v ≠ d.fence c i := fun heq => by simp [heq, atOrAfter_self] at h
  simp only [Device.signal, if_neg hne, h, Bool.false_eq_true, if_false]

/-- A predicate that can be read after its barrier goes on with its truth (R277). -/
theorem Device.predicate_read {d e : Device} {x : Buf} {c : Cmd} {bs : List Byte} (hbarrier : d.barrierOk x.id = true)
    (hcond : c.arg 23 20 ≤ 5) (halign : c.c1.toNat % 8 = 0)
    (hload : d.vload x.ctx 16 0 (c.c1.toNat : Int) 8 = (e, .ok bs)) (k : Device → Bool → Device) :
    d.predicate x c k = k e (condHolds (c.arg 23 20) (bytesWord bs) c.c2) := by
  simp only [Device.predicate, hbarrier, Nat.not_lt.mpr hcond, halign, hload, Bool.not_true, Bool.false_eq_true, if_false,
    ne_eq, not_true_eq_false]

section
variable {b : Nat} {x : Buf} {c : Cmd} {f : CmdForm} {s : State} (hf : cmdForm c.opc = some f)
  (hres : c.reserved f x.slots.isSome = false)
include hf hres

/-- A wait that may be waited, or has been accepted, goes on or stands (R268, R276, R299). -/
theorem exec_cmdWait_waits (hat : s.dev.atControl? b 0x08 = some (x, c))
    (hmay : x.stands = true ∨ s.dev.mayWait x.ctx (c.arg 36 31) = true) :
    exec (.cmdWait b) s = .next (s.after
      (if atOrAfter (s.dev.fence (c.arg 36 31) (c.arg 30 19)) c.c1 then s.dev.bufTo b (x.pc + 1)
        else s.dev.mapBuf b (fun y => { y with stands := true }))) := by
  change execCmdWait b s = _
  refine onDevice_eq ((Device.atControl_met hat hf hres _).trans ?_)
  rw [if_neg (by rcases hmay with h | h <;> simp [h])]

theorem exec_cmdWait_barred (hat : s.dev.atControl? b 0x08 = some (x, c)) (hfirst : x.stands = false)
    (hbarred : s.dev.mayWait x.ctx (c.arg 36 31) = false) :
    exec (.cmdWait b) s = .next (s.after (s.dev.bufFail x c (endC stViolation 0 0 x.pc 0))) := by
  change execCmdWait b s = _
  refine onDevice_eq ((Device.atControl_met hat hf hres _).trans ?_)
  rw [if_pos (by simp [hfirst, hbarred])]

theorem exec_cmdSignal_forward (hat : s.dev.atControl? b 0x09 = some (x, c)) (hbarrier : s.dev.barrierOk b = true)
    (hforward : atOrAfter c.c1 (s.dev.fence x.ctx (c.arg 30 19)) = true) :
    exec (.cmdSignal b) s = .next (s.after ((s.dev.signal x.ctx (c.arg 30 19) c.c1).1.bufTo b (x.pc + 1))) := by
  change execCmdSignal b s = _
  refine onDevice_eq ((Device.atControl_met hat hf hres _).trans ?_)
  simp only [hbarrier, Device.signal_forward hforward, Bool.not_true, Bool.false_eq_true, if_false]

/-- A stale signal leaves its note with a command that has ended OK (R266). -/
theorem exec_cmdSignal_stale (hat : s.dev.atControl? b 0x09 = some (x, c)) (hbarrier : s.dev.barrierOk b = true)
    (hstale : atOrAfter c.c1 (s.dev.fence x.ctx (c.arg 30 19)) = false) :
    exec (.cmdSignal b) s = .next (s.after (((s.dev.count Reg.RIDGE_FENCE_STALE 1).issueEnded x.entry x.ctx (some b) x.pc c
      endOk ((default : Report).note noteFenceStale)).bufTo b (x.pc + 1))) := by
  change execCmdSignal b s = _
  refine onDevice_eq ((Device.atControl_met hat hf hres _).trans ?_)
  simp only [hbarrier, Device.signal_stale hstale, Bool.not_true, Bool.false_eq_true, if_false, if_true]

theorem exec_barrier_met (hat : s.dev.atControl? b 0x0B = some (x, c)) :
    exec (.barrier b) s = .next (s.after (if s.dev.barrierOk b then s.dev.bufTo b (x.pc + 1) else s.dev)) := by
  change execBarrier b s = _
  exact onDevice_eq (Device.atControl_met hat hf hres _)

theorem exec_loop_counts (hat : s.dev.atControl? b 0x0C = some (x, c)) (hkind : c.arg 19 19 = 0) :
    exec (.loop b) s = .next (s.after (if c.c1 = 0 then s.dev.bufTo b (x.closingAt false + 1)
      else (s.dev.mapBuf b (fun y => { y with frames := ⟨x.pc, c.c1.toNat - 1⟩ :: y.frames })).bufTo b (x.pc + 1))) := by
  change execLoop b s = _
  refine onDevice_eq ((Device.atControl_met hat hf hres _).trans ?_)
  rw [if_pos hkind]

theorem exec_elseCmd_met (hat : s.dev.atControl? b 0x0F = some (x, c)) :
    exec (.elseCmd b) s = .next (s.after (s.dev.bufTo b (x.closingAt false))) := by
  change execElseCmd b s = _
  exact onDevice_eq (Device.atControl_met hat hf hres _)

theorem exec_endif_met (hat : s.dev.atControl? b 0x10 = some (x, c)) :
    exec (.endif b) s = .next (s.after (s.dev.bufTo b (x.pc + 1))) := by
  change execEndif b s = _
  exact onDevice_eq (Device.atControl_met hat hf hres _)

/-- The end of a count loop: on when no pass is left, else another pass (R277). -/
theorem exec_endloop_counts {fr : Frame} {rest : List Frame} (hat : s.dev.atControl? b 0x0D = some (x, c))
    (hframes : x.frames = fr :: rest) (hown : fr.start = opening x.cmds x.pc 0) :
    exec (.endloop b) s = .next (s.after (if fr.left = 0 then
      (s.dev.mapBuf b (fun y => { y with frames := rest })).bufTo b (x.pc + 1)
      else (s.dev.mapBuf b (fun y => { y with frames := { fr with left := fr.left - 1 } :: rest })).bufTo b
        (fr.start + 1))) := by
  change execEndloop b s = _
  refine onDevice_eq ((Device.atControl_met hat hf hres _).trans ?_)
  simp only [hframes, ← hown, if_true]

/-- The end of a predicate loop goes back to its test (R277). -/
theorem exec_endloop_tests (hat : s.dev.atControl? b 0x0D = some (x, c)) (hframes : x.frames = []) :
    exec (.endloop b) s = .next (s.after (s.dev.bufTo b (opening x.cmds x.pc 0))) := by
  change execEndloop b s = _
  refine onDevice_eq ((Device.atControl_met hat hf hres _).trans ?_)
  simp only [hframes]

section
variable {d : Device} {bs : List Byte} (hbarrier : s.dev.barrierOk x.id = true) (hcond : c.arg 23 20 ≤ 5)
  (halign : c.c1.toNat % 8 = 0) (hload : s.dev.vload x.ctx 16 0 (c.c1.toNat : Int) 8 = (d, .ok bs))
include hbarrier hcond halign hload

theorem exec_loop_tests (hat : s.dev.atControl? b 0x0C = some (x, c)) (hkind : c.arg 19 19 ≠ 0) :
    exec (.loop b) s = .next (s.after (d.bufTo b
      (if condHolds (c.arg 23 20) (bytesWord bs) c.c2 then x.pc + 1 else x.closingAt false + 1))) := by
  change execLoop b s = _
  refine onDevice_eq ((Device.atControl_met hat hf hres _).trans ?_)
  rw [if_neg hkind, Device.predicate_read hbarrier hcond halign hload]

theorem exec_ifCmd_holds (hat : s.dev.atControl? b 0x0E = some (x, c))
    (hyes : condHolds (c.arg 23 20) (bytesWord bs) c.c2 = true) :
    exec (.ifCmd b) s = .next (s.after (d.bufTo b (x.pc + 1))) := by
  change execIfCmd b s = _
  refine onDevice_eq ((Device.atControl_met hat hf hres _).trans ?_)
  rw [Device.predicate_read hbarrier hcond halign hload, if_pos hyes]

/-- An IF that does not hold goes on after its ELSE, or at its ENDIF where it has none (R277). -/
theorem exec_ifCmd_fails {e : Cmd} (hat : s.dev.atControl? b 0x0E = some (x, c))
    (hno : condHolds (c.arg 23 20) (bytesWord bs) c.c2 = false) (hclose : x.cmds[x.closingAt true]? = some e) :
    exec (.ifCmd b) s = .next (s.after (d.bufTo b
      (if e.opc = 0x0F then x.closingAt true + 1 else x.closingAt true))) := by
  change execIfCmd b s = _
  refine onDevice_eq ((Device.atControl_met hat hf hres _).trans ?_)
  rw [Device.predicate_read hbarrier hcond halign hload, if_neg (Bool.eq_false_iff.mp hno)]
  simp only [hclose, beq_iff_eq]

end

end

/-! ### Stored graphs (R280 to R283) -/

def Device.setGraph (d : Device) (g : Nat) (x : Graph) : Device := { d with graphs := tset d.graphs g x }

/-- The version that a SEAL stores: its commands and defaults, under a key and a number of its own (R280). -/
def sealedVersion (old : Option Graph) (bs ds : List Byte) : GraphVer :=
  ⟨Graph.newKey old, Graph.nextVersion old, cmdsOf bs, bytesWords ds⟩

/-- A graph with a further version, the one that new launches bind (R280). -/
def Graph.extended (old : Option Graph) (owner : Nat) (v : GraphVer) : Graph :=
  ⟨owner, v.key, (match old with | some x => x.vers | none => []) ++ [v]⟩

/-- The version that a PATCH of KIND 1 makes of `v` (R282). -/
def GraphVer.patched (v : GraphVer) (x : Graph) (first n : Nat) (bs : List Byte) : GraphVer :=
  ⟨Graph.newKey (some x), v.version + 1, v.cmds.take first ++ cmdsOf bs ++ v.cmds.drop (first + n), v.defaults⟩

section
variable {j : Nat} {k : Job} {s : State}

/-- SEAL by the graph's context, of commands with their shape and slots that fit, stores a new version and binds it
(R280, R281). -/
theorem exec_graphSeal_stores {d e : Device} {bs ds : List Byte} (hk : s.dev.issued? j 0x03 = some k)
    (hown : s.dev.foreignGraph (k.cmd.arg 34 19) k.ctx = false) (hslots : k.cmd.arg 39 35 ≤ 16)
    (halign : k.cmd.c1.toNat % 32 = 0) (halign' : k.cmd.c3.toNat % 8 = 0) (hn : 0 < bits k.cmd.c2 31 0)
    (hmax : bits k.cmd.c2 31 0 ≤ 65536)
    (hload : s.dev.vload k.ctx 16 0 (k.cmd.c1.toNat : Int) (32 * bits k.cmd.c2 31 0) = (d, .ok bs)) (hdef : k.cmd.c3 ≠ 0)
    (hload' : d.vload k.ctx 16 0 (k.cmd.c3.toNat : Int) (8 * k.cmd.arg 39 35) = (e, .ok ds))
    (hscan : scanOk (cmdsOf bs) = true) (hsubst : substOk (k.cmd.arg 39 35) (cmdsOf bs) = true)
    (hfits : e.graphFits (sealedVersion (e.graph? (k.cmd.arg 34 19)) bs ds) = true) :
    exec (.graphSeal j) s = .next (s.after (((e.setGraph (k.cmd.arg 34 19) (Graph.extended (e.graph? (k.cmd.arg 34 19)) k.ctx
      (sealedVersion (e.graph? (k.cmd.arg 34 19)) bs ds))).pruneGraph (k.cmd.arg 34 19)).endJob j endOk)) := by
  unfold sealedVersion at hfits ⊢
  change execGraphSeal j s = _
  refine onDevice_eq ?_
  simp only [hk, hown, Nat.not_lt.mpr hslots, halign, halign', cmdCount_ok hn hmax, hload, hdef, hload', hscan, hsubst, hfits,
    ne_eq, not_true_eq_false, decide_false, Bool.not_true, Bool.or_self, Bool.false_eq_true, if_false, Device.andThen_ok]
  rfl

section
variable {x : Graph} {v : GraphVer} {d : Device} {bs : List Byte} (hk : s.dev.issued? j 0x04 = some k)
  (hown : s.dev.foreignGraph (k.cmd.arg 34 19) k.ctx = false) (hx : s.dev.graph? (k.cmd.arg 34 19) = some x)
  (hv : x.cur? = some v)
include hk hown hx hv

/-- PATCH of KIND 0 writes default slots of the current version in place (R282). -/
theorem exec_graphPatch_slots (hkind : k.cmd.arg 35 35 = 0) (halign : k.cmd.c1.toNat % 8 = 0)
    (hwithin : bits k.cmd.c2 31 0 + bits k.cmd.c3 31 0 ≤ v.defaults.length)
    (hload : s.dev.vload k.ctx 16 0 (k.cmd.c1.toNat : Int) (8 * bits k.cmd.c3 31 0) = (d, .ok bs)) :
    exec (.graphPatch j) s = .next (s.after ((d.setGraph (k.cmd.arg 34 19) { x with
      vers := x.vers.map (fun (u : GraphVer) => if u.key = v.key then { v with
        defaults := v.defaults.take (bits k.cmd.c2 31 0) ++ bytesWords bs ++
          v.defaults.drop (bits k.cmd.c2 31 0 + bits k.cmd.c3 31 0) } else u) }).endJob j endOk)) := by
  change execGraphPatch j s = _
  refine onDevice_eq ?_
  simp only [hk, hown, hx, hv, hkind, halign, Nat.not_lt.mpr hwithin, hload, Option.map_some, ne_eq, not_true_eq_false,
    Bool.false_eq_true, if_false, if_true, Device.andThen_ok]
  rfl

/-- PATCH of KIND 1 makes a further version; it needs room only while launches of the current one run (R280, R282). -/
theorem exec_graphPatch_commands {w : GraphVer} (hkind : k.cmd.arg 35 35 = 1) (halign : k.cmd.c1.toNat % 32 = 0)
    (hwithin : bits k.cmd.c2 31 0 + bits k.cmd.c3 31 0 ≤ v.cmds.length)
    (hload : s.dev.vload k.ctx 16 0 (k.cmd.c1.toNat : Int) (32 * bits k.cmd.c3 31 0) = (d, .ok bs))
    (hw : v.patched x (bits k.cmd.c2 31 0) (bits k.cmd.c3 31 0) bs = w) (hscan : scanOk w.cmds = true)
    (hsubst : substOk v.defaults.length w.cmds = true)
    (hfits : d.bufs.any (fun b => b.graph == some (k.cmd.arg 34 19, v.key)) = false ∨ d.graphFits w = true) :
    exec (.graphPatch j) s = .next (s.after (((d.setGraph (k.cmd.arg 34 19) { x with current := w.key, vers := x.vers ++ [w]
      }).pruneGraph (k.cmd.arg 34 19)).endJob j endOk)) := by
  have hroom : (d.bufs.any (fun b => b.graph == some (k.cmd.arg 34 19, v.key)) && !d.graphFits w) = false := by
    rcases hfits with h | h
    · rw [h, Bool.false_and]
    · rw [h, Bool.not_true, Bool.and_false]
  subst hw
  unfold GraphVer.patched at hscan hsubst hroom ⊢
  change execGraphPatch j s = _
  refine onDevice_eq ?_
  simp only [hk, hown, hx, hv, hkind, halign, Nat.not_lt.mpr hwithin, hload, hscan, hsubst, hroom, Option.map_some, ne_eq,
    not_true_eq_false, one_ne_zero, Bool.not_true, Bool.or_self, Bool.false_eq_true, if_false, Device.andThen_ok]
  rfl

end

theorem exec_graphDrop_drops {x : Graph} {v : GraphVer} (hk : s.dev.issued? j 0x05 = some k)
    (hown : s.dev.foreignGraph (k.cmd.arg 34 19) k.ctx = false) (hx : s.dev.graph? (k.cmd.arg 34 19) = some x)
    (hv : x.cur? = some v) :
    exec (.graphDrop j) s = .next (s.after ((s.dev.dropGraph (k.cmd.arg 34 19)).endJob j endOk)) := by
  change execGraphDrop j s = _
  refine onDevice_eq ?_
  simp only [hk, hown, hx, hv, Bool.false_eq_true, if_false]

/-- LAUNCH by the owner or context 0 runs the version bound in the owning context, with its slots (R281, R283). -/
theorem exec_launch_runs {x : Graph} {v : GraphVer} {d : Device} {bs : List Byte} (hk : s.dev.issued? j 0x02 = some k)
    (hfirst : s.dev.bufs.any (fun b => b.job == j) = false) (hx : s.dev.graph? (k.cmd.arg 34 19) = some x)
    (hv : x.cur? = some v) (hmay : x.owner = k.ctx ∨ k.ctx = 0) (halign : k.cmd.c1.toNat % 8 = 0)
    (hplace : s.dev.noPlace k.entry = false) (hslots : k.cmd.c1 ≠ 0)
    (hload : s.dev.vload k.ctx 16 0 (k.cmd.c1.toNat : Int) (8 * v.defaults.length) = (d, .ok bs)) :
    exec (.launch j) s = .next (s.after ((d.count Reg.RIDGE_LAUNCHES 1).openBuf k x.owner v.cmds
      (some (launchSlots v (bytesWords bs) k.cmd)) (some (k.cmd.arg 34 19, v.key)))) := by
  have howner : ¬(x.owner ≠ k.ctx ∧ k.ctx ≠ 0) := by tauto
  change execLaunch j s = _
  refine onDevice_eq ?_
  simp only [hk, hfirst, hx, hv, Option.map_some]
  rw [if_neg howner]
  simp only [halign, hplace, hslots, hload, ne_eq, not_true_eq_false, Bool.false_eq_true, if_false, Device.andThen_ok]

end

/-- Settles O35: a control command by the law of its form, a graph's operation by what it stores or runs. -/
theorem buffersAndStoredGraphs : Obligations.BuffersAndStoredGraphs := by
  refine ⟨?_, ?_, ?_, ?_, fun j k x v s => exec_graphDrop_drops, ?_⟩
  · intro b opc x c f s hat hf
    refine ⟨?_, fun hres => ⟨?_, ?_, ?_, ?_, ?_, ?_, ?_, ?_, ?_, ?_, ?_, ?_⟩⟩
    · rintro hres p hp rfl
      obtain ⟨k, hexec⟩ := exec_controlRow s hp
      exact hexec.trans (onDevice_eq (Device.atControl_reserved hat hf hres _))
    · rintro rfl
      exact exec_cmdWait_waits hf hres hat
    · rintro rfl
      exact exec_cmdWait_barred hf hres hat
    · rintro rfl
      exact exec_cmdSignal_forward hf hres hat
    · rintro _ rfl hbarrier hstale rfl
      exact exec_cmdSignal_stale hf hres hat hbarrier hstale
    · rintro rfl
      exact exec_barrier_met hf hres hat
    · rintro rfl hkind hpasses
      rw [exec_loop_counts hf hres hat hkind, if_neg hpasses]
    · rintro rfl hkind hnone
      rw [exec_loop_counts hf hres hat hkind, if_pos hnone]
    · intro d bs hbarrier hcond halign hload
      refine ⟨?_, ?_, ?_⟩
      · rintro rfl
        exact exec_loop_tests hf hres hbarrier hcond halign hload hat
      · rintro rfl
        exact exec_ifCmd_holds hf hres hbarrier hcond halign hload hat
      · rintro e rfl
        exact exec_ifCmd_fails hf hres hbarrier hcond halign hload hat
    · rintro fr rest rfl
      exact exec_endloop_counts hf hres hat
    · rintro rfl
      exact exec_endloop_tests hf hres hat
    · rintro rfl
      exact exec_elseCmd_met hf hres hat
    · rintro rfl
      exact exec_endif_met hf hres hat
  · rintro j _ _ _ k d e bs ds _ _ s hk rfl rfl rfl hown hslots halign halign' hn hmax hload hdef hload' rfl rfl hscan hsubst
      hfits
    exact exec_graphSeal_stores hk hown hslots halign halign' hn hmax hload hdef hload' hscan hsubst hfits
  · rintro j _ _ _ k x v d bs s hk rfl rfl rfl hkind hown hx hv halign hwithin hload
    exact exec_graphPatch_slots hk hown hx hv hkind halign hwithin hload
  · rintro j _ _ _ k x v w d bs s hk rfl rfl rfl hkind hown hx hv halign hwithin hload hw hscan hsubst hfits
    exact exec_graphPatch_commands hk hown hx hv hkind halign hwithin hload hw.symm hscan hsubst hfits
  · rintro j _ k x v d bs s hk rfl hfirst hx hv hmay halign hplace hslots hload
    exact exec_launch_runs hk hfirst hx hv hmay halign hplace hslots hload

/-! ### Engines take and give up tasks (R272, R284, R301 to R305) -/

section
variable {g : Engine} {j : Job} {s : State}

/-- A free engine takes the first of its ready tasks; one that has not started still needs its truss (R271, R272). -/
theorem exec_engineTaskStart_takes (hstage : s.dev.clk.stage = .thatched) (hg : engTruss g ≠ 16)
    (hfree : s.dev.engineFree g = true) (hnext : s.dev.nextTask g = some j)
    (htruss : j.run ≠ .none ∨ s.dev.trussEnding j.ctx (engTruss g) (engUnit g) j.index = none)
    (hon : s.dev.engineOn (engTruss g) = true) (hall : s.dev.enginesFree j = true) :
    exec (.engineTaskStart g) s = .next (s.after (s.dev.startTask g j)) := by
  have hlive : (if j.run = .none then s.dev.trussEnding j.ctx (engTruss g) (engUnit g) j.index else none) = none := by
    rcases htruss with h | h
    · exact if_neg h
    · rw [h, ite_self]
  change execEngineTaskStart g s = _
  refine onDevice_eq ?_
  simp only [Device.stage_bne_thatched hstage, beq_false_of_ne hg, hfree, hnext, hlive, hon, hall, Bool.not_true, Bool.or_self,
    Bool.and_self, Bool.false_eq_true, if_false, if_true]

/-- The next task of a busy engine is preloaded, in place of what was (R284). What it reads, it reads again as it starts:
the model's choice (log entry 80). -/
theorem exec_shingleAhead_preloads (hstage : s.dev.clk.stage = .thatched)
    (hahead : s.dev.fld Reg.RIDGE_CTRL Fld.RIDGE_CTRL_AHEAD ≠ 0) (hbusy : s.dev.running? g ≠ none)
    (hnext : s.dev.nextTask g = some j) (hfirst : j.preloaded = false) (hready : j.state = .ready) (hrun : j.run = .none) :
    exec (.shingleAhead g) s = .next (s.after
      (((s.dev.dropAhead g none).mapJob j.id (fun j => { j with preloaded := true })).fillAhead g j)) := by
  change execShingleAhead g s = _
  refine onDevice_eq ?_
  simp only [Device.stage_bne_thatched hstage, decide_eq_false hahead,
    Option.isNone_eq_false_iff.mpr (Option.isSome_iff_ne_none.mpr hbusy), hnext, hfirst, hready, hrun,
    bne_self_eq_false, Bool.or_self, Bool.false_eq_true, if_false]

section
variable (hg : engTruss g ≠ 16) (hrunning : s.dev.running? g = some j) (hpoint : s.dev.atPoint g j = true)
include hg hrunning hpoint

/-- At its pre-emption point a task told to stop does (R301, R305). -/
theorem exec_enginePreempt_stops (hfree : j.forced = false) (htold : j.preemptReq = true)
    (hon : s.dev.engineOn (engTruss g) = true) :
    exec (.enginePreempt g) s = .next (s.after (s.dev.preemptTask g j)) := by
  change execEnginePreempt g s = _
  refine onDevice_eq ?_
  simp only [beq_false_of_ne hg, hrunning, hpoint, hfree, htold, hon, Bool.not_true, Bool.and_self, Bool.false_eq_true,
    if_false, if_true]

/-- At its pre-emption point a forced task ends (R298, R303). -/
theorem exec_enginePreempt_ends (hforced : j.forced = true) :
    exec (.enginePreempt g) s = .next (s.after
      (((((s.dev.noteJob j.id notePreempted).count (Reg.CTX_PREEMPT j.ctx) 1).endJob j.id
        (endC stInternal 0x09 (engUnit g) 0 0)).dropWork g j).dropAhead g none)) := by
  change execEnginePreempt g s = _
  refine onDevice_eq ?_
  simp only [beq_false_of_ne hg, hrunning, hpoint, hforced, Bool.not_true, Bool.false_eq_true, if_false, if_true]

end

end

/-- Settles O36: one law for each way to take, to preload or to give up a task. -/
theorem enginesTakeAndGiveUpTasks : Obligations.EnginesTakeAndGiveUpTasks := by
  intro g j s
  exact ⟨exec_engineTaskStart_takes, exec_shingleAhead_preloads, exec_enginePreempt_stops, exec_enginePreempt_ends⟩

end Sys2Proof.Machine
end

section
/-! SUPPORT. Address translation (10): the answer register, resends, the request ring and XLT_OP, each row form by form, and
the statement of the family settled with them. -/
namespace Sys2Proof.Machine

open Sys2Proof

/-! ### Answers (R311, R314) -/

/-- The device with a new translation at the first level of each waiting truss (Table 10-7). -/
def Device.fillWaiters (d : Device) (x : Xlation) (ws : List (Nat × Nat × Nat × Bool)) : Device :=
  ws.foldl (fun d w => if w.2.1 < 16 then { d with xlt := d.xlt.fillL1 w.2.1 x } else d) d

/-- The device with its waiters ready, but for those that need to store on a page without WR: these end (Table 10-7). -/
def Device.wakeWaiters (d : Device) (x : Xlation) (ws : List (Nat × Nat × Nat × Bool)) : Device :=
  ws.foldl (fun d w => if w.2.2.2 && !x.wr then d.failWaiter stViolation 0x45 w else d.wake w.1) d

theorem Device.answerMap_some {d : Device} {r : XReq} {v : Word} {x : Xlation} (h : d.answerPage r.ctx r.va v = some x) :
    d.answerMap r v =
      (((d.install x).fillWaiters x r.waiters).wakeWaiters x r.waiters).freeReq r.reqid := by
  simp only [Device.answerMap, h, Device.fillWaiters, Device.wakeWaiters]

theorem Device.answerMap_none {d : Device} {r : XReq} {v : Word} (h : d.answerPage r.ctx r.va v = none) :
    d.answerMap r v = d.failReq r stViolation 0x46 := by
  simp only [Device.answerMap, h]

/-- An answer that no request waits for is counted late. -/
theorem Device.answer_late {d : Device} {v : Word} (h : d.xlt.reqs.find? (fun r => r.reqid == bits v 11 0) = none) :
    d.answer v = d.count Reg.XLT_ANSWER_LATE 1 := by
  simp only [Device.answer, h]

section
variable {d : Device} {v : Word} {r : XReq} (hreq : d.xlt.reqs.find? (fun r => r.reqid == bits v 11 0) = some r)
  (hlive : r.destroyed = false) (hkept : r.withdrawn = false)
include hreq hlive hkept

theorem Device.answer_map (h : bits v 17 16 = 0) : d.answer v = d.answerMap r v := by
  simp only [Device.answer, hreq, hlive, hkept, h, Bool.false_eq_true, if_false]

theorem Device.answer_refuse (h : bits v 17 16 = 1) : d.answer v = d.failReq r stXltFault 0x41 := by
  simp only [Device.answer, hreq, hlive, hkept, h, Bool.false_eq_true, if_false]

theorem Device.answer_violation (h : bits v 17 16 = 2) : d.answer v = d.failReq r stViolation 0x47 := by
  simp only [Device.answer, hreq, hlive, hkept, h, Bool.false_eq_true, if_false]

/-- WAIT starts the request's time and its resends anew. -/
theorem Device.answer_wait (h : bits v 17 16 = 3) :
    d.answer v = d.mapReq r.reqid (fun r => { r with since := d.now, resends := 0 }) := by
  simp only [Device.answer, hreq, hlive, hkept, h, Bool.false_eq_true, if_false]

end

theorem exec_xltAnswer {s : State} (hup : s.dev.Up) {v : Word} {e : Device} (h : s.dev.answer v = e) :
    exec (.xltAnswer v) s = .next (s.after e.serveAgain) := by
  change execXltAnswer v s = _
  exact onRegister_eq (hup.windowOpen _) (congrArg Device.serveAgain h)

/-! ### Resends and withdrawn REQIDs (R312, R313) -/

section
variable {s : State} {n : Nat} {r : XReq} (hreq : s.dev.xlt.reqs.find? (fun r => r.reqid == n) = some r)
include hreq

/-- A sent request is due RESEND after it was sent, unless it has been withdrawn. -/
theorem exec_xltResend_due (hsent : r.sent = true) (hkept : r.withdrawn = false) (hlive : r.destroyed = false)
    (hdue : r.since + s.dev.resendNs ≤ s.dev.now) :
    exec (.xltResend n) s = .next (s.after (if r.resends < s.dev.fld Reg.XLT_CTRL Fld.XLT_CTRL_RETRIES then
      (s.dev.mapReq n (fun r => { r with resends := r.resends + 1, resent := true, sent := false })).xltSend n
      else s.dev.failReq r stXltFault 0x42).serveAgain) := by
  change execXltResend n s = _
  refine onServing_eq ?_
  simp only [hreq, hsent, hkept, hlive, decide_eq_false (Nat.not_lt.mpr hdue), Bool.not_true, Bool.or_self,
    Bool.false_eq_true, if_false]

theorem exec_xltReqidReclaim_late (hdestroyed : r.destroyed = true)
    (hlate : r.since + s.dev.resendNs * (s.dev.fld Reg.XLT_CTRL Fld.XLT_CTRL_RETRIES + 1) ≤ s.dev.now) :
    exec (.xltReqidReclaim n) s = .next (s.after (s.dev.freeReq n)) := by
  change execXltReqidReclaim n s = _
  refine onDevice_eq ?_
  simp only [hreq, hdestroyed, hlate, decide_true, Bool.and_self, if_true]

end

/-! ### The request ring (R310, R313) -/

theorem exec_xltRingWriteFail (s : State) :
    exec .xltRingWriteFail s = .next (s.after s.dev.xltRingFail.serveAgain) := rfl

theorem exec_xltReqConsWrite {s : State} (hup : s.dev.Up) (v : Word) :
    exec (.xltReqConsWrite v) s = .next (s.after (s.dev.xltConsWrite v)) := by
  change execXltReqConsWrite v s = _
  exact onRegister_eq (hup.windowOpen _) rfl

/-- A count beyond the records written is not taken. -/
theorem Device.xltConsWrite_beyond {d : Device} {v : Word}
    (h : (d.xlt.prod + 2 ^ 32 - d.fld Reg.XLT_REQ_CONS Fld.XLT_REQ_CONS_CONS) % 2 ^ 32 <
      (bits v 31 0 + 2 ^ 32 - d.fld Reg.XLT_REQ_CONS Fld.XLT_REQ_CONS_CONS) % 2 ^ 32) :
    d.xltConsWrite v = d :=
  if_pos h

theorem Device.xltConsWrite_within {d : Device} {v : Word}
    (h : (bits v 31 0 + 2 ^ 32 - d.fld Reg.XLT_REQ_CONS Fld.XLT_REQ_CONS_CONS) % 2 ^ 32 ≤
      (d.xlt.prod + 2 ^ 32 - d.fld Reg.XLT_REQ_CONS Fld.XLT_REQ_CONS_CONS) % 2 ^ 32) :
    d.xltConsWrite v = (d.setReg Reg.XLT_REQ_CONS (BitVec.ofNat 64 (bits v 31 0))).xltDrain d.xlt.ringHeld.length :=
  if_neg (Nat.not_lt.mpr h)

/-- The device with the request ring no longer blocked, which sends what it holds. -/
def Device.xltUnblock (d : Device) : Device :=
  { d with xlt := { d.xlt with blocked := false } }.xltDrain d.xlt.ringHeld.length

theorem Device.xltCfgWrite_taken {d : Device} {v : Word} (hmin : 6 ≤ bits v 4 0) (hmax : bits v 4 0 ≤ 12) :
    d.xltCfgWrite v = (d.setReg Reg.XLT_REQ_CFG (v &&& 0xFFFFFFFFFFFFFF1F#64)).xltUnblock :=
  if_neg (by simp [Nat.not_lt.mpr hmin, Nat.not_lt.mpr hmax])

theorem exec_xltReqCfgWrite_served {s : State} (hup : s.dev.Up) (v : Word) :
    exec (.xltReqCfgWrite v) s = .next (s.after (s.dev.xltCfgWrite v)) :=
  (exec_xltReqCfgWrite s v).trans (onRegister_eq (hup.windowOpen _) rfl)

/-! ### MAP, UNMAP and FLUSH (R315) -/

section
variable {j : Nat} {k : Job} {s : State}

theorem exec_xltMap_installs {x : Xlation} (hop : s.dev.xltOp? j 0 = some k) (hres : k.cmd.c2.toNat &&& answerReserved = 0)
    (hva : k.cmd.c1.toNat < 2 ^ 52) (hpage : s.dev.answerPage k.ctx k.cmd.c1.toNat k.cmd.c2 = some x) :
    exec (.xltMap j) s = .next (s.after ((s.dev.install x).endJob j endOk).serveAgain) := by
  change execXltMap j s = _
  refine onServing_eq ?_
  simp only [hop]
  rw [if_neg (not_not_intro hres), if_neg (Nat.not_le.mpr hva)]
  simp only [hpage]

theorem exec_xltUnmap_removes (hop : s.dev.xltOp? j 1 = some k)
    (hrange : k.cmd.c2 = 0 ∨ k.cmd.c1.toNat + k.cmd.c2.toNat ≤ 2 ^ 52) :
    exec (.xltUnmap j) s = .next (s.after (s.dev.unmap k).serveAgain) := by
  change execXltUnmap j s = _
  refine onServing_eq ?_
  simp only [hop]
  refine if_neg ?_
  rintro ⟨hsome, hbeyond⟩
  exact hrange.elim hsome (Nat.not_le.mpr hbeyond)

theorem exec_xltFlush_removes (hop : s.dev.xltOp? j 2 = some k) :
    exec (.xltFlush j) s = .next (s.after (s.dev.unmap k).serveAgain) := by
  change execXltFlush j s = _
  refine onServing_eq ?_
  simp only [hop]

/-- A waiting UNMAP or FLUSH completes once no access in flight has still to read within its range. -/
theorem exec_xltUnmapComplete_completes (hjob : s.dev.job? j = some k) (hopc : k.cmd.opc = 0x32) (hwaits : k.state = .waiting)
    (hfrom : k.waitFrom = none)
    (hissued : (s.dev.xlt.pins.filter (fun p => p.1 == j)).any (fun p => s.dev.pinHolds k.ctx k.covers p.2) = false) :
    exec (.xltUnmapComplete j) s = .next (s.after (s.dev.unmapDone k).serveAgain) := by
  change execXltUnmapComplete j s = _
  refine onServing_eq ?_
  simp only [hjob, hopc, hwaits, hfrom, hissued, bne_self_eq_false, Option.isSome_none, Bool.or_self, Bool.false_eq_true,
    if_false]

end

/-- Settles O38: an answer by what `Device.answer` makes of its RESULT, each other row by its law above. -/
theorem translationRequestsAndAnswers : Obligations.TranslationRequestsAndAnswers := by
  refine ⟨?_, ?_, ?_, ?_⟩
  · intro v r s hup
    refine ⟨fun hnone => exec_xltAnswer hup (Device.answer_late hnone), fun hreq hlive hkept => ⟨?_, ?_, ?_, ?_, ?_⟩⟩
    · rintro x _ hres hpage rfl
      exact exec_xltAnswer hup ((Device.answer_map hreq hlive hkept hres).trans (Device.answerMap_some hpage))
    · intro hres hpage
      exact exec_xltAnswer hup ((Device.answer_map hreq hlive hkept hres).trans (Device.answerMap_none hpage))
    · exact fun hres => exec_xltAnswer hup (Device.answer_refuse hreq hlive hkept hres)
    · exact fun hres => exec_xltAnswer hup (Device.answer_violation hreq hlive hkept hres)
    · exact fun hres => exec_xltAnswer hup (Device.answer_wait hreq hlive hkept hres)
  · intro n v r s hup
    refine ⟨fun hreq => ⟨fun hsent hkept hlive hdue => ⟨?_, ?_⟩, exec_xltReqidReclaim_late hreq⟩,
      exec_xltRingWriteFail s, ?_, ?_, ?_⟩
    · intro hmore
      rw [exec_xltResend_due hreq hsent hkept hlive hdue, if_pos hmore]
    · intro hlast
      rw [exec_xltResend_due hreq hsent hkept hlive hdue, if_neg (Nat.not_lt.mpr hlast)]
    · intro hbeyond
      rw [exec_xltReqConsWrite hup, Device.xltConsWrite_beyond hbeyond]
    · intro hwithin
      rw [exec_xltReqConsWrite hup, Device.xltConsWrite_within hwithin]
    · rintro _ hmin hmax rfl
      rw [exec_xltReqCfgWrite_served hup, Device.xltCfgWrite_taken hmin hmax]
      rfl
  · intro j k x s
    exact exec_xltMap_installs
  · intro j k s
    exact ⟨exec_xltUnmap_removes, exec_xltFlush_removes, exec_xltUnmapComplete_completes⟩

end Sys2Proof.Machine
end

section
/-! SUPPORT. Writes of HBM (11): what a write makes of each byte, what leaves FLT_BOUND's conditions as they stand, and the
statement about a write request settled with them. -/
namespace Sys2Proof.Machine

open Sys2Proof

/-! ### Pieces of a range -/

/-- A slice holds the bytes from its offset on, and zeros beyond the list. -/
theorem slice_getD {bs : List Byte} {off n j : Nat} (hj : j < n) : (slice bs off n).getD j 0 = bs.getD (off + j) 0 := by
  simp only [slice, List.getD_eq_getElem?_getD, List.getElem?_append, List.getElem?_replicate, List.getElem?_take,
    List.getElem?_drop, List.length_take, List.length_drop]
  grind

@[simp] theorem slice_length (bs : List Byte) (off n : Nat) : (slice bs off n).length = n := by
  simp [slice]

/-- The piece of a range in unit `k`. -/
def pieceIn (unit a n k : Nat) : Nat × Nat :=
  (max a (k * unit), min (a + n) ((k + 1) * unit) - max a (k * unit))

theorem mem_pieces {unit a n : Nat} {p : Nat × Nat} :
    p ∈ pieces unit a n ↔ n ≠ 0 ∧ ∃ k, a / unit ≤ k ∧ k ≤ (a + n - 1) / unit ∧ p = pieceIn unit a n k := by
  unfold pieces pieceIn
  split
  case isTrue hn => simp [hn]
  case isFalse hn =>
    simp only [List.mem_map, List.mem_range]
    constructor
    · rintro ⟨i, hi, rfl⟩
      exact ⟨hn, a / unit + i, by omega, by omega, rfl⟩
    · rintro ⟨-, k, hlo, hhi, rfl⟩
      exact ⟨k - a / unit, by omega, by rw [Nat.add_sub_cancel' hlo]⟩

/-- A piece lies within its range. -/
theorem pieces_within {unit a n : Nat} {p : Nat × Nat} (hu : 0 < unit) (h : p ∈ pieces unit a n) :
    a ≤ p.1 ∧ p.1 + p.2 ≤ a + n := by
  obtain ⟨hn, k, hlo, hhi, rfl⟩ := mem_pieces.mp h
  have hfirst : a < (k + 1) * unit := (Nat.div_lt_iff_lt_mul hu).mp (by omega)
  have hlast : k * unit ≤ a + n - 1 := (Nat.le_div_iff_mul_le hu).mp hhi
  have hnext : (k + 1) * unit = k * unit + unit := Nat.succ_mul k unit
  unfold pieceIn
  omega

/-- Every address of a range lies in one of its pieces. -/
theorem exists_piece {unit a n x : Nat} (hu : 0 < unit) (hlo : a ≤ x) (hhi : x < a + n) :
    ∃ p ∈ pieces unit a n, p.1 ≤ x ∧ x < p.1 + p.2 := by
  refine ⟨pieceIn unit a n (x / unit), mem_pieces.mpr ⟨by omega, _, Nat.div_le_div_right hlo,
    Nat.div_le_div_right (by omega), rfl⟩, ?_⟩
  have hbelow : x / unit * unit ≤ x := Nat.div_mul_le_self x unit
  have habove : x < (x / unit + 1) * unit := (Nat.div_lt_iff_lt_mul hu).mp (Nat.lt_succ_self _)
  unfold pieceIn
  omega

/-! ### A write of HBM (R330) -/

/-- A piece of a write after those before it, with the first of their errors. -/
def Hbm.writeNext (a : Nat) (bs : List Byte) (acc : Hbm × Option MemErr) (p : Nat × Nat) : Hbm × Option MemErr :=
  ((acc.1.writePiece p.1 (slice bs (p.1 - a) p.2)).1, firstErr acc.2 (acc.1.writePiece p.1 (slice bs (p.1 - a) p.2)).2)

theorem Hbm.write_reachable {h : Hbm} {a : Nat} {bs : List Byte} (hn : h.allReachable a bs.length = true) :
    h.write a bs = (pieces 32 a bs.length).foldl (Hbm.writeNext a bs) (h, none) := by
  unfold Hbm.write
  rw [hn]
  rfl

/-- A piece is not made, on a sector that is uncorrectable or retired, or it is stored and makes no sector
uncorrectable. -/
theorem Hbm.writePiece_cases (h : Hbm) (a : Nat) (bs : List Byte) :
    ((h.writePiece a bs).1.mem = h.mem ∧ (h.writePiece a bs).1.bad = h.bad ∧
      (h.writePiece a bs).2 = some (.uncorrectable a) ∧ h.sectorBad a = true) ∨
    ((h.writePiece a bs).1.mem = memWrite h.mem a bs ∧ (h.writePiece a bs).1.bad ⊆ h.bad ∧ (h.writePiece a bs).2 = none) := by
  unfold Hbm.writePiece
  extract_lets g
  have hg : g.mem = h.mem ∧ g.bad = h.bad ∧ g.sectorBad a = h.sectorBad a := by
    unfold g; split <;> exact ⟨rfl, rfl, rfl⟩
  clear_value g
  obtain ⟨hmem, hbad, hsector⟩ := hg
  rw [← hmem, ← hbad, ← hsector]
  split
  · rename_i hret
    exact .inl ⟨rfl, rfl, rfl, by simp [Hbm.sectorBad, hret]⟩
  · split
    · rename_i hin
      split
      · exact .inr ⟨rfl, List.filter_subset_self _, rfl⟩
      · exact .inl ⟨rfl, rfl, rfl, by simp only [Hbm.sectorBad, hin, Bool.true_or]⟩
    · exact .inr ⟨rfl, List.Subset.refl _, rfl⟩

theorem Hbm.writePiece_bad (h : Hbm) (a : Nat) (bs : List Byte) : (h.writePiece a bs).1.bad ⊆ h.bad := by
  rcases h.writePiece_cases a bs with ⟨-, hbad, -⟩ | ⟨-, hbad, -⟩
  · exact hbad ▸ List.Subset.refl _
  · exact hbad

theorem Hbm.writePiece_ne_violation (h : Hbm) (a : Nat) (bs : List Byte) : (h.writePiece a bs).2 ≠ some .violation := by
  rcases h.writePiece_cases a bs with ⟨-, -, herr, -⟩ | ⟨-, -, herr⟩ <;> simp [herr]

/-- A piece leaves every address outside it alone. -/
theorem Hbm.writePiece_outside (h : Hbm) {a x : Nat} {bs : List Byte} (hx : x < a ∨ a + bs.length ≤ x) :
    memGet (h.writePiece a bs).1.mem x = memGet h.mem x := by
  rcases h.writePiece_cases a bs with ⟨hmem, -⟩ | ⟨hmem, -⟩ <;> rw [hmem]
  exact memGet_memWrite_out bs hx

theorem Hbm.writePiece_onRetired (h : Hbm) (a : Nat) (bs : List Byte) (x : Nat) :
    (h.writePiece a bs).1.onRetired x = h.onRetired x := by
  obtain ⟨m, b, r, e⟩ := h.writePiece_only a bs
  rw [e]; rfl

theorem Hbm.write_mem_outside (h : Hbm) {a x : Nat} {bs : List Byte} (hx : x < a ∨ a + bs.length ≤ x) :
    memGet (h.write a bs).1.mem x = memGet h.mem x := by
  cases hn : h.allReachable a bs.length
  case false => simp [Hbm.write, hn]
  case true =>
    rw [Hbm.write_reachable hn]
    refine List.foldlRecOn (motive := fun acc : Hbm × Option MemErr => memGet acc.1.mem x = memGet h.mem x) _ _ rfl
      fun acc ih p hp => ?_
    have hin := pieces_within (by omega) hp
    exact (acc.1.writePiece_outside (by rw [slice_length]; omega)).trans ih

theorem Hbm.write_ne_violation {h : Hbm} {a : Nat} {bs : List Byte} (hn : h.allReachable a bs.length = true) :
    (h.write a bs).2 ≠ some .violation := by
  rw [Hbm.write_reachable hn]
  refine List.foldlRecOn (motive := fun acc : Hbm × Option MemErr => acc.2 ≠ some .violation) _ _ (by simp)
    fun acc ih p _ => ?_
  unfold Hbm.writeNext firstErr
  split
  · rename_i hacc; rw [← hacc]; exact ih
  · exact acc.1.writePiece_ne_violation _ _

/-- HBM in canonical form with no sector in error and no channel retired. -/
structure Hbm.Sound (h : Hbm) : Prop where
  wf : memWf h.mem = true
  bad : h.bad = []
  live : ∀ x, h.onRetired x = false

theorem Hbm.Sound.writePiece {h : Hbm} (hs : h.Sound) (a : Nat) (bs : List Byte) : (h.writePiece a bs).1.Sound :=
  ⟨h.writePiece_wf a bs hs.wf, List.subset_nil.mp (hs.bad ▸ h.writePiece_bad a bs),
    fun x => (h.writePiece_onRetired a bs x).trans (hs.live x)⟩

theorem Hbm.Sound.writePiece_mem {h : Hbm} (hs : h.Sound) (a : Nat) (bs : List Byte) :
    (h.writePiece a bs).1.mem = memWrite h.mem a bs := by
  rcases h.writePiece_cases a bs with ⟨-, -, -, hsector⟩ | ⟨hmem, -⟩
  · simp [Hbm.sectorBad, hs.bad, hs.live] at hsector
  · exact hmem

/-- A piece of a write leaves an address reading as the write has it, if it read so or lies in the piece. -/
theorem Hbm.Sound.memGet_writePiece {h : Hbm} (hs : h.Sound) {a x : Nat} {bs : List Byte} {p : Nat × Nat} (hp : a ≤ p.1)
    (hx : memGet h.mem x = bs.getD (x - a) 0 ∨ p.1 ≤ x ∧ x < p.1 + p.2) :
    memGet (h.writePiece p.1 (slice bs (p.1 - a) p.2)).1.mem x = bs.getD (x - a) 0 := by
  by_cases hin : p.1 ≤ x ∧ x < p.1 + p.2
  · obtain ⟨j, rfl⟩ := Nat.exists_eq_add_of_le hin.1
    rw [hs.writePiece_mem, memGet_memWrite_in _ hs.wf (by rw [slice_length]; omega), slice_getD (by omega)]
    congr 1
    omega
  · exact (h.writePiece_outside (by rw [slice_length]; omega)).trans (hx.resolve_right hin)

theorem Hbm.Sound.memGet_writes {a x : Nat} {bs : List Byte} (ps : List (Nat × Nat)) (hps : ∀ p ∈ ps, a ≤ p.1)
    {acc : Hbm × Option MemErr} (hs : acc.1.Sound)
    (hx : memGet acc.1.mem x = bs.getD (x - a) 0 ∨ ∃ p ∈ ps, p.1 ≤ x ∧ x < p.1 + p.2) :
    memGet (ps.foldl (Hbm.writeNext a bs) acc).1.mem x = bs.getD (x - a) 0 := by
  induction ps generalizing acc with
  | nil => simpa using hx
  | cons p ps ih =>
    obtain ⟨hp, hrest⟩ := List.forall_mem_cons.mp hps
    refine ih hrest (hs.writePiece p.1 _) ?_
    rcases hx with hx | ⟨q, hq, hin⟩
    · exact .inl (hs.memGet_writePiece hp (.inl hx))
    · rcases List.mem_cons.mp hq with rfl | hq
      · exact .inl (hs.memGet_writePiece hp (.inr hin))
      · exact .inr ⟨q, hq, hin⟩

/-- What a write stores reads back where no sector is in error and no channel retired. -/
theorem Hbm.Sound.write_mem_inside {h : Hbm} (hs : h.Sound) {a i : Nat} {bs : List Byte}
    (hn : h.allReachable a bs.length = true) (hi : i < bs.length) :
    memGet (h.write a bs).1.mem (a + i) = bs.getD i 0 := by
  rw [Hbm.write_reachable hn, Hbm.Sound.memGet_writes (pieces 32 a bs.length)
    (fun p hp => (pieces_within (by omega) hp).1) hs (.inr (exists_piece (by omega) (by omega) (by omega))),
    Nat.add_sub_cancel_left]

/-! ### What leaves FLT_BOUND's conditions as they stand (R386) -/

/-- The registers that the conditions of FLT_BOUND read. -/
def boundReg (off : Nat) : Bool :=
  boundCond.regRowsRafCtrl off || boundCond.regRowsLthCtrl off ||
    [Reg.ATN_CTRL, Reg.COL_CTRL, Reg.MEM_CTRL, Reg.FLT_CTRL, Reg.REP_CTRL].contains off

theorem find?_tset_ne {α : Type} (t : Tbl α) {k l : Nat} (v : α) (h : l ≠ k) :
    (tset t k v).find? (fun p => p.1 == l) = t.find? (fun p => p.1 == l) := by
  induction t with
  | nil => simp [tset, Ne.symm h]
  | cons p r ih =>
    simp only [tset]
    split
    · simp [Ne.symm h]
    · split
      · rename_i hk
        simp [← hk, Ne.symm h]
      · simp only [List.find?_cons, ih]

theorem Device.reg_setReg_ne (d : Device) {off l : Nat} (w : Word) (h : l ≠ off) : (d.setReg off w).reg l = d.reg l := by
  simp only [Device.reg, Device.setReg_regs, find?_tset_ne _ _ h]

/-- A check that passes every value of a key does not tell what stands there. -/
theorem all_tset {α : Type} (t : Tbl α) {k : Nat} {f : Nat × α → Bool} (hf : ∀ v, f (k, v) = true) (v : α) :
    (tset t k v).all f = t.all f := by
  induction t with
  | nil => simp [tset, hf]
  | cons p r ih =>
    obtain ⟨j, u⟩ := p
    simp only [tset]
    split
    · simp [hf]
    · split
      · rename_i hk
        subst hk
        simp [hf]
      · simp [ih]

theorem boundCond_setReg (d : Device) {off : Nat} (w : Word) (h : boundReg off = false) :
    boundCond (d.setReg off w) = boundCond d := by
  simp only [boundReg, Bool.or_eq_false_iff, List.contains_eq_mem, decide_eq_false_iff_not, List.mem_cons, not_or] at h
  obtain ⟨⟨hraf, hlth⟩, hatn, hcol, hmem, hflt, hrep, -⟩ := h
  unfold boundCond
  simp only [Device.reg_setReg_ne d w (Ne.symm hatn), Device.reg_setReg_ne d w (Ne.symm hcol),
    Device.reg_setReg_ne d w (Ne.symm hmem), Device.reg_setReg_ne d w (Ne.symm hflt),
    Device.reg_setReg_ne d w (Ne.symm hrep), Device.setReg_regs, Device.setReg_soffit, Device.setReg_regions,
    all_tset d.regs (k := off) (f := fun p => !boundCond.regRowsRafCtrl p.1 || bit p.2 0) (by simp [hraf]) w,
    all_tset d.regs (k := off) (f := fun p => !boundCond.regRowsLthCtrl p.1 || bit p.2 0) (by simp [hlth]) w]

theorem boundCond_count (d : Device) {off : Nat} (n : Nat) (h : boundReg off = false) :
    boundCond (d.count off n) = boundCond d := by
  have hovf : ∀ e : Device, boundCond (e.setOvf off) = boundCond e := by
    intro e
    unfold Device.setOvf
    split
    · rfl
    · exact boundCond_setReg e _ (by decide)
  unfold Device.count
  extract_lets v e
  split
  · rfl
  · split
    · exact (hovf _).trans (boundCond_setReg d _ h)
    · exact boundCond_setReg d _ h

theorem boundReg_xltWait : ∀ c < 64, boundReg (Reg.CTX_XLT_WAIT_NS c) = false := by decide

theorem boundReg_tqWait : ∀ (t : Truss) (e : LathNo), boundReg (Reg.LTH_TQ_WAIT t e) = false := by decide


/-- A device whose HBM bytes, FLT_BOUND and its conditions stand as they stood. -/
structure Quiet (d e : Device) : Prop where
  mem : e.hbm.mem = d.hbm.mem
  bound : e.bound = d.bound
  cond : boundCond e = boundCond d

theorem Quiet.refl (d : Device) : Quiet d d := ⟨rfl, rfl, rfl⟩

theorem Quiet.trans {a b c : Device} (h : Quiet a b) (k : Quiet b c) : Quiet a c :=
  ⟨k.mem.trans h.mem, k.bound.trans h.bound, k.cond.trans h.cond⟩

theorem Quiet.charge (d : Device) (a : Nat) (q : MQ) (n t : Nat) : Quiet d (d.charge a q n t) := ⟨rfl, rfl, rfl⟩

theorem Quiet.mapJob (d : Device) (id : Nat) (f : Job → Job) : Quiet d (d.mapJob id f) := ⟨rfl, rfl, rfl⟩

theorem Quiet.count (d : Device) {off : Nat} (n : Nat) (h : boundReg off = false) : Quiet d (d.count off n) := by
  obtain ⟨r, e⟩ := d.count_regs_only off n
  exact ⟨by rw [e], by rw [e], boundCond_count d n h⟩

theorem Quiet.chargeBusy (d : Device) (id : Nat) : Quiet d (d.chargeBusy id) := by
  unfold Device.chargeBusy
  split
  · split
    · split
      · exact .charge d _ _ _ _
      · exact .refl d
    · exact .refl d
  · exact .refl d

theorem Quiet.countWait {d : Device} {id : Nat} (h : ∀ k, d.job? id = some k → k.ctx < 64) : Quiet d (d.countWait id) := by
  unfold Device.countWait
  split
  · exact .refl d
  · rename_i j hj
    split
    · exact .refl d
    · exact .count d _ (boundReg_xltWait _ (h j hj))

theorem Quiet.countTq (d : Device) (id : Nat) : Quiet d (d.countTq id) := by
  unfold Device.countTq
  split
  · exact .refl d
  · split
    · exact .count d _ (boundReg_tqWait _ _)
    · exact .refl d

/-- A command of a context below 64 ends without moving FLT_BOUND or HBM. -/
theorem Quiet.endJob {d : Device} {id : Nat} (h : ∀ k, d.job? id = some k → k.ctx < 64) (e : Ending) :
    Quiet d (d.endJob id e) := by
  have hjobs : (d.chargeBusy id).job? id = d.job? id := by
    unfold Device.job?; rw [(d.chargeBusy_reported id).jobs]
  exact ((Quiet.chargeBusy d id).trans (.countWait (by rw [hjobs]; exact h))).trans
    ((Quiet.countTq _ id).trans (.mapJob _ id _))

theorem Quiet.failIssuerTask {d : Device} {job : Option Nat} (h : ∀ i k, job = some i → d.job? i = some k → k.ctx < 64)
    (st cause a : Nat) : Quiet d (d.failIssuerTask job st cause a) := by
  unfold Device.failIssuerTask
  split
  · exact .refl d
  · rename_i j hj
    obtain ⟨i, hi, hji⟩ := Option.bind_eq_some_iff.mp hj
    have hid : j.id = i := by simpa using List.find?_some hji
    exact .endJob (by rw [hid]; exact fun k => h i k hi) _

theorem settle_mem {d : Device} (h : d.bound = boundCond d) : (settle d).hbm.mem = d.hbm.mem := by
  rw [settle_quiet (by rw [h]; simp)]

/-! ### A write reaching its controller (R22, R330) -/

theorem Soffit.invalidate_staleRisk (s : Soffit) (line : Nat) : (s.invalidate line).staleRisk = s.staleRisk := by
  unfold Soffit.invalidate; split <;> rfl

theorem boundCond_invalidateLines (d : Device) (a n : Nat) : boundCond (d.invalidateLines a n) = boundCond d := by
  have hstale : ∀ (ps : List (Nat × Nat)) (c : Soffit),
      (ps.foldl (fun c q => c.invalidate (q.1 / 128)) c).staleRisk = c.staleRisk := fun ps c =>
    List.foldlRecOn (motive := fun e : Soffit => e.staleRisk = c.staleRisk) ps _ rfl
      fun e ih q _ => (e.invalidate_staleRisk _).trans ih
  simp only [boundCond, Device.invalidateLines, List.all_map, Function.comp_def, hstale]
  rfl

theorem Device.hbmWrite_reachable {d : Device} {a : Nat} {bs : List Byte} (hn : d.hbm.allReachable a bs.length = true) :
    d.hbmWrite a bs = ({ d with hbm := (d.hbm.write a bs).1 }.invalidateLines a bs.length, (d.hbm.write a bs).2) :=
  if_neg (Hbm.write_ne_violation hn)

/-- A piece makes no sector uncorrectable. -/
theorem Hbm.writePiece_sectorBad {h : Hbm} {a x : Nat} {bs : List Byte} (hx : (h.writePiece a bs).1.sectorBad x = true) :
    h.sectorBad x = true := by
  simp only [Hbm.sectorBad, h.writePiece_onRetired, Bool.or_eq_true, List.contains_iff_mem] at hx ⊢
  exact hx.imp_left (@h.writePiece_bad a bs _)

theorem Hbm.write_sectorBad {h : Hbm} {a x : Nat} {bs : List Byte} (hn : h.allReachable a bs.length = true)
    (hx : (h.write a bs).1.sectorBad x = true) : h.sectorBad x = true := by
  rw [Hbm.write_reachable hn] at hx
  exact List.foldlRecOn (motive := fun acc : Hbm × Option MemErr => acc.1.sectorBad x = true → h.sectorBad x = true) _
    (Hbm.writeNext a bs) id (fun acc ih p _ hp => ih (Hbm.writePiece_sectorBad hp)) hx

/-- The device with a write made, the lines it meets dropped and the write charged. -/
def Device.stored (d : Device) (acct a : Nat) (bs : List Byte) : Device :=
  (({ d with hbm := (d.hbm.write a bs).1 }.invalidateLines a bs.length)).chargeHbm acct .hbmWr a bs.length

theorem Device.stored_cond (d : Device) (acct a : Nat) (bs : List Byte) : boundCond (d.stored acct a bs) = boundCond d :=
  boundCond_invalidateLines { d with hbm := (d.hbm.write a bs).1 } a bs.length

section
variable {d : Device} {a : Nat} {bs : List Byte} (hn : d.hbm.allReachable a bs.length = true)
  (hwhole : (pieces 32 a bs.length).all (fun p => p.2 == 32 || !d.hbm.sectorBad p.1) = true)
include hn hwhole

/-- A write that covers no uncorrectable sector in part reads none. -/
theorem Device.noteUnmade_stored (acct action : Nat) :
    (d.stored acct a bs).noteUnmade action a bs.length = d.stored acct a bs := by
  have hnone : (pieces 32 a bs.length).filter (fun p => p.2 != 32 && (d.stored acct a bs).hbm.sectorBad p.1) = [] := by
    refine List.filter_eq_nil_iff.mpr fun p hp hbad => ?_
    simp only [Bool.and_eq_true, bne_iff_ne] at hbad
    have hw := List.all_eq_true.mp hwhole p hp
    simp [hbad.1, Hbm.write_sectorBad hn hbad.2] at hw
  unfold Device.noteUnmade
  rw [hnone]
  rfl

theorem Device.hbmStore_whole (action acct : Nat) :
    d.hbmStore action acct a bs = (d.stored acct a bs, (d.hbm.write a bs).2) := by
  unfold Device.hbmStore
  rw [Device.hbmWrite_reachable hn]
  generalize herr : (d.hbm.write a bs).2 = err
  cases err with
  | none => rfl
  | some x =>
    cases x with
    | violation => exact absurd herr (Hbm.write_ne_violation hn)
    | uncorrectable x => exact Prod.ext (Device.noteUnmade_stored hn hwhole acct action) rfl

/-- Serving such a write stores it, and ends a task at most. -/
theorem Device.serveWrite_whole {job : Option Nat} (hctx : ∀ i k, job = some i → d.job? i = some k → k.ctx < 64) (acct : Nat) :
    Quiet (d.stored acct a bs) (d.serveWrite a acct job bs) := by
  unfold Device.serveWrite
  rw [Device.hbmStore_whole hn hwhole]
  generalize (d.hbm.write a bs).2 = err
  cases err with
  | none => exact .refl _
  | some x =>
    cases x with
    | violation => exact .failIssuerTask (d := d.stored acct a bs) hctx _ _ _
    | uncorrectable x => exact .failIssuerTask (d := d.stored acct a bs) hctx _ _ _

end

theorem exec_memWriteRequest_served {s : State} {a : Nat} {bs : List Byte} (hfits : a % 4096 + bs.length ≤ 4096)
    (hfree : s.dev.heldAt a = false) (use : MemUse) (job : Option Nat) (c : Ctx) :
    exec (.memWriteRequest a bs ⟨use, job⟩ c .clean) s = .next (s.after (s.dev.serveWrite a c job bs)) := by
  change execMemWriteRequest a bs ⟨use, job⟩ c .clean s = _
  refine onDevice_eq ?_
  simp [Nat.not_lt.mpr hfits, Device.crossPath, Device.request, hfree, Device.serveReq]

/-- Settles O40: a write that covers no uncorrectable sector in part leaves HBM as `Hbm.write` does, for no condition of
FLT_BOUND falls and no record is made. -/
theorem hbmWritesOnlyItsBytes : Obligations.HbmWritesOnlyItsBytes := by
  intro a bs use c job s hsettled hfits hn hfree hctx
  refine ⟨_, exec_memWriteRequest_served hfits hfree use job c, ?_⟩
  have hmem : (pieces 32 a bs.length).all (fun p => p.2 == 32 || !s.dev.hbm.sectorBad p.1) = true →
      (settle (s.dev.serveWrite a c job bs)).hbm.mem = (s.dev.hbm.write a bs).1.mem := by
    intro hwhole
    have hquiet := Device.serveWrite_whole hn hwhole hctx c
    have hbound : (s.dev.serveWrite a c job bs).bound = boundCond (s.dev.serveWrite a c job bs) :=
      hquiet.bound.trans (hsettled.trans (hquiet.cond.trans (s.dev.stored_cond c a bs)).symm)
    exact (settle_mem hbound).trans hquiet.mem
  refine ⟨fun hwhole x hx => ?_, fun hwf hbad hlive i hi => ?_⟩
  · rw [State.after_dev, hmem hwhole]
    exact s.dev.hbm.write_mem_outside hx
  · rw [State.after_dev, hmem (List.all_eq_true.mpr fun p _ => by simp [Hbm.sectorBad, hbad, hlive])]
    exact Hbm.Sound.write_mem_inside ⟨hwf, hbad, hlive⟩ hn hi

end Sys2Proof.Machine
end

section
/-! SUPPORT. The HBM controllers (11): requests, the order in which they are served, maintenance slots, sweeps, map slots and
frame conversion, each row form by form, and the statements of the family settled with them. -/
namespace Sys2Proof.Machine

open Sys2Proof

/-! ### Requests (R321, R324 to R333) -/

section
variable {s : State} {a : Nat} {use : MemUse} {c : Ctx} {job : Option Nat} {e : SectorErr} {p : OnChip} {d : Device}

theorem exec_memReadRequest_lost (hpath : s.dev.crossPath a job p = (d, false)) :
    exec (.memReadRequest a ⟨use, job⟩ c e p) s = .next (s.after d) := by
  change execMemReadRequest a ⟨use, job⟩ c e p s = _
  exact onDevice_eq (by simp [hpath])

theorem exec_memReadRequest_reaches (hpath : s.dev.crossPath a job p = (d, true)) :
    exec (.memReadRequest a ⟨use, job⟩ c e p) s = .next (s.after (d.request a (.read e) use c job)) := by
  change execMemReadRequest a ⟨use, job⟩ c e p s = _
  exact onDevice_eq (by simp [hpath])

end

theorem Device.request_held {d : Device} {a : Nat} (hheld : d.heldAt a = true) (work : MemWork) (use : MemUse) (ctx : Nat)
    (job : Option Nat) :
    d.request a work use ctx job = { d with hbm := { d.hbm with
      waiting := d.hbm.waiting ++ [⟨d.hbm.nextReq, a, work, memClass use, ctx, job, d.now⟩]
      nextReq := d.hbm.nextReq + 1 } } :=
  if_pos hheld

theorem Device.request_served {d : Device} {a : Nat} (hfree : d.heldAt a = false) (work : MemWork) (use : MemUse) (ctx : Nat)
    (job : Option Nat) :
    d.request a work use ctx job = d.serveReq ⟨d.hbm.nextReq, a, work, memClass use, ctx, job, d.now⟩ :=
  if_neg (by simp [hfree])

theorem Device.request_read_served {d : Device} {a : Nat} (hfree : d.heldAt a = false) (e : SectorErr) (use : MemUse)
    (ctx : Nat) (job : Option Nat) : d.request a (.read e) use ctx job = d.serveRead a ctx job e :=
  Device.request_served hfree _ _ _ _

theorem Device.serveRead_unreachable {d : Device} {a : Nat} (hr : d.hbm.reachable a = false) (ctx : Nat) (job : Option Nat)
    (e : SectorErr) : d.serveRead a ctx job e = d.failIssuerTask job stViolation 0x46 a :=
  if_pos (by simp [hr])

theorem Device.serveRead_reachable {d x : Device} {a ctx : Nat} {job : Option Nat} {e : SectorErr} {ok : Bool}
    (hr : d.hbm.reachable a = true)
    (hdec : (d.chargeHbm ctx .hbmRd a 32).decodeSector (reqAction job) a e = (x, ok)) :
    d.serveRead a ctx job e = if ok then x else x.failIssuerTask job stUncorr 0 a := by
  simp [Device.serveRead, hr, hdec]

theorem exec_nmaOp_served {ops : List (Nat × NmaOp)} {a : Nat} {op : NmaOp} {use : MemUse} {job : Option Nat} {s : State}
    (hok : nmaGroupOk ((a, op) :: ops) = true) (hfree : s.dev.heldAt a = false) (c : Ctx) :
    exec (.nmaOp ((a, op) :: ops) ⟨use, job⟩ c) s =
      .next (s.after (((a, op) :: ops).foldl (fun d p => d.serveOp c job p) s.dev)) := by
  change execNmaOp ((a, op) :: ops) ⟨use, job⟩ c s = _
  refine onDevice_eq ((if_neg (by simp [hok])).trans ?_)
  exact Device.request_served hfree _ _ _ _

/-- An operation at a sound sector stores its result and is counted. -/
theorem Device.nma_made {d : Device} {a : Nat} (hr : d.hbm.reachable (a / 32 * 32) = true)
    (hgood : d.hbm.sectorBad (a / 32 * 32) = false) (action acct : Nat) (op : NmaOp) :
    d.nma action acct a op =
      (let o := nmaOn op (memRead d.hbm.mem (a / 32 * 32) 32) (a - a / 32 * 32)
      (((d.hbmStore action acct (a / 32 * 32) o.sector).1.count Reg.MEM_NMA_OPS 1).count Reg.MEM_NMA_SAT o.clamps, .ok o)) := by
  simp [Device.nma, hr, hgood]

theorem Device.serveOp_made {d : Device} {a : Nat} {op : NmaOp} {o : NmaOut} (hr : d.hbm.reachable (a / 32 * 32) = true)
    (hgood : d.hbm.sectorBad (a / 32 * 32) = false)
    (ho : nmaOn op (memRead d.hbm.mem (a / 32 * 32) 32) (a - a / 32 * 32) = o) (c j : Nat) :
    d.serveOp c (some j) (a, op) =
      ((((d.hbmStore 2 c (a / 32 * 32) o.sector).1.count Reg.MEM_NMA_OPS 1).count Reg.MEM_NMA_SAT o.clamps).report j
        { (default : Report) with notes := flagNotes o.flags }) := by
  simp only [Device.serveOp, Device.nma_made hr hgood, ho]
  rfl

theorem exec_memAge_rises {q : MemReq} {s : State}
    (hq : s.dev.hbm.waiting.find? (fun p => p.id == q.id && p.cls != 0 &&
      decide (p.since + max 1 (s.dev.fld Reg.MEM_PRIO Fld.MEM_PRIO_AGE) < s.dev.now)) = some q) :
    exec (.memAge q.id) s = .next (s.after ({ s.dev with hbm := { s.dev.hbm with
      waiting := s.dev.hbm.waiting.map (fun (p : MemReq) => if p.id = q.id then
        { p with cls := p.cls - 1, since := p.since + max 1 (s.dev.fld Reg.MEM_PRIO Fld.MEM_PRIO_AGE) } else p) } }.count
      Reg.MEM_AGED 1)) := by
  change execMemAge q.id s = _
  exact onDevice_eq (by simp only [hq])

theorem exec_scrub_served {a : Nat} {s : State} (hon : s.dev.fld Reg.MEM_CTRL Fld.MEM_CTRL_SCRUB_EN ≠ 0)
    (hr : s.dev.hbm.reachable (a / 128 * 128) = true) (hlive : s.dev.hbm.onRetired (a / 128 * 128) = false)
    (hfree : s.dev.heldAt (a / 128 * 128) = false) (errs : List SectorErr) :
    exec (.scrub a errs) s = .next (s.after (s.dev.serveScrub (a / 128 * 128) errs)) := by
  change execScrub a errs s = _
  refine onDevice_eq ?_
  simp only [hon, hr, hlive, decide_false, Bool.not_true, Bool.or_self, Bool.false_eq_true, if_false,
    Device.request_served hfree]
  exact if_pos (by simp [hr, hlive])

/-! ### The order in which waiting requests are served (R324) -/

theorem MemReq.meets_comm (p q : MemReq) : p.meets q = q.meets p := by
  rw [Bool.eq_iff_iff]
  simp only [MemReq.meets, List.any_eq_true, List.contains_iff_mem]
  exact exists_congr fun _ => and_comm

theorem freeToServe_subset (before ws : List MemReq) : freeToServe before ws ⊆ ws := by
  induction ws generalizing before with
  | nil => exact List.Subset.refl _
  | cons w r ih =>
    exact List.append_subset.mpr ⟨by split <;> simp, List.subset_cons_of_subset w (ih _)⟩

/-- A request that an earlier one meets is not free to be served. -/
theorem not_mem_freeToServe {p q : MemReq} (hmeets : p.meets q = true) {before ws : List MemReq} (hp : p ∈ before) :
    q ∉ freeToServe before ws := by
  induction ws generalizing before with
  | nil => simp [freeToServe]
  | cons w r ih =>
    refine List.mem_append.not.mpr (not_or.mpr ⟨?_, ih (List.mem_append_left [w] hp)⟩)
    split
    · simp
    · rename_i hfree
      rw [List.mem_singleton]
      rintro rfl
      exact hfree (List.any_eq_true.mpr ⟨p, hp, by rw [MemReq.meets_comm]; exact hmeets⟩)

theorem not_mem_freeToServe_after {p q : MemReq} (hmeets : p.meets q = true) {a : List MemReq} (ha : q ∉ a) (hne : q ≠ p)
    (before b : List MemReq) : q ∉ freeToServe before (a ++ p :: b) := by
  induction a generalizing before with
  | nil =>
    refine List.mem_append.not.mpr (not_or.mpr ⟨?_, not_mem_freeToServe hmeets (List.mem_append_right _ (by simp))⟩)
    split <;> simp [hne]
  | cons w a ih =>
    obtain ⟨hw, ha⟩ := not_or.mp (List.mem_cons.not.mp ha)
    refine List.mem_append.not.mpr (not_or.mpr ⟨?_, ih ha _⟩)
    split <;> simp [hw]

/-- The better of the request chosen so far and the next one. -/
def betterOf (b : Option MemReq) (q : MemReq) : Option MemReq :=
  match b with
  | none => some q
  | some p => if q.cls < p.cls then some q else b

theorem serveNext_eq (due : Bool) (free : List MemReq) :
    serveNext due free = ((if due then free.find? (fun q => q.cls == 3) else none).or (free.foldl betterOf none)) := by
  unfold serveNext
  split
  · rename_i hfound; rw [hfound]; rfl
  · rename_i hnone; rw [hnone]; rfl

theorem foldl_betterOf_mem (l : List MemReq) (p : MemReq) : ∃ q ∈ p :: l, l.foldl betterOf (some p) = some q := by
  induction l generalizing p with
  | nil => exact ⟨p, by simp, rfl⟩
  | cons w l ih =>
    have hchoice : betterOf (some p) w = some w ∨ betterOf (some p) w = some p := ite_eq_or_eq _ _ _
    rw [List.foldl_cons]
    rcases hchoice with e | e <;> rw [e]
    · obtain ⟨q, hq, h⟩ := ih w
      exact ⟨q, List.mem_cons_of_mem p hq, h⟩
    · obtain ⟨q, hq, h⟩ := ih p
      exact ⟨q, by grind, h⟩

/-- While a request is free to be served, one such request is served next. -/
theorem serveNext_mem (due : Bool) {free : List MemReq} (h : free ≠ []) : ∃ q ∈ free, serveNext due free = some q := by
  rw [serveNext_eq]
  cases hdue : (if due then free.find? (fun q => q.cls == 3) else none) with
  | some q =>
    obtain ⟨-, hfound⟩ := Option.ite_none_right_eq_some.mp hdue
    exact ⟨q, List.mem_of_find?_eq_some hfound, rfl⟩
  | none =>
    obtain ⟨p, l, rfl⟩ := List.exists_cons_of_ne_nil h
    exact foldl_betterOf_mem l p

/-- The waiting requests but one. -/
def others (ws : List MemReq) (r : MemReq) : List MemReq := ws.filter (fun p => p.id != r.id)

theorem mem_others {l : List MemReq} {q r : MemReq} (hq : q ∈ l) (hid : q.id ≠ r.id) : q ∈ others l r :=
  List.mem_filter.mpr ⟨hq, bne_iff_ne.mpr hid⟩

theorem id_ne_of_nodup {ws : List MemReq} (hids : (ws.map (fun r => r.id)).Nodup) {q r : MemReq} (hq : q ∈ ws) (hr : r ∈ ws)
    (hne : q ≠ r) : q.id ≠ r.id :=
  fun hid => hne (List.inj_on_of_nodup_map hids hq hr hid)

theorem nodup_others {ws : List MemReq} (hids : (ws.map (fun r => r.id)).Nodup) (r : MemReq) :
    ((others ws r).map (fun r => r.id)).Nodup :=
  hids.sublist (List.filter_sublist.map _)

theorem length_others {ws : List MemReq} {n : Nat} (hids : (ws.map (fun r => r.id)).Nodup) (hn : ws.length = n + 1)
    {r : MemReq} (hr : r ∈ ws) : (others ws r).length = n := by
  have hone : ws.countP (fun p => p.id == r.id) = 1 := by
    have := List.count_eq_one_of_mem hids (List.mem_map_of_mem hr)
    rwa [List.count, List.countP_map] at this
  have hsplit := List.length_eq_countP_add_countP (fun p : MemReq => p.id == r.id) (l := ws)
  have hothers : (others ws r).length = ws.countP (fun p => ¬ (p.id == r.id) = true) := by
    simp only [others, ← List.countP_eq_length_filter, bne, Bool.not_eq_true, Bool.decide_eq_false]
  omega

/-- A controller serves one of the requests free to be served and goes on with the others. -/
theorem serveOrder_succ (floor n run : Nat) {ws : List MemReq} (h : ws ≠ []) :
    ∃ r ∈ freeToServe [] ws, ∃ run', serveOrder floor (n + 1) run ws = r :: serveOrder floor n run' (others ws r) := by
  have hfree : freeToServe [] ws ≠ [] := by
    obtain ⟨w, l, rfl⟩ := List.exists_cons_of_ne_nil h
    simp [freeToServe]
  obtain ⟨r, hr, hnext⟩ := serveNext_mem (decide (floor ≤ run + 1)) hfree
  exact ⟨r, hr, _, by simp only [serveOrder, hnext]; rfl⟩

/-- Every waiting request is served. -/
theorem mem_serveOrder (floor n run : Nat) {ws : List MemReq} (hids : (ws.map (fun r => r.id)).Nodup) (hn : ws.length = n)
    {q : MemReq} (hq : q ∈ ws) : q ∈ serveOrder floor n run ws := by
  induction n generalizing ws run with
  | zero => simp [List.length_eq_zero_iff.mp hn] at hq
  | succ n ih =>
    obtain ⟨r, hr, run', horder⟩ := serveOrder_succ floor n run (List.ne_nil_of_mem hq)
    have hrws := freeToServe_subset [] ws hr
    rw [horder, List.mem_cons]
    by_cases hqr : q = r
    · exact .inl hqr
    · exact .inr (ih run' (nodup_others hids r) (length_others hids hn hrws) (mem_others hq (id_ne_of_nodup hids hq hrws hqr)))

/-- Of two waiting requests that meet at a sector, the earlier one is served first (R324). -/
theorem serveOrder_in_arrival_order (floor n run : Nat) {ws a b : List MemReq} {p q : MemReq}
    (hids : (ws.map (fun r => r.id)).Nodup) (hn : ws.length = n) (hws : ws = a ++ p :: b) (hq : q ∈ b)
    (hmeets : p.meets q = true) : ∃ x y, serveOrder floor n run ws = x ++ p :: y ∧ q ∈ y := by
  induction n generalizing ws run a b with
  | zero => simp [hws] at hn
  | succ n ih =>
    have hp : p ∈ ws := by simp [hws]
    have hqws : q ∈ ws := by simp [hws, hq]
    have hnodup : (a ++ p :: b).Nodup := hws ▸ hids.of_map
    have hqa : q ∉ a := fun h => (List.disjoint_of_nodup_append hnodup) h (by simp [hq])
    have hqp : q ≠ p := by rintro rfl; simp [List.nodup_append, hq] at hnodup
    obtain ⟨r, hr, run', horder⟩ := serveOrder_succ floor n run (List.ne_nil_of_mem hp)
    have hrws := freeToServe_subset [] ws hr
    have hlen := length_others hids hn hrws
    have hqr : q ≠ r := by
      rintro rfl
      exact not_mem_freeToServe_after hmeets hqa hqp [] b (hws ▸ hr)
    rw [horder]
    by_cases hpr : p = r
    · subst hpr
      have hqothers : q ∈ others ws p := mem_others hqws (id_ne_of_nodup hids hqws hp hqp)
      exact ⟨[], _, rfl, mem_serveOrder floor n run' (nodup_others hids p) hlen hqothers⟩
    · have hsplit : others ws r = others a r ++ p :: others b r := by
        simp [others, hws, id_ne_of_nodup hids hp hrws hpr]
      have hqb : q ∈ others b r := mem_others hq (id_ne_of_nodup hids hqws hrws hqr)
      obtain ⟨x, y, he, hy⟩ := ih run' (nodup_others hids r) hlen hsplit hqb
      exact ⟨r :: x, y, by rw [he]; rfl, hy⟩

/-! ### Maintenance slots (R334, R335) -/

theorem exec_maintAnnounce_up {s : State} (hup : s.dev.Up) : exec .maintAnnounce s = .next (s.after s.dev.announceSlot) := by
  change execMaintAnnounce s = _
  exact onDevice_eq (if_pos hup)

theorem lt_multipleAfter {sp : Nat} (h : 0 < sp) (x : Nat) : x < multipleAfter sp x := by
  unfold multipleAfter
  exact (Nat.div_lt_iff_lt_mul h).mp (Nat.lt_succ_self _)

theorem multipleAfter_mod (sp x : Nat) : multipleAfter sp x % sp = 0 := Nat.mul_mod_left _ _

/-- While no change of spacing is to come, the next slot lies at a multiple of SPACING at least ANNOUNCE ahead. -/
theorem Device.announceSlot_announces {d : Device} (hen : d.fld Reg.MEM_MAINT Fld.MEM_MAINT_EN = 1)
    (hnext : d.hbm.nextSpacings = []) (hsp : 0 < d.hbm.spacing) :
    ∃ t, d.announceSlot.hbm.announced = d.hbm.announced ++ [t] ∧ d.now + d.announceNs ≤ t ∧ t % d.hbm.spacing = 0 := by
  have hslot : ∀ x, d.slotAfter x = multipleAfter d.hbm.spacing (max x (d.hbm.firstSlot - 1)) := by
    intro x
    simp only [Device.slotAfter, hnext, Device.slotAfter.slotAmong, Nat.max_eq_right hsp]
  refine ⟨d.slotAfter (max (d.hbm.announced.foldl max d.hbm.lastSlot) (d.now + d.announceNs - 1)), ?_, ?_, ?_⟩
  · simp [Device.announceSlot, hen]
  · have := lt_multipleAfter hsp (max (max (d.hbm.announced.foldl max d.hbm.lastSlot) (d.now + d.announceNs - 1))
      (d.hbm.firstSlot - 1))
    rw [hslot]
    omega
  · rw [hslot, multipleAfter_mod]

theorem exec_maintSlot_held {t own : Nat} {rest : List Nat} {h : Hbm} {w : List (Nat × Nat × Nat) × List (Nat × Nat × Nat)}
    {s : State} (hann : s.dev.hbm.announced = t :: rest) (hdue : t ≤ s.dev.now)
    (hen : s.dev.fld Reg.MEM_MAINT Fld.MEM_MAINT_EN ≠ 0) (hh : s.dev.hbm.spacingAt t = h)
    (hown : t / max 1 h.spacing % 32 = own)
    (hw : pickWork own (h.queued.filter (fun w => w.2.1 != 1 || w.1 % 32 != own)) [] = w) (failing : List Nat) :
    exec (.maintSlot failing) s = .next (s.after (w.1.foldl (fun d x => d.doWork x failing)
      ((List.range 16).foldl (fun d k => d.retrain (32 * k + own) (failing.contains (32 * k + own)))
        { s.dev with hbm := { h with announced := rest, lastSlot := t, queued := w.2 } }))) := by
  change execMaintSlot failing s = _
  refine onDevice_eq ?_
  subst hh hown hw
  simp only [hann, hen, decide_eq_false (Nat.not_lt.mpr hdue), decide_false, Bool.or_self, Bool.false_eq_true, if_false]

theorem exec_maintHoldEnd_resumes {s : State} (hheld : s.dev.hbm.chans.any (fun p => p.2.held) = true) :
    exec .maintHoldEnd s = .next (s.after (s.dev.turns.foldl
      (fun d q => d.serveReq q) ({ s.dev with hbm := { s.dev.hbm with
        chans := s.dev.hbm.chans.map (fun (p : Nat × Chan) => (p.1, { p.2 with held := false })), waiting := [] } }.count
          Reg.MEM_HOLD_NS (min 4000 (s.dev.now - s.dev.hbm.lastSlot))))) := by
  change execMaintHoldEnd s = _
  exact onDevice_eq (if_neg (by simp [hheld]))

/-! ### Sweeps and queued work (R334, R336, R337) -/

theorem exec_laneSweepDone_sweeping {c : Nat} {s : State} (h : (s.dev.chan c).sweeping = true) (mib : Nat) :
    exec (.laneSweepDone ⟨c, mib⟩) s = .next (s.after (s.dev.sweepTo c mib)) := by
  change execLaneSweepDone ⟨c, mib⟩ s = _
  exact onDevice_eq (if_pos h)

theorem Device.sweepTo_within {d : Device} {c mib : Nat} (h : (d.chan c).sweeping = true) (hmib : mib < 1152) :
    d.sweepTo c mib =
      ((d.setChan c { d.chan c with sweep := max (d.chan c).sweep mib }).charge deviceAccount .hbmRd
        ((mib - (d.chan c).sweep) * 2 ^ 20) (c / 32)).charge deviceAccount .hbmWr
          ((mib - (d.chan c).sweep) * 2 ^ 20) (c / 32) := by
  simp only [Device.sweepTo, hmib, if_true, decide_true, Nat.min_eq_left hmib.le]
  rw [← h]

theorem Device.sweepTo_end {d e : Device} {c mib : Nat} (hmib : 1152 ≤ mib)
    (he : d.setChan c { d.chan c with sweeping := false, sweep := max (d.chan c).sweep 1152 } = e) :
    d.sweepTo c mib =
      (Device.charge { e with hbm := { e.hbm with
          rewritten := e.hbm.rewritten.filter (fun x => e.hbm.chanOf (32 * x) != c) } }
        deviceAccount .hbmRd ((1152 - (d.chan c).sweep) * 2 ^ 20) (c / 32)).charge deviceAccount .hbmWr
          ((1152 - (d.chan c).sweep) * 2 ^ 20) (c / 32) := by
  subst he
  simp only [Device.sweepTo, Nat.not_lt.mpr hmib, if_false, decide_false, Nat.min_eq_right hmib]

section
variable {s : State} (hup : s.dev.Up) {v : Word}
include hup

theorem exec_memPcRetrain_queues (hop : bits v 1 0 = 1) :
    exec (.memPcRetrain v) s = .next (s.after (s.dev.queueWork s.dev.selChan 1 (bits v 13 8))) := by
  change execMemPcRetrain v s = _
  exact onRegister_eq (hup.windowOpen _) (if_pos hop)

theorem exec_memPcRepair_queues (hop : bits v 1 0 = 2) :
    exec (.memPcRepair v) s = .next (s.after (s.dev.queueWork s.dev.selChan 2 (bits v 13 8))) := by
  change execMemPcRepair v s = _
  exact onRegister_eq (hup.windowOpen _) (if_pos hop)

theorem exec_memPcRetire_queues (hop : bits v 1 0 = 3) :
    exec (.memPcRetire v) s = .next (s.after (s.dev.queueWork s.dev.selChan 3 (bits v 13 8))) := by
  change execMemPcRetire v s = _
  exact onRegister_eq (hup.windowOpen _) (if_pos hop)

end

/-- Settles O42: each row by its law above; the order of service by induction on the requests that still wait. -/
theorem hbmRequestsAndMaintenance : Obligations.HbmRequestsAndMaintenance := by
  refine ⟨⟨?_, ?_, ?_, ?_, ?_⟩, ⟨?_, ?_, ?_, ?_, ?_, ?_, ?_⟩⟩
  · intro a k c job e p d s
    refine ⟨exec_memReadRequest_lost, fun hpath hheld => ?_, fun hpath hfree hr => ?_, fun x ok hpath hfree hr hdec => ?_⟩
    · rw [exec_memReadRequest_reaches hpath, Device.request_held hheld]
    · rw [exec_memReadRequest_reaches hpath, Device.request_read_served hfree, Device.serveRead_unreachable hr]
    · rw [exec_memReadRequest_reaches hpath, Device.request_read_served hfree, Device.serveRead_reachable hr hdec]
  · intro ops a op k c job s hok hfree
    exact exec_nmaOp_served hok hfree c
  · rintro a op c j _ o d rfl hr hgood ho
    exact Device.serveOp_made hr hgood ho c j
  · intro q s
    exact exec_memAge_rises
  · rintro a _ errs s hon rfl hr hlive hfree
    exact exec_scrub_served hon hr hlive hfree errs
  · intro s
    exact exec_maintAnnounce_up
  · intro d
    exact Device.announceSlot_announces
  · intro failing t own rest h w s hann hdue hen hh hown hw
    exact exec_maintSlot_held hann hdue hen hh hown hw failing
  · intro s
    exact exec_maintHoldEnd_resumes
  · intro floor run ws a b p q hids hws hq hmeets
    exact serveOrder_in_arrival_order floor ws.length run hids rfl hws hq hmeets
  · rintro c mib _ s rfl hsweeping
    refine ⟨fun hmib => ?_, fun d hmib hd => ?_⟩
    · rw [exec_laneSweepDone_sweeping hsweeping, Device.sweepTo_within hsweeping hmib]
    · rw [exec_laneSweepDone_sweeping hsweeping, Device.sweepTo_end hmib hd]
  · intro v s hup
    exact ⟨exec_memPcRetrain_queues hup, exec_memPcRepair_queues hup, exec_memPcRetire_queues hup⟩

/-! ### MEM_MAINT, the map slots and frame conversion (R334, R338, R339) -/

section
variable {s : State} (hup : s.dev.Up) {v : Word}
include hup

theorem exec_memMaintWrite : exec (.memMaintWrite v) s = .next (s.after (s.dev.writeMemMaint v)) := by
  change execMemMaintWrite v s = _
  exact onRegister_eq (hup.windowOpen _) rfl

theorem exec_mapSlotWrite {m : Fin 2} {r : Fin 9} :
    exec (.mapSlotWrite m r v) s = .next (s.after (s.dev.writeMapSlot m r v)) := by
  change execMapSlotWrite m r v s = _
  exact onRegister_eq (hup.windowOpen _) rfl

theorem exec_frameConvert : exec (.frameConvert v) s = .next (s.after (s.dev.writeFrameCmd v)) := by
  change execFrameConvert v s = _
  exact onRegister_eq (hup.windowOpen _) rfl

end

/-- MEM_MAINT as a write of `v` leaves it: SPACING below 100 is taken as 100. -/
def maintWord (v : Word) : Word := pack [(0, 1, bits v 0 0), (16, 16, max 100 (bits v 31 16)), (32, 16, bits v 47 32)]

theorem Device.writeMemMaint_off {d e : Device} {v : Word} (hoff : bit v 0 = false)
    (he : d.setReg Reg.MEM_MAINT (maintWord v) = e) :
    d.writeMemMaint v = { e with hbm := { e.hbm with
      announced := [], spacing := max 100 (bits v 31 16) * 1000, nextSpacings := [] } } := by
  subst he
  exact if_pos (by simp [hoff])

theorem Device.writeMemMaint_on {d e : Device} {v : Word} (hon : bit v 0 = true)
    (hwas : d.fld Reg.MEM_MAINT Fld.MEM_MAINT_EN = 0) (he : d.setReg Reg.MEM_MAINT (maintWord v) = e) :
    d.writeMemMaint v = { e with hbm := { e.hbm with
      spacing := max 100 (bits v 31 16) * 1000, nextSpacings := []
      firstSlot := multipleAfter (max 100 (bits v 31 16) * 1000) (e.now + e.announceNs) } } := by
  subst he
  exact (if_neg (by simp [hon])).trans (if_pos (by simp [hwas]))

theorem Device.writeMapSlot_followed {d : Device} {m : Nat} (h : d.hbm.followed m = true) (r : Nat) (v : Word) :
    d.writeMapSlot m r v = d.setFld Reg.MEM_STATUS Fld.MEM_STATUS_MAP_REFUSED 1 :=
  if_pos h

theorem Device.writeMapSlot_seed {d : Device} {m : Nat} (h : d.hbm.followed m = false) (hk : (d.hbm.slot m).k ≤ 32)
    (hretired : d.hbm.retiredInUse (d.hbm.slot m).excl = false) (v : Word) :
    d.writeMapSlot m 0 v =
      { d with hbm := d.hbm.setSlot m { d.hbm.slot m with seed := bits v 31 0, valid := bit v 63 } } := by
  simp only [Device.writeMapSlot, h, hretired, decide_eq_false (Nat.not_lt.mpr hk), Bool.or_self, Bool.and_false,
    Bool.false_eq_true, if_false, if_true]

section
variable {d e : Device} {v : Word} (he : d.setReg Reg.MEM_FRAME_CMD (v &&& 0x7FF#64) = e) (hgo : bit v 63 = true)
include he hgo

theorem Device.writeFrameCmd_refused (hc : e.convertCause (bits v 9 0) (bits v 10 10) ≠ 0) :
    d.writeFrameCmd v =
      e.setFld Reg.MEM_STATUS Fld.MEM_STATUS_FRAME_CAUSE (e.convertCause (bits v 9 0) (bits v 10 10)) := by
  subst he
  exact (if_neg (by simp [hgo])).trans (if_pos hc)

/-- An accepted conversion switches its frame to the map and zeroes it. -/
theorem Device.writeFrameCmd_accepted_hbm (hc : e.convertCause (bits v 9 0) (bits v 10 10) = 0) :
    (d.writeFrameCmd v).hbm = { d.hbm with
      onMap1 := if bits v 10 10 = 1 then bits v 9 0 :: d.hbm.onMap1 else d.hbm.onMap1.filter (· != bits v 9 0)
      converting := some (bits v 9 0)
      mem := d.hbm.mem.filter (fun p => p.1 / 2 ^ 30 != bits v 9 0)
      bad := d.hbm.bad.filter (fun k => k * 32 / 2 ^ 30 != bits v 9 0) } := by
  subst he
  simp only [Device.writeFrameCmd, hgo, hc, ne_eq, not_true_eq_false, Bool.not_true, Bool.false_eq_true, if_false,
    Device.setReg_hbm, bne]

end

theorem exec_frameConvertDone_charges {f : Nat} {s : State} (h : s.dev.hbm.converting = some f) :
    exec .frameConvertDone s = .next (s.after ({ s.dev with hbm := { s.dev.hbm with converting := none } }.charge
      deviceAccount .hbmWr (512 * (512 - (s.dev.hbm.slotOf f).k) * 4096) 16)) := by
  change execFrameConvertDone s = _
  exact onDevice_eq (by simp only [h])

/-- Settles O43: each row by its law above; a converted frame reads as the choice of its entries does. -/
theorem mapSlotsAndFrames : Obligations.MapSlotsAndFrames := by
  intro v s hup
  refine ⟨fun d hoff hd => ?_, fun d hon hwas hd => ?_, fun m r hm => ?_, fun m h hm hk hretired hh => ?_,
    fun f m d hd hgo hf hm => ⟨fun c hc hne => ?_, fun hc _ => ?_⟩, fun f => exec_frameConvertDone_charges⟩
  · rw [exec_memMaintWrite hup, Device.writeMemMaint_off hoff hd]
  · rw [exec_memMaintWrite hup, Device.writeMemMaint_on hon hwas hd]
  · rw [exec_mapSlotWrite hup, Device.writeMapSlot_followed hm]
  · rw [exec_mapSlotWrite hup, Fin.val_zero, Device.writeMapSlot_seed hm hk hretired, hh]
  · subst hf hm hc
    rw [exec_frameConvert hup, Device.writeFrameCmd_refused hd hgo hne]
  · subst hf hm
    have hhbm := Device.writeFrameCmd_accepted_hbm hd hgo hc
    have hread : ∀ x, memGet (s.dev.writeFrameCmd v).hbm.mem x =
        if x / 2 ^ 30 != bits v 9 0 then memGet s.dev.hbm.mem x else 0 := by
      intro x
      rw [hhbm]
      exact memGet_filter (fun x => x / 2 ^ 30 != bits v 9 0) s.dev.hbm.mem x
    refine ⟨_, exec_frameConvert hup, by rw [hhbm], ?_, fun x hx => ?_, fun x hx => ?_⟩
    · rw [hhbm]
      by_cases hone : bits v 10 10 = 1
      · simp [hone]
      · simp [hone]
    · rw [hread, hx, bne_self_eq_false, if_neg Bool.false_ne_true]
    · rw [hread, if_pos (bne_iff_ne.mpr hx)]

end Sys2Proof.Machine
end

section
/-! SUPPORT. The machine as a whole: what a row and a step come to, what FLT_BOUND reads and what reset leaves; and the
statements of the family settled with them. -/
namespace Sys2Proof.Machine

open Sys2Proof

/-! ### Rows and steps -/

/-- Every row comes to a device and answers the state after it. -/
theorem exec_after (c : Instr) (s : State) : ∃ d : Device, exec c s = .next (s.after d) := by
  cases c
  all_goals exact ⟨_, rfl⟩

theorem step_of_cons {s : State} {c : Instr} {rest : List Instr} (h : s.pending = c :: rest) :
    step s = exec c { s with pending := rest } := by
  unfold step; rw [h]

theorem step_of_nil {s : State} (h : s.pending = []) : step s = .next { s with dev := idleTick s.dev } := by
  unfold step; rw [h]

theorem idleTick_eq (d : Device) : idleTick d =
    { d with clk := { d.clk with now := if d.clk.counting then (d.clk.now + 1) % 2 ^ 64 else d.clk.now } } := by
  unfold idleTick
  split <;> rfl

/-- The 1 GHz counter is none of the conditions. -/
theorem idleTick_settled {d : Device} (h : d.bound = boundCond d) : (idleTick d).bound = boundCond (idleTick d) := by
  rw [idleTick_eq]; exact h

/-- A step takes the front of the queue, and leaves a device that has settled or is one tick on. -/
theorem step_next {s t : State} (h : step s = .next t) :
    t.pending = s.pending.tail ∧ (t.dev.bound = boundCond t.dev ∨ t.dev = idleTick s.dev) := by
  cases hq : s.pending with
  | nil =>
    rw [step_of_nil hq] at h
    cases h
    exact ⟨hq, .inr rfl⟩
  | cons c rest =>
    obtain ⟨d, hd⟩ := exec_after c { s with pending := rest }
    rw [step_of_cons hq, hd] at h
    cases h
    exact ⟨rfl, .inl (settle_bound d)⟩

/-- Settles O1: the queue's front and rest are those that were put there. -/
theorem stepRunsTheFrontCommand : Obligations.StepRunsTheFrontCommand :=
  fun _ _ _ => step_of_cons rfl

/-- Settles O2: a row answers the state after a device, and that device has settled. -/
theorem everyCommandAnswersANextState : Obligations.EveryCommandAnswersANextState := by
  refine ⟨fun s h => ?_, fun s t h => (step_next h).1, fun c s => ?_⟩
  · rw [step_of_nil h, idleTick_eq]
  · obtain ⟨d, hd⟩ := exec_after c s
    exact ⟨settle d, hd, settle_bound d⟩

/-- Settles O3: a command leaves a settled device, and a tick keeps it settled. -/
theorem boundFollowsItsConditions : Obligations.BoundFollowsItsConditions := by
  intro s t hs h
  rcases (step_next h).2 with hsettled | htick
  · exact hsettled
  · rw [State.Settled, htick]
    exact idleTick_settled hs

/-! ### FLT_BOUND (R386) -/

/-- FLT_BOUND's word: the seven conditions, and above them whether all hold. -/
theorem boundWord_getLsbD (c : BitVec 7) (i : Nat) :
    (boundWord c).getLsbD i = if i < 7 then c.getLsbD i else decide (i = 7) && c == 0x7F#7 := by
  have hpack : boundWord c = BitVec.ofNat 64 (2 ^ 7 * (c == 0x7F#7).toNat + c.toNat) := by
    have hone : b2n (c == 0x7F#7) % 2 ^ 1 = (c == 0x7F#7).toNat := by cases c == 0x7F#7 <;> rfl
    simp only [boundWord, pack, List.foldl_cons, List.foldl_nil, Nat.mod_eq_of_lt c.isLt, hone, Nat.shiftLeft_eq]
    congr 1
    omega
  rw [hpack, BitVec.getLsbD_ofNat, Nat.testBit_two_pow_mul_add _ c.isLt, Nat.testBit_bool_toNat]
  by_cases hi : i < 7
  · simp only [hi, if_true, decide_true, Bool.true_and, show i < 64 by omega]
    rfl
  · rw [if_neg hi, if_neg hi]
    cases c == 0x7F#7
    · simp
    · simp only [Bool.and_true, ← Bool.decide_and, decide_eq_decide]
      omega

theorem eq_allConditions_iff (c : BitVec 7) : c = 0x7F#7 ↔ ∀ i, i < 7 → c.getLsbD i = true := by
  have hones : ∀ i < 7, (0x7F#7).getLsbD i = true := by decide
  refine ⟨fun h => h ▸ hones, fun h => BitVec.eq_of_getLsbD_eq fun i hi => ?_⟩
  rw [h i hi, hones i hi]

/-- When a condition falls, settling records the fall and then lets FLT_BOUND follow. -/
theorem settle_fall {d : Device} (h : d.bound &&& ~~~ boundCond d ≠ 0) {e : Device}
    (he : e = d.log 0x14 3 0 noCtx 0 0 (boundWord d.bound) (boundWord (boundCond d))) :
    settle d = { e with bound := boundCond e } := by
  subst he
  unfold settle
  dsimp only
  rw [if_neg h]

/-- Settles O4: the word shows the bound bit by bit, and settling splits on whether a condition falls. -/
theorem boundFallIsRecorded : Obligations.BoundFallIsRecorded := by
  refine ⟨fun c s t h => ?_, fun d => ⟨settle_quiet, fun h => ⟨_, rfl, settle_fall h rfl⟩⟩⟩
  obtain ⟨d, hd⟩ := exec_after c s
  rw [hd] at h
  cases h
  rw [State.after_dev, settle_bound]
  refine ⟨fun i hi => ?_, ?_, fun i hi => ?_⟩
  · rw [boundWord_getLsbD, if_pos hi]
  · rw [boundWord_getLsbD, ← eq_allConditions_iff]
    simp
  · rw [boundWord_getLsbD, if_neg (by omega), decide_eq_false (by omega), Bool.false_and]

/-! ### Reset (R439, R452) -/

theorem Device.reg_reset {off : Nat} {r : RegRow} (hr : regRowAt off = some r) : Device.reset.reg off = r.resetWord := by
  change resetAt off = _
  rw [resetAt, hr]

/-- Settles O5: nothing has been written at reset, so that each register reads its row's reset word. -/
theorem resetState : Obligations.ResetState := by
  refine ⟨⟨?_, rfl⟩, rfl, rfl, rfl, rfl, rfl, fun off r hr => Device.reg_reset hr, ?_, ?_, ?_, ?_⟩
  · decide
  · decide
  · decide
  · decide
  · decide

end Sys2Proof.Machine
end

section
/-! SUPPORT. Metering (14): what a charge and a retirement do to the accounts, the totals and the retired sums, the rows of
the metering commands, and the statements of the family settled with them. -/
namespace Sys2Proof.Machine

open Sys2Proof

/-! ### Accounts, totals and retired sums (R417, R422, R423) -/

/-- Two accounts' quantities lie at one key only when both are the same. -/
theorem acctKey_ne {a b p q : Nat} (hp : p < 32) (hq : q < 32) (h : (b, p) ≠ (a, q)) : 32 * b + p ≠ 32 * a + q := by
  intro heq
  exact h (Prod.ext (by dsimp only; omega) (by dsimp only; omega))

theorem Meter.charge_acct (m : Meter) (a q amt : Nat) :
    (m.charge a q amt).acct = tset m.acct (32 * a + q)
      ⟨min ((tget m.acct (32 * a + q) default).whole + ((tget m.acct (32 * a + q) default).frac + amt) / quantityUnit q)
        counterMax, ((tget m.acct (32 * a + q) default).frac + amt) % quantityUnit q⟩ := rfl

theorem Meter.charge_total (m : Meter) (a q amt : Nat) :
    (m.charge a q amt).total = tset m.total q (min (tget m.total q 0 +
      ((tget m.acct (32 * a + q) default).frac + amt) / quantityUnit q) counterMax) := rfl

@[simp] theorem Meter.charge_retired (m : Meter) (a q amt : Nat) : (m.charge a q amt).retired = m.retired := rfl

/-- The meter once the whole count of quantity `q` of account `a` has joined the retired sum (R422). -/
def Meter.emptied (m : Meter) (a q : Nat) : Meter :=
  { m with
    acct := tset m.acct (32 * a + q) ⟨0, 0⟩
    retired := tset m.retired q (min (tget m.retired q 0 + (tget m.acct (32 * a + q) default).whole) counterMax)
    ovfTotal := m.ovfTotal || decide (counterMax < tget m.retired q 0 + (tget m.acct (32 * a + q) default).whole) }

/-- A retirement empties the account's quantity and charges its fraction to the device account. -/
theorem Meter.retire_eq (m : Meter) (a q : Nat) :
    m.retire a q = (m.emptied a q).charge deviceAccount q (tget m.acct (32 * a + q) default).frac := rfl

theorem Meter.retire_retired (m : Meter) (a q : Nat) :
    (m.retire a q).retired = tset m.retired q
      (min (tget m.retired q 0 + (tget m.acct (32 * a + q) default).whole) counterMax) := rfl

theorem Meter.emptied_acct (m : Meter) (a q : Nat) : (m.emptied a q).acct = tset m.acct (32 * a + q) ⟨0, 0⟩ := rfl

/-- A quantity of an account that is neither retired nor the device account's stays. -/
theorem Meter.retire_acct_ne (m : Meter) {a q k : Nat} (hk : k ≠ 32 * a + q) (hdev : k ≠ 32 * deviceAccount + q) :
    tget (m.retire a q).acct k default = tget m.acct k default := by
  rw [Meter.retire_eq, Meter.charge_acct, tget_tset_ne _ _ _ hdev, Meter.emptied_acct, tget_tset_ne _ _ _ hk]

theorem Meter.retire_acct_self (m : Meter) {a q : Nat} (ha : a < 64) (hq : q < 32) :
    tget (m.retire a q).acct (32 * a + q) default = ⟨0, 0⟩ := by
  rw [Meter.retire_eq, Meter.charge_acct, tget_tset_ne _ _ _ (acctKey_ne hq hq (by simp [deviceAccount]; omega)),
    Meter.emptied_acct, tget_tset_self]

/-- The device account takes the fraction over: what it holds, in counted amounts, rises by just that. -/
theorem Meter.retire_acct_device (m : Meter) {a q : Nat} (ha : a < 64) (hq : q < 32)
    (hroom : (tget m.acct (32 * 64 + q) default).whole + ((tget m.acct (32 * 64 + q) default).frac +
      (tget m.acct (32 * a + q) default).frac) / quantityUnit q ≤ counterMax) :
    (tget (m.retire a q).acct (32 * 64 + q) default).whole * quantityUnit q +
        (tget (m.retire a q).acct (32 * 64 + q) default).frac =
      (tget m.acct (32 * 64 + q) default).whole * quantityUnit q + (tget m.acct (32 * 64 + q) default).frac +
        (tget m.acct (32 * a + q) default).frac := by
  have hne : 32 * 64 + q ≠ 32 * a + q := acctKey_ne hq hq (by simp; omega)
  rw [Meter.retire_eq, Meter.charge_acct]
  simp only [deviceAccount, tget_tset_self, Meter.emptied_acct, tget_tset_ne _ _ _ hne, Nat.min_eq_left hroom, Nat.add_mul,
    Nat.add_assoc, Nat.div_add_mod']

theorem Device.meterFinal_meter {d e : Device} {c : Nat} (h : d.meterFinal c = some e) :
    e.meter = (List.range quantities).foldl (fun m q => m.retire c q) (d.meterWrite (d.acctRec 1 c 0)).meter := by
  unfold Device.meterFinal at h
  split at h
  · cases h
  · cases h; rfl

/-- Settles O52: a final record ends in retirements, and a retirement is an emptied account and one charge. -/
theorem retirementEmptiesTheAccount : Obligations.RetirementEmptiesTheAccount := by
  refine ⟨fun d e c h => d.meterFinal_meter h, fun m a q ha hq => ⟨m.retire_acct_self ha hq, ?_, fun p hp => ?_, ?_,
    m.retire_acct_device ha hq⟩⟩
  · rw [Meter.retire_retired, tget_tset_self]
  · rw [Meter.retire_retired, tget_tset_ne _ _ _ hp]
  · intro b p hp hself hdev
    exact m.retire_acct_ne (acctKey_ne hp hq hself) (acctKey_ne hp hq hdev)

/-! ### The accounts and the retired sum make the total (R423) -/

theorem foldl_add_range (f : Nat → Nat) (n : Nat) :
    (List.range n).foldl (fun k a => k + f a) 0 = ∑ a ∈ Finset.range n, f a := by
  induction n with
  | zero => rfl
  | succ n ih => rw [List.range_succ, List.foldl_append, ih, Finset.sum_range_succ]; rfl

theorem Meter.held_eq_sum (m : Meter) (q : Nat) :
    m.held q = ∑ a ∈ Finset.range 65, (tget m.acct (32 * a + q) default).whole :=
  foldl_add_range _ 65

/-- Quantities at other keys make the same sum. -/
theorem Meter.held_tset_ne {m n : Meter} {a p q : Nat} {x : Quantity} (hn : n.acct = tset m.acct (32 * a + q) x)
    (hp : p < 32) (hq : q < 32) (h : p ≠ q) : n.held p = m.held p := by
  simp only [Meter.held_eq_sum, hn]
  refine Finset.sum_congr rfl fun b _ => ?_
  rw [tget_tset_ne _ _ _ (acctKey_ne hp hq (by simp [h]))]

/-- The sum over accounts changes as the one quantity does. -/
theorem Meter.held_tset_self {m n : Meter} {a q : Nat} {x : Quantity} (hn : n.acct = tset m.acct (32 * a + q) x)
    (ha : a < 65) : n.held q + (tget m.acct (32 * a + q) default).whole = m.held q + x.whole := by
  have hmem : a ∈ Finset.range 65 := Finset.mem_range.mpr ha
  have hrest : ∑ b ∈ (Finset.range 65).erase a, (tget n.acct (32 * b + q) default).whole =
      ∑ b ∈ (Finset.range 65).erase a, (tget m.acct (32 * b + q) default).whole := by
    refine Finset.sum_congr rfl fun b hb => ?_
    have hba := Finset.ne_of_mem_erase hb
    rw [hn, tget_tset_ne _ _ _ (by omega)]
  rw [Meter.held_eq_sum, Meter.held_eq_sum, ← Finset.add_sum_erase _ _ hmem, ← Finset.add_sum_erase _ _ hmem, hrest, hn,
    tget_tset_self]
  omega

theorem quantityUnit_pos (q : Nat) : 0 < quantityUnit q := by
  unfold quantityUnit
  repeat' split
  all_goals positivity

/-- What a charge counts is at most one more than the whole units charged. -/
theorem div_unit_le {f amt u : Nat} (hf : f < u) : (f + amt) / u ≤ amt / u + 1 := by
  have hu : 0 < u := by omega
  rw [← Nat.add_div_right amt hu]
  exact Nat.div_le_div_right (by omega)

theorem Meter.charge_conserves {m : Meter} {a q amt p : Nat} (ha : a < 65) (hq : q < 32) (hp : p < 32)
    (hf : (tget m.acct (32 * a + q) default).frac < quantityUnit q) (hroom : m.HasRoom q (amt / quantityUnit q + 1))
    (h : m.Conserves p) : (m.charge a q amt).Conserves p := by
  rw [Meter.Conserves] at h ⊢
  rw [Meter.charge_retired, Meter.charge_total]
  by_cases hpq : p = q
  · subst hpq
    obtain ⟨hacct, htotal, -⟩ := hroom
    have hinc := div_unit_le (amt := amt) hf
    have ha' := hacct a
    have hheld := Meter.held_tset_self (m.charge_acct a p amt) ha
    dsimp only at hheld
    rw [Nat.min_eq_left (by omega)] at hheld
    rw [tget_tset_self, Nat.min_eq_left (by omega)]
    omega
  · rw [tget_tset_ne _ _ _ hpq, Meter.held_tset_ne (m.charge_acct a q amt) hp hq hpq]
    exact h

theorem Meter.emptied_conserves {m : Meter} {a q p : Nat} (ha : a < 65) (hq : q < 32) (hp : p < 32)
    (hroom : m.HasRoom q ((tget m.acct (32 * a + q) default).whole + 1)) (h : m.Conserves p) :
    (m.emptied a q).Conserves p := by
  rw [Meter.Conserves] at h ⊢
  change _ + tget (tset m.retired q _) p 0 = tget m.total p 0
  by_cases hpq : p = q
  · subst hpq
    obtain ⟨-, -, hretired⟩ := hroom
    have hheld := Meter.held_tset_self (m.emptied_acct a p) ha
    rw [tget_tset_self, Nat.min_eq_left (by omega)]
    dsimp only at hheld
    omega
  · rw [tget_tset_ne _ _ _ hpq, Meter.held_tset_ne (m.emptied_acct a q) hp hq hpq]
    exact h

/-- An emptied account leaves room for one more unit of each count. -/
theorem Meter.emptied_hasRoom {m : Meter} {a q : Nat}
    (hroom : m.HasRoom q ((tget m.acct (32 * a + q) default).whole + 1)) : (m.emptied a q).HasRoom q 1 := by
  obtain ⟨hacct, htotal, hretired⟩ := hroom
  refine ⟨fun b => ?_, ?_, ?_⟩
  · rw [Meter.emptied_acct]
    by_cases hb : b = a
    · rw [hb, tget_tset_self]
      simp [counterMax]
    · rw [tget_tset_ne _ _ _ (by omega)]
      have := hacct b
      omega
  · change tget m.total q 0 + 1 ≤ counterMax
    omega
  · change tget (tset m.retired q _) q 0 + 1 ≤ counterMax
    rw [tget_tset_self]
    omega

theorem Meter.emptied_frac_lt {m : Meter} {a q : Nat} (hf : ∀ b, (tget m.acct (32 * b + q) default).frac < quantityUnit q)
    (b : Nat) : (tget (m.emptied a q).acct (32 * b + q) default).frac < quantityUnit q := by
  rw [Meter.emptied_acct]
  by_cases hb : b = a
  · rw [hb, tget_tset_self]
    exact quantityUnit_pos q
  · rw [tget_tset_ne _ _ _ (by omega)]
    exact hf b

theorem Meter.retire_conserves {m : Meter} {a q p : Nat} (ha : a < 65) (hq : q < 32) (hp : p < 32)
    (hf : ∀ b, (tget m.acct (32 * b + q) default).frac < quantityUnit q)
    (hroom : m.HasRoom q ((tget m.acct (32 * a + q) default).whole + 1)) (h : m.Conserves p) :
    (m.retire a q).Conserves p := by
  rw [Meter.retire_eq]
  refine Meter.charge_conserves (by decide) hq hp (Meter.emptied_frac_lt hf _) ?_ (Meter.emptied_conserves ha hq hp hroom h)
  rw [Nat.div_eq_of_lt (hf a)]
  exact Meter.emptied_hasRoom hroom

/-- Settles O53: a charge adds the same number to one account and to the total, and a retirement moves an account's count to
the retired sum before it charges the fraction. -/
theorem meteringConserves : Obligations.MeteringConserves :=
  ⟨fun _ _ _ _ _ ha hq hp hf hroom h => Meter.charge_conserves ha hq hp hf hroom h,
    fun _ _ _ _ ha hq hp hf hroom h => Meter.retire_conserves (Nat.lt_succ_of_lt ha) hq hp hf hroom h⟩

/-! ### The rows (R420, R421, R425) -/

section
variable {s : State}

theorem exec_meterTick_due {d : Device} (hdue : s.dev.meter.lastTick + 1000 ≤ s.dev.now)
    (hd : Device.trussIds.foldl (fun d t => d.tickTruss t) s.dev.fillAll = d) :
    exec .meterTick s = .next (s.after { d with meter := { d.meter.charge deviceAccount MQ.energy.num
        (Config.leakage d.meter.ticks) with
      ticks := d.meter.ticks + 1
      lastTick := (d.meter.charge deviceAccount MQ.energy.num (Config.leakage d.meter.ticks)).lastTick + 1000
      measured := min ((d.meter.charge deviceAccount MQ.energy.num (Config.leakage d.meter.ticks)).measured +
        Config.energyMeasured d.meter.ticks) counterMax } }) := by
  subst hd
  change execMeterTick s = _
  exact onDevice_eq (if_neg (Nat.not_lt.mpr hdue))

theorem exec_meterPeriodic_due {ns : Nat} {rs : List MeterRec} (hns : s.dev.fld Reg.MTR_CTRL Fld.MTR_CTRL_PERIOD * 1000000 = ns)
    (hon : ns ≠ 0) (hdue : s.dev.meter.lastPeriod / ns < s.dev.now / ns)
    (hrs : ((List.range 64).filter (fun c => (s.dev.ctx c).state != 0) ++ [deviceAccount]).map
      (fun a => s.dev.acctRec 0 a 0) = rs) :
    exec .meterPeriodic s = .next (s.after (rs.foldl (fun d r => d.meterPeriodic1 r)
      { s.dev with meter := { s.dev.meter with lastPeriod := s.dev.now } })) := by
  subst hns hrs
  change execMeterPeriodic s = _
  exact onDevice_eq (if_neg (by simp [hon, hdue]))

theorem exec_meterSnapshot (hup : s.dev.Up) : exec .meterSnapshot s = .next (s.after (s.dev.meterSnapWrite 1)) := by
  change execMeterSnapshot s = _
  exact onRegister_eq (hup.windowOpen _) rfl

theorem exec_mtrRingConsWrite (hup : s.dev.Up) (v : Word) :
    exec (.mtrRingConsWrite v) s = .next (s.after (s.dev.meterConsWrite v)) := by
  change execMtrRingConsWrite v s = _
  exact onRegister_eq (hup.windowOpen _) rfl

theorem exec_meterAudit_clean (hen : s.dev.fld Reg.MTR_CTRL Fld.MTR_CTRL_AUDIT_EN ≠ 0)
    (hdue : s.dev.meter.lastAudit + 1000000 ≤ s.dev.now)
    (hloft : Device.trussIds.foldl (fun n t => n + (s.dev.trussSt t).defect) 0 = 0)
    (hgut : s.dev.gut.foldl (fun n p => n + p.2.defect) 0 = 0)
    (hmeter : (List.range quantities).foldl (fun n q => n + s.dev.meter.defect q) 0 = 0) :
    exec .meterAudit s = .next (s.after { s.dev with meter := { s.dev.meter with lastAudit := s.dev.now } }) := by
  change execMeterAudit s = _
  refine onDevice_eq ((if_neg (by simp [hen, hdue])).trans ?_)
  simp only [hloft, hgut, hmeter, Device.auditFail, if_true]

end

/-- GO alone: bit 2, which clears REFUSED, is 0. -/
theorem Device.meterSnapWrite_go (d : Device) : d.meterSnapWrite 1 =
    if !d.meterEn || decide (d.meterFree < 67) then d.setFld Reg.MTR_SNAP Fld.MTR_SNAP_REFUSED 1
    else (d.snapRecs (d.meter.snap + 1)).foldl (fun d r => d.meterWrite r)
      { d with meter := { d.meter with snap := d.meter.snap + 1 } } := rfl

/-- Settles O51: each row by its law above. -/
theorem meterCommands : Obligations.MeterCommands := by
  refine ⟨fun d s => exec_meterTick_due, fun ns rs s => exec_meterPeriodic_due,
    fun s hup => ⟨fun hen hfree => ?_, fun hrefused => ?_, fun v hlo hhi => ?_⟩, ?_⟩
  · rw [exec_meterSnapshot hup, Device.meterSnapWrite_go, if_neg (by simp [hen, hfree])]
  · rw [exec_meterSnapshot hup, Device.meterSnapWrite_go, if_pos (by simpa using hrefused)]
  · rw [exec_mtrRingConsWrite hup, Device.meterConsWrite, if_pos (by simp [hlo, hhi])]
  · rintro _ s hen hdue rfl hloft hgut hmeter
    exact exec_meterAudit_clean hen hdue hloft hgut hmeter

end Sys2Proof.Machine
end

section
/-! SUPPORT. The clocks of the trusses (13, 15): what a clock step does, the rows of the power and thermal controls, and the
statement settled with them. -/
namespace Sys2Proof.Machine

open Sys2Proof

/-! ### One clock step (R445) -/

/-- The clock that a step asks for: 100 MHz down to 1.2 GHz at least, or up to the ceiling at most. -/
def Device.steppedMhz (d : Device) (t : Nat) (dir : ClockDir) : Nat :=
  match dir with
  | .down => if 1300 ≤ tget d.clk.mhz t 0 then tget d.clk.mhz t 0 - 100 else tget d.clk.mhz t 0
  | .up => if tget d.clk.mhz t 0 + 100 ≤ stepCeil (d.trussStep t) then tget d.clk.mhz t 0 + 100 else tget d.clk.mhz t 0

/-- The truss's clock has moved within the last 100 µs. -/
def Device.movedLately (d : Device) (t : Nat) : Bool :=
  thas d.clk.lastMove t && decide (d.now < tget d.clk.lastMove t 0 + 100000)

theorem Device.moveClock_eq (d : Device) (t : Nat) (dir : ClockDir) : d.moveClock t dir =
    if decide (d.steppedMhz t dir = tget d.clk.mhz t 0) || d.movedLately t then d
    else { d with clk := { d.clk with
      mhz := tset d.clk.mhz t (d.steppedMhz t dir), lastMove := tset d.clk.lastMove t d.now
      locked := d.clk.locked &&& ~~~ (1#16 <<< t) } } := rfl

theorem Device.moveClock_mhz_self (d : Device) (t : Nat) (dir : ClockDir) : tget (d.moveClock t dir).clk.mhz t 0 =
    if d.movedLately t then tget d.clk.mhz t 0 else d.steppedMhz t dir := by
  rw [Device.moveClock_eq]
  cases d.movedLately t with
  | true => simp
  | false =>
    by_cases hsame : d.steppedMhz t dir = tget d.clk.mhz t 0
    · simp [hsame]
    · simp [hsame]

theorem Device.moveClock_mhz_other (d : Device) {t u : Nat} (dir : ClockDir) (hu : u ≠ t) :
    tget (d.moveClock t dir).clk.mhz u 0 = tget d.clk.mhz u 0 := by
  rw [Device.moveClock_eq]
  split
  · rfl
  · exact tget_tset_ne _ _ _ hu

theorem getLsbD_and_not_bit (x : BitVec 16) {t : Nat} (ht : t < 16) : (x &&& ~~~ (1#16 <<< t)).getLsbD t = false := by
  simp [ht]

/-- A clock that has moved relocks, and moves no more for 100 µs. -/
theorem Device.moveClock_moved {d : Device} {t : Nat} {dir : ClockDir}
    (h : tget (d.moveClock t dir).clk.mhz t 0 ≠ tget d.clk.mhz t 0) (ht : t < 16) :
    (d.moveClock t dir).clk.locked.getLsbD t = false ∧
      (d.moveClock t dir).now < tget (d.moveClock t dir).clk.lastMove t 0 + 100000 := by
  rw [Device.moveClock_eq] at h ⊢
  split at h
  · exact absurd rfl h
  · rename_i hstay
    rw [if_neg hstay]
    refine ⟨getLsbD_and_not_bit _ ht, ?_⟩
    change d.now < tget (tset d.clk.lastMove t d.now) t 0 + 100000
    rw [tget_tset_self]
    omega

/-! ### The rows of the power and thermal controls (R390, R410, R445) -/

section
variable {s : State} (hup : s.dev.Up)
include hup

section
variable (hback : s.dev.fls.restarting = false)
include hback

theorem exec_powerControlStep_down {t : Truss} {watts : Nat} (hover : s.dev.powerLimit < watts) {d : Device}
    (hd : { s.dev with clk := { s.dev.clk with watts := watts } }.moveClock t .down = d) :
    exec (.powerControlStep t .down watts) s =
      .next (s.after { d with clk := { d.clk with powerHeld := d.clk.powerHeld ||| (1#16 <<< t.val) } }) := by
  subst hd
  change execPowerControlStep t .down watts s = _
  refine onDevice_eq ((if_neg (by simp [hup.windowOpen, hback])).trans (if_neg ?_))
  exact Nat.not_le.mpr hover

theorem exec_powerControlStep_up {t : Truss} {watts : Nat} (hwithin : watts ≤ s.dev.powerLimit)
    (hheld : s.dev.clk.powerHeld.toNat.testBit t = true) (hcool : s.dev.clk.thermHeld.toNat.testBit (t / 4) = false)
    {d : Device} (hd : { s.dev with clk := { s.dev.clk with watts := watts } }.moveClock t .up = d) :
    exec (.powerControlStep t .up watts) s = .next (s.after (if d.atCeiling t then
      { d with clk := { d.clk with powerHeld := d.clk.powerHeld &&& ~~~ (1#16 <<< t.val) } } else d)) := by
  subst hd
  change execPowerControlStep t .up watts s = _
  refine onDevice_eq ((if_neg (by simp [hup.windowOpen, hback])).trans (if_neg ?_))
  have hlimit : ¬ Device.powerLimit { s.dev with clk := { s.dev.clk with watts := watts } } < watts := Nat.not_lt.mpr hwithin
  simp [hlimit, hheld, hcool]

theorem exec_thermThrottle_hot {i : Tile} {celsius : Nat} (hhot : 105 < celsius) (htrip : celsius < 115) :
    exec (.thermThrottle i celsius) s =
      .next (s.after ((List.range 4).foldl (fun d k => d.moveClock (4 * i.val + k) .down)
        { s.dev with clk := { s.dev.clk with
            temps := tset s.dev.clk.temps i celsius, thermHeld := s.dev.clk.thermHeld ||| (1#4 <<< i.val)
            coolSince := tdel s.dev.clk.coolSince i } })) := by
  change execThermThrottle i celsius s = _
  exact onDevice_eq (if_neg (by simp [hup.windowOpen, hback, hhot, htrip]))

theorem exec_thermRestore_cool {i : Tile} {celsius : Nat} (hheld : s.dev.clk.thermHeld.toNat.testBit i = true)
    (hcool : celsius ≤ 102) (hsince : thas s.dev.clk.coolSince i = true)
    (hlong : tget s.dev.clk.coolSince i 0 + 10000000 ≤ s.dev.now) {mine : List Nat} {d : Device}
    (hmine : (List.range 4).map (4 * i.val + ·) = mine)
    (hd : mine.foldl (fun d t => if d.clk.powerHeld.toNat.testBit t then d else d.moveClock t .up)
      { s.dev with clk := { s.dev.clk with temps := tset s.dev.clk.temps i celsius } } = d) :
    exec (.thermRestore i celsius) s =
      .next (s.after (if mine.all (fun t => d.atCeiling t || d.clk.powerHeld.toNat.testBit t) then
        { d with clk := { d.clk with thermHeld := d.clk.thermHeld &&& ~~~ (1#4 <<< i.val)
                                     coolSince := tdel d.clk.coolSince i } } else d)) := by
  subst hmine hd
  change execThermRestore i celsius s = _
  exact onDevice_eq <| (if_neg (by simp [hup.windowOpen, hback, hheld])).trans <|
    (if_neg (Nat.not_lt.mpr hcool)).trans <| (if_neg (by simp [hsince])).trans (if_neg (Nat.not_lt.mpr hlong))

end

theorem exec_clockRelocked_up (hcore : s.dev.clk.coreOk = true) (t : Truss) :
    exec (.clockRelocked t) s =
      .next (s.after { s.dev with clk := { s.dev.clk with locked := s.dev.clk.locked ||| (1#16 <<< t.val) } }) := by
  change execClockRelocked t s = _
  exact onDevice_eq (if_pos (by simp [hup.windowOpen, hcore]))

theorem exec_analogCurrentLimiter_up (past : Bool) :
    exec (.analogCurrentLimiter past) s =
      .next (s.after { s.dev with clk := { s.dev.clk with limiter := past && s.dev.fls.restarting } }) := by
  change execAnalogCurrentLimiter past s = _
  exact onDevice_eq (if_neg (by simp [hup.windowOpen]))

end

/-- Settles O11: the clock step by what it asks for, each row by its law above. -/
theorem powerAndThermalControls : Obligations.PowerAndThermalControls := by
  refine ⟨fun d t dir => ⟨d.moveClock_mhz_self t dir, Device.moveClock_moved, fun u => d.moveClock_mhz_other dir⟩,
    ?_, ?_, ?_, ?_, ?_, ?_⟩
  · intro t watts s hup hback hover
    exact exec_powerControlStep_down hup hback hover rfl
  · intro t watts s hup hback hwithin hheld hcool
    exact exec_powerControlStep_up hup hback hwithin hheld hcool rfl
  · intro i celsius s hup hback
    exact exec_thermThrottle_hot hup hback
  · intro i celsius s hup hback hheld hcool hsince hlong
    exact exec_thermRestore_cool hup hback hheld hcool hsince hlong rfl rfl
  · intro t s hup hcore
    exact exec_clockRelocked_up hup hcore t
  · intro past s hup
    exact exec_analogCurrentLimiter_up hup past

end Sys2Proof.Machine
end

section
/-! SUPPORT. Quarantine and tests of trusses (13): what a quarantine leaves, the rows of FLT_TRUSS_CMD and of a pending
quarantine, and the statement settled with them. -/
namespace Sys2Proof.Machine

open Sys2Proof

/-! ### The slices stay on or off while the device reports (R22) -/

/-- Whether the Soffit slice of truss `t` is enabled. -/
def Device.sliceOn (d : Device) (t : Nat) : Bool := (tget d.soffit t default).enabled

theorem Device.sliceOn_congr {d e : Device} (h : e.soffit = d.soffit) (t : Nat) : e.sliceOn t = d.sliceOn t := by
  unfold Device.sliceOn; rw [h]

theorem Soffit.invalidate_enabled (c : Soffit) (line : Nat) : (c.invalidate line).enabled = c.enabled := by
  unfold Soffit.invalidate; split <;> rfl

theorem Soffit.foldl_invalidate_enabled (ps : List (Nat × Nat)) (c : Soffit) :
    (ps.foldl (fun c q => c.invalidate (q.1 / 128)) c).enabled = c.enabled := by
  induction ps generalizing c with
  | nil => rfl
  | cons q ps ih => rw [List.foldl_cons, ih, Soffit.invalidate_enabled]

theorem tget_map_enabled {f : Soffit → Soffit} (hf : ∀ c, (f c).enabled = c.enabled) (l : Tbl Soffit) (t : Nat) :
    (tget (l.map fun p => (p.1, f p.2)) t default).enabled = (tget l t default).enabled := by
  induction l with
  | nil => rfl
  | cons p l ih =>
    simp only [List.map_cons, tget]
    split
    · exact hf p.2
    · exact ih

theorem Device.invalidateLines_sliceOn (d : Device) (a n t : Nat) : (d.invalidateLines a n).sliceOn t = d.sliceOn t :=
  tget_map_enabled (Soffit.foldl_invalidate_enabled _) d.soffit t

theorem Device.hbmWrite_sliceOn (d : Device) (a : Nat) (bs : List Byte) (t : Nat) :
    (d.hbmWrite a bs).1.sliceOn t = d.sliceOn t := by
  unfold Device.hbmWrite
  dsimp only
  split
  · rfl
  · exact Device.invalidateLines_sliceOn _ _ _ _

theorem Device.count_soffit (d : Device) (off n : Nat) : (d.count off n).soffit = d.soffit := by
  obtain ⟨r, h⟩ := d.count_regs_only off n
  rw [h]

theorem Device.rdmaOut_soffit (d : Device) (acct qpn rkey addr : Nat) (bs : List Byte) :
    (d.rdmaOut acct qpn rkey addr bs).soffit = d.soffit :=
  Device.count_soffit _ _ _

theorem Device.gutSend_soffit (d : Device) (c : Nat) (r : GutRec) : (d.gutSend c r).soffit = d.soffit := by
  refine (Device.rdmaOut_soffit _ _ _ _ _ _).trans ?_
  split
  · rfl
  · exact Device.count_soffit _ _ _

theorem Device.gutDrain_soffit (f : Nat) (d : Device) (c : Nat) : (Device.gutDrain f d c).soffit = d.soffit := by
  induction f generalizing d with
  | zero => rfl
  | succ f ih =>
    unfold Device.gutDrain
    dsimp only
    split
    · rfl
    · split
      · rfl
      · rw [ih, Device.gutSend_soffit, Device.setGutter_soffit]

theorem Device.event_soffit (d : Device) (st : Nat) (w : Word) (x : Nat) : (d.event st w x).soffit = d.soffit := by
  unfold Device.event
  split
  · rfl
  · exact Device.gutDrain_soffit _ _ _

theorem Device.charge_soffit (d : Device) (a : Nat) (q : MQ) (n t : Nat) : (d.charge a q n t).soffit = d.soffit := rfl

theorem Device.logToRing_sliceOn (d : Device) (r : FaultRec) (t : Nat) : (d.logToRing r).sliceOn t = d.sliceOn t := by
  unfold Device.logToRing
  dsimp only
  rw [Device.sliceOn_congr (Device.setReg_soffit _ _ _)]
  split
  · split
    · rw [Device.sliceOn_congr (Device.count_soffit _ _ _), Device.hbmWrite_sliceOn]
    · rw [Device.sliceOn_congr (Device.charge_soffit _ _ _ _ _), Device.hbmWrite_sliceOn]
  · rw [Device.sliceOn_congr (Device.count_soffit _ _ _)]

theorem Device.logKeep_soffit (d : Device) (r : FaultRec) : (d.logKeep r).soffit = d.soffit := by
  unfold Device.logKeep; split <;> rfl

theorem Device.logWrite_sliceOn (d : Device) (r : FaultRec) (t : Nat) : (d.logWrite r).sliceOn t = d.sliceOn t := by
  have hkept : ∀ (st : Nat) (w : Word) (x : Nat),
      (((((d.logToRing r).count Reg.FLT_RECORDS 1).event st w x).logKeep r)).sliceOn t = d.sliceOn t := by
    intro st w x
    rw [Device.sliceOn_congr (Device.logKeep_soffit _ _), Device.sliceOn_congr (Device.event_soffit _ _ _ _),
      Device.sliceOn_congr (Device.count_soffit _ _ _), Device.logToRing_sliceOn]
  unfold Device.logWrite
  dsimp only
  split
  · exact hkept _ _ _
  · split
    · exact hkept _ _ _
    · exact hkept _ _ _

/-- A fault-log record leaves every slice on or off as it is. -/
theorem Device.log_sliceOn (d : Device) (kind sev unit ctx action : Nat) (addr i0 i1 : Word) (t : Nat) :
    (d.log kind sev unit ctx action addr i0 i1).sliceOn t = d.sliceOn t := by
  unfold Device.log
  dsimp only
  split
  · exact Device.sliceOn_congr (Device.count_soffit _ _ _) t
  · exact Device.logWrite_sliceOn _ _ t

/-! ### What a quarantine leaves (R391, R392) -/

/-- Stopping ballast changes the arrays, registers, charges and the free values only. -/
theorem Device.ballast_only (d : Device) (t a rows ns : Nat) :
    ∃ r g m n, d.ballast t a rows ns = { d with regs := r, raf := g, meter := m, free := n } := by
  unfold Device.ballast
  split
  · exact ⟨_, _, _, _, rfl⟩
  · obtain ⟨r, h⟩ := (d.takeFree.2.mapRafa t a fun r => { r with lfsr := BitVec.ofNat 32 d.takeFree.1 }).count_regs_only
      (Reg.RAF_BALLAST_ROWS t a) rows
    dsimp only
    rw [h]
    exact ⟨_, _, _, _, rfl⟩

theorem Device.fillCount_only (d : Device) (t a : Nat) :
    ∃ r g m n, d.fillCount t a = { d with regs := r, raf := g, meter := m, free := n } := by
  unfold Device.fillCount
  split
  · exact ⟨_, _, _, _, rfl⟩
  · obtain ⟨r, g, m, n, h⟩ := d.ballast_only t a (d.fillRows t a) (d.fillNs t a)
    rw [h]
    exact ⟨_, _, _, _, rfl⟩

theorem Device.ballastOff_only (d : Device) (t : Nat) :
    ∃ r g m n, d.ballastOff t = { d with regs := r, raf := g, meter := m, free := n } := by
  unfold Device.ballastOff
  generalize List.range 4 = arrays
  induction arrays generalizing d with
  | nil => exact ⟨_, _, _, _, rfl⟩
  | cons a arrays ih =>
    rw [List.foldl_cons]
    split
    · obtain ⟨r, g, m, n, h⟩ := d.fillCount_only t a
      rw [h]
      obtain ⟨r', g', m', n', h'⟩ := ih (Device.mapRafa { d with regs := r, raf := g, meter := m, free := n } t a
        fun r => { r with duty := 0, rampDown := false, rampUp := false })
      rw [h']
      exact ⟨_, _, _, _, rfl⟩
    · exact ih d

/-- The truss out of service, before its registers are counted and its record is made. -/
def Device.outOfService (d : Device) (t : Nat) : Device :=
  { ((d.setSusp t { d.susp t with qpend := false, testWait := false }).sliceOff t).setTruss t
      { d.trussSt t with state := 4 } with
    fls := { d.fls with storedQuar := d.fls.storedQuar ||| (1#16 <<< t) } }

/-- A quarantine takes the truss out of service, and reports it. -/
theorem Device.quarantine_eq (d : Device) (t n : Nat) : ∃ (r : Tbl Word) (g : Tbl RafArray) (m : Meter) (k : Nat) (w : Word),
    d.quarantine t n = (({ d.outOfService t with regs := r, raf := g, meter := m, free := k }.count
      Reg.FLT_QUARANTINES 1).log 0x0F 0 (unitCode t 0) noCtx 5 0 w (BitVec.ofNat 64 n)) := by
  obtain ⟨r, g, m, k, h⟩ :=
    ((d.setSusp t { d.susp t with qpend := false, testWait := false }).sliceOff t).ballastOff_only t
  unfold Device.quarantine
  dsimp only
  rw [h]
  exact ⟨_, _, _, _, _, rfl⟩

theorem getLsbD_or_bit (x : BitVec 16) {t : Nat} (ht : t < 16) : (x ||| (1#16 <<< t)).getLsbD t = true := by
  simp [ht]

theorem Device.quarantine_leaves (d : Device) {t : Nat} (n : Nat) (ht : t < 16) :
    (d.quarantine t n).fls.storedQuar.getLsbD t = true ∧ ((d.quarantine t n).trussSt t).state = 4 ∧
    ((d.quarantine t n).susp t).qpend = false ∧ (d.quarantine t n).sliceOn t = false ∧
    (∀ u, u ≠ t → (d.quarantine t n).trussSt u = d.trussSt u) := by
  obtain ⟨r, g, m, k, w, h⟩ := d.quarantine_eq t n
  have hreport := (Device.count_reported { d.outOfService t with regs := r, raf := g, meter := m, free := k }
    Reg.FLT_QUARANTINES 1).trans (Device.log_reported _ 0x0F 0 (unitCode t 0) noCtx 5 0 w (BitVec.ofNat 64 n))
  rw [← h] at hreport
  have htruss : (d.quarantine t n).truss = tset d.truss t { d.trussSt t with state := 4 } := hreport.truss
  have hsusp : (d.quarantine t n).suspects = tset d.suspects t { d.susp t with qpend := false, testWait := false } :=
    hreport.suspects
  refine ⟨?_, ?_, ?_, ?_, fun u hu => ?_⟩
  · obtain ⟨a, b, hfls⟩ := hreport.fls
    rw [hfls]
    exact getLsbD_or_bit _ ht
  · rw [Device.trussSt, htruss, tget_tset_self]
  · rw [Device.susp, hsusp, tget_tset_self]
  · rw [h, Device.log_sliceOn, Device.sliceOn_congr (Device.count_soffit _ _ _)]
    change (tget (tset d.soffit t (tget d.soffit t default).off) t default).enabled = false
    rw [tget_tset_self]
    rfl
  · rw [Device.trussSt, htruss, tget_tset_ne _ _ _ hu]
    rfl

/-! ### A pending quarantine (R392) -/

theorem exec_quarantineApply_free {t : Truss} {s : State} (hpend : (s.dev.susp t).qpend = true)
    (hfree : s.dev.holders t = 0) (hst : (s.dev.trussSt t).state = 1) : exec (.quarantineApply t) s =
      .next (s.after (s.dev.quarantine t (s.dev.windowed (s.dev.susp t).events).length)) := by
  change execQuarantineApply t s = _
  exact onDevice_eq (if_pos (by simp [hpend, hfree, hst]))

theorem exec_quarantineForce_late {t : Truss} {s : State} (hpend : (s.dev.susp t).qpend = true)
    (hwait : s.dev.fld Reg.FLT_CTRL Fld.FLT_CTRL_QWAIT ≠ 0)
    (hlate : (s.dev.susp t).qpendAt + s.dev.fld Reg.FLT_CTRL Fld.FLT_CTRL_QWAIT * 10 ^ 9 ≤ s.dev.now) :
    exec (.quarantineForce t) s = .next (s.after ((s.dev.trussSt t).slots.foldl (fun d p =>
      if p.2.valid && !(d.trussSt t).releasing.any (fun r => r.1 == p.2.ctx && r.2.1) then d.startRelease p.2.ctx t true none
      else d) s.dev)) := by
  change execQuarantineForce t s = _
  exact onDevice_eq (if_pos (by simp only [hpend, hlate, bne_iff_ne.mpr hwait, decide_true, Bool.and_self]))

/-! ### FLT_TRUSS_CMD (R394 to R396) -/

/-- GO with the row's own operation hands the named unit to it. -/
theorem Device.trussCmd_go {d : Device} {v : Word} {op : Nat} (hop : bits v 7 5 = op) (hgo : bit v 63 = true)
    (act : Device → Nat → Device) :
    d.trussCmd v op act = act (d.setReg Reg.FLT_TRUSS_CMD (v &&& 0xFF#64)) (bits v 4 0) := by
  simp only [Device.trussCmd, hop, hgo, ne_eq, not_true_eq_false, if_false, if_true]

section
variable {d : Device} {u : Nat}

theorem Device.opTest_asked (hu : u < 16) (hst : (d.trussSt u).state = 1) (hwait : (d.susp u).testWait = false) :
    d.opTest u = d.askTest u 0 :=
  if_pos (by simp [hu, hst, hwait])

theorem Device.opTestForce_held (hu : u < 16) (hst : (d.trussSt u).state = 1) (hheld : d.holders u ≠ 0) :
    d.opTestForce u = d.setSusp u { d.susp u with result := 3 } :=
  (if_neg (by simp [hu, hst])).trans (if_pos hheld)

theorem Device.opTestForce_free (hu : u < 16) (hst : (d.trussSt u).state = 1) (hfree : d.holders u = 0)
    (hwait : (d.susp u).testWait = false) : d.opTestForce u = d.askTest u 0 :=
  (if_neg (by simp [hu, hst])).trans ((if_neg (not_not.mpr hfree)).trans (if_neg (by simp [hwait])))

theorem Device.opRelax_inService (hu : u < 16) (hst : (d.trussSt u).state = 1) (hpend : (d.susp u).qpend = false)
    (hback : d.fls.restarting = false) : d.opRelax u = d.applyStep u 0 :=
  (if_pos (by simp [hu, hst, hpend])).trans (if_neg (by simp [hback]))

theorem Device.opUnquarantine_truss (hu : u < 16) (hst : (d.trussSt u).state = 4) (hwait : (d.susp u).testWait = false) :
    d.opUnquarantine u = d.askTest u 1 :=
  (if_pos hu).trans (if_pos (by simp [hst, hwait]))

theorem Device.opUnquarantine_engine (hlo : 16 ≤ u) (hhi : u < 18) :
    d.opUnquarantine u = { d with
      colq := d.colq &&& ~~~ (1#2 <<< (u - 16)), suspects := tset d.suspects u { d.susp u with events := [] } } :=
  (if_neg (Nat.not_lt.mpr hlo)).trans (if_pos hhi)

end

section
variable {s : State} (hup : s.dev.Up) (v : Word)
include hup

theorem exec_test : exec (.test v) s = .next (s.after (s.dev.trussCmd v 1 Device.opTest)) := by
  change execTest v s = _
  exact onRegister_eq (hup.windowOpen _) rfl

theorem exec_testForce : exec (.testForce v) s = .next (s.after (s.dev.trussCmd v 2 Device.opTestForce)) := by
  change execTestForce v s = _
  exact onRegister_eq (hup.windowOpen _) rfl

theorem exec_relax : exec (.relax v) s = .next (s.after (s.dev.trussCmd v 3 Device.opRelax)) := by
  change execRelax v s = _
  exact onRegister_eq (hup.windowOpen _) rfl

theorem exec_unquarantine : exec (.unquarantine v) s = .next (s.after (s.dev.trussCmd v 4 Device.opUnquarantine)) := by
  change execUnquarantine v s = _
  exact onRegister_eq (hup.windowOpen _) rfl

end

/-! ### The end of a test (R395, R396) -/

section
variable {t : Truss} {pass : Bool} {unit us : Nat} {s : State} {e : Device} (htesting : (s.dev.susp t).testing = true)
  (he : s.dev.endTest t pass unit us = e)
include htesting he

theorem exec_trussTestDone_plain (hjob : e.fls.imageJob = none) :
    exec (.trussTestDone t pass unit us) s = .next (s.after e) := by
  subst he
  change execTrussTestDone t pass unit us s = _
  refine onDevice_eq ((if_neg (by simp [htesting])).trans ?_)
  simp only [hjob]

theorem exec_trussTestDone_image {r : FlsReq} (hjob : e.fls.imageJob = some (t.val, r)) :
    exec (.trussTestDone t pass unit us) s = .next (s.after
      (({ e with fls := { e.fls with imageJob := none } }).flsFinish r (flsDone flsOk 0)).flsGo) := by
  subst he
  change execTrussTestDone t pass unit us s = _
  refine onDevice_eq ((if_neg (by simp [htesting])).trans ?_)
  simp only [hjob, if_true]

end

/-- Settles O48: each row by its law above, and a quarantine by what it changes before it reports. -/
theorem trussesAreTestedAndQuarantined : Obligations.TrussesAreTestedAndQuarantined := by
  refine ⟨?_, fun d t n ht => d.quarantine_leaves n ht⟩
  rintro t v _ _ s hup rfl rfl
  refine ⟨exec_quarantineApply_free, exec_quarantineForce_late, fun hop hgo hu hst hwait => ?_,
    fun hop hgo hu hst hheld => ?_, fun hop hgo hu hst hfree hwait => ?_, fun hop hgo hu hst hpend hback => ?_,
    fun hop hgo hu hst hwait => ?_, fun hop hgo hlo hhi => ?_, fun pass unit us e htesting he => ⟨?_, fun r => ?_⟩⟩
  · rw [exec_test hup, Device.trussCmd_go hop hgo, Device.opTest_asked hu hst hwait]
  · rw [exec_testForce hup, Device.trussCmd_go hop hgo, Device.opTestForce_held hu hst hheld]
  · rw [exec_testForce hup, Device.trussCmd_go hop hgo, Device.opTestForce_free hu hst hfree hwait]
  · rw [exec_relax hup, Device.trussCmd_go hop hgo, Device.opRelax_inService hu hst hpend hback]
  · rw [exec_unquarantine hup, Device.trussCmd_go hop hgo, Device.opUnquarantine_truss hu hst hwait]
  · rw [exec_unquarantine hup, Device.trussCmd_go hop hgo, Device.opUnquarantine_engine hlo hhi]
  · exact exec_trussTestDone_plain htesting he
  · exact exec_trussTestDone_image htesting he

end Sys2Proof.Machine
end

section
/-! SUPPORT. Links, notices and rings (12): what each row of a link, a notice and a splice comes to, form by form, and the
statements settled with them. -/
namespace Sys2Proof.Machine

open Sys2Proof

/-! ### A link after an update -/

@[simp] theorem Device.link_setLink_self (d : Device) (l : Nat) (x : Link) : (d.setLink l x).link l = x :=
  tget_tset_self _ _ _ _

theorem Device.link_count (d : Device) (off n l : Nat) : (d.count off n).link l = d.link l := by
  rw [Device.link, (d.count_reported off n).links]
  rfl

/-! ### A flit comes in (R348, R350, R353) -/

/-- The device once a flit has been seen on link `l`: the time is noted, and a corrected one is counted. -/
def Device.flitSeen (d : Device) (l : Nat) (f : Flit) : Device :=
  if f.corrected then (d.setLink l { d.link l with lastRx := d.now }).count (Reg.LNK_FEC_CORR l) 1
  else d.setLink l { d.link l with lastRx := d.now }

theorem Device.flitSeen_link (d : Device) (l : Nat) (f : Flit) :
    (d.flitSeen l f).link l = { d.link l with lastRx := d.now } := by
  unfold Device.flitSeen
  split
  · rw [Device.link_count, Device.link_setLink_self]
  · rw [Device.link_setLink_self]

section
variable {l : LinkNo} {f : Flit} {s : State} (hup : (s.dev.link l).isUp = true)
include hup

theorem exec_linkFlitRx_badCrc {e : Device} (hcrc : f.crcOk = false)
    (he : ((s.dev.flitSeen l f).setLink l { s.dev.link l with
      lastRx := s.dev.now, replays := (s.dev.link l).replays + 1 }).emit (.replayRequest l (s.dev.link l).rxSeq) = e) :
    exec (.linkFlitRx l f) s = .next (s.after
      (if max 1 (e.fld Reg.LNK_CTRL Fld.LNK_CTRL_RETRY_MAX) ≤ (s.dev.link l).replays + 1 then e.goDown l 2 else e)) := by
  subst he
  change execLinkFlitRx l f s = _
  refine onDevice_eq ((if_neg (by simp [hup])).trans ((if_pos (by simp [hcrc])).trans ?_))
  change (let x := (s.dev.flitSeen l f).link l
    let d := ((s.dev.flitSeen l f).setLink l { x with replays := x.replays + 1 }).emit (.replayRequest l x.rxSeq)
    if max 1 (d.fld Reg.LNK_CTRL Fld.LNK_CTRL_RETRY_MAX) ≤ x.replays + 1 then d.goDown l 2 else d) = _
  rw [Device.flitSeen_link]

theorem exec_linkFlitRx_outOfSequence (hcrc : f.crcOk = true) (hseq : f.seq ≠ (s.dev.link l).rxSeq) :
    exec (.linkFlitRx l f) s = .next (s.after (s.dev.flitSeen l f)) := by
  change execLinkFlitRx l f s = _
  exact onDevice_eq ((if_neg (by simp [hup])).trans ((if_neg (by simp [hcrc])).trans (if_pos hseq)))

/-- The device once a good flit has been counted and acknowledged and its trailer taken up. -/
def Device.flitTaken (d : Device) (l : Nat) (f : Flit) : Device :=
  ((((d.flitSeen l f).setLink l { d.link l with
      lastRx := d.now, rxSeq := (d.link l).rxSeq + 1, replays := 0, rxPart := (d.link l).rxPart + 1 }).count
    (Reg.LNK_FLITS_RX l) 1).emit (.ack l ((d.link l).rxSeq + 1))).trailer l f

theorem exec_linkFlitRx_good {e : Device} (hcrc : f.crcOk = true) (hseq : f.seq = (s.dev.link l).rxSeq)
    (he : s.dev.flitTaken l f = e) :
    exec (.linkFlitRx l f) s = .next (s.after (match f.packet with
      | some p => if (e.link l).isUp then e.packetIn l p else e
      | none => e)) := by
  subst he
  change execLinkFlitRx l f s = _
  refine onDevice_eq ((if_neg (by simp [hup])).trans ((if_neg (by simp [hcrc])).trans ((if_neg (not_not.mpr hseq)).trans ?_)))
  change (let x := (s.dev.flitSeen l f).link l
    let d := (s.dev.flitSeen l f).setLink l { x with rxSeq := x.rxSeq + 1, replays := 0, rxPart := x.rxPart + 1 }
    let d := ((d.count (Reg.LNK_FLITS_RX l) 1).emit (.ack l (x.rxSeq + 1))).trailer l f
    if !(d.link l).isUp then d else match f.packet with | none => d | some p => d.packetIn l p) = _
  rw [Device.flitSeen_link]
  change (if !((s.dev.flitTaken l f).link l).isUp then s.dev.flitTaken l f
    else match f.packet with | none => s.dev.flitTaken l f | some p => (s.dev.flitTaken l f).packetIn l p) = _
  cases f.packet with
  | none => simp
  | some p => cases ((s.dev.flitTaken l f).link l).isUp <;> rfl

end

/-! ### Heartbeats, links that fail and links that train (R351 to R357, R366) -/

section
variable {l : LinkNo} {s : State}

theorem exec_linkHeartbeat_up (hup : (s.dev.link l).isUp = true) : exec (.linkHeartbeat l) s =
    .next (s.after ((s.dev.setLink l { s.dev.link l with lastTx := s.dev.now }).emit (.heartbeat l))) := by
  change execLinkHeartbeat l s = _
  exact onDevice_eq (if_pos hup)

theorem exec_linkHbTimeout : exec (.linkHbTimeout l) s = .next (s.after
    (if (s.dev.link l).lastRx + max 1 (s.dev.fld Reg.LNK_CTRL Fld.LNK_CTRL_HB_TIMEOUT) * 1000 ≤ s.dev.now then
      s.dev.goDown l 1 else s.dev)) := by
  change execLinkHbTimeout l s = _
  exact onDevice_eq (by simp only [decide_eq_true_eq])

theorem exec_linkDown (c : Nat) : exec (.linkDown l c) s = .next (s.after (s.dev.goDown l (c % 16))) := by
  change execLinkDown l c s = _
  exact onDevice_eq rfl

/-- What a training comes to on a link that is down and may train. -/
def Device.trained (d : Device) (l : LinkNo) (res : TrainResult) : Device :=
  match res with
  | .up half version depths peer =>
    if half && version = 1 then d.trainFailed l 4 4
    else
      let x := d.link l
      let t : Tbl Nat := (List.range 8).map (fun k => (k, depths.getD k 0))
      let y : Link := { (default : Link) with
        state := 2, half := half, version := if version = 1 then 1 else 2
        fec := version != 1 && d.fld (Reg.SPN_CFG (l / 8)) Fld.SPN_CFG_FEC == 1
        cause := x.cause, peer := peer % 2 ^ 18, depth := t, credit := t, lastRx := d.now, lastTx := d.now }
      let plus := l.val / 8 % 2 == 0
      let e := d.setLink l y
      if y.peer == x.peer && (e.splice (l / 16)).holds plus && (e.upLinks (l / 8)).all (fun k => (e.link k).state == 2) then
        e.releaseHeld (l / 16) plus
      else e
  | .noLanes => d.trainFailed l 4 4
  | .noCommonVersion => d.trainFailed l 0 5
  | .gap => d.trainFailed l 4 4

theorem exec_linkTrained_down (hdown : (s.dev.link l).isUp = false) (hon : s.dev.linksOn = true)
    (hring : s.dev.spanRing (l / 8) = true) (hopen : (s.dev.splice (l / 16)).bypassOpen = true) (res : TrainResult) :
    exec (.linkTrained l res) s = .next (s.after (s.dev.trained l res)) := by
  change execLinkTrained l res s = _
  exact onDevice_eq (if_neg (by simp [hdown, hon, hring, hopen]))

theorem Device.trained_up {d e : Device} {half : Bool} {version peer : Nat} {depths : List Nat} {t : Tbl Nat} {y : Link}
    (hlanes : half = false ∨ version ≠ 1) (ht : (List.range 8).map (fun k => (k, depths.getD k 0)) = t)
    (hy : y = { (default : Link) with
      state := 2, half := half, version := if version = 1 then 1 else 2
      fec := version != 1 && d.fld (Reg.SPN_CFG (l / 8)) Fld.SPN_CFG_FEC == 1
      cause := (d.link l).cause, peer := peer % 2 ^ 18, depth := t, credit := t, lastRx := d.now, lastTx := d.now })
    (he : d.setLink l y = e) : d.trained l (.up half version depths peer) =
      if y.peer == (d.link l).peer && (e.splice (l / 16)).holds (l.val / 8 % 2 == 0) &&
          (e.upLinks (l / 8)).all (fun k => (e.link k).state == 2) then e.releaseHeld (l / 16) (l.val / 8 % 2 == 0) else e := by
  subst ht he hy
  exact if_neg (by rcases hlanes with h | h <;> simp [h])

theorem Device.trained_failed {d : Device} {r : TrainResult} {depths : List Nat} {peer : Nat}
    (h : r ∈ [TrainResult.up true 1 depths peer, .noLanes, .gap]) : d.trained l r = d.trainFailed l 4 4 := by
  simp only [List.mem_cons, List.not_mem_nil, or_false] at h
  rcases h with rfl | rfl | rfl <;> rfl

end

/-! ### Notices (R359, R361, R362) -/

section
variable {s : State}

theorem exec_heldNotice (l : LinkNo) (rtag : Nat) : exec (.heldNotice ⟨l, rtag⟩) s =
    .next (s.after (if (s.dev.link l).version = 1 then s.dev else s.dev.grace rtag)) := rfl

theorem exec_unreachable_task {rtag : Nat} (h : s.dev.colTag rtag = none) (lost : Bool) :
    exec (.unreachable ⟨rtag, lost⟩) s =
      .next (s.after (s.dev.failRemote rtag stRemoteLost (if lost then 0x52 else 0x53))) := by
  change execUnreachable ⟨rtag, lost⟩ s = _
  exact onDevice_eq (by simp only [h])

theorem exec_unreachable_collective {rtag e dev : Nat} {c : Collective} (h : s.dev.colTag rtag = some (e, c, dev))
    (lost : Bool) : exec (.unreachable ⟨rtag, lost⟩) s =
      .next (s.after (s.dev.colAbort e c 6 dev stRemoteLost (if lost then 0x52 else 0x53) dev)) := by
  change execUnreachable ⟨rtag, lost⟩ s = _
  exact onDevice_eq (by simp only [h, Device.colLost])

theorem exec_remoteRefusal (rtag status cause : Nat) : exec (.remoteRefusal rtag status cause) s =
    .next (s.after (s.dev.failRemote rtag (status % 256) (cause % 256))) := rfl

/-- A request of `source` that has been held for more than 10 µs and of which no notice has been sent (R361). -/
def Device.noticeDue (d : Device) (source rtag : Nat) (h : HeldPkt) : Bool :=
  h.packet.src == source && h.packet.rtag == rtag && isRequest h.packet && !h.noticed && decide (h.since + 10000 < d.now)

section
variable {source rtag dim : Nat} {h : HeldPkt} {d : Device}
  (hdue : [0, 1, 2].findSome? (fun i => ((s.dev.splice i).holding.find? (s.dev.noticeDue source rtag)).map
    (fun h => (i, h))) = some (dim, h))
  (hd : s.dev.setSplice dim { s.dev.splice dim with holding := (s.dev.splice dim).holding.map (fun (k : HeldPkt) =>
    if s.dev.noticeDue source rtag k then { k with noticed := true } else k) } = d)
include hdue hd

theorem exec_heldNoticeSent_own (hsrc : source = s.dev.devnum) :
    exec (.heldNoticeSent source rtag) s = .next (s.after (d.grace rtag)) := by
  subst hd
  change execHeldNoticeSent source rtag s = _
  refine onDevice_eq ?_
  unfold Device.noticeDue at hdue ⊢
  simp only [hdue]
  exact if_pos hsrc

theorem exec_heldNoticeSent_other {p : Packet} {l : Nat} (hp : s.dev.note 0x0B source h.packet.ctx rtag [] = p)
    (hsrc : source ≠ s.dev.devnum) (hl : s.dev.firstLink p = some l) :
    exec (.heldNoticeSent source rtag) s = .next (s.after
      (if (s.dev.link l).version = 1 then s.dev else ((d.count (Reg.LNK_HELD_NOTICES l) 1).send p).1)) := by
  subst hd hp
  change execHeldNoticeSent source rtag s = _
  refine onDevice_eq ?_
  unfold Device.noticeDue at hdue ⊢
  simp only [hdue]
  refine (if_neg hsrc).trans ?_
  rw [hl]

end

end

/-- The limit of an open request is restarted, and only once (R361). -/
theorem Device.grace_once {d : Device} {rtag : Nat} {r : Remote} (hr : d.remotes = [r]) (htag : r.rtag = rtag)
    (hfirst : r.graced = false) : (d.grace rtag).remotes = [{ r with
      graced := true, deadline := some (d.now + d.fld Reg.LNK_CTRL Fld.LNK_CTRL_HOLD_GRACE * 1000) }] ∧
    ((d.grace rtag).grace rtag).remotes = (d.grace rtag).remotes := by
  have hone : (d.grace rtag).remotes = [{ r with
      graced := true, deadline := some (d.now + d.fld Reg.LNK_CTRL Fld.LNK_CTRL_HOLD_GRACE * 1000) }] := by
    simp [Device.grace, hr, htag, hfirst]
  refine ⟨hone, ?_⟩
  rw [hone]
  simp [Device.grace, hr, htag, hfirst]

/-- Settles O44: each row by its law above. -/
theorem linksAndNotices : Obligations.LinksAndNotices := by
  refine ⟨?_, ?_, ?_, fun d rtag r => Device.grace_once⟩
  · rintro l f _ s rfl
    refine ⟨fun d hup hd => ?_, exec_linkHeartbeat_up, fun hlate => ?_, fun hsoon => ?_, exec_linkDown,
      fun hdown hon hring hopen => ⟨fun half version peer depths t y d hlanes ht hy hd => ?_, fun depths peer r hr => ?_, ?_⟩⟩
    · change s.dev.flitSeen l f = d at hd
      subst hd
      exact ⟨fun e => exec_linkFlitRx_badCrc hup, exec_linkFlitRx_outOfSequence hup, fun e => exec_linkFlitRx_good hup⟩
    · rw [exec_linkHbTimeout, if_pos hlate]
    · rw [exec_linkHbTimeout, if_neg (Nat.not_le.mpr hsoon)]
    · rw [exec_linkTrained_down hdown hon hring hopen, Device.trained_up hlanes ht hy hd]
    · rw [exec_linkTrained_down hdown hon hring hopen, Device.trained_failed hr]
    · rw [exec_linkTrained_down hdown hon hring hopen]
      rfl
  · intro l rtag lost s
    refine ⟨fun hv => ?_, fun hv => ?_, fun h => exec_unreachable_task h lost, fun e c dev h => exec_unreachable_collective h lost,
      exec_remoteRefusal rtag⟩
    · rw [exec_heldNotice, if_neg hv]
    · rw [exec_heldNotice, if_pos hv]
  · intro source rtag dim h d p s hdue hd hp
    refine ⟨exec_heldNoticeSent_own hdue hd, fun l hsrc hl => ⟨fun hv => ?_, fun hv => ?_⟩⟩
    · rw [exec_heldNoticeSent_other hdue hd hp hsrc hl, if_neg hv]
    · rw [exec_heldNoticeSent_other hdue hd hp hsrc hl, if_pos hv]

/-! ### A ring is joined and left (R363 to R367, R410) -/

/-- A leave that does not wait for its links to drain opens nothing. -/
theorem Device.checkLeave_eq_self {d : Device} {i : Nat} (h : (d.splice i).state ≠ 3 ∨ (d.splice i).step ≠ 0) :
    d.checkLeave i = d :=
  if_neg (by rcases h with h | h <;> simp [h])

section
variable {dim : Dim} {s : State}

theorem exec_spliceJoin_free (hup : s.dev.Up) (hnone : s.dev.splicing = false) (hst : (s.dev.splice dim).state = 0)
    (hring : s.dev.ringUsed dim = true) (hnum : s.dev.devnumValid = true) (hon : s.dev.linksOn = true) :
    exec (.spliceJoin dim) s = .next (s.after (({ s.dev with clk := { s.dev.clk with joinBegun := true } }.setSplice dim
      { s.dev.splice dim with state := 1, step := 1, heldPlus := false, heldMinus := false, since := s.dev.now
                              silences := 0, coeffs := true }).askBoth dim 1)) := by
  change execSpliceJoin dim s = _
  exact onRegister_eq (hup.windowOpen _) (if_neg (by simp [hnone, hst, hring, hnum, hon]))

theorem exec_spliceLeave_joined (hup : s.dev.Up) (hnone : s.dev.splicing = false) (hst : (s.dev.splice dim).state = 2) :
    exec (.spliceLeave dim) s = .next (s.after ((s.dev.setSplice dim
      { s.dev.splice dim with state := 3, step := 0, heldPlus := false, heldMinus := false, since := s.dev.now }).checkLeave
        dim)) := by
  change execSpliceLeave dim s = _
  exact onRegister_eq (hup.windowOpen _) (if_neg (by simp [hnone, hst]))

theorem exec_joinRequest_busy {plus : Bool} (hon : s.dev.linksOn = true)
    (hbusy : (s.dev.splice dim).state ≠ 2 ∨ (s.dev.splice dim).holds plus = true ∨ s.dev.fls.restarting = true) :
    exec (.joinRequest dim plus) s = .next (s.after (s.dev.spliceMsg dim plus 4)) := by
  change execJoinRequest dim plus s = _
  exact onDevice_eq ((if_neg (by simp [hon])).trans (if_pos (by simpa [or_assoc] using hbusy)))

theorem exec_joinRequest_holds {plus : Bool} {y : Splice} (hon : s.dev.linksOn = true) (hst : (s.dev.splice dim).state = 2)
    (hfree : (s.dev.splice dim).holds plus = false) (hback : s.dev.fls.restarting = false)
    (hy : y = (if plus then { s.dev.splice dim with holdPlus := true, owesPlus := true }
      else { s.dev.splice dim with holdMinus := true, owesMinus := true })) :
    exec (.joinRequest dim plus) s = .next (s.after
      (((s.dev.setSplice dim y).upLinks (spanNo dim plus)).foldl (fun d l =>
        ((d.link l).txq.filter (fun t => t.sent == 0)).foldl (fun d t => d.holdPacket dim plus t)
          (d.setLink l { d.link l with txq := (d.link l).txq.filter (fun t => t.sent != 0) }))
          (s.dev.setSplice dim y) |>.checkHeld dim plus)) := by
  subst hy
  change execJoinRequest dim plus s = _
  exact onDevice_eq ((if_neg (by simp [hon])).trans (if_neg (by simp [hst, hfree, hback])))

/-- A neighbour's HELD while this device waits for both: the splice notes it, and goes on when it is the second. -/
theorem exec_joinHeld_waiting {plus : Bool} {x : Splice} (hst : (s.dev.splice dim).state = 1 ∨ (s.dev.splice dim).state = 3)
    (hstep : (s.dev.splice dim).step = 1)
    (hx : (if plus then { s.dev.splice dim with heldPlus := true } else { s.dev.splice dim with heldMinus := true }) = x) :
    exec (.joinHeld dim plus) s = .next (s.after
      (if !(x.heldPlus && x.heldMinus) then s.dev.setSplice dim x
      else if x.state = 1 then s.dev.setSplice dim { x with step := 3 }
      else (s.dev.setSplice dim { x with step := 3, bypassOpen := false }).ringDown dim 6)) := by
  subst hx
  change execJoinHeld dim plus s = _
  refine onDevice_eq ?_
  rw [Device.checkLeave_eq_self (.inr (by simp [hstep]))]
  exact if_neg (by rcases hst with h | h <;> simp [h, hstep])

theorem exec_bypassOpenDone_joining (hst : (s.dev.splice dim).state = 1) (hstep : (s.dev.splice dim).step = 3) :
    exec (.bypassOpenDone dim) s = .next (s.after ((List.range 16).foldl
      (fun d k => d.setLink (16 * dim + k) { d.link (16 * dim + k) with state := 1 })
      (s.dev.setSplice dim { s.dev.splice dim with step := 4, bypassOpen := true, since := s.dev.now }))) := by
  change execBypassOpenDone dim s = _
  exact onDevice_eq (if_neg (by simp [hst, hstep]))

theorem exec_joinTrainTimeout_late {old : Bool} (hst : (s.dev.splice dim).state = 1) (hstep : (s.dev.splice dim).step = 4)
    (hring : s.dev.ringUp dim = false) (hlate : (s.dev.splice dim).since + s.dev.trainLimit dim old ≤ s.dev.now) :
    exec (.joinTrainTimeout ⟨dim, old⟩) s = .next (s.after (((List.range 16).foldl
      (fun d k => d.setLink (16 * dim + k) { d.link (16 * dim + k) with state := 0 })
        ((s.dev.setSplice dim { s.dev.splice dim with bypassOpen := false }).ringDown dim 6)).joinFailed dim 3)) := by
  change execJoinTrainTimeout ⟨dim, old⟩ s = _
  exact onDevice_eq (if_neg (by simp [hst, hstep, hring, hlate]))

theorem exec_joinRetry_due {busyAt : Nat} (hst : (s.dev.splice dim).state = 1) (hstep : (s.dev.splice dim).step = 1)
    (hsince : (s.dev.splice dim).since ≤ busyAt) (hdue : busyAt + 10000000 ≤ s.dev.now) :
    exec (.joinRetry ⟨dim, busyAt⟩) s = .next (s.after (((s.dev.setSplice dim
      { s.dev.splice dim with since := s.dev.now, heldPlus := false, heldMinus := false }).setFld Reg.SPN_SPLICE
        Fld.SPN_SPLICE_LAST 2).askBoth dim 1)) := by
  change execJoinRetry ⟨dim, busyAt⟩ s = _
  exact onDevice_eq (if_neg (by simp [hst, hstep, hsince, hdue]))

theorem exec_joinNoAnswer_silent (hst : (s.dev.splice dim).state = 1) (hstep : (s.dev.splice dim).step = 1)
    (hlate : (s.dev.splice dim).since + 1000000000 ≤ s.dev.now) :
    exec (.joinNoAnswer dim) s = .next (s.after
      (if (s.dev.splice dim).silences = 0 then
        (s.dev.setSplice dim { s.dev.splice dim with since := s.dev.now, silences := 1 }).askBoth dim 1
      else s.dev.joinFailed dim 4)) := by
  change execJoinNoAnswer dim s = _
  exact onDevice_eq (if_neg (by simp [hst, hstep, hlate]))

theorem exec_membershipUpdate_taken {m : Word} {d e g : Device} (hst : (s.dev.splice dim).state ≠ 0)
    (hring : s.dev.ringUsed dim = true)
    (hjoin : (s.dev.splice dim).state = 1 → (s.dev.splice dim).step = 4 ∧ s.dev.ringUp dim = true ∧
      m.toNat.testBit (coordOf s.dev.devnum dim) = true)
    (hd : s.dev.setSplice dim { s.dev.splice dim with
      members := BitVec.ofNat 64 (m.toNat % 2 ^ s.dev.ringSize dim), holdPlus := false
      holdMinus := false, owesPlus := false, owesMinus := false, holding := [] } = d)
    (he : (d.upLinks (spanNo dim true) ++ d.upLinks (spanNo dim false)).foldl
      (fun d l => d.setLink l { d.link l with state := 2 }) d = e)
    (hg : (if (s.dev.splice dim).state = 1 then e.endSplice dim 2 1
      else if (s.dev.splice dim).state = 3 && (s.dev.splice dim).step = 3 then e.endSplice dim 0 1 else e) = g) :
    exec (.membershipUpdate dim m) s = .next (s.after ((s.dev.splice dim).holding.foldl
      (fun d h => d.resend ⟨h.packet, 0, none⟩ false) (g.spliceMsg dim true 5))) := by
  subst hd he hg
  change execMembershipUpdate dim m s = _
  refine onDevice_eq ((if_neg (by simp [hst, hring])).trans (if_neg ?_))
  by_cases h : (s.dev.splice dim).state = 1
  · obtain ⟨hstep, hup, hmember⟩ := hjoin h
    simp [hstep, hup, hmember]
  · simp [h]

end

/-- Settles O46: each row by its law above. -/
theorem splicesOfRings : Obligations.SplicesOfRings := by
  rintro dim _ s rfl
  refine ⟨exec_spliceJoin_free, exec_spliceLeave_joined, fun plus => exec_joinRequest_busy,
    fun plus y => exec_joinRequest_holds, fun hst hstep hother => ?_, fun hst hstep hother => ?_, exec_bypassOpenDone_joining,
    fun old d hst hstep hring hlate hd => ?_, fun hst hstep => ⟨fun busyAt => exec_joinRetry_due hst hstep, fun hlate =>
      ⟨fun hfirst => ?_, fun hagain => ?_⟩⟩, fun m d e g => exec_membershipUpdate_taken⟩
  · rw [exec_joinHeld_waiting (.inl hst) hstep rfl]
    simp [hst, hother]
  · rw [exec_joinHeld_waiting (.inr hst) hstep rfl]
    simp [hst, hother]
  · rw [exec_joinTrainTimeout_late hst hstep hring hlate, hd]
  · rw [exec_joinNoAnswer_silent hst hstep hlate, if_pos hfirst]
  · rw [exec_joinNoAnswer_silent hst hstep hlate, if_neg hagain]

end Sys2Proof.Machine
end

section
/-! SUPPORT. Collectives (12): the sum of two integer contributions element by element, the rows of a collective form by form,
and the statement settled with them. -/
namespace Sys2Proof.Machine

open Sys2Proof

/-! ### Elements of a contribution (R375) -/

theorem leBytes_length (n v : Nat) : (leBytes n v).length = n := by
  induction n generalizing v with
  | zero => rfl
  | succ n ih => simp [leBytes, ih]

theorem leNat_leBytes (n v : Nat) : leNat (leBytes n v) = v % 256 ^ n := by
  induction n generalizing v with
  | zero => simp [leBytes, leNat, Nat.mod_one]
  | succ n ih =>
    rw [leBytes, leNat, ih, BitVec.toNat_ofNat, Nat.pow_succ' (m := 256)]
    exact Nat.mod_mul.symm

/-- Element `i` of bytes that hold elements of `w` bytes each. -/
def elemBytes (w : Nat) (bs : List Byte) (i : Nat) : List Byte := (bs.drop (i * w)).take w

theorem chunks_eq_elemBytes {w : Nat} (hw : 0 < w) {n f : Nat} (hf : n ≤ f) {bs : List Byte} (h : bs.length = n * w) :
    chunks w f bs = (List.range n).map (elemBytes w bs) := by
  induction n generalizing f bs with
  | zero =>
    rw [List.length_eq_zero_iff.mp (h.trans (Nat.zero_mul w))]
    cases f <;> rfl
  | succ n ih =>
    obtain ⟨f, rfl⟩ := Nat.exists_eq_succ_of_ne_zero (by omega : f ≠ 0)
    rw [Nat.succ_mul] at h
    have hne : bs.isEmpty = false := by rw [List.isEmpty_eq_false_iff, ← List.length_pos_iff]; omega
    have hrest := ih (f := f) (by omega) (bs := bs.drop w) (by rw [List.length_drop]; omega)
    rw [chunks, hne, if_neg Bool.false_ne_true, hrest, List.range_succ_eq_map, List.map_cons, List.map_map]
    congr 1
    · simp [elemBytes]
    · refine List.map_congr_left fun i _ => ?_
      rw [Function.comp, elemBytes, elemBytes, List.drop_drop, Nat.succ_mul, Nat.add_comm]

/-- Elements of one width, written one after another, are found again at their places. -/
theorem elemBytes_flatMap {w : Nat} {g : Nat → List Byte} (hg : ∀ i, (g i).length = w) {n i : Nat} (hi : i < n) :
    elemBytes w ((List.range n).flatMap g) i = g i := by
  induction n generalizing g i with
  | zero => omega
  | succ n ih =>
    rw [List.range_succ_eq_map, List.flatMap_cons, List.flatMap_map]
    cases i with
    | zero => simp [elemBytes, hg]
    | succ i =>
      have hrest := ih (g := fun j => g (j + 1)) (fun j => hg (j + 1)) (Nat.lt_of_succ_lt_succ hi)
      rw [← hrest, elemBytes, elemBytes, Nat.succ_mul, Nat.add_comm, ← List.drop_drop, List.drop_left' (hg 0)]

theorem length_flatMap_range {w : Nat} {g : Nat → List Byte} (hg : ∀ i, (g i).length = w) (n : Nat) :
    ((List.range n).flatMap g).length = n * w := by
  simp [List.length_flatMap, hg]

/-! ### The sum of two integer contributions (R375) -/

/-- Bytes of an integer element: I32 is format 0, I64 format 1. -/
def intWidth (elem : Nat) : Nat := if elem = 0 then 4 else 8

theorem intWidth_pos (elem : Nat) : 0 < intWidth elem := by
  unfold intWidth; split <;> omega

theorem colVals_int {elem : Nat} (helem : elem < 2) {n : Nat} {bs : List Byte} (h : bs.length = n * intWidth elem) :
    colVals elem bs = ((List.range n).map (fun i => (leNat (elemBytes (intWidth elem) bs i) : Int)), 0) := by
  have hfuel : n ≤ bs.length := h ▸ Nat.le_mul_of_pos_right n (intWidth_pos elem)
  rw [colVals, if_neg (by omega)]
  change ((chunks (intWidth elem) bs.length bs).map _, _) = _
  rw [chunks_eq_elemBytes (intWidth_pos elem) hfuel h, List.map_map]
  rfl

/-- The sum of two elements, modulo the element's width. -/
def intSum (elem x y : Nat) : Nat := (x + y) % 2 ^ (8 * intWidth elem)

theorem unsigned_mod_colMod {elem : Nat} (helem : elem < 2) (x y : Nat) :
    unsigned (if elem = 0 then 32 else 64) (((x : Int) + y) % (colMod elem : Int)) = intSum elem x y := by
  obtain rfl | rfl : elem = 0 ∨ elem = 1 := by omega
  · simp only [unsigned, colMod, intSum, intWidth, if_true]
    omega
  · simp only [unsigned, colMod, intSum, intWidth, if_true, one_ne_zero, if_false]
    omega

/-- The sum's bytes are the sums of the elements at their places. -/
theorem colBytes_pairAdd_int {elem : Nat} (helem : elem < 2) {n : Nat} {a b : List Byte} (ha : a.length = n * intWidth elem)
    (hb : b.length = n * intWidth elem) : colBytes elem (pairAdd elem (colVals elem a) (colVals elem b)).1 =
      (List.range n).flatMap (fun i => leBytes (intWidth elem)
        (intSum elem (leNat (elemBytes (intWidth elem) a i)) (leNat (elemBytes (intWidth elem) b i)))) := by
  have hne : elem ≠ 2 := by omega
  rw [colVals_int helem ha, colVals_int helem hb]
  simp only [pairAdd, colBytes, hne, if_false, List.zip_map', List.map_map, List.flatMap_map, Function.comp,
    unsigned_mod_colMod helem]
  rfl

theorem intSum_elementwise {elem : Nat} (helem : elem < 2) {n i : Nat} (hi : i < n) {a b : List Byte}
    (ha : a.length = n * intWidth elem) (hb : b.length = n * intWidth elem) :
    (colBytes elem (pairAdd elem (colVals elem a) (colVals elem b)).1).length = n * intWidth elem ∧
    leNat (elemBytes (intWidth elem) (colBytes elem (pairAdd elem (colVals elem a) (colVals elem b)).1) i) =
      (leNat (elemBytes (intWidth elem) a i) + leNat (elemBytes (intWidth elem) b i)) % 2 ^ (8 * intWidth elem) := by
  rw [colBytes_pairAdd_int helem ha hb]
  refine ⟨length_flatMap_range (fun _ => leBytes_length _ _) n, ?_⟩
  rw [elemBytes_flatMap (fun _ => leBytes_length _ _) hi, leNat_leBytes, intSum, Nat.pow_mul, Nat.mod_mod]

/-! ### The command (R372, R373) -/

section
variable {e : ColNo} {j : Nat} {first again : List AddErr} {k : Job} {s : State} (hjob : s.dev.job? j = some k)
  (hopc : k.cmd.opc = 0x25) (hlive : k.state ≠ .done) (hawake : k.waitFrom = none) (hstage : s.dev.clk.stage = .thatched)
include hjob hopc hlive hawake hstage

/-- A live collective command: what the row does by where the command stands. -/
theorem exec_colTask : exec (.colTask e ⟨j, ⟨first, again⟩⟩) s = .next (s.after
    (match s.dev.colOf? (fun c => c.job == j) with
    | some (n, c) => (s.dev.mapJob j (fun k => { k with
        state := .running, since := if k.state = .running then k.since else s.dev.now })).colGo n c first again
    | none =>
      match s.dev.colPick k with
      | none => if k.state == .issued then s.dev.colRefuse k e.val 0x06 else s.dev
      | some p =>
        if p ≠ e.val then s.dev
        else
          match [0, 1].findSome? (fun m => (s.dev.colEng m).armed.find? (fun a => a.col.job == j)) with
          | some a => if !a.started && decide (a.trig ≤ a.count) && decide ((s.dev.colEng e).running.length < 16) then
              s.dev.colStart e a.col first again else s.dev
          | none => if k.state == .issued then s.dev.colNew e k first again else s.dev)) := by
  change execColTask e ⟨j, ⟨first, again⟩⟩ s = _
  refine onDevice_eq ?_
  dsimp only
  rw [hjob]
  exact if_neg (by simp [hopc, hlive, hawake, hstage])

theorem exec_colTask_running {n : Nat} {c : Collective} (hcol : s.dev.colOf? (fun c => c.job == j) = some (n, c)) :
    exec (.colTask e ⟨j, ⟨first, again⟩⟩) s = .next (s.after ((s.dev.mapJob j (fun k => { k with
      state := .running, since := if k.state = .running then k.since else s.dev.now })).colGo n c first again)) := by
  rw [exec_colTask hjob hopc hlive hawake hstage, hcol]

theorem exec_colTask_refused (hcol : s.dev.colOf? (fun c => c.job == j) = none) (hpick : s.dev.colPick k = none)
    (hnew : k.state = .issued) :
    exec (.colTask e ⟨j, ⟨first, again⟩⟩) s = .next (s.after (s.dev.colRefuse k e.val 0x06)) := by
  rw [exec_colTask hjob hopc hlive hawake hstage, hcol, hpick, hnew]
  rfl

theorem exec_colTask_new (hcol : s.dev.colOf? (fun c => c.job == j) = none) (hpick : s.dev.colPick k = some e.val)
    (hnew : k.state = .issued)
    (harmed : [0, 1].findSome? (fun m => (s.dev.colEng m).armed.find? (fun a => a.col.job == j)) = none) :
    exec (.colTask e ⟨j, ⟨first, again⟩⟩) s = .next (s.after (s.dev.colNew e k first again)) := by
  rw [exec_colTask hjob hopc hlive hawake hstage, hcol, hpick]
  dsimp only
  rw [harmed, hnew, if_neg (not_not.mpr rfl)]
  rfl

theorem exec_colTask_armed {a : Armed} (hcol : s.dev.colOf? (fun c => c.job == j) = none)
    (hpick : s.dev.colPick k = some e.val)
    (harmed : [0, 1].findSome? (fun m => (s.dev.colEng m).armed.find? (fun a => a.col.job == j)) = some a)
    (hfresh : a.started = false) (htrig : a.trig ≤ a.count) (hroom : (s.dev.colEng e).running.length < 16) :
    exec (.colTask e ⟨j, ⟨first, again⟩⟩) s = .next (s.after (s.dev.colStart e a.col first again)) := by
  rw [exec_colTask hjob hopc hlive hawake hstage, hcol, hpick]
  dsimp only
  rw [harmed, if_neg (not_not.mpr rfl)]
  simp only [hfresh, htrig, hroom, Bool.not_false, decide_true, Bool.and_self, if_true]

end

/-! ### Data, time-outs and aborts (R356, R374 to R378) -/

section
variable {e : ColNo} {s : State}

theorem exec_colDataRx_again {p : Packet} (hon : s.dev.serves = true) (hkind : p.kind = 0x0A) (hask : p.payload = [1])
    (runs : AddRuns) : exec (.colDataRx e p runs) s = .next (s.after (s.dev.colAgain p)) := by
  change execColDataRx e p runs s = _
  exact onDevice_eq ((if_neg (by simp [hon])).trans ((if_pos hkind).trans (if_pos hask)))

theorem exec_colDataRx_data {p q : Packet} {first again : List AddErr} (hon : s.dev.serves = true) (hkind : p.kind ≠ 0x0A)
    (hq : { p with kind := 0x09, via := none } = q) : exec (.colDataRx e p ⟨first, again⟩) s = .next (s.after
      (if s.dev.colSeen q then s.dev.takeHeld q
      else match s.dev.colFor q with
        | none => s.dev.setColEng e { s.dev.colEng e with staged := (s.dev.colEng e).staged ++ [q] }
        | some (n, c) => ((s.dev.takeHeld q).colData n c q).colWork n first again)) := by
  subst hq
  change execColDataRx e p ⟨first, again⟩ s = _
  exact onDevice_eq ((if_neg (by simp [hon])).trans (if_neg hkind))

theorem exec_colTimeout_late {id i : Nat} {c : Collective} (hlate : (s.dev.colEng e).running.find? (fun c => c.colid == id &&
      decide (c.lastProgress + max 1 (s.dev.fld Reg.COL_CTRL Fld.COL_CTRL_TIMEOUT) * 1000000 ≤ s.dev.now)) = some c)
    (hmissing : (List.range c.nmem).find? (fun i => c.missing (s.dev.placeIn c) i) = some i) :
    exec (.colTimeout e id) s =
      .next (s.after (s.dev.colAbort e c 5 (c.group.getD i 0) stRemoteLost 0x54 (c.group.getD i 0))) := by
  change execColTimeout e id s = _
  refine onDevice_eq ?_
  dsimp only
  rw [hlate]
  dsimp only
  rw [hmissing]

theorem exec_colAbortRx_serving {p q : Packet} (hon : s.dev.serves = true) (hq : { p with kind := 0x0D } = q) :
    exec (.colAbortRx e p) s = .next (s.after (match s.dev.colFor q with
      | none => s.dev.setColEng e { s.dev.colEng e with staged := (s.dev.colEng e).staged ++ [q] }
      | some (n, c) => s.dev.colAborted n c q)) := by
  subst hq
  change execColAbortRx e p s = _
  exact onDevice_eq (if_neg (by simp [hon]))

end

/-- Settles O47: each row by its law above; the sum by its elements. -/
theorem collectivesRun : Obligations.CollectivesRun := by
  refine ⟨⟨fun e j first again k s hjob hopc hlive hawake hstage => ⟨fun n c => ?_, ?_, ?_, fun a => ?_⟩,
    fun e p q first again s hon => ⟨fun hkind hask => exec_colDataRx_again hon hkind hask _, fun hkind hq =>
      ⟨fun hseen => ?_, fun hseen hfor => ?_, fun n c hseen hfor => ?_⟩⟩,
    fun e id i c s => exec_colTimeout_late, fun e p q s hon hq => ⟨fun hfor => ?_, fun n c hfor => ?_⟩⟩, ?_⟩
  · exact exec_colTask_running hjob hopc hlive hawake hstage
  · exact exec_colTask_refused hjob hopc hlive hawake hstage
  · exact exec_colTask_new hjob hopc hlive hawake hstage
  · exact exec_colTask_armed hjob hopc hlive hawake hstage
  · rw [exec_colDataRx_data hon hkind hq, if_pos hseen]
  · rw [exec_colDataRx_data hon hkind hq, hseen, hfor]
    rfl
  · rw [exec_colDataRx_data hon hkind hq, hseen, hfor]
    rfl
  · rw [exec_colAbortRx_serving hon hq, hfor]
  · rw [exec_colAbortRx_serving hon hq, hfor]
  · rintro elem _ n i a b helem rfl ha hb hi
    exact intSum_elementwise helem hi ha hb

end Sys2Proof.Machine
end

section
/-! SUPPORT. The start stages, the reference clocks (15) and the control of the send rate (16): each row form by form, and the
statements settled with them. -/
namespace Sys2Proof.Machine

open Sys2Proof

/-! ### The start stages (R439 to R443) -/

/-- Stage Tarp reached: stored records are reported, and under AUTOSTART Batten begins (R408, R440). -/
def Device.tarpReached (d : Device) : Device :=
  if d.reportStored.fls.autostart && !d.reportStored.fls.romOnly then d.reportStored.beginBatten else d.reportStored

section
variable {a b : Bool} {s : State} (hstage : s.dev.clk.stage = .beforeTarp)
include hstage

theorem exec_stageTarp_again (hkind : s.dev.clk.startKind = 3) : exec (.stageTarp a b) s =
    .next (s.after (Device.tarpReached { s.dev with clk := { s.dev.clk with stage := .tarp } })) := by
  change execStageTarp a b s = _
  refine onDevice_eq ((if_neg (by simp [hstage])).trans ?_)
  rw [if_pos hkind]
  rfl

theorem exec_stageTarp_first (hkind : s.dev.clk.startKind ≠ 3) {e : Device} (he : s.dev.startFirmware a b = e) :
    exec (.stageTarp a b) s = .next (s.after (Device.tarpReached ([0, 1].foldl (fun d p => d.portTarp p)
      { e with clk := { e.clk with stage := .tarp, counting := true, coreOk := true, linkOk := true, netOk := true } }))) := by
  subst he
  change execStageTarp a b s = _
  refine onDevice_eq ((if_neg (by simp [hstage])).trans ?_)
  rw [if_neg hkind]
  rfl

end

section
variable {f : BattenFindings} {s : State}

theorem exec_stageBatten_first (hon : s.dev.clk.starting = true) (hback : s.dev.fls.restarting = false)
    (hstep : s.dev.clk.battenStep = 0) : exec (.stageBatten f) s = .next (s.after (s.dev.battenSteps f)) := by
  change execStageBatten f s = _
  exact onDevice_eq ((if_neg (by simp [hon, hback])).trans (if_pos hstep))

theorem Device.battenSteps_noImage {d : Device} (h : d.pickImage = none) : d.battenSteps f = d.battenFail 0x10 := by
  simp only [Device.battenSteps, h]

/-- With an image, clocks and rails good, the count of failed channels decides (R441). -/
theorem Device.battenSteps_image {d : Device} {bank : Nat} {bad : List Nat} (hpick : d.pickImage = some (bank, none))
    (hclocks : f.clocksOk = true) (hcore : d.clk.coreOk = true) (hlink : d.clk.linkOk = true) (hnet : d.clk.netOk = true)
    (hrails : f.railsOk = true) (hbad : (f.failedChannels.filter (· < 512)).eraseDups = bad) : d.battenSteps f =
      if 32 < bad.length then d.battenFail 0x13
      else
        let e := (((d.loadImage bank).retrainPorts.powerTrusses).trainHbm bad).trainSpans f.failedRings
        Device.joinNext f 3 (if e.devnumValid then e else e.startErr 0x22) 0 := by
  subst hbad
  simp only [Device.battenSteps, hpick, hclocks, hcore, hlink, hnet, hrails, Bool.not_true, Bool.or_self,
    Bool.false_eq_true, if_false]

end

theorem exec_stageThatched_batten {failing : List Nat} {s : State} {d : Device} (hstage : s.dev.clk.stage = .batten)
    (hd : ((List.range 16).foldl (fun d t => d.startTest failing t) s.dev).createCtx 0
      { (default : Context) with state := 1, prio := 7, lenLimit := 1000 } = d) :
    exec (.stageThatched failing) s = .next (s.after { d with
      clk := { d.clk with stage := .thatched }, eave := { d.eave with heldEnable := false } }) := by
  subst hd
  change execStageThatched failing s = _
  exact onDevice_eq (if_neg (by simp [hstage]))

/-! ### The reference clocks (R447, R448) -/

section
variable {s : State} (hon : s.dev.flsOn = true)
include hon

theorem exec_coreRefclkLoss_thatched {d : Device} (hcore : s.dev.clk.coreOk = true) (hstage : s.dev.clk.stage = .thatched)
    (hd : { s.dev with clk := { s.dev.clk with
      coreOk := false, counting := false, locked := 0, ridgeLock := false, loftLock := false } } = d) :
    exec .coreRefclkLoss s = .next (s.after (d.tarpDropNow 0 0)) := by
  subst hd
  change execCoreRefclkLoss s = _
  exact onDevice_eq ((if_neg (by simp [hon, hcore])).trans (if_neg (by simp [hstage])))

theorem exec_linkRefclkLoss_good {d : Device} (hlink : s.dev.clk.linkOk = true)
    (hd : (List.range 48).foldl (fun d l => d.goDown l 0) s.dev = d) : exec .linkRefclkLoss s =
      .next (s.after (({ d with clk := { d.clk with linkOk := false } }).logOpen 0 0 noCtx 0 0 0 0)) := by
  subst hd
  change execLinkRefclkLoss s = _
  exact onDevice_eq (if_neg (by simp [hon, hlink]))

theorem exec_netRefclkLoss_good (hnet : s.dev.clk.netOk = true) : exec .netRefclkLoss s = .next (s.after
    ([0, 1].foldl (fun (d : Device) p => d.portFail p)
      (({ s.dev with clk := { s.dev.clk with netOk := false } }).logOpen 0 0 noCtx 0 0 0 0)).serveAgain) := by
  change execNetRefclkLoss s = _
  exact onServing_eq (if_neg (by simp [hon, hnet]))

theorem exec_refclkRestored_on (c : RefClk) : exec (.refclkRestored c) s = .next (s.after (match c with
    | .core => { s.dev with clk := { s.dev.clk with coreOk := true, counting := true } }
    | .link => { s.dev with clk := { s.dev.clk with linkOk := true } }
    | .net => { s.dev with clk := { s.dev.clk with netOk := true } })) := by
  change execRefclkRestored c s = _
  exact onDevice_eq (if_neg (by simp [hon]))

end

/-- Settles O57: each row by its law above. -/
theorem startStagesAndClocks : Obligations.StartStagesAndClocks := by
  refine ⟨⟨?_, ?_, ?_, fun failing d s => exec_stageThatched_batten⟩, fun s hon =>
    ⟨fun d => exec_coreRefclkLoss_thatched hon, fun d => exec_linkRefclkLoss_good hon, exec_netRefclkLoss_good hon,
      exec_refclkRestored_on hon .core, exec_refclkRestored_on hon .link, exec_refclkRestored_on hon .net⟩⟩
  · rintro a b _ s hstage hkind rfl
    exact exec_stageTarp_again hstage hkind
  · rintro a b _ e s hstage hkind he rfl
    exact exec_stageTarp_first hstage hkind he
  · intro f s hon hback hstep
    refine ⟨fun hpick => ?_, fun bank bad hpick hclocks hcore hlink hnet hrails hbad => ⟨fun hmany => ?_, fun d hfew hd => ?_⟩⟩
    · rw [exec_stageBatten_first hon hback hstep, Device.battenSteps_noImage hpick]
    · rw [exec_stageBatten_first hon hback hstep, Device.battenSteps_image hpick hclocks hcore hlink hnet hrails hbad,
        if_pos hmany]
    · subst hd
      rw [exec_stageBatten_first hon hback hstep, Device.battenSteps_image hpick hclocks hcore hlink hnet hrails hbad,
        if_neg (Nat.not_lt.mpr hfew)]

/-! ### The send rate (R460) -/

theorem Device.count_now (d : Device) (off n : Nat) : (d.count off n).now = d.now :=
  congrArg Clocks.now (d.count_clk off n)

section
variable {qpn : Nat} {q : Qp} {s : State} (hon : s.dev.qpOn qpn = true) (hq : tget s.dev.qps qpn default = q)
include hon hq

theorem exec_ecnCeRx {d : Device} (hd : s.dev.count (Reg.ETH_ECN_CE q.port) 1 = d) :
    exec (.ecnCeRx qpn) s = .next (s.after (if rested q.lastCnpTx s.dev.now then
      (({ d with qps := tset d.qps qpn { q with lastCnpTx := some s.dev.now } }).count (Reg.ETH_CNP_TX q.port) 1).emit (.cnp qpn)
      else d)) := by
  subst hq hd
  change execEcnCeRx qpn s = _
  refine onDevice_eq ((if_neg (by simp [hon])).trans ?_)
  dsimp only
  rw [Device.count_now]

theorem exec_cnpRx {d : Device} (hd : s.dev.count (Reg.ETH_CNP_RX q.port) 1 = d) :
    exec (.cnpRx qpn) s = .next (s.after { d with qps := tset d.qps qpn { q with
      lastCnpRx := some s.dev.now, lastRaise := s.dev.now
      rate := if rested q.lastCut s.dev.now then max minRate (q.rate / 2) else q.rate
      lastCut := if rested q.lastCut s.dev.now then some s.dev.now else q.lastCut } }) := by
  subst hq hd
  change execCnpRx qpn s = _
  refine onDevice_eq ((if_neg (by simp [hon])).trans ?_)
  dsimp only
  rw [Device.count_now]

theorem exec_rateRecovery_due (hlow : q.rate < portRate) (hdue : q.lastRaise + 55000 ≤ s.dev.now) :
    exec (.rateRecovery qpn) s = .next (s.after { s.dev with qps := tset s.dev.qps qpn { q with
      rate := min portRate (q.rate + portRate / 20), lastRaise := s.dev.now } }) := by
  subst hq
  change execRateRecovery qpn s = _
  exact onDevice_eq (if_neg (by simp [hon, hlow, hdue]))

end

/-- Settles O59: each row by its law above, as the 50 µs have passed or not. -/
theorem congestionControlsTheRate : Obligations.CongestionControlsTheRate := by
  intro qpn q d s hon hq
  refine ⟨fun hd hrest => ?_, fun hd hrest => ?_, fun hd hrest => ?_, fun hd hrest => ?_, exec_rateRecovery_due hon hq⟩
  · rw [exec_ecnCeRx hon hq hd, if_pos hrest]
  · rw [exec_ecnCeRx hon hq hd, if_neg (by simp [hrest])]
  · rw [exec_cnpRx hon hq hd, if_pos hrest, if_pos hrest]
  · rw [exec_cnpRx hon hq hd, if_neg (by simp [hrest]), if_neg (by simp [hrest])]

end Sys2Proof.Machine
end

section
/-! SUPPORT. The Flashing partition (15): how a command of either path is carried out, what each command does, form by form,
restarts of the recovery controller, and the statement settled with them. -/
namespace Sys2Proof.Machine

open Sys2Proof

/-! ### A command is carried out (R428, R429, R461) -/

/-- A command that a restart, the ROM and Table 15-2 let run does what its code says. -/
theorem Device.flsRun_allowed {d : Device} {code : Nat} {c : FlsCall} (hback : d.fls.restarting = false)
    (hrom : d.fls.romOnly = false) (hallowed : d.flsAllowed c.mailbox code = true) : d.flsRun code c = flsAct code d c := by
  simp only [Device.flsRun, hback, hrom, hallowed, Bool.false_and, Bool.not_true, Bool.or_self, Bool.false_eq_true, if_false]

/-- The path and the stage are all that Table 15-2 asks about. -/
theorem Device.flsAllowed_congr {d e : Device} (h : e.clk = d.clk) (mailbox : Bool) (code : Nat) :
    e.flsAllowed mailbox code = d.flsAllowed mailbox code := by
  unfold Device.flsAllowed Device.beforeJoin Device.idleTarp; rw [h]

/-- What the partition makes of a run: it ends the command, and a planned restart begins as FW_ACTIVATE ends (R438). -/
def flsEnded (code : Nat) (r : FlsReq) (x : FlsRun) : Device × Bool :=
  match x with
  | (d, some e) => (if code = 0x06 ∧ e.status = flsOk then (d.flsFinish r e).beginRestart 3 else d.flsFinish r e, true)
  | (d, none) => (d, false)

theorem Device.flsStep_eq (d : Device) (code : Nat) (r : FlsReq) (fresh : BitVec 32) :
    d.flsStep code r fresh = flsEnded code r (d.flsRun code (d.flsCall r fresh)) := rfl

theorem flsEnded_of_ne {code : Nat} (hcode : code ≠ 0x06) (r : FlsReq) (d : Device) (e : FlsEnd) :
    flsEnded code r (d, some e) = (d.flsFinish r e, true) :=
  congrArg (·, true) (if_neg fun h => hcode h.1)

/-- The call of a mailbox command. -/
def Device.mailboxCall (d : Device) (w : Bool) (fresh : BitVec 32) : FlsCall := ⟨.mailbox w, true, d.fls.mboxArgs, w, fresh⟩

section
variable {s : State} {d e : Device} {code : Nat} {w : Bool} {fresh : BitVec 32} {x : FlsEnd}
  (hruns : s.dev.MailboxRuns code) (hd : s.dev.flsTaken = d) (hact : flsAct code d (s.dev.mailboxCall w fresh) = (e, some x))
include hruns hd hact

/-- A mailbox command that ends: its results, and then the commands that wait (R428, R438). -/
theorem Device.flsCommand_mailbox_ends :
    s.dev.flsCommand code (.mailbox w) fresh = (flsEnded code (.mailbox w) (e, some x)).1.flsGo := by
  subst hd
  obtain ⟨hjob, hon, hbusy, hcode, hfront, hback, hrom, hallowed⟩ := hruns
  have hrun : s.dev.flsTaken.flsRun code (s.dev.mailboxCall w fresh) = (e, some x) :=
    (Device.flsRun_allowed (d := s.dev.flsTaken) (c := s.dev.mailboxCall w fresh) hback hrom
      ((Device.flsAllowed_congr (d := s.dev) (e := s.dev.flsTaken) rfl _ _).trans hallowed)).trans hact
  have hstep : s.dev.flsTaken.flsStep code (.mailbox w) fresh = flsEnded code (.mailbox w) (e, some x) :=
    (Device.flsStep_eq _ _ _ _).trans (congrArg (flsEnded code (.mailbox w)) hrun)
  simp only [Device.flsCommand, hjob, hon, hbusy, hcode, hfront, Option.isSome_none, Bool.not_true, bne_self_eq_false,
    Bool.or_self, Bool.false_eq_true, if_false, hstep]
  rfl

theorem Device.flsCommand_mailbox_done (hcode : code ≠ 0x06) :
    s.dev.flsCommand code (.mailbox w) fresh = (e.flsFinish (.mailbox w) x).flsGo := by
  rw [Device.flsCommand_mailbox_ends hruns hd hact, flsEnded_of_ne hcode]

end

/-- A request let in whose reply comes later, or has been sent by the operation itself. -/
theorem Device.mgmt_admitted_later {d e : Device} {h : MgmtHdr} {isOpen : Bool} (ha : d.Admits h isOpen)
    {f : Device → Device × Option MgmtReply} (hf : f (d.mgmtIn h) = (e, none)) : d.mgmt h isOpen f = e := by
  obtain ⟨hon, hwf, hk, hb⟩ := ha
  unfold Device.mgmtIn at hf
  simp [Device.mgmt, hon, hwf, hk, hb, hf]

/-- The call of a command by the management protocol. -/
def mgmtCall (h : MgmtHdr) (tag : BitVec 8) (a b c e : Word) (w : Bool) (fresh : BitVec 32) : FlsCall :=
  ⟨.mgmt h tag a b c e w, false, [a, b, c, e], w, fresh⟩

section
variable {s : State} {h : MgmtHdr} {tag : BitVec 8} {a b c e : Word} {w : Bool} {fresh : BitVec 32} {code : Nat} {d f : Device}
  (hruns : s.dev.MgmtRuns h code) (hd : s.dev.mgmtIn h = d)
include hruns hd

/-- A management command that nothing keeps waiting is one step of the partition. -/
theorem Device.flsCommand_mgmt {x : FlsRun} (hact : flsAct code d (mgmtCall h tag a b c e w fresh) = x) :
    s.dev.flsCommand code (.mgmt h tag a b c e w) fresh = (flsEnded code (.mgmt h tag a b c e w) x).1 := by
  subst hd
  obtain ⟨hjob, hline, hadmits, hback, hrom, hallowed⟩ := hruns
  have hrun : (s.dev.mgmtIn h).flsRun code (mgmtCall h tag a b c e w fresh) = x :=
    (Device.flsRun_allowed (by rw [Device.mgmtIn_fls, hback]) (by rw [Device.mgmtIn_fls, hrom])
      ((Device.flsAllowed_congr (s.dev.mgmtIn_clk h) _ _).trans hallowed)).trans hact
  have hstep : (s.dev.mgmtIn h).flsStep code (.mgmt h tag a b c e w) fresh = flsEnded code (.mgmt h tag a b c e w) x :=
    (Device.flsStep_eq _ _ _ _).trans (congrArg (flsEnded code (.mgmt h tag a b c e w)) hrun)
  have hnew : (s.dev.mgmtIn h).flsPending h = false := by
    simp only [Device.flsPending, Device.mgmtIn_fls, hline, hjob, List.any_nil, Bool.or_self]
  unfold Device.flsCommand
  refine Device.mgmt_admitted_later hadmits ?_
  simp only [hnew, Device.mgmtIn_fls, hjob, hline, Option.isSome_none, List.isEmpty_nil, Bool.not_true, Bool.or_self,
    Bool.false_eq_true, if_false, hstep]

theorem Device.flsCommand_mgmt_carried (hcode : code ≠ 0x06)
    (hact : flsAct code d (mgmtCall h tag a b c e w fresh) = carried f) :
    s.dev.flsCommand code (.mgmt h tag a b c e w) fresh = f.flsReplied h tag 0 0 := by
  rw [Device.flsCommand_mgmt hruns hd hact, carried, flsEnded_of_ne hcode]
  rfl

theorem Device.flsCommand_mgmt_open (hact : flsAct code d (mgmtCall h tag a b c e w fresh) = (f, none)) :
    s.dev.flsCommand code (.mgmt h tag a b c e w) fresh = f := by
  rw [Device.flsCommand_mgmt hruns hd hact]
  rfl

end

/-! ### The commands on the mailbox (Table 15-2) -/

section
variable {s : State} {d : Device} {w : Bool} (hd : s.dev.flsTaken = d)
include hd

theorem exec_status_mailbox (hruns : s.dev.MailboxRuns 0x01) : exec (.status (.mailbox w)) s =
    .next (s.after (d.flsFinish (.mailbox w) ⟨flsOk, 0, d.flsStatus, d.flsKeys⟩).flsGo) := by
  change execStatus (.mailbox w) s = _
  exact onDevice_eq (Device.flsCommand_mailbox_done hruns hd rfl (by decide))

theorem exec_nonce_mailbox {fresh : BitVec 32} (hruns : s.dev.MailboxRuns 0x10) : exec (.nonce (.mailbox w) fresh) s =
    .next (s.after ({ d with fls := { d.fls with nonce := some fresh } }.flsFinish (.mailbox w)
      ⟨flsOk, 0, BitVec.ofNat 64 fresh.toNat, 0⟩).flsGo) := by
  change execNonce (.mailbox w) fresh s = _
  exact onDevice_eq (Device.flsCommand_mailbox_done hruns hd rfl (by decide))

theorem exec_fwActivate_mailbox (hruns : s.dev.MailboxRuns 0x06) : exec (.fwActivate (.mailbox w)) s =
    .next (s.after ((d.flsFinish (.mailbox w) (flsDone flsOk 0)).beginRestart 3).flsGo) := by
  change execFwActivate (.mailbox w) s = _
  exact onDevice_eq (Device.flsCommand_mailbox_ends hruns hd rfl)

section
variable {a : Nat} (ha : (wordAt s.dev.fls.mboxArgs 0).toNat = a)
include ha

theorem exec_imageSelect_mailbox (hruns : s.dev.MailboxRuns 0x04) (hbank : a ≤ 1) :
    exec (.imageSelect (.mailbox true)) s = .next (s.after
      ({ d with fls := { d.fls with nextBank := a } }.flsFinish (.mailbox true) (flsDone flsOk 0)).flsGo) := by
  subst ha
  change execImageSelect (.mailbox true) s = _
  exact onDevice_eq (Device.flsCommand_mailbox_done hruns hd (if_neg (Nat.not_lt.mpr hbank)) (by decide))

theorem exec_imageSelect_mailbox_refused (hruns : s.dev.MailboxRuns 0x04) (hbank : 1 < a) :
    exec (.imageSelect (.mailbox w)) s =
      .next (s.after (d.flsFinish (.mailbox w) (flsDone flsRefused 0x0B)).flsGo) := by
  subst ha
  change execImageSelect (.mailbox w) s = _
  exact onDevice_eq (Device.flsCommand_mailbox_done hruns hd (if_pos hbank) (by decide))

theorem exec_plimit_mailbox (hruns : s.dev.MailboxRuns 0x0A) (hmin : 600 ≤ a) : exec (.plimit (.mailbox true)) s =
    .next (s.after
      ({ d with fls := { d.fls with plimit := min 1800 a } }.flsFinish (.mailbox true) (flsDone flsOk 0)).flsGo) := by
  subst ha
  change execPlimit (.mailbox true) s = _
  exact onDevice_eq (Device.flsCommand_mailbox_done hruns hd (if_neg (Nat.not_lt.mpr hmin)) (by decide))

theorem exec_plimit_mailbox_refused (hruns : s.dev.MailboxRuns 0x0A) (hmin : a < 600) :
    exec (.plimit (.mailbox w)) s = .next (s.after (d.flsFinish (.mailbox w) (flsDone flsRefused 0x0B)).flsGo) := by
  subst ha
  change execPlimit (.mailbox w) s = _
  exact onDevice_eq (Device.flsCommand_mailbox_done hruns hd (if_pos hmin) (by decide))

end

end

/-! ### The commands by the management protocol (R344, R407, R432, R440, R444, R463) -/

section
variable {s : State} {h : MgmtHdr} {tag : BitVec 8} {a b c e : Word} {w : Bool} {d : Device} (hd : s.dev.mgmtIn h = d)
include hd

theorem exec_svnCommit_fw (hruns : s.dev.MgmtRuns h 0x09) (ha : a = 0) : exec (.svnCommit (.mgmt h tag a b c e w)) s =
    .next (s.after ({ d with fls := { d.fls with svnFw := max d.fls.svnFw d.fls.runSvnFw } }.flsReplied h tag 0 0)) := by
  subst ha
  change execSvnCommit (.mgmt h tag 0 b c e w) s = _
  exact onDevice_eq (Device.flsCommand_mgmt_carried hruns hd (by decide) rfl)

theorem exec_svnCommit_dev (hruns : s.dev.MgmtRuns h 0x09) (ha : a = 1) : exec (.svnCommit (.mgmt h tag a b c e w)) s =
    .next (s.after ({ d with fls := { d.fls with svnDev := max d.fls.svnDev d.fls.runSvnDev } }.flsReplied h tag 0 0)) := by
  subst ha
  change execSvnCommit (.mgmt h tag 1 b c e w) s = _
  exact onDevice_eq (Device.flsCommand_mgmt_carried hruns hd (by decide) rfl)

theorem exec_svnCommit_truss (hruns : s.dev.MgmtRuns h 0x09) (ha : a = 2) : exec (.svnCommit (.mgmt h tag a b c e w)) s =
    .next (s.after ({ d with fls := { d.fls with svnTruss := max d.fls.svnTruss d.fls.runSvnTruss } }.flsReplied h tag 0 0)) := by
  subst ha
  change execSvnCommit (.mgmt h tag 2 b c e w) s = _
  exact onDevice_eq (Device.flsCommand_mgmt_carried hruns hd (by decide) rfl)

theorem exec_setDevnum_mgmt (hruns : s.dev.MgmtRuns h 0x0B) (ha : a.toNat < 2 ^ 18) :
    exec (.setDevnum (.mgmt h tag a b c e w)) s =
      .next (s.after ({ d with devnum := a.toNat, devnumValid := true }.flsReplied h tag 0 0)) := by
  change execSetDevnum (.mgmt h tag a b c e w) s = _
  exact onDevice_eq (Device.flsCommand_mgmt_carried hruns hd (by decide) (if_neg (Nat.not_le.mpr ha)))

theorem exec_start_mgmt (hruns : s.dev.MgmtRuns h 0x0C) (ha : bit a 0 = false) : exec (.start (.mgmt h tag a b c e w)) s =
    .next (s.after (d.beginBatten.flsReplied h tag 0 0)) := by
  change execStart (.mgmt h tag a b c e w) s = _
  exact onDevice_eq (Device.flsCommand_mgmt_carried hruns hd (by decide) (if_neg (ne_true_of_eq_false ha)))

theorem exec_start_mgmt_stored (hruns : s.dev.MgmtRuns h 0x0C) (ha : bit a 0 = true) (hw : w = true) :
    exec (.start (.mgmt h tag a b c e w)) s = .next (s.after
      ({ d.beginBatten with fls := { d.beginBatten.fls with autostart := bit a 1 } }.flsReplied h tag 0 0)) := by
  subst hw
  change execStart (.mgmt h tag a b c e true) s = _
  exact onDevice_eq (Device.flsCommand_mgmt_carried hruns hd (by decide) (if_pos ha))

theorem exec_restart_mgmt (hruns : s.dev.MgmtRuns h 0x0D) : exec (.restart (.mgmt h tag a b c e w)) s = .next (s.after
    ((Device.beginStart { d.dropDomains with clk := { d.dropDomains.clk with endedTarp := true } } 3).flsReplied h tag 0 0)) := by
  change execRestart (.mgmt h tag a b c e w) s = _
  exact onDevice_eq (Device.flsCommand_mgmt_carried hruns hd (by decide) rfl)

theorem exec_subscribe_mgmt (hruns : s.dev.MgmtRuns h 0x0E) (ha : a.toNat ≤ 7) :
    exec (.subscribe (.mgmt h tag a b c e w)) s = .next (s.after ({ d with fls := { d.fls with
      managers := if bit c 0 then tset d.fls.managers a.toNat b.toNat else tdel d.fls.managers a.toNat } }.flsReplied
        h tag 0 0)) := by
  change execSubscribe (.mgmt h tag a b c e w) s = _
  exact onDevice_eq (Device.flsCommand_mgmt_carried hruns hd (by decide) (if_neg (Nat.not_lt.mpr ha)))

end

/-! ### Objects in the staging buffer (R430, R431, R436, R437) -/

section
variable {d : Device} {c : FlsCall} (hpath : c.mailbox = false) {addr n : Nat} (hfits : addr + n ≤ stagingSize) {bs : List Byte}
include hpath

theorem Device.withBytes_staged (hfits : addr + n ≤ stagingSize) (hbs : memRead d.fls.staging addr n = bs)
    (k : Device → List Byte → FlsRun) : d.withBytes c addr n k = k d bs := by
  subst hbs
  simp only [Device.withBytes, Device.flsLoad, hpath, Bool.not_false, if_true, Nat.not_lt.mpr hfits, if_false]

/-- A key record whose nonce is the one held: the nonce is spent (R431). -/
theorem Device.withRecord_held (hfits : c.arg 1 + keyRecordBytes ≤ stagingSize)
    (hbs : memRead d.fls.staging (c.arg 1) keyRecordBytes = bs)
    (hnonce : d.fls.nonce = some (BitVec.ofNat 32 (imgField bs 8 4))) (k : Device → List Byte → FlsRun) :
    d.withRecord c k = k { d with fls := { d.fls with nonce := none } } bs := by
  rw [Device.withRecord, Device.withBytes_staged hpath hfits hbs, if_pos hnonce]

end

section
variable {s : State} {h : MgmtHdr} {tag : BitVec 8} {a b c e : Word} {d : Device} {bs : List Byte}
  (hd : s.dev.mgmtIn h = d)
include hd

theorem exec_imageStage_mgmt (hruns : s.dev.MgmtRuns h 0x03)
    (hfits : b.toNat + readLen (imgLimit 1) c.toNat ≤ stagingSize)
    (hbs : memRead d.fls.staging b.toNat (readLen (imgLimit 1) c.toNat) = bs) (hgood : d.imageCause 1 none bs = none)
    (hbank : d.fls.bank = 0) : exec (.imageStage (.mgmt h tag a b c e true)) s = .next (s.after
      ({ d with fls := { d.fls with bankB := imgObject bs, nextBank := 1 } }.flsReplied h tag 0 0).serveAgain) := by
  change execImageStage (.mgmt h tag a b c e true) s = _
  refine onServing_eq (Device.flsCommand_mgmt_carried hruns hd (by decide) ?_)
  refine (Device.withBytes_staged rfl hfits hbs _).trans ?_
  simp only [hgood, FlsCall.store, mgmtCall, hbank, if_true, Nat.sub_zero, one_ne_zero, if_false]

theorem exec_fwStage_mgmt (hruns : s.dev.MgmtRuns h 0x05) (hlen : c.toNat ≤ fwLimit)
    (hfits : b.toNat + c.toNat ≤ stagingSize) (hbs : memRead d.fls.staging b.toNat c.toNat = bs)
    (hsigned : d.fwSigned bs = true) (hsvn : d.fls.svnFw ≤ Config.fwSvn bs % 64) (hbank : d.fls.fwbank = 0) :
    exec (.fwStage (.mgmt h tag a b c e true)) s = .next (s.after
      ({ d with fls := { d.fls with fwB := bs } }.flsReplied h tag 0 0).serveAgain) := by
  change execFwStage (.mgmt h tag a b c e true) s = _
  refine onServing_eq (Device.flsCommand_mgmt_carried hruns hd (by decide) ?_)
  refine (if_neg (Nat.not_lt.mpr hlen)).trans ((Device.withBytes_staged rfl hfits hbs _).trans ?_)
  simp only [hsigned, Nat.not_lt.mpr hsvn, FlsCall.store, mgmtCall, hbank, Bool.not_true, Bool.false_eq_true, if_true, if_false]

section
variable (hfits : b.toNat + keyRecordBytes ≤ stagingSize) (hbs : memRead d.fls.staging b.toNat keyRecordBytes = bs)
  (hnonce : d.fls.nonce = some (BitVec.ofNat 32 (imgField bs 8 4))) (hsigned : d.recordSigned bs = true)
include hfits hbs hnonce hsigned

theorem exec_keyEnroll_mgmt {k : Nat} (hruns : s.dev.MgmtRuns h 0x07) (ha : a.toNat = k) (hslot : k ≤ 3)
    (hfree : d.fls.enrolled.toNat.testBit k = false) : exec (.keyEnroll (.mgmt h tag a b c e true)) s =
      .next (s.after ({ d with fls := { d.fls with
        nonce := none, enrolled := d.fls.enrolled ||| (1#4 <<< k)
        keyHash := tset d.fls.keyHash k (recordKey bs) } }.flsReplied h tag 0 0).serveAgain) := by
  subst ha
  change execKeyEnroll (.mgmt h tag a b c e true) s = _
  refine onServing_eq (Device.flsCommand_mgmt_carried hruns hd (by decide) ?_)
  refine (if_neg (Nat.not_lt.mpr hslot)).trans
    ((Device.withRecord_held (c := mgmtCall h tag a b c e true 0) rfl hfits hbs hnonce _).trans ?_)
  refine (if_neg fun hbad => ?_).trans (if_neg (ne_true_of_eq_false hfree))
  exact absurd hsigned (by simpa [Device.recordSigned, Flashing.validOwners, Flashing.hash] using hbad.2)

theorem exec_keyRevoke_mgmt {k : Nat} (hruns : s.dev.MgmtRuns h 0x08) (ha : a.toNat = k) (hslot : k ≤ 3)
    (hvendor : d.fls.ownerOnly = false) : exec (.keyRevoke (.mgmt h tag a b c e true)) s =
      .next (s.after ({ d with fls := { d.fls with
        nonce := none, revoked := d.fls.revoked ||| (1#4 <<< k) } }.flsReplied h tag 0 0).serveAgain) := by
  subst ha
  change execKeyRevoke (.mgmt h tag a b c e true) s = _
  refine onServing_eq (Device.flsCommand_mgmt_carried hruns hd (by decide) ?_)
  refine (if_neg (Nat.not_lt.mpr hslot)).trans
    ((Device.withRecord_held (c := mgmtCall h tag a b c e true 0) rfl hfits hbs hnonce _).trans ?_)
  refine (if_neg ?_).trans (if_neg (by simp [hvendor]))
  rw [show Device.recordSigned { d with fls := { d.fls with nonce := none } } bs = true from hsigned]
  simp

theorem exec_ownerOnly_mgmt (hruns : s.dev.MgmtRuns h 0x0F) (hzero : (slice bs 16 516).all (· == 0) = true) :
    exec (.ownerOnly (.mgmt h tag a b c e true)) s = .next (s.after ({ d with fls := { d.fls with
      nonce := none, ownerOnly := true } }.flsReplied h tag 0 0).serveAgain) := by
  change execOwnerOnly (.mgmt h tag a b c e true) s = _
  refine onServing_eq (Device.flsCommand_mgmt_carried hruns hd (by decide) ?_)
  change ownerOnlyAct d _ = _
  rw [ownerOnlyAct]
  refine (Device.withRecord_held (c := mgmtCall h tag a b c e true 0) rfl hfits hbs hnonce _).trans ?_
  have hpasses : Device.recordSigned { d with fls := { d.fls with nonce := none } } bs = true := hsigned
  dsimp only
  rw [hpasses, hzero]
  rfl

end

theorem exec_trussImage_mgmt {t : Nat} {f : Device} (hruns : s.dev.MgmtRuns h 0x02) (ha : a.toNat = t) (ht : t ≤ 15)
    (hfits : b.toNat + readLen (imgLimit 2) c.toNat ≤ stagingSize)
    (hbs : memRead d.fls.staging b.toNat (readLen (imgLimit 2) c.toNat) = bs) (hgood : d.imageCause 2 (some t) bs = none)
    (hf : ((d.setTruss t { d.trussSt t with state := 2 }).resetTruss t).applyImage t (imgObject bs) = f) :
    exec (.trussImage (.mgmt h tag a b c e true)) s = .next (s.after
      (Device.askTest { f with fls := { f.fls with
        trussImages := tset f.fls.trussImages t (imgObject bs), runSvnTruss := imgField (imgObject bs) 16 4 % 64
        imageJob := some (t, .mgmt h tag a b c e true) } } t 2).serveAgain) := by
  subst ha hf
  change execTrussImage (.mgmt h tag a b c e true) s = _
  refine onServing_eq (Device.flsCommand_mgmt_open hruns hd ?_)
  refine (if_neg (Nat.not_lt.mpr ht)).trans ((Device.withBytes_staged rfl hfits hbs _).trans ?_)
  change (match d.imageCause 2 (some a.toNat) bs with | some cause => _ | none => _) = _
  rw [hgood]
  rfl

end

/-! ### Restarts of the recovery controller (R409 to R411) and the fault log's count (R407) -/

section
variable {s : State}

theorem exec_flashingRestart_on {w : Bool} {d : Device} (hon : s.dev.flsOn = true)
    (hd : s.dev.beginRestart (if w then 2 else 1) = d) : exec (.flashingRestart w) s = .next (s.after
      (if 3 ≤ d.fls.failTimes.length then d.tarpDropNow (if w then 2 else 1) d.restartMicros else d)) := by
  subst hd
  change execFlashingRestart w s = _
  exact onDevice_eq (if_neg (by simp [hon]))

theorem exec_tarpDrop_late (hrestart : s.dev.fls.restarting = true) (hlate : s.dev.restartLate = true) :
    exec .tarpDrop s = .next (s.after (s.dev.tarpDropNow s.dev.fls.restartCause s.dev.restartMicros)) := by
  change execTarpDrop s = _
  exact onDevice_eq (if_pos (by simp [hrestart, hlate]))

theorem exec_flashingRestartDone_back (hrestart : s.dev.fls.restarting = true) (hback : s.dev.restartLate = false)
    (hcause : s.dev.fls.restartCause ≠ 3) : exec .flashingRestartDone s = .next (s.after
      ((Device.replayHeld { s.dev with fls := { s.dev.fls with restarting := false } }).log 0x11 2 0 noCtx 8 0
        (BitVec.ofNat 64 s.dev.fls.restartCause) (BitVec.ofNat 64 s.dev.restartMicros))) := by
  change execFlashingRestartDone s = _
  refine onDevice_eq ((if_neg (by simp [hrestart])).trans ((if_neg (by simp [hback])).trans ?_))
  dsimp only
  rw [if_neg fun h => hcause h.1, if_neg hcause]

theorem exec_fltLogConsWrite (hup : s.dev.Up) (v : Word) :
    exec (.fltLogConsWrite v) s = .next (s.after (s.dev.logConsWrite v)) := by
  change execFltLogConsWrite v s = _
  exact onRegister_eq (hup.windowOpen _) rfl

theorem Device.logConsWrite_eq (d : Device) (v : Word) : d.logConsWrite v =
    if (d.reg Reg.FLT_LOG_CONS).toNat ≤ v.toNat ∧ v.toNat ≤ (d.reg Reg.FLT_LOG_PROD).toNat then
      d.setReg Reg.FLT_LOG_CONS v else d := by
  simp only [Device.logConsWrite, Bool.and_eq_true, decide_eq_true_eq]

end

/-- Settles O54: each command by what its code does, on the path that hands it over; each restart by its law above. -/
theorem flashingCommands : Obligations.FlashingCommands := by
  refine ⟨?_, ?_, ?_, ?_, ?_, ?_⟩
  · intro a w d s ha hd
    exact ⟨exec_status_mailbox hd, exec_imageSelect_mailbox hd ha, exec_imageSelect_mailbox_refused hd ha,
      exec_plimit_mailbox hd ha, exec_plimit_mailbox_refused hd ha, fun fresh => exec_nonce_mailbox hd,
      exec_fwActivate_mailbox hd⟩
  · intro h tag a b c e w d s hd
    refine ⟨exec_svnCommit_fw hd, exec_svnCommit_dev hd, exec_svnCommit_truss hd, exec_setDevnum_mgmt hd, exec_start_mgmt hd,
      exec_start_mgmt_stored hd, exec_restart_mgmt hd, fun hruns ha hfill => ?_, fun hruns ha hempty => ?_⟩
    · rw [exec_subscribe_mgmt hd hruns ha, if_pos hfill]
    · rw [exec_subscribe_mgmt hd hruns ha, if_neg (ne_true_of_eq_false hempty)]
  · intro h tag a b c e d bs s hd
    exact ⟨exec_imageStage_mgmt hd, exec_fwStage_mgmt hd, fun hfits hbs hnonce hsigned =>
      ⟨fun k => exec_keyEnroll_mgmt hd hfits hbs hnonce hsigned, fun k => exec_keyRevoke_mgmt hd hfits hbs hnonce hsigned,
        exec_ownerOnly_mgmt hd hfits hbs hnonce hsigned⟩, fun t f => exec_trussImage_mgmt hd⟩
  · intro w d s hon hd
    refine ⟨fun hfew => ?_, fun hthird => ?_⟩
    · rw [exec_flashingRestart_on hon hd, if_neg (Nat.not_le.mpr hfew)]
    · rw [exec_flashingRestart_on hon hd, if_pos hthird]
  · intro s hrestart
    exact ⟨exec_tarpDrop_late hrestart, exec_flashingRestartDone_back hrestart⟩
  · intro v s hup
    refine ⟨fun hlo hhi => ?_, fun hout => ?_⟩
    · rw [exec_fltLogConsWrite hup, Device.logConsWrite_eq, if_pos ⟨hlo, hhi⟩]
    · rw [exec_fltLogConsWrite hup, Device.logConsWrite_eq, if_neg (by omega)]

end Sys2Proof.Machine
end

section
/-! SUPPORT. The fuses and the committed SVNs (R431, R432): what every operation that a Flashing command can reach makes of
them, and the statement settled with them. -/
namespace Sys2Proof.Machine

open Sys2Proof

/-! ### The fuses and what may become of them -/

/-- The committed SVNs and the key fuses (Table 15-1). -/
structure Fuses where
  svnFw : Nat
  svnDev : Nat
  svnTruss : Nat
  enrolled : BitVec 4
  revoked : BitVec 4
  ownerOnly : Bool

def Flashing.fuses (f : Flashing) : Fuses := ⟨f.svnFw, f.svnDev, f.svnTruss, f.enrolled, f.revoked, f.ownerOnly⟩

/-- `b` is what fuses that read `a` may come to: no SVN is lower and no fuse is cleared. -/
structure Fuses.OneWay (a b : Fuses) : Prop where
  svnFw : a.svnFw ≤ b.svnFw
  svnDev : a.svnDev ≤ b.svnDev
  svnTruss : a.svnTruss ≤ b.svnTruss
  enrolled : a.enrolled &&& b.enrolled = a.enrolled
  revoked : a.revoked &&& b.revoked = a.revoked
  ownerOnly : a.ownerOnly = true → b.ownerOnly = true

theorem Fuses.OneWay.refl (a : Fuses) : a.OneWay a :=
  ⟨Nat.le_refl _, Nat.le_refl _, Nat.le_refl _, BitVec.and_self, BitVec.and_self, id⟩

theorem Fuses.OneWay.trans {a b c : Fuses} (h : a.OneWay b) (k : b.OneWay c) : a.OneWay c where
  svnFw := h.svnFw.trans k.svnFw
  svnDev := h.svnDev.trans k.svnDev
  svnTruss := h.svnTruss.trans k.svnTruss
  enrolled := by rw [← h.enrolled, BitVec.and_assoc, k.enrolled]
  revoked := by rw [← h.revoked, BitVec.and_assoc, k.revoked]
  ownerOnly := k.ownerOnly ∘ h.ownerOnly

/-- Between two devices, SVNs only rise and no fuse is cleared. -/
def Device.FusesOneWay (d e : Device) : Prop := d.fls.fuses.OneWay e.fls.fuses

theorem Device.FusesOneWay.trans {a b c : Device} (h : a.FusesOneWay b) (k : b.FusesOneWay c) : a.FusesOneWay c :=
  Fuses.OneWay.trans h k

theorem Device.FusesOneWay.of_eq {d e : Device} (h : e.fls.fuses = d.fls.fuses) : d.FusesOneWay e := by
  unfold Device.FusesOneWay; rw [h]; exact .refl _

theorem Device.FusesOneWay.refl (d : Device) : d.FusesOneWay d := .of_eq rfl

/-- The device of a result that has been taken apart. -/
theorem fuses_of_eq {α : Type} {r : Device × α} {d : Device} {x : α} (h : r = (d, x)) : d.fls.fuses = r.1.fls.fuses := by
  rw [h]

theorem foldl_fuses {α : Type} {f : Device → α → Device} (h : ∀ d x, (f d x).fls.fuses = d.fls.fuses) (l : List α) (d : Device) :
    (l.foldl f d).fls.fuses = d.fls.fuses := by
  induction l generalizing d with
  | nil => rfl
  | cons x xs ih => exact (ih (f d x)).trans (h d x)

/-- Counting, charging and recording leave the fuses. -/
theorem Reported.fuses {d e : Device} (h : Reported d e) : e.fls.fuses = d.fls.fuses := by
  obtain ⟨a, b, h⟩ := h.fls
  rw [h]; rfl

@[simp] theorem Device.charge_fuses (d : Device) (a : Nat) (q : MQ) (n t : Nat) : (d.charge a q n t).fls.fuses = d.fls.fuses :=
  (d.charge_reported a q n t).fuses

/-! ### Commands in hand and their translations (R306 to R313) -/

@[simp] theorem Device.chargeBusy_fuses (d : Device) (id : Nat) : (d.chargeBusy id).fls.fuses = d.fls.fuses :=
  (d.chargeBusy_reported id).fuses

@[simp] theorem Device.endJob_fuses (d : Device) (id : Nat) (e : Ending) : (d.endJob id e).fls.fuses = d.fls.fuses := by
  obtain ⟨d', h, k⟩ := d.endJob_eq id e
  rw [k, Device.mapJob_fls, h.fuses]

@[simp] theorem Device.yieldJob_fuses (d : Device) (id : Nat) : (d.yieldJob id).fls.fuses = d.fls.fuses := by
  unfold Device.yieldJob
  split
  · rfl
  · dsimp only
    split <;> simp

@[simp] theorem Device.makeReady_fls (d : Device) (id : Nat) : (d.makeReady id).fls = d.fls := by
  unfold Device.makeReady
  split
  · rfl
  · split <;> rfl

@[simp] theorem Device.lookupXlt_fls (d : Device) (c t va : Nat) : (d.lookupXlt c t va).1.fls = d.fls := by
  unfold Device.lookupXlt
  dsimp only
  split
  · simp
  · split <;> simp [apply_ite Device.fls]

@[simp] theorem Device.translate_fls (d : Device) (c t unit va : Nat) (wr : Bool) :
    (d.translate c t unit va wr).1.fls = d.fls := by
  rw [← d.lookupXlt_fls c t va]
  unfold Device.translate
  split
  · next h => rw [h]
  · next h => split <;> rw [h]

theorem Device.translateAll_fuses (d : Device) (c t unit : Nat) (wr : Bool) (l : List (Nat × Nat)) :
    (d.translateAll c t unit wr l).1.fls.fuses = d.fls.fuses := by
  induction l generalizing d with
  | nil => rfl
  | cons p ps ih =>
    rw [← d.translate_fls c t unit p.1 wr]
    unfold Device.translateAll
    split
    · next d' pa h =>
      rw [h, ← ih d']
      split <;> next k => exact fuses_of_eq k
    · next h => rw [h]
    · next h => rw [h]

theorem Device.xltWrite_fuses (d : Device) (reqid : Nat) : (d.xltWrite reqid).fls.fuses = d.fls.fuses := by
  unfold Device.xltWrite
  split
  · rfl
  · refine (Device.rdmaOut_reported _ _ _ _ _ _).fuses.trans ?_
    dsimp only [Device.mapReq]
    split
    · simp
    · simp

theorem Device.xltDrain_fuses (n : Nat) (d : Device) : (Device.xltDrain n d).fls.fuses = d.fls.fuses := by
  induction n generalizing d with
  | zero => rfl
  | succ n ih =>
    unfold Device.xltDrain
    split
    · rfl
    · split
      · rfl
      · exact (ih _).trans (Device.xltWrite_fuses _ _)

theorem Device.xltPlace_fuses (d : Device) (id ctx kind t va : Nat) (wr : Bool) (time : Nat) :
    (d.xltPlace id ctx kind t va wr time).fls.fuses = d.fls.fuses := by
  unfold Device.xltPlace
  split
  · simp [Device.mapReq]
  · split
    · rfl
    · exact Device.xltDrain_fuses _ _

theorem Device.xltMiss_fuses (d : Device) (id kind t va : Nat) (wr : Bool) : (d.xltMiss id kind t va wr).fls.fuses = d.fls.fuses := by
  unfold Device.xltMiss Device.xltMissIn
  split
  · rfl
  · split
    · rfl
    · dsimp only [Device.noteJob]
      split
      · simp
      · split <;> simp [Device.xltPlace_fuses]

theorem Device.missFor_fuses (d : Device) (ctx kind t va : Nat) (wr : Bool) :
    (d.missFor ctx kind t va wr).2.fls.fuses = d.fls.fuses :=
  Device.xltMiss_fuses _ _ _ _ _ _

/-! ### Memory and the Soffit cache -/

theorem Device.noteUncorr_fuses (d : Device) (action a : Nat) : (d.noteUncorr action a).fls.fuses = d.fls.fuses := by
  unfold Device.noteUncorr Device.memEvent Device.memErrInfo
  split
  · rfl
  · split
    · rfl
    · refine (Device.log_reported _ _ _ _ _ _ _ _ _).fuses.trans ?_
      split <;> simp

theorem Device.hbmLoad_fuses (d : Device) (action acct a n : Nat) : (d.hbmLoad action acct a n).1.fls.fuses = d.fls.fuses := by
  unfold Device.hbmLoad
  split
  · exact d.charge_fuses _ _ _ _
  · exact (Device.noteUncorr_fuses _ _ _).trans (d.charge_fuses _ _ _ _)
  · rfl

theorem Device.hbmStore_fuses (d : Device) (action acct a : Nat) (bs : List Byte) :
    (d.hbmStore action acct a bs).1.fls.fuses = d.fls.fuses := by
  rw [← (d.hbmWrite_reported a bs).fuses]
  unfold Device.hbmStore
  dsimp only
  split
  · rfl
  · exact (foldl_fuses (fun d (p : Nat × Nat) => d.noteUncorr_fuses action p.1) _ _).trans (Device.charge_fuses _ _ _ _ _)
  · exact Device.charge_fuses _ _ _ _ _

theorem Device.readPieces_fuses (d : Device) (acct unit va : Nat) (l : List (Nat × Nat)) :
    (d.readPieces acct unit va l).1.fls.fuses = d.fls.fuses := by
  induction l generalizing d va with
  | nil => rfl
  | cons p ps ih =>
    rw [← d.hbmLoad_fuses 2 acct p.1 p.2]
    unfold Device.readPieces
    split
    · next h => rw [h]
    · next h => rw [h]
    · next d' bs h =>
      rw [h, ← ih d' (va + p.2)]
      split <;> next k => exact fuses_of_eq k

theorem Device.vload_fuses (d : Device) (c t unit : Nat) (va : Int) (n : Nat) :
    (d.vload c t unit va n).1.fls.fuses = d.fls.fuses := by
  unfold Device.vload
  split
  · rfl
  · rw [← d.translateAll_fuses c t unit false (pieces (2 ^ 21) va.toNat n)]
    dsimp only
    split
    · next h => rw [h]
    · next h => rw [h]
    · next h => rw [h]; exact Device.readPieces_fuses _ _ _ _ _

theorem Device.vstorePieces_fuses (d : Device) (c t unit va0 : Nat) (bs : List Byte) (l : List (Nat × Nat)) (err : Option Ending) :
    (d.vstorePieces c t unit va0 bs l err).1.fls.fuses = d.fls.fuses := by
  induction l generalizing d err with
  | nil => cases err <;> rfl
  | cons p ps ih =>
    rw [← d.translate_fls c t unit p.1 true]
    unfold Device.vstorePieces
    split
    · next h => rw [h]
    · next h => rw [h]
    · next d' pa h =>
      rw [h, ← d'.hbmStore_fuses 2 c pa (slice bs (p.1 - va0) p.2)]
      split
      · next k => rw [k]; exact ih _ _
      · next k => rw [k]; exact ih _ _
      · next k => rw [k]

theorem Device.vstore_fuses (d : Device) (c t unit : Nat) (va : Int) (bs : List Byte) :
    (d.vstore c t unit va bs).1.fls.fuses = d.fls.fuses := by
  unfold Device.vstore
  split
  · rfl
  · exact Device.vstorePieces_fuses _ _ _ _ _ _ _ _

theorem Device.readLine_fuses (d : Device) (action acct line : Nat) : (d.readLine action acct line).1.fls.fuses = d.fls.fuses := by
  rw [← d.hbmLoad_fuses action acct (line * 128) 128]
  unfold Device.readLine
  split <;> next h => rw [h]

theorem Device.allocMiss_fuses (d : Device) (t line ctx acct : Nat) (waiters : List Nat) (prefetch : Bool) :
    (d.allocMiss t line ctx acct waiters prefetch).fls.fuses = d.fls.fuses :=
  d.readLine_fuses _ _ _

theorem Device.prefetchNext_fuses (d : Device) (t line ctx acct : Nat) : (d.prefetchNext t line ctx acct).fls.fuses = d.fls.fuses := by
  unfold Device.prefetchNext
  dsimp only
  split
  · rw [Device.count_fls, Device.allocMiss_fuses]
  · rfl

theorem Device.giveLine_fls (d : Device) (tag line : Nat) (data : Option (List Byte)) : (d.giveLine tag line data).fls = d.fls := rfl

theorem Device.sofDemand_fuses (d : Device) (t line ctx acct tag : Nat) : (d.sofDemand t line ctx acct tag).fls.fuses = d.fls.fuses := by
  unfold Device.sofDemand
  dsimp only
  split
  · exact d.readLine_fuses _ _ _
  · split
    · simp [Device.giveLine_fls]
    · split
      · split <;> simp
      · split
        · rw [Device.prefetchNext_fuses, Device.count_fls, Device.allocMiss_fuses]
        · rfl

/-! ### Packets sent (R345 to R353) -/

theorem Device.leaveBuffer_fls (d : Device) (t : TxPkt) (h : Nat) : (d.leaveBuffer t h).fls = d.fls := by
  unfold Device.leaveBuffer
  split <;> rfl

theorem Device.startLimit_fls (d : Device) (p : Packet) : (d.startLimit p).fls = d.fls := by
  unfold Device.startLimit
  dsimp only
  split
  · split
    · split
      · split <;> simp
      · rfl
    · rfl
  · rfl

theorem Device.sendFlits_fuses (d : Device) (l : Nat) (t : TxPkt) (n : Nat) : (d.sendFlits l t n).fls.fuses = d.fls.fuses := by
  unfold Device.sendFlits
  dsimp only
  split <;> simp [Device.startLimit_fls, Device.leaveBuffer_fls]

theorem Device.drainTx_fuses (d : Device) (l : Nat) (ts : List TxPkt) (blocked : List Nat) :
    (d.drainTx l ts blocked).fls.fuses = d.fls.fuses := by
  induction ts generalizing d blocked with
  | nil => rfl
  | cons t ts ih =>
    unfold Device.drainTx
    refine (ih _ _).trans ?_
    rw [apply_ite (fun e : Device => e.fls.fuses), Device.sendFlits_fuses, ite_self]

theorem Device.route_fuses (d : Device) (p : Packet) (from_ : Option Nat) (inLink : Option (Nat × Nat)) :
    (d.route p from_ inLink).1.fls.fuses = d.fls.fuses := by
  unfold Device.route
  dsimp only
  split
  · rfl
  · exact congrArg Flashing.fuses (Device.leaveBuffer_fls _ _ _)
  · exact Device.drainTx_fuses _ _ _ _

theorem Device.send_fuses (d : Device) (p : Packet) : (d.send p).1.fls.fuses = d.fls.fuses := by
  unfold Device.send
  dsimp only
  split
  · exact Device.route_fuses _ _ _ _
  · rfl

@[simp] theorem Device.replyTo_fuses (d : Device) (p : Packet) (kind : Nat) (payload : List Byte) :
    (d.replyTo p kind payload).fls.fuses = d.fls.fuses := d.send_fuses _

@[simp] theorem Device.refuseRemote_fuses (d : Device) (p : Packet) (status cause : Nat) :
    (d.refuseRemote p status cause).fls.fuses = d.fls.fuses := d.replyTo_fuses _ _ _

/-! ### Requests of other devices (R172, R173, R359) -/

theorem Device.served_fuses {α : Type} {r : Device × Got α} {p : Packet} {ctx kind t : Nat} {k : Device → α → Device}
    (hk : ∀ d v, (k d v).fls.fuses = d.fls.fuses) : (Device.served r p ctx kind t k).fls.fuses = r.1.fls.fuses := by
  unfold Device.served
  split
  · exact hk _ _
  · exact Device.refuseRemote_fuses _ _ _ _
  · next d va wr =>
    rw [← d.missFor_fuses ctx kind t va wr]
    dsimp only
    split
    · split
      · exact Device.refuseRemote_fuses _ _ _ _
      · rfl
    · rfl

theorem Device.readRow_fuses (d : Device) (acct : Nat) (l : List (Nat × Nat)) : (d.readRow acct l).1.fls.fuses = d.fls.fuses := by
  induction l generalizing d with
  | nil => rfl
  | cons p ps ih =>
    rw [← d.hbmLoad_fuses 2 acct p.1 p.2]
    unfold Device.readRow
    split
    · next h => rw [h]
    · next d' bs h =>
      rw [h, ← ih d']
      split <;> next k => exact fuses_of_eq k

theorem Device.rowsServed_fuses (d : Device) : d.rowsServed.fls.fuses = d.fls.fuses := by
  refine foldl_fuses (fun d r => ?_) _ d
  dsimp only
  split
  · simp
  · simp
  · rfl

theorem Device.serveRow_fuses (d : Device) (p : Packet) : (d.serveRow p).fls.fuses = d.fls.fuses := by
  unfold Device.serveRow
  split
  · simp
  split
  · simp
  split
  · simp
  split
  · simp
  dsimp only
  split
  · simp
  split
  · simp
  refine (Device.served_fuses fun d ps => ?_).trans (Device.translateAll_fuses _ _ _ _ _ _)
  split
  · exact (Device.rowsServed_fuses _).trans (foldl_fuses (fun d y => d.sofDemand_fuses _ _ _ _ _) _ _)
  · exact (Device.rowsServed_fuses _).trans (Device.readRow_fuses _ _ _)

theorem Device.serve_fuses (d : Device) (p : Packet) : (d.serve p).fls.fuses = d.fls.fuses := by
  unfold Device.serve Device.serveHodRead Device.serveHodWrite
  split
  · exact d.serveRow_fuses p
  · split
    · split
      · simp
      · exact (Device.served_fuses fun d bs => d.replyTo_fuses _ _ _).trans (d.vload_fuses _ _ _ _ _)
    · split
      · simp
      · exact (Device.served_fuses fun d _ => d.replyTo_fuses _ _ _).trans (d.vstore_fuses _ _ _ _ _)

theorem Device.serveAgain_fuses (d : Device) : d.serveAgain.fls.fuses = d.fls.fuses := by
  refine (foldl_fuses (fun d s => ?_) _ _).trans rfl
  split
  · simp
  · exact d.serve_fuses _

/-! ### How commands end, and restarts (R409, R428, R461) -/

theorem Device.replyKept_fuses (d : Device) (p : Nat) (k : Kept) : (d.replyKept p k).fls.fuses = d.fls.fuses := rfl

theorem Device.sendReply_fuses (d : Device) (p : Nat) (k : Kept) : (d.sendReply p k).fls.fuses = d.fls.fuses :=
  congrArg Flashing.fuses (d.count_fls _ _)

theorem Device.flsFinish_fuses (d : Device) (r : FlsReq) (e : FlsEnd) : (d.flsFinish r e).fls.fuses = d.fls.fuses := by
  cases r <;> rfl

theorem Device.flsAbort_fuses (d : Device) : d.flsAbort.fls.fuses = d.fls.fuses := by
  have hline (e : Device) (l : List FlsWait) : (l.foldl (fun d w => match w with
      | .mailbox => d
      | .mgmt _ r _ => d.flsFinish r (flsDone flsBusy 0)) e).fls.fuses = e.fls.fuses :=
    foldl_fuses (fun d w => by cases w with | mailbox => rfl | mgmt _ r _ => exact d.flsFinish_fuses r _) l e
  unfold Device.flsAbort
  dsimp only
  split
  · split
    · rw [Device.flsFinish_fuses, Device.flsFinish_fuses]; exact hline _ _
    · rw [Device.flsFinish_fuses]; exact hline _ _
  · split
    · rw [Device.flsFinish_fuses]; exact hline _ _
    · exact hline _ _

theorem Device.beginRestart_fuses (d : Device) (cause : Nat) : (d.beginRestart cause).fls.fuses = d.fls.fuses :=
  (congrArg Flashing.fuses (d.flsAbort.count_fls Reg.FLT_RESTARTS 1)).trans d.flsAbort_fuses

theorem Device.dropDomains_fuses (d : Device) : d.dropDomains.fls.fuses = d.fls.fuses :=
  foldl_fuses (fun d _ => congrArg Flashing.fuses (d.count_fls _ _)) _ d

/-! ### Truss tests (R395) -/

theorem Device.startTests_fuses (d : Device) : d.startTests.fls.fuses = d.fls.fuses := by
  refine foldl_fuses (fun d tile => ?_) _ d
  split
  · rfl
  · split
    · exact congrArg Flashing.fuses (Device.count_fls _ _ _)
    · rfl

theorem Device.askTest_fuses (d : Device) (t k : Nat) : (d.askTest t k).fls.fuses = d.fls.fuses := Device.startTests_fuses _

/-! ### What the commands read (R429, R431) -/

theorem Device.tryLoad_fuses {d : Device} {acct c va n : Nat} {r : Device × Option (List Byte)}
    (h : d.tryLoad acct c va n = .ok r) : r.1.fls.fuses = d.fls.fuses := by
  unfold Device.tryLoad at h
  split at h
  · cases h; rfl
  · split at h
    · cases h
    · next k => cases h; exact (fuses_of_eq k).trans (d.translateAll_fuses _ _ _ _ _)
    · next e ps k =>
      have hloaded := (e.readPieces_fuses acct 0 va ps).trans ((fuses_of_eq k).trans (d.translateAll_fuses _ _ _ _ _))
      split at h
      · next g => cases h; exact (fuses_of_eq g).trans hloaded
      · next g => cases h; exact (fuses_of_eq g).trans hloaded

theorem Device.flsLoad_fuses (d : Device) (mailbox : Bool) (addr n : Nat) : (d.flsLoad mailbox addr n).1.fls.fuses = d.fls.fuses := by
  unfold Device.flsLoad
  split
  · split <;> rfl
  · split
    · rfl
    · split
      · next h => exact Device.tryLoad_fuses h
      · next h => exact Device.tryLoad_fuses h
      · dsimp only
        split
        · rfl
        · exact d.missFor_fuses _ _ _ _ _

theorem Device.withBytes_oneWay {d : Device} {c : FlsCall} {addr n : Nat} {k : Device → List Byte → FlsRun}
    (hk : ∀ (e : Device) (bs : List Byte), e.FusesOneWay (k e bs).1) : d.FusesOneWay (d.withBytes c addr n k).1 := by
  have hread : d.FusesOneWay (d.flsLoad c.mailbox addr n).1 := .of_eq (d.flsLoad_fuses _ _ _)
  unfold Device.withBytes
  split
  · next h => rw [h] at hread; exact hread.trans (hk _ _)
  · next h => rw [h] at hread; exact hread
  · next h => rw [h] at hread; exact hread

theorem Device.withRecord_oneWay {d : Device} {c : FlsCall} {k : Device → List Byte → FlsRun}
    (hk : ∀ (e : Device) (bs : List Byte), e.FusesOneWay (k e bs).1) : d.FusesOneWay (d.withRecord c k).1 :=
  Device.withBytes_oneWay fun e bs => by
    dsimp only
    split
    · exact hk { e with fls := { e.fls with nonce := none } } bs
    · exact .refl e

theorem FlsCall.store_oneWay {c : FlsCall} {d : Device} {f : Flashing → Flashing} (hf : ∀ x, (f x).fuses = x.fuses) :
    d.FusesOneWay (c.store d f).1 := by
  unfold FlsCall.store
  split
  · exact .of_eq (hf d.fls)
  · exact .refl d

/-! ### What each command does to the fuses (Table 15-2) -/

section
variable (d : Device) (c : FlsCall)

theorem trussImageAct_oneWay : d.FusesOneWay (trussImageAct d c).1 := by
  unfold trussImageAct
  dsimp only
  split
  · exact .refl d
  · refine Device.withBytes_oneWay fun e bs => ?_
    split
    · exact .refl e
    · exact .of_eq (Device.askTest_fuses _ _ _)

theorem imageStageAct_oneWay : d.FusesOneWay (imageStageAct d c).1 := by
  refine Device.withBytes_oneWay fun e bs => ?_
  split
  · exact .refl e
  · refine FlsCall.store_oneWay fun f => ?_
    dsimp only
    split <;> rfl

theorem imageSelectAct_oneWay : d.FusesOneWay (imageSelectAct d c).1 := by
  unfold imageSelectAct
  split
  · exact .refl d
  · exact FlsCall.store_oneWay fun f => rfl

theorem fwStageAct_oneWay : d.FusesOneWay (fwStageAct d c).1 := by
  unfold fwStageAct
  split
  · exact .refl d
  · refine Device.withBytes_oneWay fun e bs => ?_
    split
    · exact .refl e
    · split
      · exact .refl e
      · exact FlsCall.store_oneWay fun f => by split <;> rfl

/-- A bit that is set leaves the bits already set. -/
theorem and_or_self (x y : BitVec 4) : x &&& (x ||| y) = x := by
  ext i hi
  simp only [BitVec.getElem_and, BitVec.getElem_or]
  cases x[i] <;> rfl

/-- KEY_ENROLL sets one fuse (R431). -/
theorem keyEnrollAct_oneWay : d.FusesOneWay (keyEnrollAct d c).1 := by
  unfold keyEnrollAct
  dsimp only
  split
  · exact .refl d
  · refine Device.withRecord_oneWay fun e bs => ?_
    split
    · exact .refl e
    · split
      · exact .refl e
      · exact { Fuses.OneWay.refl e.fls.fuses with enrolled := and_or_self _ _ }

/-- KEY_REVOKE sets one fuse (R431). -/
theorem keyRevokeAct_oneWay : d.FusesOneWay (keyRevokeAct d c).1 := by
  unfold keyRevokeAct
  dsimp only
  split
  · exact .refl d
  · refine Device.withRecord_oneWay fun e bs => ?_
    split
    · exact .refl e
    · split
      · exact .refl e
      · exact { Fuses.OneWay.refl e.fls.fuses with revoked := and_or_self _ _ }

/-- SVN_COMMIT takes the larger of the committed SVN and the running object's (R432). -/
theorem svnCommitAct_oneWay : d.FusesOneWay (svnCommitAct d c).1 := by
  unfold svnCommitAct
  dsimp only
  split
  · exact { Fuses.OneWay.refl d.fls.fuses with svnFw := Nat.le_max_left _ _ }
  · exact { Fuses.OneWay.refl d.fls.fuses with svnDev := Nat.le_max_left _ _ }
  · exact { Fuses.OneWay.refl d.fls.fuses with svnTruss := Nat.le_max_left _ _ }
  · exact .refl d

theorem plimitAct_oneWay : d.FusesOneWay (plimitAct d c).1 := by
  unfold plimitAct
  split
  · exact .refl d
  · exact FlsCall.store_oneWay fun f => rfl

theorem setDevnumAct_oneWay : d.FusesOneWay (setDevnumAct d c).1 := by
  unfold setDevnumAct
  split <;> exact .of_eq rfl

theorem startAct_oneWay : d.FusesOneWay (startAct d c).1 := by
  unfold startAct
  dsimp only
  split
  · split <;> exact .of_eq rfl
  · exact .of_eq rfl

theorem restartAct_oneWay : d.FusesOneWay (restartAct d c).1 := .of_eq d.dropDomains_fuses

theorem subscribeAct_oneWay : d.FusesOneWay (subscribeAct d c).1 := by
  unfold subscribeAct
  dsimp only
  split <;> exact .of_eq rfl

/-- OWNER_ONLY sets its fuse (R431). -/
theorem ownerOnlyAct_oneWay : d.FusesOneWay (ownerOnlyAct d c).1 := by
  refine Device.withRecord_oneWay fun e bs => ?_
  split
  · exact .refl e
  · exact { Fuses.OneWay.refl e.fls.fuses with ownerOnly := fun _ => rfl }

theorem flsAct_oneWay (code : Nat) : d.FusesOneWay (flsAct code d c).1 := by
  unfold flsAct
  split
  · exact .refl d
  · exact trussImageAct_oneWay d c
  · exact imageStageAct_oneWay d c
  · exact imageSelectAct_oneWay d c
  · exact fwStageAct_oneWay d c
  · exact .refl d
  · exact keyEnrollAct_oneWay d c
  · exact keyRevokeAct_oneWay d c
  · exact svnCommitAct_oneWay d c
  · exact plimitAct_oneWay d c
  · exact setDevnumAct_oneWay d c
  · exact startAct_oneWay d c
  · exact restartAct_oneWay d c
  · exact subscribeAct_oneWay d c
  · exact ownerOnlyAct_oneWay d c
  · exact .of_eq rfl
  · exact .refl d

theorem Device.flsRun_oneWay (code : Nat) : d.FusesOneWay (d.flsRun code c).1 := by
  unfold Device.flsRun
  split
  · exact .refl d
  · split
    · exact .refl d
    · exact flsAct_oneWay d c code

end

/-! ### Commands of either path, one after another (R428, R429, R461) -/

theorem Device.flsStep_oneWay (d : Device) (code : Nat) (r : FlsReq) (fresh : BitVec 32) :
    d.FusesOneWay (d.flsStep code r fresh).1 := by
  have hrun := d.flsRun_oneWay (d.flsCall r fresh) code
  unfold Device.flsStep
  split
  · next h =>
    rw [h] at hrun
    refine hrun.trans (.of_eq ?_)
    dsimp only
    split
    · rw [Device.beginRestart_fuses, Device.flsFinish_fuses]
    · rw [Device.flsFinish_fuses]
  · next h => rw [h] at hrun; exact hrun

theorem Device.flsNext_oneWay (n : Nat) (d : Device) : d.FusesOneWay (d.flsNext n) := by
  induction n generalizing d with
  | zero => exact .refl d
  | succ n ih =>
    have hstep (ws : List FlsWait) (code : Nat) (r : FlsReq) (fresh : BitVec 32) :
        d.FusesOneWay (Device.flsNext n (({ d with fls := { d.fls with line := ws } } : Device).flsStep code r fresh).1) :=
      Device.FusesOneWay.trans (Device.flsStep_oneWay { d with fls := { d.fls with line := ws } } code r fresh) (ih _)
    unfold Device.flsNext
    split
    · exact .refl d
    · split
      · exact .refl d
      · exact hstep _ _ _ _
      · split
        · exact hstep _ _ _ _
        · exact .refl d

theorem Device.mgmt_oneWay {d : Device} {h : MgmtHdr} {isOpen : Bool} {f : Device → Device × Option MgmtReply}
    (hf : ∀ e : Device, e.FusesOneWay (f e).1) : d.FusesOneWay (d.mgmt h isOpen f) := by
  have hframe : d.FusesOneWay (d.count (Reg.ETH_RX_FRAMES h.port) 1) := .of_eq (by rw [Device.count_fls])
  have hreq := hframe.trans (.of_eq (e := (d.count (Reg.ETH_RX_FRAMES h.port) 1).count (Reg.ETH_MGMT_REQ h.port) 1)
    (by rw [Device.count_fls]))
  unfold Device.mgmt
  dsimp only
  split
  · exact .refl d
  · split
    · exact hframe.trans (.of_eq (Device.sendReply_fuses _ _ _))
    · split
      · exact hreq.trans (.of_eq (Device.sendReply_fuses _ _ _))
      · split
        · exact hreq.trans (.of_eq (Device.replyKept_fuses _ _ _))
        · have hdone := hf ((d.count (Reg.ETH_RX_FRAMES h.port) 1).count (Reg.ETH_MGMT_REQ h.port) 1)
          split
          · next k => rw [k] at hdone; exact hreq.trans (hdone.trans (.of_eq (Device.replyKept_fuses _ _ _)))
          · next k => rw [k] at hdone; exact hreq.trans hdone

theorem Device.flsCommand_oneWay (d : Device) (code : Nat) (r : FlsReq) (fresh : BitVec 32) :
    d.FusesOneWay (d.flsCommand code r fresh) := by
  cases r with
  | mailbox w =>
    have hstep : d.FusesOneWay (d.flsTaken.flsStep code (.mailbox w) fresh).1 := d.flsTaken.flsStep_oneWay code (.mailbox w) fresh
    unfold Device.flsCommand
    dsimp only
    split
    · exact .refl d
    · split
      · next k => rw [k] at hstep; exact hstep.trans (Device.flsNext_oneWay _ _)
      · next k =>
        rw [k] at hstep
        split <;> exact hstep
  | mgmt h tag a b c e w =>
    refine Device.mgmt_oneWay fun d => ?_
    dsimp only
    split
    · exact .refl d
    · split
      · exact .of_eq rfl
      · exact d.flsStep_oneWay code _ fresh

/-! ### The Flashing rows -/

section
variable {s t : State} {code : Nat} {r : FlsReq} {fresh : BitVec 32}

theorem onDevice_flsCommand_oneWay (h : onDevice s (fun d => d.flsCommand code r fresh) = .next t) : s.dev.FusesOneWay t.dev := by
  rw [(onDevice_next h).1]
  exact (s.dev.flsCommand_oneWay code r fresh).trans (.of_eq (settle_reported _).fuses)

theorem onServing_flsCommand_oneWay (h : onServing s (fun d => d.flsCommand code r fresh) = .next t) : s.dev.FusesOneWay t.dev := by
  rw [(onDevice_next h).1]
  exact (s.dev.flsCommand_oneWay code r fresh).trans (.of_eq ((settle_reported _).fuses.trans (Device.serveAgain_fuses _)))

theorem exec_flashing_oneWay {i : Instr} (hi : i ∈ [.status r, .trussImage r, .imageStage r, .imageSelect r, .fwStage r,
      .fwActivate r, .keyEnroll r, .keyRevoke r, .svnCommit r, .plimit r, .setDevnum r, .start r, .restart r, .subscribe r,
      .ownerOnly r, .nonce r fresh]) (h : exec i s = .next t) : s.dev.FusesOneWay t.dev := by
  simp only [List.mem_cons, List.not_mem_nil, or_false] at hi
  rcases hi with rfl | rfl | rfl | rfl | rfl | rfl | rfl | rfl | rfl | rfl | rfl | rfl | rfl | rfl | rfl | rfl
  · exact onDevice_flsCommand_oneWay h
  · exact onServing_flsCommand_oneWay h
  · exact onServing_flsCommand_oneWay h
  · exact onDevice_flsCommand_oneWay h
  · exact onServing_flsCommand_oneWay h
  · exact onDevice_flsCommand_oneWay h
  · exact onServing_flsCommand_oneWay h
  · exact onServing_flsCommand_oneWay h
  · exact onDevice_flsCommand_oneWay h
  · exact onDevice_flsCommand_oneWay h
  · exact onDevice_flsCommand_oneWay h
  · exact onDevice_flsCommand_oneWay h
  · exact onDevice_flsCommand_oneWay h
  · exact onDevice_flsCommand_oneWay h
  · exact onServing_flsCommand_oneWay h
  · exact onDevice_flsCommand_oneWay h

end

/-- Settles O55: whatever a Flashing row reaches leaves the fuses, but for the four commands that raise them. -/
theorem fusesOnlyGoOneWay : Obligations.FusesOnlyGoOneWay := by
  intro r fresh i s t hi h
  obtain ⟨hfw, hdev, htruss, henrolled, hrevoked, howner⟩ := exec_flashing_oneWay hi h
  exact ⟨hfw, hdev, htruss, henrolled, hrevoked, howner⟩

end Sys2Proof.Machine
end
